-- ==== Sys2Proof/Word.lean ====
section
/-! DEFINITION. The word types of the Lazal die (spec 00, "Numbers, units and bits") and their plainest helpers. -/

namespace Sys2Proof

abbrev Byte := BitVec 8
abbrev W16 := BitVec 16
abbrev W32 := BitVec 32
abbrev W64 := BitVec 64

/-- One 128-byte line of a cache or of the L1 (spec 10): 1,024 bits, byte 0 in bits [7:0] (R14). -/
abbrev LineData := BitVec 1024

/-- A vector register: 128 lanes of 32 bits, lane 0 in bits [31:0] (spec 03). -/
abbrev VecData := BitVec 4096

/-- A lane mask, lane 0 in bit 0 (spec 03). -/
abbrev LaneMask := BitVec 128

/-- Indices of the die's units (spec 01). -/
abbrev CoreIx := Fin 48
abbrev PartIx := Fin 16
abbrev RingIx := Fin 8192
abbrev ObjIx := Fin 8192
abbrev DieIx := Fin 8
abbrev PortIx := Fin 4
abbrev OptIx := Fin 2
abbrev SliceIx := Fin 8
abbrev StackIx := Fin 4
abbrev PkgIx := Fin 4096
abbrev EngIx := Fin 4
abbrev CopyIx := Fin 16
abbrev WinIx := Fin 1024

end Sys2Proof
end

