-- ==== Sys2Proof/Config.lean ====
section
/-! DEFINITION. What the spec leaves open: free values (constants with no body, log entry 2), and the
fixed functions whose bits the spec does not give (R174, R175; R209; R425). Nothing in Lean can evaluate them. -/

namespace Sys2Proof.Config

/-- A fresh unconstrained byte: data the spec calls unpredictable (R12). -/
opaque freeByte : Nat → Byte

/-- A fresh unconstrained 32-bit value (R12). -/
opaque freeWord : Nat → W32

/-- A fresh unconstrained natural number (cycle counts, key material, nonces). -/
opaque freeNat : Nat → Nat

/-- The transcendental functions: fixed functions of the input bits (R175), bits not in the spec. -/
opaque vexp : W32 → W32
opaque vlog : W32 → W32
opaque vrcp : W32 → W32
opaque vrsqrt : W32 → W32
opaque vsin : W32 → W32
opaque vcos : W32 → W32
opaque vtanh : W32 → W32
opaque vsigm : W32 → W32

/-- Version numbers of Groom's firmware and of the function tables, and the manufacturer identity of
the JTAG IDCODE: fixed by each product, not in the spec (R209, R175, R569). -/
opaque firmwareVersion : W64
opaque tableVersion : W64
opaque manufacturer : BitVec 11

/-- SPDM material (R424, R425): SHA-384, the chain of slot 0, signatures, and the measured images of the boot ROM and of Groom's
firmware (by slot and SVN). -/
opaque sha384 : List Byte → List Byte
opaque certChain : List Byte
opaque spdmSignature : Nat → List Byte → List Byte
opaque bootRom : List Byte
opaque bootImage : Bool → Nat → List Byte

/-- The expansion ROM image, whose bytes the integrator chooses (R408), and the Vendor ID assigned to the maker (R395). -/
opaque romByte : Nat → Byte
opaque vendorId : W16

/-- Size of the receive pool of a class, in units of 64 bytes (R450): fixed by the implementation. -/
opaque poolUnits : Nat → Nat

/-- The check byte of a stored word (R348): the SEC-DED code's matrix is not in the spec. -/
opaque eccByte : W64 → Byte

/-- What stands for the pair of a partition for which none has been drawn (source 19, CAUSE 4): by partition and generation. -/
opaque strayKey : Nat → Nat → Bool → BitVec 256

/-- The reference outcome of a self-test signature (R540): a fixed pass or fail of the silicon. -/
opaque selfTestSignature : Nat → W64

end Sys2Proof.Config
end

