-- ==== Sys2Proof/Machine/Numbers.lean ====
section
/-! DEFINITION. Number formats, rounding, block sums, the canonical tree and the Sinter generator (spec 05). -/

namespace Sys2Proof.Machine

/-- An element's value in integer form (R143): (−1)^neg × m × 2^q. -/
inductive Num where
  | nan
  | inf (neg : Bool)
  | fin (neg : Bool) (m : Nat) (q : Int)
deriving DecidableEq, Repr

/-- Element formats of R143. -/
inductive ElemFmt where
  | fp32 | bf16 | e4m3 | e5m2 | e2m3 | e3m2 | e2m1 | int8 | mxint8
deriving DecidableEq, Repr

/-- How a floating format spends its largest exponent (R143). -/
inductive TopCode where
  | ieee | e4m3 | none
deriving DecidableEq, Repr

/-- Decode a float field of `eb` exponent and `mb` fraction bits (R143). -/
def decodeFloat (eb mb bias : Nat) (top : TopCode) (x : Nat) : Num :=
  let f := x % 2 ^ mb
  let e := x / 2 ^ mb % 2 ^ eb
  let neg := x / 2 ^ (mb + eb) % 2 == 1
  let q : Int := (max e 1 : Nat) - bias - mb
  let v := Num.fin neg (if e == 0 then f else 2 ^ mb + f) q
  match top with
  | .ieee => if e == 2 ^ eb - 1 then (if f == 0 then .inf neg else .nan) else v
  | .e4m3 => if e == 2 ^ eb - 1 && f == 2 ^ mb - 1 then .nan else v
  | .none => v

/-- Decode an 8-bit two's-complement element scaled by 2^q. -/
def decodeInt8 (q : Int) (x : Nat) : Num :=
  let x := x % 256
  if x < 128 then .fin false x q else .fin true (256 - x) q

/-- The value of an element's bits (R143, R144, R145). -/
def decodeElem (f : ElemFmt) (x : Nat) : Num :=
  match f with
  | .fp32 => decodeFloat 8 23 127 .ieee x
  | .bf16 => decodeFloat 8 7 127 .ieee x
  | .e4m3 => decodeFloat 4 3 7 .e4m3 x
  | .e5m2 => decodeFloat 5 2 15 .ieee x
  | .e2m3 => decodeFloat 2 3 1 .none x
  | .e3m2 => decodeFloat 3 2 3 .none x
  | .e2m1 => decodeFloat 2 1 1 .none x
  | .int8 => decodeInt8 0 x
  | .mxint8 => decodeInt8 (-6) x

def Num.isNan : Num → Bool
  | .nan => true
  | _ => false

def Num.isZero : Num → Bool
  | .fin _ m _ => m == 0
  | _ => false

def Num.isInf : Num → Bool
  | .inf _ => true
  | _ => false

def Num.neg : Num → Bool
  | .nan => false
  | .inf n => n
  | .fin n _ _ => n

/-- The signed significand of a finite value, shifted to the exponent `q0` (`q0` at most its own exponent). -/
def Num.at (n : Num) (q0 : Int) : Int :=
  match n with
  | .fin s m q => let v : Int := ((m <<< (q - q0).toNat : Nat) : Int); if s then -v else v
  | _ => 0

def Num.exp : Num → Int
  | .fin _ _ q => q
  | _ => 0

/-- Rounding modes (R161). -/
inductive Rounding where
  | rne | rtz | sr
deriving DecidableEq, Repr

/-- A target grid: `mb` fraction bits, smallest exponent `qmin`, encoding of the largest finite magnitude (R143). -/
structure Grid where
  mb : Nat
  qmin : Int
  maxFin : Nat
deriving DecidableEq, Repr

def gridFp32 : Grid := { mb := 23, qmin := -149, maxFin := 0x7F7FFFFF }
def gridBf16 : Grid := { mb := 7, qmin := -133, maxFin := 0x7F7F }
def gridE4m3 : Grid := { mb := 3, qmin := -9, maxFin := 0x7E }
def gridE5m2 : Grid := { mb := 2, qmin := -16, maxFin := 0x7B }

/-- Round the magnitude m × 2^q to the grid with no upper limit on the exponent (R162, R163); the
answer is the magnitude's encoding, which may exceed `maxFin`. `w` is the Sinter draw of SR. -/
def roundMag (g : Grid) (mode : Rounding) (w : W32) (m : Nat) (q : Int) : Nat :=
  if m == 0 then 0 else
    let top : Int := q + (Nat.log2 m : Int)
    let e : Int := max (top - g.mb) g.qmin
    let base := (e - g.qmin).toNat * 2 ^ g.mb
    if e ≤ q then base + m <<< (q - e).toNat else
      let k := (e - q).toNat
      let lo := m >>> k
      let rem := m % 2 ^ k
      let up : Bool :=
        match mode with
        | .rtz => false
        | .rne => decide (2 * rem > 2 ^ k) || (2 * rem == 2 ^ k && lo % 2 == 1)
        | .sr => decide (w.toNat < rem * 2 ^ 32 / 2 ^ k)
      base + (if up then lo + 1 else lo)

/-- Round to nearest even into FP32, overflowing to infinity (R153, R162, R164). -/
def roundFp32 (neg : Bool) (m : Nat) (q : Int) : W32 :=
  let mag := min (roundMag gridFp32 .rne 0 m q) 0x7F800000
  BitVec.ofNat 32 (mag + if neg then 0x80000000 else 0)

def nan32 : W32 := 0x7FC00000#32
def inf32 (neg : Bool) : W32 := if neg then 0xFF800000#32 else 0x7F800000#32
def zero32 (neg : Bool) : W32 := if neg then 0x80000000#32 else 0#32

/-- Round to nearest even into BF16 (R171). -/
def roundBf16 (neg : Bool) (m : Nat) (q : Int) : W16 :=
  let mag := min (roundMag gridBf16 .rne 0 m q) 0x7F80
  BitVec.ofNat 16 (mag + if neg then 0x8000 else 0)

def num32 (x : W32) : Num := decodeElem .fp32 x.toNat
def num16 (x : W16) : Num := decodeElem .bf16 x.toNat

/-- The exact sum of two values (R153): an exact zero of opposite signs is +0. -/
def addNum (x y : Num) : Num :=
  match x, y with
  | .nan, _ => .nan
  | _, .nan => .nan
  | .inf a, .inf b => if a == b then .inf a else .nan
  | .inf a, _ => .inf a
  | _, .inf b => .inf b
  | .fin a ma qa, .fin b mb qb =>
    let q0 := min qa qb
    let s := (Num.fin a ma qa).at q0 + (Num.fin b mb qb).at q0
    if s == 0 then .fin (a && b) 0 q0 else .fin (decide (s < 0)) s.natAbs q0

/-- The exact product of two values; zero times infinity is NaN. -/
def mulNum (x y : Num) : Num :=
  match x, y with
  | .nan, _ => .nan
  | _, .nan => .nan
  | .inf a, .inf b => .inf (a != b)
  | .inf a, .fin b m _ => if m == 0 then .nan else .inf (a != b)
  | .fin a m _, .inf b => if m == 0 then .nan else .inf (a != b)
  | .fin a ma qa, .fin b mb qb => .fin (a != b) (ma * mb) (qa + qb)

def negNum : Num → Num
  | .nan => .nan
  | .inf n => .inf (!n)
  | .fin n m q => .fin (!n) m q

/-- A value rounded once to FP32 by RNE, NaN canonical (R153, R165, R170). -/
def toFp32 : Num → W32
  | .nan => nan32
  | .inf n => inf32 n
  | .fin n m q => if m == 0 then zero32 n else roundFp32 n m q

/-- A value rounded once to BF16 by RNE, NaN canonical (R165, R171). -/
def toBf16 : Num → W16
  | .nan => 0x7FC0#16
  | .inf n => if n then 0xFF80#16 else 0x7F80#16
  | .fin n m q => if m == 0 then (if n then 0x8000#16 else 0#16) else roundBf16 n m q

/-- R153: IEEE 754 binary32 addition, round to nearest even. -/
def addRne (x y : W32) : W32 := toFp32 (addNum (num32 x) (num32 y))
def subRne (x y : W32) : W32 := toFp32 (addNum (num32 x) (negNum (num32 y)))
def mulRne (x y : W32) : W32 := toFp32 (mulNum (num32 x) (num32 y))
def fmaRne (x y z : W32) : W32 := toFp32 (addNum (mulNum (num32 x) (num32 y)) (num32 z))

/-- The integer square root below 2^k, bit by bit from the top. -/
def isqrtGo (n : Nat) : Nat → Nat → Nat
  | 0, r => r
  | k + 1, r => isqrtGo n k (if (r + 2 ^ k) * (r + 2 ^ k) ≤ n then r + 2 ^ k else r)

/-- The floor of the square root of a number below 2^432. -/
def isqrt (n : Nat) : Nat := isqrtGo n 216 0

/-- The exact quotient of two positive significands, with a sticky lowest bit (about 375 bits). -/
def quotExact (ma : Nat) (qa : Int) (mb : Nat) (qb : Int) : Nat × Int :=
  let n := ma <<< 400
  (2 * (n / mb) + (if n % mb == 0 then 0 else 1), qa - qb - 401)

/-- The square root of m × 2^q with a sticky lowest bit. -/
def sqrtExact (m : Nat) (q : Int) : Nat × Int :=
  let odd := q.emod 2 == 1
  let m' := (if odd then 2 * m else m) <<< 400
  let q' := (if odd then q - 1 else q) - 400
  let r := isqrt m'
  (2 * r + (if r * r == m' then 0 else 1), q' / 2 - 1)

/-- The reciprocal square root of m × 2^q with a sticky lowest bit. -/
def rsqrtExact (m : Nat) (q : Int) : Nat × Int :=
  let odd := q.emod 2 == 1
  let m' := if odd then 2 * m else m
  let q' := if odd then q - 1 else q
  let r := isqrt (2 ^ 400 / m')
  (2 * r + (if r * r * m' == 2 ^ 400 then 0 else 1), -(q' / 2) - 201)

/-- The exponent of one ulp at a positive exact result (R174). -/
def ulpExp (v : Nat × Int) : Int := max (v.2 + (Nat.log2 v.1 : Int) - 23) (-149)

/-- Division and square root in FP32 with RNE, used by the optimiser (R192). -/
def divRne (x y : W32) : W32 :=
  match num32 x, num32 y with
  | .nan, _ => nan32
  | _, .nan => nan32
  | .inf _, .inf _ => nan32
  | .inf a, .fin b _ _ => inf32 (a != b)
  | .fin a _ _, .inf b => zero32 (a != b)
  | .fin a ma qa, .fin b mb qb =>
    if mb == 0 then (if ma == 0 then nan32 else inf32 (a != b))
    else if ma == 0 then zero32 (a != b)
    else let v := quotExact ma qa mb qb; roundFp32 (a != b) v.1 v.2

def sqrtRne (x : W32) : W32 :=
  match num32 x with
  | .nan => nan32
  | .inf n => if n then nan32 else inf32 false
  | .fin n m q =>
    if m == 0 then zero32 n
    else if n then nan32
    else let v := sqrtExact m q; roundFp32 false v.1 v.2

/-- R165: a NaN in FP32 becomes the canonical NaN. -/
def canon32 (x : W32) : W32 := if (num32 x).isNan then nan32 else x

/-- Order key with −0 equal to +0 (VCMP, R172). -/
def key32 (x : W32) : Int :=
  let mag : Int := (x.toNat % 2 ^ 31 : Nat)
  if x.msb then -mag else mag

/-- Order key with −0 below +0 (VMIN, VMAX, R172). -/
def key32z (x : W32) : Int :=
  let mag : Int := (x.toNat % 2 ^ 31 : Nat)
  if x.msb then -mag - 1 else mag

/-- Conversion targets of DRAIN and VCVT (OUT codes). -/
inductive OutFmt where
  | fp32 | bf16 | e4m3 | e5m2
deriving DecidableEq, Repr

def OutFmt.grid : OutFmt → Grid
  | .fp32 => gridFp32
  | .bf16 => gridBf16
  | .e4m3 => gridE4m3
  | .e5m2 => gridE5m2

/-- Bytes of one element of the target. -/
def OutFmt.bytes : OutFmt → Nat
  | .fp32 => 4
  | .bf16 => 2
  | .e4m3 => 1
  | .e5m2 => 1

/-- The sign bit's weight in the target. -/
def OutFmt.signBit : OutFmt → Nat
  | .fp32 => 0x80000000
  | .bf16 => 0x8000
  | .e4m3 => 0x80
  | .e5m2 => 0x80

/-- The overflow and special values of a conversion (R164), then R162, R163; `w` is the Sinter draw. -/
def convert (o : OutFmt) (mode : Rounding) (w : W32) (x : Num) : Nat :=
  let sgn (n : Bool) := if n then o.signBit else 0
  match x with
  | .nan => (match o with | .fp32 => 0x7FC00000 | .bf16 => 0x7FC0 | .e4m3 => 0x7F | .e5m2 => 0x7E)
  | .inf n =>
    (match o with
      | .fp32 => 0x7F800000 + sgn n
      | .bf16 => 0x7F80 + sgn n
      | .e4m3 => 0x7F
      | .e5m2 => 0x7C + sgn n)
  | .fin n m q =>
    let r := roundMag o.grid mode w m q
    if r ≤ o.grid.maxFin then r + sgn n
    else
      (match o, mode with
        | .fp32, _ => 0x7F800000 + sgn n
        | .bf16, .rtz => 0x7F7F + sgn n
        | .bf16, _ => 0x7F80 + sgn n
        | .e4m3, _ => 0x7E + sgn n
        | .e5m2, _ => 0x7B + sgn n)

/-! ### The block sum (R147 to R150) -/

/-- One product of a block: two elements, the sum of the scale exponents, and whether a scale is NaN (R146). -/
structure Term where
  a : Num
  b : Num
  x : Int
  nanScale : Bool
deriving DecidableEq, Repr

def Term.isNan (t : Term) : Bool :=
  t.nanScale || t.a.isNan || t.b.isNan || (t.a.isInf && t.b.isZero) || (t.a.isZero && t.b.isInf)

def Term.isInf (t : Term) : Bool := t.a.isInf || t.b.isInf

def Term.neg (t : Term) : Bool := t.a.neg != t.b.neg

/-- The magnitude and exponent of a finite product. -/
def Term.mag (t : Term) : Nat × Int :=
  match t.a, t.b with
  | .fin _ ma qa, .fin _ mb qb => (ma * mb, qa + qb + t.x)
  | _, _ => (0, 0)

/-- The highest bit position among the nonzero products. -/
def leadOf : List Term → Option Int
  | [] => none
  | t :: ts =>
    let me := t.mag
    if me.1 == 0 then leadOf ts else
      let h := me.2 + (Nat.log2 me.1 : Int)
      match leadOf ts with
      | none => some h
      | some l => some (max h l)

/-- One product aligned to the window and truncated toward zero. -/
def alignTerm (lsb : Int) (t : Term) : Int :=
  let me := t.mag
  let v := if lsb ≤ me.2 then me.1 <<< (me.2 - lsb).toNat else me.1 >>> (lsb - me.2).toNat
  if t.neg then -(v : Int) else (v : Int)

/-- R147: the block sum of a set of terms with window width `f`. -/
def blockSum (f : Nat) (ts : List Term) : W32 :=
  if ts.any Term.isNan then nan32
  else
    let pinf := ts.any fun t => t.isInf && !t.neg
    let ninf := ts.any fun t => t.isInf && t.neg
    if pinf && ninf then nan32
    else if pinf then inf32 false
    else if ninf then inf32 true
    else
      match leadOf ts with
      | none => 0#32
      | some lead =>
        let lsb := lead - f
        let sum := ts.foldl (fun acc t => acc + alignTerm lsb t) 0
        if sum == 0 then 0#32 else roundFp32 (decide (sum < 0)) sum.natAbs lsb

/-! ### The canonical tree (R155, R156) -/

/-- Push one value on the online stack (top first): equal sizes combine, the older child on the left (R156). -/
def treePush {α : Type} (add : α → α → α) : List (α × Nat) → α → Nat → List (α × Nat)
  | [], x, n => [(x, n)]
  | (y, m) :: st, x, n => if m == n then treePush add st (add y x) (n + m) else (x, n) :: (y, m) :: st

/-- Combine what is left from the top (R156). -/
def treeFinish {α : Type} (add : α → α → α) (x : α) : List (α × Nat) → α
  | [] => x
  | (y, _) :: st => treeFinish add (add y x) st

/-- R155, R156: the canonical tree over a list of values, in the online form; `none` for no values. -/
def ctree {α : Type} (add : α → α → α) (vs : List α) : Option α :=
  match vs.foldl (fun st v => treePush add st v 1) [] with
  | [] => none
  | (x, _) :: st => some (treeFinish add x st)

/-- The smallest power of two at least `n`. -/
def pow2Above (n : Nat) : Nat := if n ≤ 1 then 1 else 2 ^ (Nat.log2 (n - 1) + 1)

/-- R157: [a, b) is a node of the canonical tree over n values. -/
def isNode (n a b : Nat) : Bool :=
  decide (a < b) && decide (b ≤ n) && a % pow2Above (b - a) == 0 && (b - a == pow2Above (b - a) || b == n)

/-! ### The Sinter generator (R167) -/

def rotl64 (x : W64) (n : Nat) : W64 := (x <<< n) ||| (x >>> (64 - n))

structure SinterState where
  x : W64
  y : W64
  k : W64
deriving DecidableEq, Repr

/-- One round of R167. -/
def sinterRound (s : SinterState) : SinterState :=
  let x := (s.x ^^^ s.k) * 0xB4E92C573D8A61F3#64
  let y := (s.y + rotl64 x 27) * 0x8F1D6CA3E27B59C5#64
  { x := x ^^^ (y >>> 31), y := y, k := s.k + 0x9C3B57E1A4D28F6B#64 }

/-- R167: the Sinter generator. -/
def sinter (seed : W64) (tensor : W32) (index : W64) (step : W32) : W32 :=
  let s0 : SinterState := { x := index, y := (tensor ++ step : W64), k := seed }
  let s := sinterRound (sinterRound (sinterRound (sinterRound (sinterRound (sinterRound s0)))))
  ((s.x ^^^ s.y) >>> 32).truncate 32

/-! ### Transcendental functions (R174, R175) -/

/-- Compare |c| with a positive decimal bound: |x| > n / d for a finite x. -/
def absGt (x : Num) (n d : Nat) : Bool :=
  match x with
  | .fin _ m q =>
    if 0 ≤ q then decide (m * 2 ^ q.toNat * d > n) else decide (m * d > n * 2 ^ (-q).toNat)
  | .inf _ => true
  | .nan => false

/-- The same with "at least". -/
def absGe (x : Num) (n d : Nat) : Bool :=
  match x with
  | .fin _ m q =>
    if 0 ≤ q then decide (m * 2 ^ q.toNat * d ≥ n) else decide (m * d ≥ n * 2 ^ (-q).toNat)
  | .inf _ => true
  | .nan => false

/-- `c` lies within one ulp of 1 ÷ |x|; `e` is the exponent of the ulp at the exact result. -/
def rcpWithin (c x : Num) (e : Int) : Bool :=
  match c, x with
  | .fin _ mc qc, .fin _ mx qx =>
    -- |c·x − 1| ≤ 2^e · x over a common exponent
    let q0 := min (min (qc + qx) (e + qx)) 0
    let one : Int := ((1 <<< (-q0).toNat : Nat) : Int)
    let cx : Int := (((mc * mx) <<< (qc + qx - q0).toNat : Nat) : Int)
    let u : Int := ((mx <<< (e + qx - q0).toNat : Nat) : Int)
    decide (cx - one ≤ u) && decide (one - cx ≤ u)
  | _, _ => false

/-- R174 VRCP, bound 1 ulp: the reference bits where they meet the bound (as R174 says they do), else the
correctly rounded quotient. -/
def fnRcp (x : W32) : W32 :=
  match num32 x with
  | .nan => nan32
  | .inf n => zero32 n
  | .fin n m q =>
    if m == 0 then inf32 n
    else
      let v := quotExact 1 0 m q
      let c := Config.vrcp x
      if (num32 c).neg == n && rcpWithin (num32 c) (.fin n m q) (ulpExp v) then c
      else roundFp32 n v.1 v.2

/-- `c` lies within one ulp of 1 ÷ √x. -/
def rsqrtWithin (c x : Num) (e : Int) : Bool :=
  match c, x with
  | .fin _ mc qc, .fin _ mx qx =>
    let q0 := min qc e
    let cc : Int := ((mc <<< (qc - q0).toNat : Nat) : Int)
    let u : Int := ((1 <<< (e - q0).toNat : Nat) : Int)
    let sq (z : Int) : Bool × Bool :=   -- (z² x ≤ 1, z² x ≥ 1) for z ≥ 0
      let v := z.natAbs * z.natAbs * mx
      let t := 2 * q0 + qx
      if 0 ≤ t then (decide (v * 2 ^ t.toNat ≤ 1), decide (v * 2 ^ t.toNat ≥ 1))
      else (decide (v ≤ 2 ^ (-t).toNat), decide (v ≥ 2 ^ (-t).toNat))
    (decide (cc - u ≤ 0) || (sq (cc - u)).1) && (sq (cc + u)).2
  | _, _ => false

/-- R174 VRSQRT, bound 1 ulp. -/
def fnRsqrt (x : W32) : W32 :=
  match num32 x with
  | .nan => nan32
  | .inf n => if n then nan32 else 0#32
  | .fin n m q =>
    if m == 0 then inf32 n
    else if n then nan32
    else
      let v := rsqrtExact m q
      let c := Config.vrsqrt x
      if !(num32 c).neg && rsqrtWithin (num32 c) (.fin n m q) (ulpExp v) then c
      else roundFp32 false v.1 v.2

end Sys2Proof.Machine
end

