-- ==== Sys2Proof/Machine/Transcend.lean ====
section
/-! DEFINITION. The transcendental functions of R174 that have no exact test: the reference bits where they meet the bound of the table, and the
correctly rounded value where they do not. The exact value is known to 400 binary places, and what lies within a 2⁶⁴th part of an ulp of the bound
counts as within it (log entry 84). -/

namespace Sys2Proof.Machine

/-! ### Fixed point with 400 binary places -/

def fixOne : Int := 2 ^ 400

def fixLn2 : Int := 1789879222497203190815761498240779176894896805856420935579692301363062920687047601279850318367644315849030039181347319086

def fixPi : Int := 8112377246730971238862271351300894519161151600179265203591191037615230905373990498745523360926816815427566779727327576236

def fixMul (a b : Int) : Int := a * b / fixOne

/-- A finite FP32 value. -/
def fixOf (neg : Bool) (m : Nat) (q : Int) : Int :=
  let v : Int := ((m * 2 ^ (q + 400).toNat : Nat) : Int)
  if neg then -v else v

/-- 1 + r (1 + r/2 (1 + r/3 (…))). -/
def expSeries (r : Int) : Nat → Int → Int
  | 0, acc => acc
  | n + 1, acc => expSeries r n (fixOne + fixMul r acc / ((n : Int) + 1))

/-- eᵗ, with t reduced by multiples of ln 2. -/
def fixExp (t : Int) : Int :=
  let k := (2 * t + fixLn2) / (2 * fixLn2)
  let e := expSeries (t - k * fixLn2) 70 fixOne
  if 0 ≤ k then e * 2 ^ k.toNat else e / 2 ^ (-k).toNat

/-- 1 + z/3 + z²/5 + …. -/
def atanhSeries (z : Int) : Nat → Int → Int
  | 0, acc => acc
  | n + 1, acc => atanhSeries z n (fixOne / (2 * (n : Int) + 1) + fixMul z acc)

/-- ln (m · 2^q): the mantissa's by atanh, and the exponent's by ln 2. -/
def fixLog (m : Nat) (q : Int) : Int :=
  let l := Nat.log2 m
  let z := ((m : Int) - 2 ^ l) * fixOne / ((m : Int) + 2 ^ l)
  2 * fixMul z (atanhSeries (fixMul z z) 130 0) + ((l : Int) + q) * fixLn2

/-- 1 − z/(a (a + 1)) (1 − z/((a + 2) (a + 3)) (…)), with a = 2 for the sine and 1 for the cosine. -/
def trigSeries (a : Nat) (z : Int) : Nat → Int → Int
  | 0, acc => acc
  | n + 1, acc => trigSeries a z n (fixOne - fixMul z acc / (((2 * n + a) * (2 * n + a + 1) : Nat) : Int))

/-- The sine of t, with t reduced by multiples of π/2; the cosine is a quarter further. -/
def fixSin (t : Int) (quarter : Int) : Int :=
  let k := (4 * t + fixPi) / (2 * fixPi)
  let r := t - k * fixPi / 2
  let z := fixMul r r
  let s := fixMul r (trigSeries 2 z 45 fixOne)
  let c := trigSeries 1 z 45 fixOne
  match ((k + quarter) % 4).toNat with
  | 0 => s | 1 => c | 2 => -s | _ => -c

/-! ### The bounds -/

/-- The bound of a result near `t`: 2 ulp (one ulp is the spacing at the exact result, at least 2⁻¹⁴⁹), in units of 2⁻⁴⁰⁰. -/
def twoUlp (t : Int) : Int := 2 * 2 ^ (ulpExp (t.natAbs, -400) + 400).toNat

/-- An FP32 value within `bound` of `t`: the reference's where it is, else the nearest. -/
def within (t bound : Int) (c : W32) : W32 :=
  let ok : Bool := match num32 c with
    | .fin n m q => decide (((fixOf n m q - t).natAbs : Int) * 2 ^ 64 ≤ bound * (2 ^ 64 + 1))
    | _ => false
  if ok then c else if t == 0 then 0 else roundFp32 (decide (t < 0)) t.natAbs (-400)

/-- R174 VEXP. -/
def fnExp (x : W32) : W32 :=
  match num32 x with
  | .nan => nan32
  | .inf n => if n then 0#32 else inf32 false
  | .fin n m q =>
    if !n && absGt (.fin n m q) 887228 10000 then inf32 false
    else if n && absGt (.fin n m q) 10398 100 then 0#32
    else
      let t := fixExp (fixOf n m q)
      within t (twoUlp t) (Config.vexp x)

/-- R174 VLOG. -/
def fnLog (x : W32) : W32 :=
  match num32 x with
  | .nan => nan32
  | .inf n => if n then nan32 else inf32 false
  | .fin n m q =>
    if m == 0 then inf32 true
    else if n then nan32
    else
      let t := fixLog m q
      let near : Bool := absGt (.fin n m q) 75 100 && !absGe (.fin n m q) 15 10
      within t (if near then 2 ^ 376 else twoUlp t) (Config.vlog x)

/-- The bound of VSIN and VCOS: 2 ulp or 2⁻²⁴, the larger, for |x| ≤ 2¹⁵, and 2⁻²⁰ beyond. -/
def trigBound (x : Num) (t : Int) : Int := if absGt x 32768 1 then 2 ^ 380 else max (2 ^ 376) (twoUlp t)

/-- R174 VSIN and VCOS. -/
def fnSin (x : W32) : W32 :=
  match num32 x with
  | .nan => nan32
  | .inf _ => nan32
  | .fin n m q =>
    if m == 0 then zero32 n
    else
      let t := fixSin (fixOf n m q) 0
      within t (trigBound (.fin n m q) t) (Config.vsin x)

def fnCos (x : W32) : W32 :=
  match num32 x with
  | .nan => nan32
  | .inf _ => nan32
  | .fin n m q =>
    let t := fixSin (fixOf n m q) 1
    within t (trigBound (.fin n m q) t) (Config.vcos x)

/-- R174 VTANH. -/
def fnTanh (x : W32) : W32 :=
  match num32 x with
  | .nan => nan32
  | .inf n => if n then 0xBF800000#32 else 0x3F800000#32
  | .fin n m q =>
    if m == 0 then zero32 n
    else if absGe (.fin n m q) 91 10 then (if n then 0xBF800000#32 else 0x3F800000#32)
    else
      let e := fixExp (2 * fixOf n m q)
      let t := (e - fixOne) * fixOne / (e + fixOne)
      within t (twoUlp t) (Config.vtanh x)

/-- R174 VSIGM. -/
def fnSigm (x : W32) : W32 :=
  match num32 x with
  | .nan => nan32
  | .inf n => if n then 0#32 else 0x3F800000#32
  | .fin n m q =>
    if n && absGt (.fin n m q) 10398 100 then 0#32
    else
      -- beyond 256 the result is 1 to more than 300 places
      let t := if !n && absGt (.fin n m q) 256 1 then fixOne else fixOne * fixOne / (fixOne + fixExp (-(fixOf n m q)))
      within t (twoUlp t) (Config.vsigm x)

end Sys2Proof.Machine
end

