-- ==== Sys2Proof/Machine/Operands.lean ====
section
/-! DEFINITION. The core's instruction words: every encoding of spec 03 (opcode map and tables after R95) with
the static conditions of an undefined encoding (R96). `CoreOp` is one decoded word; fields that an
operation does not use and that the tables do not call rsvd are dropped. -/

namespace Sys2Proof.Machine

abbrev Reg := BitVec 5

inductive AluOp where
  | add | sub | and | or | xor | shl | shr | sra | mul | mulhu | slt | sltu | min | max
deriving DecidableEq, Repr

inductive BrOp where
  | eq | ne | lt | ge | ltu | geu
deriving DecidableEq, Repr

inductive AmoOp where
  | add | swap | cas
deriving DecidableEq, Repr

/-- The TYPE field: 0 FP32, 1 packed BF16, 2 INT32. -/
inductive VType where
  | fp32 | bf16 | int32
deriving DecidableEq, Repr

inductive Vec2Op where
  | add | sub | mul | min | max
deriving DecidableEq, Repr

inductive CmpOp where
  | eq | ne | lt | le
deriving DecidableEq, Repr

inductive TransOp where
  | exp | log | rcp | rsqrt | sin | cos | tanh | sigm
deriving DecidableEq, Repr

/-- Format codes of array operands (0x0 to 0x9). -/
inductive ArrFmt where
  | bf16 | e4m3 | e5m2 | int8 | mxe4m3 | mxe5m2 | mxe2m3 | mxe3m2 | mxint8 | mxfp4
deriving DecidableEq, Repr

inductive Scope where
  | core | yard | die | system
deriving DecidableEq, Repr

inductive CoreOp where
  | alu (op : AluOp) (sd sa sb : Reg)
  | alui (op : AluOp) (sd sa : Reg) (imm : W32)
  | li (sd : Reg) (imm : W32)
  | lih (sd : Reg) (imm : W32)
  | ld (sd sa : Reg) (imm : W32) (v : Bool)
  | lw (sd sa : Reg) (imm : W32) (v : Bool)
  | sd (sd sa : Reg) (imm : W32)
  | sw (sd sa : Reg) (imm : W32)
  | ldc (sd sa : Reg) (imm : W32)
  | sdc (sd sa : Reg) (imm : W32)
  | csrr (sd : Reg) (csr : BitVec 12)
  | csrw (sa : Reg) (csr : BitVec 12)
  | amo (op : AmoOp) (sd sa sb : Reg) (w : Bool)
  | nop
  | branch (op : BrOp) (sa sb : Reg) (imm : W32)
  | jal (sd : Reg) (imm : W32)
  | jr (sa : Reg)
  | vec2 (op : Vec2Op) (vd va vb : Reg) (m : BitVec 2) (ty : VType)
  | vabs (vd va : Reg) (m : BitVec 2) (ty : VType)
  | vfma (vd va vb vc : Reg) (m : BitVec 2) (ty : VType)
  | vcmp (md : BitVec 2) (va vb : Reg) (m : BitVec 2) (ty : VType) (op : CmpOp)
  | vsel (vd va vb : Reg) (m : BitVec 2)
  | vcvt (vd va vb : Reg) (m : BitVec 2) (ty : VType) (out : OutFmt) (rnd : Rounding)
  | vbcast (vd sa : Reg) (m : BitVec 2)
  | vred (vd va : Reg) (m : BitVec 2) (ty : VType)
  | vmovs (sd va : Reg) (lane : BitVec 7)
  | vtrans (op : TransOp) (vd va : Reg) (m : BitVec 2)
  | vld (vd sa : Reg) (m : BitVec 2) (imm : W32)
  | vst (vd sa : Reg) (imm : W32)
  | vldg (vd sa : Reg) (m : BitVec 2) (imm : W32)
  | vstg (vd sa : Reg) (imm : W32)
  | loadw (fmt : ArrFmt) (src : BitVec 22)
  | pass (transposed : Bool) (fmt : ArrFmt) (fold : Bool) (arr : BitVec 2) (rowsM1 : BitVec 8) (acc : BitVec 8) (src : BitVec 22)
  | drain (sa sb : Reg) (arr : BitVec 2) (rowsM1 : BitVec 8) (acc : BitVec 8) (out : OutFmt) (rnd : Rounding) (dst : BitVec 22)
  | mask (sa sb : Reg)
  | fetch (sa sb sc : Reg) (v : Bool) (crib : BitVec 22)
  | stow (sa sb sc : Reg) (crib : BitVec 22)
  | signal (s : Reg) (reg remote : Bool) (die : BitVec 3) (obj : BitVec 13) (imm : W32)
  | wait (s : Reg) (equal : Bool) (obj : BitVec 13)
  | barrier (scope : Scope)
  | sliceEnd
deriving DecidableEq, Repr

/-- Bits [hi:lo] of a word. -/
def bits (w : W64) (hi lo : Nat) : Nat := w.toNat / 2 ^ lo % 2 ^ (hi - lo + 1)

def bit (w : W64) (n : Nat) : Bool := bits w n n == 1

def fReg (w : W64) (lo : Nat) : Reg := BitVec.ofNat 5 (bits w (lo + 4) lo)

/-- The immediate [31:0]. -/
def fImm (w : W64) : W32 := BitVec.ofNat 32 (bits w 31 0)

def fCrib (w : W64) : BitVec 22 := BitVec.ofNat 22 (bits w 21 0)

/-- Some field marked rsvd is not zero (R96, cause 2), else some field is reserved (cause 3), else the operation. -/
def chk (rsvd reserved : Bool) (op : CoreOp) : Except Nat CoreOp :=
  if rsvd then .error 2 else if reserved then .error 3 else .ok op

def aluOf (n : Nat) : AluOp :=
  match n with
  | 1 => .add | 2 => .sub | 3 => .and | 4 => .or | 5 => .xor | 6 => .shl | 7 => .shr
  | 8 => .sra | 9 => .mul | 10 => .mulhu | 11 => .slt | 12 => .sltu | 13 => .min | _ => .max

def brOf (n : Nat) : BrOp :=
  match n with
  | 0 => .eq | 1 => .ne | 2 => .lt | 3 => .ge | 4 => .ltu | _ => .geu

def vec2Of (n : Nat) : Vec2Op :=
  match n with
  | 0 => .add | 1 => .sub | 2 => .mul | 3 => .min | _ => .max

def cmpOf (n : Nat) : CmpOp :=
  match n with
  | 0 => .eq | 1 => .ne | 2 => .lt | _ => .le

def transOf (n : Nat) : TransOp :=
  match n with
  | 0 => .exp | 1 => .log | 2 => .rcp | 3 => .rsqrt | 4 => .sin | 5 => .cos | 6 => .tanh | _ => .sigm

def typeOf (n : Nat) : VType :=
  match n with
  | 0 => .fp32 | 1 => .bf16 | _ => .int32

def outOf (n : Nat) : OutFmt :=
  match n with
  | 0 => .fp32 | 1 => .bf16 | 2 => .e4m3 | _ => .e5m2

def roundOf (n : Nat) : Rounding :=
  match n with
  | 0 => .rne | 1 => .rtz | _ => .sr

def arrFmtOf (n : Nat) : ArrFmt :=
  match n with
  | 0 => .bf16 | 1 => .e4m3 | 2 => .e5m2 | 3 => .int8 | 4 => .mxe4m3 | 5 => .mxe5m2
  | 6 => .mxe2m3 | 7 => .mxe3m2 | 8 => .mxint8 | _ => .mxfp4

def scopeOf (n : Nat) : Scope :=
  match n with
  | 0 => .core | 1 => .yard | 2 => .die | _ => .system

/-- Scalar words 0x01 to 0x3F. -/
def decodeScalar (op : Nat) (w : W64) : Except Nat CoreOp :=
  let sd := fReg w 51; let sa := fReg w 46; let sb := fReg w 41
  let immRsvd := bits w 45 32 != 0
  if 0x01 ≤ op ∧ op ≤ 0x0E then chk (bits w 40 0 != 0) false (.alu (aluOf op) sd sa sb)
  else if 0x11 ≤ op ∧ op ≤ 0x1E then chk immRsvd false (.alui (aluOf (op - 0x10)) sd sa (fImm w))
  else match op with
    | 0x20 => chk immRsvd false (.li sd (fImm w))
    | 0x21 => chk immRsvd false (.lih sd (fImm w))
    | 0x24 => chk (bits w 45 41 != 0 || bits w 39 32 != 0) false (.ld sd sa (fImm w) (bit w 40))
    | 0x25 => chk (bits w 45 41 != 0 || bits w 39 32 != 0) false (.lw sd sa (fImm w) (bit w 40))
    | 0x26 => chk immRsvd false (.sd sd sa (fImm w))
    | 0x27 => chk immRsvd false (.sw sd sa (fImm w))
    | 0x28 => chk immRsvd false (.ldc sd sa (fImm w))
    | 0x29 => chk immRsvd false (.sdc sd sa (fImm w))
    | 0x2C => chk (bits w 45 12 != 0) false (.csrr sd (BitVec.ofNat 12 (bits w 11 0)))
    | 0x2D => chk (bits w 45 12 != 0) false (.csrw sa (BitVec.ofNat 12 (bits w 11 0)))
    | 0x2E => chk (bit w 40 || bits w 38 0 != 0) false (.amo .add sd sa sb (bit w 39))
    | 0x2F => chk (bit w 40 || bits w 38 0 != 0) false (.amo .swap sd sa sb (bit w 39))
    | 0x30 => chk (bit w 40 || bits w 38 0 != 0) false (.amo .cas sd sa sb (bit w 39))
    | 0x3F => chk (bits w 55 0 != 0) false .nop
    | _ => .error 1

/-- Branch words 0x40 to 0x47. -/
def decodeBranch (op : Nat) (w : W64) : Except Nat CoreOp :=
  if 0x40 ≤ op ∧ op ≤ 0x45 then
    chk (bits w 40 32 != 0) false (.branch (brOf (op - 0x40)) (fReg w 46) (fReg w 41) (fImm w))
  else match op with
    | 0x46 => chk (bits w 45 32 != 0) false (.jal (fReg w 51) (fImm w))
    | 0x47 => chk (bits w 55 51 != 0 || bits w 45 0 != 0) false (.jr (fReg w 46))
    | _ => .error 1

/-- Vector words 0x50 to 0x73. -/
def decodeVector (op : Nat) (w : W64) : Except Nat CoreOp :=
  let vd := fReg w 51; let va := fReg w 46; let vb := fReg w 41; let vc := fReg w 36
  let m := BitVec.ofNat 2 (bits w 35 34)
  let t := bits w 33 32
  let ty := typeOf t
  let opnd := bits w 31 0
  let t3 := t == 3
  if 0x50 ≤ op ∧ op ≤ 0x54 then chk (opnd != 0) t3 (.vec2 (vec2Of (op - 0x50)) vd va vb m ty)
  else if 0x60 ≤ op ∧ op ≤ 0x67 then chk (opnd != 0) (t != 0) (.vtrans (transOf (op - 0x60)) vd va m)
  else match op with
    | 0x55 => chk (bits w 45 41 != 0 || opnd != 0) t3 (.vabs vd va m ty)
    | 0x56 => chk (opnd != 0) t3 (.vfma vd va vb vc m ty)
    | 0x57 => chk (bits w 55 53 != 0 || bits w 31 3 != 0)
        (t3 || t == 1 || decide (bits w 2 0 > 3) || bits w 52 51 == 0)
        (.vcmp (BitVec.ofNat 2 (bits w 52 51)) va vb m ty (cmpOf (bits w 2 0)))
    | 0x58 => chk (opnd != 0) t3 (.vsel vd va vb m)
    | 0x59 => chk (bits w 25 0 != 0) (t3 || decide (bits w 31 28 > 3) || bits w 27 26 == 3)
        (.vcvt vd va vb m ty (outOf (bits w 31 28)) (roundOf (bits w 27 26)))
    | 0x5A => chk (opnd != 0) t3 (.vbcast vd va m)
    | 0x5B => chk (opnd != 0) t3 (.vred vd va m ty)
    | 0x5C => chk (bits w 31 7 != 0) t3 (.vmovs vd va (BitVec.ofNat 7 (bits w 6 0)))
    | 0x70 => chk false t3 (.vld vd va m (fImm w))
    | 0x71 => chk false t3 (.vst vd va (fImm w))
    | 0x72 => chk false t3 (.vldg vd va m (fImm w))
    | 0x73 => chk false t3 (.vstg vd va (fImm w))
    | _ => .error 1

/-- Array, fetch, sync, barrier and end words 0x80 to 0xBF. The manual names no cause for a field that "must be 0" (IMM with REG = 1, DIE with
REMOTE = 0), and its table has no entry for WAIT [47:46] and BARRIER [21:2]: the model takes the first as reserved values (cause 3) and the second as
rsvd (cause 2), a DESIGN CHOICE (log entry 80). -/
def decodeUnit (op : Nat) (w : W64) : Except Nat CoreOp :=
  let fmt := arrFmtOf (bits w 55 52)
  let badFmt := decide (bits w 55 52 > 9)
  let arr := BitVec.ofNat 2 (bits w 45 44)
  let rows := BitVec.ofNat 8 (bits w 43 36)
  let acc := BitVec.ofNat 8 (bits w 35 28)
  match op with
  | 0x80 => chk (bits w 51 22 != 0) badFmt (.loadw fmt (fCrib w))
  | 0x81 => chk (bits w 50 46 != 0 || bits w 27 22 != 0) badFmt (.pass false fmt (bit w 51) arr rows acc (fCrib w))
  | 0x82 => chk (bits w 50 46 != 0 || bits w 27 22 != 0) badFmt (.pass true fmt (bit w 51) arr rows acc (fCrib w))
  | 0x83 => chk false (decide (bits w 27 24 > 3) || bits w 23 22 == 3)
      (.drain (fReg w 51) (fReg w 46) arr rows acc (outOf (bits w 27 24)) (roundOf (bits w 23 22)) (fCrib w))
  | 0x84 => chk (bits w 45 0 != 0) false (.mask (fReg w 51) (fReg w 46))
  | 0x90 => chk (bits w 39 22 != 0) false (.fetch (fReg w 51) (fReg w 46) (fReg w 41) (bit w 40) (fCrib w))
  | 0x91 => chk (bits w 40 22 != 0) false (.stow (fReg w 51) (fReg w 46) (fReg w 41) (fCrib w))
  | 0xA0 => chk (bit w 45)
      ((bit w 50 && bits w 31 0 != 0) || (!bit w 49 && bits w 48 46 != 0))
      (.signal (fReg w 51) (bit w 50) (bit w 49) (BitVec.ofNat 3 (bits w 48 46)) (BitVec.ofNat 13 (bits w 44 32)) (fImm w))
  | 0xA1 => chk (bits w 47 45 != 0 || bits w 31 0 != 0) (decide (bits w 50 48 > 1))
      (.wait (fReg w 51) (bits w 50 48 == 1) (BitVec.ofNat 13 (bits w 44 32)))
  | 0xB0 => chk (bits w 55 2 != 0) false (.barrier (scopeOf (bits w 1 0)))
  | 0xBF => chk (bits w 55 0 != 0) false .sliceEnd
  | _ => .error 1

/-- One 64-bit instruction word: the operation, or the lowest CORE_FAULT.CAUSE that applies to its form (R96). -/
def decodeWord (w : W64) : Except Nat CoreOp :=
  let op := bits w 63 56
  if op < 0x40 then decodeScalar op w
  else if op < 0x50 then decodeBranch op w
  else if op < 0x80 then decodeVector op w
  else decodeUnit op w

/-! ### Operand forms -/

/-- A 32-bit immediate sign-extended to 64 bits. -/
def sext (i : W32) : W64 := i.signExtend 64

/-- Array format facts (table "Format codes of array operands"): elements per cell, MX scales, element format. -/
def ArrFmt.perCell : ArrFmt → Nat
  | .bf16 => 1
  | .mxfp4 => 4
  | _ => 2

/-- K per stationary row. -/
def ArrFmt.k (f : ArrFmt) : Nat := 64 * f.perCell

def ArrFmt.mx : ArrFmt → Bool
  | .mxe4m3 | .mxe5m2 | .mxe2m3 | .mxe3m2 | .mxint8 | .mxfp4 => true
  | _ => false

def ArrFmt.elem : ArrFmt → ElemFmt
  | .bf16 => .bf16
  | .e4m3 | .mxe4m3 => .e4m3
  | .e5m2 | .mxe5m2 => .e5m2
  | .int8 => .int8
  | .mxe2m3 => .e2m3
  | .mxe3m2 => .e3m2
  | .mxint8 => .mxint8
  | .mxfp4 => .e2m1

/-- Formats pair when equal, both FP8, both among MXFP8 and MXFP6, or both MXINT8 (R103). -/
def ArrFmt.pairs (a b : ArrFmt) : Bool :=
  let fp8 (f : ArrFmt) := f == .e4m3 || f == .e5m2
  let mx86 (f : ArrFmt) := f == .mxe4m3 || f == .mxe5m2 || f == .mxe2m3 || f == .mxe3m2
  a == b || (fp8 a && fp8 b) || (mx86 a && mx86 b)

def ArrFmt.code : ArrFmt → Nat
  | .bf16 => 0 | .e4m3 => 1 | .e5m2 => 2 | .int8 => 3 | .mxe4m3 => 4 | .mxe5m2 => 5
  | .mxe2m3 => 6 | .mxe3m2 => 7 | .mxint8 => 8 | .mxfp4 => 9

end Sys2Proof.Machine
end

