-- ==== Sys2Proof/Messages.lean ====
section
/-! DEFINITION. The operands that commands carry: messages between dies (spec 13, 17), accesses of the host,
and small named codes. Plain data, shared by Syntax.lean and the state. -/

namespace Sys2Proof

/-- Completion status codes (R224). -/
inductive Status where
  | ok | deferred | busySelftest | tickOverrun | aborted | epochMismatch | pageFaultUnresolved
  | translationDenied | eccUncorrectable | linkLost | outOfWindow | noAuthority | bankActive
  | illegalOpcode | reservedValue | badLength | badAlignment | queueDisabled
deriving DecidableEq, Repr

/-- The code of R224. -/
def Status.code : Status → Nat
  | .ok => 0x00 | .deferred => 0x01 | .busySelftest => 0x02 | .tickOverrun => 0x03 | .aborted => 0x04
  | .epochMismatch => 0x05 | .pageFaultUnresolved => 0x08 | .translationDenied => 0x09
  | .eccUncorrectable => 0x0A | .linkLost => 0x0B | .outOfWindow => 0x0C | .noAuthority => 0x0D
  | .bankActive => 0x0E | .illegalOpcode => 0x0F | .reservedValue => 0x10 | .badLength => 0x11
  | .badAlignment => 0x12 | .queueDisabled => 0x13

/-- What the host port sees of a memory request besides its address: Requester ID (R421) and poison (table before R423). -/
structure Tlp where
  rid : W16
  poisoned : Bool
deriving DecidableEq, Repr

/-- Who makes a register access: the host through a function (0 the PF, p the VF of partition p, R549), or a device-side
source through a REG page of a partition (R551). -/
inductive Who where
  | fn (p : PartIx) (tlp : Tlp)
  | dev (p : PartIx) (src : Nat)
deriving DecidableEq, Repr

/-- The partition whose rights the access has; 0 is the PF. -/
def Who.part : Who → PartIx
  | .fn p _ => p
  | .dev p _ => p

/-- Index of the function's or source's own latches (R543). -/
def Who.latch : Who → Nat
  | .fn p _ => p.val
  | .dev _ s => 16 + s

/-- A die's place: package and die ID. -/
structure Place where
  pkg : PkgIx
  die : DieIx
deriving DecidableEq, Repr

/-- A port of the die: peer ports 0 to 3 and optical ports 0 and 1. -/
inductive LinkPort where
  | peer (n : PortIx)
  | opt (n : OptIx)
deriving DecidableEq, Repr

/-- Fault classes (spec 15). -/
inductive Cls where
  | corrected | contained | fatal
deriving DecidableEq, Repr

/-- What a TICK message or acknowledgement says of a mode change (R553). -/
inductive ModeAction where
  | none | announce | commit | cancel
deriving DecidableEq, Repr

/-- A launch cancellation that travels in TICK messages (R230, R553). -/
structure Cancel where
  launchId : W32
  part : PartIx
  planTick : Nat
  pkg : PkgIx
  dies : Byte
deriving DecidableEq, Repr

/-- One record of a MODE_CHANGE packet (spec 07): 16 bytes. -/
structure ModeRec where
  offset : Nat
  value : W32
  dies : Byte
deriving DecidableEq, Repr

/-- TICK message of KIND 0 (R63, R553), with the change descriptor's records (KIND 4) beside it. -/
structure TickMsg where
  src : Place
  epoch : W16
  tick : Nat
  members : Byte
  slips : BitVec 16
  changeId : W16
  action : ModeAction
  cause : BitVec 4
  sysLead : Bool
  target : Nat
  cancels : List Cancel
  recs : List ModeRec
deriving DecidableEq, Repr

/-- A die's vote on a mode change (R72). -/
inductive Vote where
  | pending | ready | refuse (unit : BitVec 5)
deriving DecidableEq, Repr

/-- TICK message of KIND 1: a tick acknowledgement (R63, R553). A package lead's acknowledgement
to the system lead carries its package's mismatch flag (R84). -/
structure TickAck where
  src : Place
  epoch : W16
  tick : Nat
  vote : Vote
  changeId : W16
  slips : BitVec 16
  digest : W64
  mismatch : Bool
  cancels : List Cancel
deriving DecidableEq, Repr

/-- Header of a fabric message (spec 13): the port it arrives on, sender, destination, epoch, stamp, tag, and the
window of a message from another package; `bad` says that a rsvd header bit is not zero or a length is out of
bounds (R451). -/
structure MsgHead where
  port : LinkPort
  src : Place
  dst : Place
  epoch : W16
  part : PartIx
  tag : W32
  window : Option WinIx
  bad : Bool := false
deriving DecidableEq, Repr

/-- A SIGNAL message (R255, R256). -/
structure SignalMsg where
  head : MsgHead
  obj : ObjIx
  inc : W64
deriving DecidableEq, Repr

/-- A REDUCE_SEGMENT message (R181, R450): node range, TOTAL, ELEMENTS and target slot of its partial, and the FP32
values of the elements from `first` on that it carries. -/
structure PartialMsg where
  head : MsgHead
  slot : Fin 1024
  lo : Nat
  hi : Nat
  total : Nat
  elements : Nat
  first : Nat
  vals : List W32
deriving DecidableEq, Repr

/-- Destination of a message that leaves the die: this package or another. -/
def Place.samePkg (a b : Place) : Bool := a.pkg == b.pkg

/-- A WINDOW_WRITE message (R440, R441): bytes at an offset of the window, or of its signal aperture (R438). -/
structure WinWrite where
  head : MsgHead
  aperture : Bool
  offset : Nat
  data : List Byte
deriving DecidableEq, Repr

/-- A WINDOW_READ message (R440). -/
structure WinRead where
  head : MsgHead
  aperture : Bool
  offset : Nat
  n : Nat
deriving DecidableEq, Repr

/-- A READ_RESPONSE: data of a read, or the status of a write, signal or partial. -/
structure Response where
  head : MsgHead
  st : Status
  data : List Byte
deriving DecidableEq, Repr

/-- An ERROR_REPORT (R458, R553). -/
structure ErrorReport where
  head : MsgHead
  src : Nat
  cls : Cls
  tick : Nat
  detail : W32
deriving DecidableEq, Repr

/-- An HDM decoder (R400). -/
structure Hdm where
  base : Nat
  size : Nat
  iw : Nat
  ig : Nat
  committed : Bool
deriving DecidableEq, Repr

/-- A MANAGEMENT message's body (R553). -/
inductive Mgmt where
  | modeForward (id : W16) (recs : List ModeRec) (target : Nat)
  | hdmMirror (decs : List Hdm)
  | query (item : Nat)
  | reply (answer : W64) (st : Status)
deriving DecidableEq, Repr

/-- A MANAGEMENT message (class 8, R430, R553). -/
structure MgmtMsg where
  head : MsgHead
  seq : W32
  body : Mgmt
deriving DecidableEq, Repr

/-- A barrier arrival or release (TICK KIND 2 and 3, R287). -/
structure BarrierMsg where
  head : MsgHead
  release : Bool
  inst : Nat
deriving DecidableEq, Repr

/-- A message of any class on a peer or optical port; `undef` is a class 10 to 15. -/
inductive FabMsg where
  | tick (dst : Place) (epoch : W16) (m : TickMsg)
  | ack (dst : Place) (m : TickAck)
  | barrier (m : BarrierMsg)
  | winWrite (m : WinWrite)
  | winRead (m : WinRead)
  | response (m : Response)
  | signal (m : SignalMsg)
  | partial_ (m : PartialMsg)
  | error (m : ErrorReport)
  | mgmt (m : MgmtMsg)
  | tier (head : MsgHead) (addr : Nat)
  | undef (src : Place) (cls : Nat)
deriving DecidableEq, Repr

/-- The class code (spec 13). -/
def FabMsg.cls : FabMsg → Nat
  | .tick .. | .ack .. | .barrier .. => 1
  | .winWrite .. => 2
  | .winRead .. => 3
  | .response .. => 4
  | .signal .. => 5
  | .partial_ .. => 6
  | .error .. => 7
  | .mgmt .. => 8
  | .tier .. => 9
  | .undef _ c => c

/-- Where a message is addressed to. -/
def FabMsg.dst : FabMsg → Option Place
  | .tick d _ _ | .ack d _ => some d
  | .barrier m => some m.head.dst
  | .winWrite m => some m.head.dst
  | .winRead m => some m.head.dst
  | .response m => some m.head.dst
  | .signal m => some m.head.dst
  | .partial_ m => some m.head.dst
  | .error m => some m.head.dst
  | .mgmt m => some m.head.dst
  | .tier h _ => some h.dst
  | .undef _ _ => none

/-- A CXL.cache snoop of the host (table before R409). -/
inductive Snoop where
  | data | inv | cur
deriving DecidableEq, Repr

/-- A response of the host to a page request group (R374). -/
inductive PrgCode where
  | success | invalidRequest | failure
deriving DecidableEq, Repr

/-- Host events that reset the die, or orphan it with preservation armed (R388, R492). -/
inductive HostEvent where
  | linkLoss | hotReset | perst | cxlReset
deriving DecidableEq, Repr

/-- CAUSE of the preservation record (after R389). -/
def HostEvent.cause : HostEvent → Nat
  | .linkLoss => 1
  | .hotReset | .perst => 2
  | .cxlReset => 3

/-- The capabilities of a function (spec 12, "Configuration space"). -/
inductive Capability where
  | pciExpress | powerManagement | msix | aer | serialNumber | srIov | ats | pri | pasid | doe | readiness | cxlDvsecs | packageDvsec
deriving DecidableEq, Repr

/-- A configuration request that this manual gives a meaning (R395, R396, R398, R480, R518, R532), and a read of the
expansion ROM (R408). -/
inductive CfgReq where
  | read
  | readIds
  | readSubsystem
  | readPackage
  | readCapability (c : Capability)
  | readPending
  | readRom (off : Nat)
  | busMaster (v : Bool)
  | memEnable (v : Bool)
  | d3hot (v : Bool)
  | msixEnable (v : Bool)
  | funcMask (v : Bool)
  | vfEnable (v : Bool)
  | priAlloc (n : Nat)
  | romEnable (v : Bool)
deriving DecidableEq, Repr

/-- Outcome of the SPDM session of an optical link (R453). -/
inductive SessionResult where
  | continues
  | established (partner : Place)
  | certRefused
deriving DecidableEq, Repr

/-- One slot of the boot flash as the boot ROM finds it (R533, R534). The cryptographic checks are summed up in
`sigOk`; `key` is the digest of the signing key and `genfeson` says it is the one in the boot ROM. -/
structure BootSlot where
  present : Bool
  retried : Bool
  magicOk : Bool
  sizeOk : Bool
  rsvdZero : Bool
  genfeson : Bool
  key : BitVec 384
  sigOk : Bool
  svn : Nat
  bootBist : Bool
  romPresent : Bool
  subVendor : W16
  subId : W16
  boardMax : Nat
  altRoot : BitVec 384
deriving DecidableEq, Repr

/-- A partner's port as a LINK_MANAGEMENT hello gives it (R427, R450). -/
structure Hello where
  place : Place
  port : PortIx
  modules : BitVec 4
  pools : List Nat
deriving DecidableEq, Repr

/-- What a flit-level event on a host or peer port is (R394, R426). -/
inductive RetryKind where
  | replay | laneRepair
deriving DecidableEq, Repr

/-- What an upset does to a word of device memory: a single-bit error, an uncorrectable one, or one that produces the poison syndrome (R350). -/
inductive HbmUpset where
  | single | bad | poisonLike
deriving DecidableEq, Repr

/-- One observation of a physical upset (R88, R110, R136, R270, R344 table, R349, R497, R517). -/
inductive Upset where
  | cribWord (c : CoreIx) (word : Nat) (uncorrectable : Bool)
  | storeRow (c : CoreIx) (row : Fin 64)
  | accRow (c : CoreIx) (arr : BitVec 2) (row : Byte)
  | scaleBuf (c : CoreIx) (tile : Bool) (arr : BitVec 2) (row : Byte)
  | progWord (c : CoreIx) (bank : Bool) (index : Nat)
  | syncObj (n : ObjIx) (uncorrectable : Bool)
  | hbm (addr : Nat) (kind : HbmUpset)
  | cacheWord (slice : SliceIx) (set : Nat) (way : Fin 16) (sector : Fin 4) (uncorrectable : Bool)
  | hayWord (slice : SliceIx) (entry : Nat) (sector : Fin 4)
  | cacheTag (slice : SliceIx) (set : Nat) (way : Fin 16)
  | tally (slice : SliceIx)
  | l1Line (stop : Fin 49) (addr : Nat)
  | tlb (stop : Fin 64) (part : PartIx)
  | faultQueue (stop : Fin 64) (part : PartIx)
  | copyBuffer (e : CopyIx)
  | bucket (part : PartIx) (res : Fin 5)
  | msixTable (fn : PartIx) (vector : Nat)
  | ring (stop : Fin 64) (dir : Bool) (cause : Fin 4)
  | yard (yard : Fin 6) (cause : Fin 3) (core : CoreIx)
  | keyStore
  | fuseRead
  | randomSource
  | hostProtocol
  | collectorReg (word : Nat)
  | collectorMismatch (word : Nat)
deriving DecidableEq, Repr

end Sys2Proof
end

