-- ==== Sys2Proof/Machine/Types.lean ====
section
/-! DEFINITION. The state of the tick unit, the cores, the reduce-and-update unit, the command processor, the
copy engines, Groom, the sync unit and the barriers (specs 02 to 09). -/

namespace Sys2Proof.Machine

/-- Who waits for an access: the model's name for the requester. -/
inductive Req where
  | core (c : CoreIx)
  | eng (c : CoreIx) (e : EngIx)
  | pkt (pid : Nat)
  | ring (r : RingIx)
  | launch (key : Nat)
  | batch (key : Nat)
  | groom
  | reg
  | win (id : Nat)
  | bar (id : Nat)
deriving DecidableEq, Repr

/-- A mode change as this die's units hold it (R72): staged, perhaps refused by a unit, then committed. -/
structure Change where
  id : W16
  target : Nat
  recs : List ModeRec
  refused : Option (BitVec 5)
  committed : Bool
deriving DecidableEq, Repr

/-- A mode change as the lead schedules it (R71 to R77); `votes` are those of the acknowledgement of tick target − 3, `decision` is commit or cancel once made, `sent` once its
message has left. -/
structure LeadChange where
  id : W16
  accepted : Nat
  target : Nat
  recs : List ModeRec
  announced : Bool
  votes : List (Nat × Vote)
  decision : ModeAction
  cause : BitVec 4
  unit : BitVec 5
  die : DieIx
  sent : Bool
deriving DecidableEq, Repr

/-- A slip that a lead has heard of (R47): the tick and the partition it is known by, the tick at which it takes effect, and whether a TICK
message has carried it. -/
structure Slip where
  tick : Nat
  part : Nat
  due : Nat
  carried : Bool
deriving DecidableEq, Repr

/-- The tick unit (spec 02). `now` is what TICK_NOW reads; `count` counts every boundary, of beats and of ticks, and
times what the manual times in ticks (R39). Members of other packages (their leads) are in `packages`; acknowledgements and
misses of a package are kept under 8 + its ID; `removedAt` is the tick of a removal. `slipsNow` are the partitions that slipped in this tick, `owed` this
die's own slips with the tick at which they take effect, `slipLog` the slips a lead has heard of. `unnamed` are members removed before a message named
them: the next message names them, and the one after it announces their removal (R68). `sampled` is the digest taken in this tick's guard (R82). -/
structure TickUnit where
  runs : Bool := false
  adopted : Bool := false
  beats : Bool := false
  now : Nat := 0
  count : Nat := 0
  inGuard : Bool := false
  hiLatch : List (Nat × W32) := []
  nextMsg : Option TickMsg := none
  leadAt : Option Place := none
  silent : Nat := 0
  holdTicks : Nat := 0
  gap : Bool := false
  offsetOk : Bool := true
  policies : BitVec 16 := 0
  slipLog : List Slip := []
  slipsNow : List Nat := []
  owed : List (Nat × Nat) := []
  cancelsNow : List Cancel := []
  cancelsOut : List Cancel := []
  members : Byte := 0
  packages : List Place := []
  removedMask : Byte := 0
  removedPkgs : List PkgIx := []
  removedAt : List (Nat × Nat) := []
  unnamed : Byte := 0
  acks : List TickAck := []
  ackMiss : List (Nat × Nat) := []
  sampled : Option W64 := none
  ackSent : Option Nat := none
  msgSent : Option Nat := none
  change : Option Change := none
  lead : Option LeadChange := none
  asked : List (Nat × W16 × Nat) := []
  holdTick : Bool := false
  epochTick : Nat := 0
  echo : List (Nat × W64) := []
deriving DecidableEq, Repr

/-- The slice a core runs (R42 to R55). -/
structure SliceRun where
  part : PartIx
  launch : Nat
  planTick : Nat
  startTick : Nat
  args : List W64
  overSlips : Nat := 0
  pageDone : Bool := false
  linkRetry : Bool := false
  ended : Bool := false
  stopping : Option Status := none
  sysbars : Nat := 0
deriving DecidableEq, Repr

/-- Kinds of array stream (R86, R119 to R130). -/
inductive StreamKind where
  | loadw | pass | drain
deriving DecidableEq, Repr

/-- An array stream that has issued and not completed: its array, accumulator rows [accLo, accHi) and
crib bytes [lo, hi). -/
structure Stream where
  kind : StreamKind
  arr : BitVec 2
  accLo : Nat
  accHi : Nat
  lo : Nat
  hi : Nat
  fmt : BitVec 4
deriving DecidableEq, Repr

/-- A fetch/stow engine's operation (R94, R95): rows done so far; `waiting` while a row's access waits. -/
structure EngOp where
  pc : Nat
  stow : Bool
  v : Bool
  part : PartIx
  dva : Nat
  rowBytes : Nat
  rows : Nat
  stride : Int
  crib : Nat
  done : Nat
deriving DecidableEq, Repr

/-- Where a returning load goes; a vector load is one entry per line, `off` the byte of the register its part begins at. -/
inductive LoadDest where
  | sreg (r : Reg) (bytes : Nat)
  | vreg (r : Reg) (mask : LaneMask) (off : Nat)
deriving DecidableEq, Repr

/-- What a core's outstanding DVA operation does at its point of coherence. -/
inductive CoreAccess where
  | read | write (data : List Byte) | amo (op : AmoOp) (cmp new : W64)
deriving DecidableEq, Repr

/-- An outstanding DVA operation of a core (a range-tracker entry of R91): a load or atomic that has not
returned, or a write not acknowledged. `line` is its physical line (host memory or not) once sent. `value` is set when the response has come back. The parts of a vector
access after its first line are `tail`: they share the first one's entry. -/
structure CoreOpEntry where
  id : Nat
  tail : Bool
  pc : Nat
  addr : Nat
  bytes : Nat
  vol : Bool
  acc : CoreAccess
  dest : Option LoadDest
  line : Option (Bool × Nat)
  sent : Bool
  value : Option (List Byte)
  acked : Bool
  starved : List Nat := []
deriving DecidableEq, Repr

/-- What the sequencer stands at: a WAIT, a BARRIER, or a SIGNAL to another die until its answer comes (R105 to R109, R257). -/
inductive CoreWait where
  | signal (id : Nat)
  | object (obj : ObjIx) (equal : Bool) (thr : W64)
  | barrier (scope : Scope) (inst : Nat) (arrived : Bool)
deriving DecidableEq, Repr

/-- State of a line in an L1 (R316): shared, or exclusive for near atomics. -/
inductive LineState where
  | s | e
deriving DecidableEq, Repr

/-- Error state of a crib word (R88): a single-bit error not yet read, one corrected and awaiting its
write-back, or an uncorrectable error. -/
inductive CribErr where
  | single | pending | bad
deriving DecidableEq, Repr

/-- Scales that the sequencer has read for an instruction it holds past the issue point (R127): its place, and the buffer they are in. -/
structure ScaleRead where
  pc : Nat
  buf : Bool
deriving DecidableEq, Repr

/-- A byre core (specs 03, 04). `switch` is the SWITCH_PROGRAM packet pending on
the core, `switched` that a core reset has already changed its bank (R115); the core starts no slice before the boundary of count `notBefore`
(R470). `wild` is set by a core reset: elements of the store and the accumulators that nothing has
written since then are free values from that index on (R115, R492). The core has two tile-scale buffers of 512 bytes, of which `tileBuf` is the stored tile's,
and each array two moving-scale buffers of 2 KiB, of which `moveBuf` is the one filled last; `held` are scales read ahead (R127). `loading` are the
LOAD_PROGRAM packets at work on the inactive bank. -/
structure Core where
  run : Option SliceRun := none
  inReset : Bool := false
  stopAcked : Bool := false
  pc : Nat := 0
  sreg : List (Nat × W64) := []
  vreg : List (Nat × VecData) := []
  mask : List (Nat × LaneMask) := []
  srSeed : W64 := 0
  srTensor : W64 := 0
  srStep : W64 := 0
  crib : List Host.Cell := []
  cribErr : List (Nat × CribErr) := []
  store : List (Nat × W16) := []
  tileScale : List (Nat × Byte) := []
  tileBuf : Bool := false
  moveScale : List (Nat × Byte) := []
  moveBuf : BitVec 4 := 0
  held : List ScaleRead := []
  acc : List (Nat × W32) := []
  storeFmt : BitVec 4 := 0
  storeBad : List Nat := []
  accBad : List Nat := []
  scaleBad : List (Bool × BitVec 2 × Byte) := []
  rowMask : W64 := BitVec.allOnes 64
  colMask : W64 := BitVec.allOnes 64
  streams : List Stream := []
  engines : List (Nat × EngOp) := []
  ops : List CoreOpEntry := []
  nextOp : Nat := 0
  nextSeq : Nat := 0
  prog : List (Nat × W64) := []
  progBad : List Nat := []
  active : Bool := false
  switch : Option Nat := none
  switched : Bool := false
  loading : List Nat := []
  switchCount : W16 := 0
  wait : Option CoreWait := none
  wild : Option Nat := none
  notBefore : Nat := 0
deriving DecidableEq, Repr

/-- One partial held in a reduction slot (R180 to R182): with fewer values than the slot has elements it is still
arriving from `src`. -/
structure Partial where
  src : Option Place
  lo : Nat
  hi : Nat
  vals : List W32
deriving DecidableEq, Repr

/-- A partial on its way to a forward target (R184, R187). -/
structure FwdSend where
  dst : Place
  slot : Fin 1024
  sent : Bool
deriving DecidableEq, Repr

/-- An armed reduction slot (R178 to R186). -/
structure RuSlot where
  pid : Nat
  part : PartIx
  total : Nat
  lo : Nat
  hi : Nat
  localLo : Nat
  localHi : Nat
  inputs : Nat
  elements : Nat
  got : List (Nat × Nat)
  partials : List Partial
  armTick : Nat
  done : Bool
  destDone : Bool
  fwd : List FwdSend
deriving DecidableEq, Repr

/-- A partial waiting for its slot (R185). -/
structure EarlyPartial where
  msg : PartialMsg
  since : Nat
  viaLocal : Bool
deriving DecidableEq, Repr

/-- An OPTIMIZER_STEP under way (R191, R196): what all elements share once it has been read, the next element, its writes still to be made, and
the CRC so far. -/
structure OptProg where
  pid : Nat
  norm : Option W32
  rate : Option W32
  next : Nat
  writes : List (Nat × List Byte)
  crc : W64
deriving DecidableEq, Repr

/-- The reduce-and-update unit (spec 06). -/
structure RuUnit where
  slots : List (Nat × RuSlot) := []
  waiting : List Nat := []
  early : List EarlyPartial := []
  steps : List OptProg := []
deriving DecidableEq, Repr

/-- A ring (R198 to R203, R580). -/
structure Ring where
  base : W64 := 0
  enable : Bool := false
  completion : Bool := false
  stopOnError : Bool := false
  sizeLog2 : BitVec 5 := 4
  part : BitVec 4 := 0
  engine : BitVec 4 := 0
  irqMode : BitVec 2 := 0
  vector : BitVec 11 := 0
  head : W32 := 0
  tail : W32 := 0
  halted : Bool := false
  disabling : Bool := false
  dbError : Bool := false
  lastStatus : Byte := 0
  reserved : Nat := 0
  kept : List (List Byte × Bool) := []
  waitBlock : Option Nat := none
deriving DecidableEq, Repr

/-- Where a started packet stands. -/
inductive PktPhase where
  | started      -- decoded, its own command has not run
  | running      -- its effect is under way
  | queued       -- in Groom's queue (R248)
  | granted      -- taken by Groom in this tick (R247)
  | finished     -- status decided; its record waits for acknowledgements (R220)
deriving DecidableEq, Repr

/-- A started packet with its record slot reserved (R207 to R222); `errAt` is the place of its first error in the order of
its bytes, `order` the release of a chained packet, `engine` its ring's copy engine when it started, `plan` the plan tick of its partition in the
tick that it counts as decoded in, once that tick has begun (R227). -/
structure Pkt where
  pid : Nat
  ring : RingIx
  index : W32
  launch : Option Nat
  part : PartIx
  cring : RingIx
  opcode : Byte
  flags : Byte
  seq : W32
  body : List Byte
  startTick : Nat
  phase : PktPhase := .started
  status : Status := .ok
  result : W64 := 0
  detail : W32 := 0
  order : Nat := 0
  errAt : Option Nat := none
  engine : Nat := 0
  plan : Option Nat := none
deriving DecidableEq, Repr

/-- A plan entry that has been read (R225, R228). -/
structure PlanSlice where
  rel : Nat
  core : CoreIx
  entry : Nat
  args : List W64
deriving DecidableEq, Repr

/-- A launch in progress (R225 to R232, R581); `order` is its place in the order of decoding (R229). -/
structure Launch where
  key : Nat
  order : Nat
  pid : Option Nat
  batch : Option Nat
  id : W32
  part : PartIx
  dies : Byte
  first : Nat
  plan : Nat
  entries : Nat
  readNext : Nat
  readTo : Nat
  lastKey : Option (Nat × Nat)
  slices : List PlanSlice
  cancelFrom : Option Nat
  failure : Option (Nat × Nat × Status)
  ran : Nat
  chain : Nat
  chainCount : Nat
  chainNext : Nat
  chainRel : Nat
  chainOpen : List Nat
  args : Option (List W64)
deriving DecidableEq, Repr

/-- A request accepted into a batch (R138 to R142): `copied` once its input rows are in the staging buffer. -/
structure BatchReq where
  pid : Nat
  rows : Nat
  row : Nat
  dest : Nat
  copied : Bool
deriving DecidableEq, Repr

/-- A coalescer batch of one partition and class (R138 to R142, R233 to R236); `outcome` is the status of its launch. -/
structure Batch where
  key : Nat
  part : PartIx
  cls : Fin 64
  number : Nat
  template : Nat
  entries : Nat
  inRow : Nat
  outRow : Nat
  staging : Nat
  firstTick : Nat
  rows : Nat
  closed : Bool
  launched : Bool
  outcome : Option Status
  reqs : List BatchReq
deriving DecidableEq, Repr

/-- A copy-class packet on its engine (R237 to R242): runs done and offset in the current run. -/
structure CopyJob where
  pid : Nat
  run : Nat
  off : Nat
  written : Nat
  stalled : Bool
deriving DecidableEq, Repr

/-- A copy engine (R237); `served` is the ring of its last chunk in the present pass over its rings. -/
structure CopyEngine where
  jobs : List CopyJob := []
  lastRing : Nat := 0
  served : Option Nat := none
  bytes : Nat := 0
deriving DecidableEq, Repr

/-- Groom (R247 to R252). -/
structure GroomUnit where
  queue : List Nat := []
  nextPart : Nat := 0
  served : Option Nat := none
  budgetLeft : Nat := 0
  skip : List Nat := []
  wdog : Nat := 0
deriving DecidableEq, Repr

/-- A slotted signal (R263, R264): who gets its acknowledgement, a local requester or the sender of a message. A SYNC_ADD is a register write, which
no refusal of its object fails (`posted`); `fn` is the latch index of who made it, whose reads wait for it (R295, R297). -/
structure SlotSignal where
  obj : ObjIx
  inc : W64
  part : Nat
  who : Option (Req × Nat)
  head : Option MsgHead
  posted : Bool := false
  fn : Option Nat := none
deriving DecidableEq, Repr

/-- A sync object (R253). -/
structure SyncObj where
  value : W64 := 0
  owner : BitVec 4 := 0
  poison : Bool := false
deriving DecidableEq, Repr

/-- A packet waiter (R258 to R261). -/
structure PktWaiter where
  pid : Nat
  obj : ObjIx
  equal : Bool
  thr : W64
  deadline : Option Nat
deriving DecidableEq, Repr

/-- A CLEAR that waits for its bank (R268): the register write that waits for its effect, and who made it (R295 to R297). -/
structure ClearReq where
  obj : ObjIx
  who : Option (Req × Nat) := none
  fn : Option Nat := none
deriving DecidableEq, Repr

/-- The sync unit (spec 08). -/
structure SyncUnit where
  objs : List (Nat × SyncObj) := []
  slots : List (Nat × SlotSignal) := []
  waiters : List PktWaiter := []
  clears : List ClearReq := []
  hiLatch : List (Nat × W32) := []
deriving DecidableEq, Repr

/-- An event raised by a unit and slotted at the fault collector (R493 to R497). -/
structure Event where
  src : Fin 20
  cls : Cls
  detail : W32
  forced : Bool
deriving DecidableEq, Repr

/-- The fuses (R534, R547, R569, R577); the owner key's fuses hold a digest once programmed. Their values at
the model's start are a DESIGN CHOICE (log entry 3). -/
structure Fuses where
  arrays : BitVec 192 := BitVec.allOnes 192
  stepping : BitVec 4 := 0
  grade : BitVec 2 := 0
  serial : W64 := 0
  svn : W16 := 0
  ownerKey : Option (BitVec 384) := none
deriving DecidableEq, Repr

/-- A system-barrier instance counted on the lead (R287, R288). -/
structure SysInstance where
  part : PartIx
  inst : Nat
  dies : List Place
deriving DecidableEq, Repr

end Sys2Proof.Machine
end

