-- ==== Sys2Proof/Syntax.lean ====
section
/-! DEFINITION. The commands of the die: one constructor per row of the opcode table, with the row's operands
(log entry 4 says where an operand stands for what the spec leaves to the surroundings). -/

namespace Sys2Proof

open Machine

inductive Instr where
  /-- TICK_RUN (R37). A write of 1 to TICK_CTRL.RUN starts the tick on the lead die, or starts tick acquisition on any other die. -/
  | tickRun (who : Who) (v : W32)
  /-- BEAT_BOUNDARY (R39). Before RUN is set, a local beat of TICK_PERIOD reference clocks expires, and the tick-counted rules act at it. -/
  | beatBoundary
  /-- TICK_BOUNDARY (R36). The tick period expires and boundary B(T) begins; the tick number advances and the boundary actions run. -/
  | tickBoundary
  /-- GUARD_START (R43). The guard of the tick begins: the die completes acknowledgements, samples the digest, sends its tick acknowledgement and judges overruns. -/
  | guardStart (watts : Nat) (scaled : Nat)
  /-- TICK_MSG_SEND (R63). At the midpoint of tick T+1 the lead sends TICK(T+2) with membership, slips and mode-change decisions. -/
  | tickMsgSend
  /-- TICK_MSG_RECEIVE (R63). A die receives a TICK message, tracks its phase and adopts its contents for action at the named boundary. -/
  | tickMsgReceive (port : LinkPort) (m : TickMsg) (offset : W16) (chain : W16)
  /-- TICK_ACK_RECEIVE (R63). The lead receives and merges a member's tick acknowledgement. -/
  | tickAckReceive (a : TickAck)
  /-- MEMBER_ACK_LOSS (R67). A member's acknowledgement is missing for ACK_LOSS consecutive ticks and the lead removes it from the membership. -/
  | memberAckLoss (src : Place)
  /-- TICK_IN_PULSE (R562). A die receives the TICK_IN pulse, takes its boundary from it and retimes it on TICK_OUT. -/
  | tickInPulse
  /-- HOLDOVER_ENTER (R65). No TICK message for HOLDOVER ticks, or an offset beyond LOSS_LIMIT, puts the die into holdover. -/
  | holdoverEnter
  /-- TICK_LOST (R66). A die still in holdover after HOLDOVER further ticks becomes tick-lost. -/
  | tickLost
  /-- LINK_DELAY_ECHO (R58). Every 1,024 ticks a die measures link delay by a LINK_MANAGEMENT echo. -/
  | linkDelayEcho (port : LinkPort) (time : W64)
  /-- ECHO_REQUEST (R58). A die receives a LINK_MANAGEMENT echo request and answers with an echo reply. -/
  | echoRequest (port : LinkPort) (time : W64)
  /-- ECHO_REPLY (R58). A die receives an echo reply and takes half the round trip as the one-way delay. -/
  | echoReply (port : LinkPort) (time : W64) (now : W64)
  /-- MODE_CHANGE (R71). A MODE_CHANGE packet is forwarded by Groom to the lead, which schedules it or defers it. -/
  | modeChange (pid : Nat)
  /-- ADD (R89). Scalar register-form add. -/
  | add (c : CoreIx) (sd : Reg) (sa : Reg) (sb : Reg)
  /-- SUB (R89). Scalar register-form subtract. -/
  | sub (c : CoreIx) (sd : Reg) (sa : Reg) (sb : Reg)
  /-- AND (R89). Scalar register-form bitwise and. -/
  | and (c : CoreIx) (sd : Reg) (sa : Reg) (sb : Reg)
  /-- OR (R89). Scalar register-form bitwise or. -/
  | or (c : CoreIx) (sd : Reg) (sa : Reg) (sb : Reg)
  /-- XOR (R89). Scalar register-form bitwise xor. -/
  | xor (c : CoreIx) (sd : Reg) (sa : Reg) (sb : Reg)
  /-- SHL (R89). Scalar register-form shift left by sb[5:0]. -/
  | shl (c : CoreIx) (sd : Reg) (sa : Reg) (sb : Reg)
  /-- SHR (R89). Scalar register-form logical shift right. -/
  | shr (c : CoreIx) (sd : Reg) (sa : Reg) (sb : Reg)
  /-- SRA (R89). Scalar register-form arithmetic shift right. -/
  | sra (c : CoreIx) (sd : Reg) (sa : Reg) (sb : Reg)
  /-- MUL (R89). Scalar register-form multiply keeping the low 64 bits. -/
  | mul (c : CoreIx) (sd : Reg) (sa : Reg) (sb : Reg)
  /-- MULHU (R89). Scalar register-form high 64 bits of the unsigned product. -/
  | mulhu (c : CoreIx) (sd : Reg) (sa : Reg) (sb : Reg)
  /-- SLT (R89). Scalar register-form signed set-less-than. -/
  | slt (c : CoreIx) (sd : Reg) (sa : Reg) (sb : Reg)
  /-- SLTU (R89). Scalar register-form unsigned set-less-than. -/
  | sltu (c : CoreIx) (sd : Reg) (sa : Reg) (sb : Reg)
  /-- MIN (R89). Scalar register-form signed minimum. -/
  | min (c : CoreIx) (sd : Reg) (sa : Reg) (sb : Reg)
  /-- MAX (R89). Scalar register-form signed maximum. -/
  | max (c : CoreIx) (sd : Reg) (sa : Reg) (sb : Reg)
  /-- ADD_IMM (R89). Scalar immediate-form add. -/
  | addImm (c : CoreIx) (sd : Reg) (sa : Reg) (imm : W32)
  /-- SUB_IMM (R89). Scalar immediate-form subtract. -/
  | subImm (c : CoreIx) (sd : Reg) (sa : Reg) (imm : W32)
  /-- AND_IMM (R89). Scalar immediate-form bitwise and. -/
  | andImm (c : CoreIx) (sd : Reg) (sa : Reg) (imm : W32)
  /-- OR_IMM (R89). Scalar immediate-form bitwise or. -/
  | orImm (c : CoreIx) (sd : Reg) (sa : Reg) (imm : W32)
  /-- XOR_IMM (R89). Scalar immediate-form bitwise xor. -/
  | xorImm (c : CoreIx) (sd : Reg) (sa : Reg) (imm : W32)
  /-- SHL_IMM (R89). Scalar immediate-form shift left. -/
  | shlImm (c : CoreIx) (sd : Reg) (sa : Reg) (imm : W32)
  /-- SHR_IMM (R89). Scalar immediate-form logical shift right. -/
  | shrImm (c : CoreIx) (sd : Reg) (sa : Reg) (imm : W32)
  /-- SRA_IMM (R89). Scalar immediate-form arithmetic shift right. -/
  | sraImm (c : CoreIx) (sd : Reg) (sa : Reg) (imm : W32)
  /-- MUL_IMM (R89). Scalar immediate-form multiply. -/
  | mulImm (c : CoreIx) (sd : Reg) (sa : Reg) (imm : W32)
  /-- MULHU_IMM (R89). Scalar immediate-form high unsigned product. -/
  | mulhuImm (c : CoreIx) (sd : Reg) (sa : Reg) (imm : W32)
  /-- SLT_IMM (R89). Scalar immediate-form signed set-less-than. -/
  | sltImm (c : CoreIx) (sd : Reg) (sa : Reg) (imm : W32)
  /-- SLTU_IMM (R89). Scalar immediate-form unsigned set-less-than. -/
  | sltuImm (c : CoreIx) (sd : Reg) (sa : Reg) (imm : W32)
  /-- MIN_IMM (R89). Scalar immediate-form signed minimum. -/
  | minImm (c : CoreIx) (sd : Reg) (sa : Reg) (imm : W32)
  /-- MAX_IMM (R89). Scalar immediate-form signed maximum. -/
  | maxImm (c : CoreIx) (sd : Reg) (sa : Reg) (imm : W32)
  /-- LI (R89). Loads a sign-extended immediate into sd. -/
  | li (c : CoreIx) (sd : Reg) (imm : W32)
  /-- LIH (R89). Loads the immediate into the upper 32 bits of sd. -/
  | lih (c : CoreIx) (sd : Reg) (imm : W32)
  /-- LD (R98). 64-bit DVA load through the L1, or at the point of coherence with V = 1. -/
  | ld (c : CoreIx) (sd : Reg) (sa : Reg) (imm : W32) (v : Bool)
  /-- LW (R98). Zero-extended 32-bit DVA load through the L1, or volatile with V = 1. -/
  | lw (c : CoreIx) (sd : Reg) (sa : Reg) (imm : W32) (v : Bool)
  /-- SD (R98). 64-bit DVA store of sd. -/
  | sd (c : CoreIx) (sd : Reg) (sa : Reg) (imm : W32)
  /-- SW (R98). 32-bit DVA store of sd. -/
  | sw (c : CoreIx) (sd : Reg) (sa : Reg) (imm : W32)
  /-- LDC (R99). 64-bit crib load into sd. -/
  | ldc (c : CoreIx) (sd : Reg) (sa : Reg) (imm : W32)
  /-- SDC (R99). 64-bit crib store of sd. -/
  | sdc (c : CoreIx) (sd : Reg) (sa : Reg) (imm : W32)
  /-- CSRR (R101). Reads a core status register into sd. -/
  | csrr (c : CoreIx) (sd : Reg) (n : BitVec 12)
  /-- CSRW (R101). Writes sa to a writable core status register. -/
  | csrw (c : CoreIx) (sa : Reg) (n : BitVec 12)
  /-- AMOADD (R292). Atomic add at a DVA address, returning the old value. -/
  | amoadd (c : CoreIx) (sd : Reg) (sa : Reg) (sb : Reg) (w : Bool)
  /-- AMOSWAP (R292). Atomic swap at a DVA address, returning the old value. -/
  | amoswap (c : CoreIx) (sd : Reg) (sa : Reg) (sb : Reg) (w : Bool)
  /-- AMOCAS (R292). Atomic compare-and-swap at a DVA address, returning the old value. -/
  | amocas (c : CoreIx) (sd : Reg) (sa : Reg) (sb : Reg) (w : Bool)
  /-- NOP (R89). Scalar no-operation. -/
  | nop (c : CoreIx)
  /-- BEQ (R100). Branch if equal. -/
  | beq (c : CoreIx) (sa : Reg) (sb : Reg) (imm : W32)
  /-- BNE (R100). Branch if not equal. -/
  | bne (c : CoreIx) (sa : Reg) (sb : Reg) (imm : W32)
  /-- BLT (R100). Branch if signed less than. -/
  | blt (c : CoreIx) (sa : Reg) (sb : Reg) (imm : W32)
  /-- BGE (R100). Branch if signed greater or equal. -/
  | bge (c : CoreIx) (sa : Reg) (sb : Reg) (imm : W32)
  /-- BLTU (R100). Branch if unsigned less than. -/
  | bltu (c : CoreIx) (sa : Reg) (sb : Reg) (imm : W32)
  /-- BGEU (R100). Branch if unsigned greater or equal. -/
  | bgeu (c : CoreIx) (sa : Reg) (sb : Reg) (imm : W32)
  /-- JAL (R100). Jump relative and link pc + 8 in sd. -/
  | jal (c : CoreIx) (sd : Reg) (imm : W32)
  /-- JR (R100). Jump to byte offset sa in the active bank. -/
  | jr (c : CoreIx) (sa : Reg)
  /-- VADD (R170). Vector add. -/
  | vadd (c : CoreIx) (vd : Reg) (va : Reg) (vb : Reg) (m : BitVec 2) (ty : VType)
  /-- VSUB (R170). Vector subtract. -/
  | vsub (c : CoreIx) (vd : Reg) (va : Reg) (vb : Reg) (m : BitVec 2) (ty : VType)
  /-- VMUL (R170). Vector multiply. -/
  | vmul (c : CoreIx) (vd : Reg) (va : Reg) (vb : Reg) (m : BitVec 2) (ty : VType)
  /-- VMIN (R172). Vector minimum. -/
  | vmin (c : CoreIx) (vd : Reg) (va : Reg) (vb : Reg) (m : BitVec 2) (ty : VType)
  /-- VMAX (R172). Vector maximum. -/
  | vmax (c : CoreIx) (vd : Reg) (va : Reg) (vb : Reg) (m : BitVec 2) (ty : VType)
  /-- VABS (R170). Vector absolute value. -/
  | vabs (c : CoreIx) (vd : Reg) (va : Reg) (m : BitVec 2) (ty : VType)
  /-- VFMA (R170). Vector fused multiply-add with one rounding. -/
  | vfma (c : CoreIx) (vd : Reg) (va : Reg) (vb : Reg) (vc : Reg) (m : BitVec 2) (ty : VType)
  /-- VCMP (R172). Vector compare writing a lane mask. -/
  | vcmp (c : CoreIx) (md : BitVec 2) (va : Reg) (vb : Reg) (m : BitVec 2) (ty : VType) (op : CmpOp)
  /-- VSEL (R89). Vector select by mask. -/
  | vsel (c : CoreIx) (vd : Reg) (va : Reg) (vb : Reg) (m : BitVec 2)
  /-- VCVT (R162). Vector conversion to a narrower format with the chosen rounding. -/
  | vcvt (c : CoreIx) (vd : Reg) (va : Reg) (vb : Reg) (m : BitVec 2) (ty : VType) (out : OutFmt) (rnd : Rounding)
  /-- VBCAST (R89). Broadcasts a scalar register to every lane. -/
  | vbcast (c : CoreIx) (vd : Reg) (sa : Reg) (m : BitVec 2)
  /-- VRED (R157). Reduces the 128 lanes by the canonical tree into lane 0. -/
  | vred (c : CoreIx) (vd : Reg) (va : Reg) (m : BitVec 2) (ty : VType)
  /-- VMOVS (R89). Moves one vector lane into a scalar register. -/
  | vmovs (c : CoreIx) (sd : Reg) (va : Reg) (ln : BitVec 7)
  /-- VEXP (R174). Vector exponential. -/
  | vexp (c : CoreIx) (vd : Reg) (va : Reg) (m : BitVec 2)
  /-- VLOG (R174). Vector natural logarithm. -/
  | vlog (c : CoreIx) (vd : Reg) (va : Reg) (m : BitVec 2)
  /-- VRCP (R174). Vector reciprocal. -/
  | vrcp (c : CoreIx) (vd : Reg) (va : Reg) (m : BitVec 2)
  /-- VRSQRT (R174). Vector reciprocal square root. -/
  | vrsqrt (c : CoreIx) (vd : Reg) (va : Reg) (m : BitVec 2)
  /-- VSIN (R174). Vector sine. -/
  | vsin (c : CoreIx) (vd : Reg) (va : Reg) (m : BitVec 2)
  /-- VCOS (R174). Vector cosine. -/
  | vcos (c : CoreIx) (vd : Reg) (va : Reg) (m : BitVec 2)
  /-- VTANH (R174). Vector hyperbolic tangent. -/
  | vtanh (c : CoreIx) (vd : Reg) (va : Reg) (m : BitVec 2)
  /-- VSIGM (R174). Vector sigmoid. -/
  | vsigm (c : CoreIx) (vd : Reg) (va : Reg) (m : BitVec 2)
  /-- VLD (R99). Loads 512 bytes from the crib into a vector register. -/
  | vld (c : CoreIx) (vd : Reg) (sa : Reg) (m : BitVec 2) (imm : W32)
  /-- VST (R99). Stores a vector register's 512 bytes into the crib. -/
  | vst (c : CoreIx) (vd : Reg) (sa : Reg) (imm : W32)
  /-- VLDG (R99). Loads 512 bytes from DVA space through the L1. -/
  | vldg (c : CoreIx) (vd : Reg) (sa : Reg) (m : BitVec 2) (imm : W32)
  /-- VSTG (R99). Stores 512 bytes to DVA space. -/
  | vstg (c : CoreIx) (vd : Reg) (sa : Reg) (imm : W32)
  /-- LOADW (R119). Moves a 64-row tile and its scales from the crib into the stationary store. -/
  | loadw (c : CoreIx) (fmt : ArrFmt) (src : BitVec 22)
  /-- PASS (R120). Streams moving rows through an array against the stored tile read along columns. -/
  | pass (c : CoreIx) (fmt : ArrFmt) (fold : Bool) (arr : BitVec 2) (rowsM1 : BitVec 8) (acc : BitVec 8) (src : BitVec 22)
  /-- PASST (R121). Streams moving rows through an array against the stored tile read along rows. -/
  | passt (c : CoreIx) (fmt : ArrFmt) (fold : Bool) (arr : BitVec 2) (rowsM1 : BitVec 8) (acc : BitVec 8) (src : BitVec 22)
  /-- DRAIN (R130). Converts accumulator rows to the OUT format and writes them to the crib. -/
  | drain (c : CoreIx) (sa : Reg) (sb : Reg) (arr : BitVec 2) (rowsM1 : BitVec 8) (acc : BitVec 8) (out : OutFmt) (rnd : Rounding) (dst : BitVec 22)
  /-- MASK (R133). Sets the row mask and column masks for later passes and drains. -/
  | mask (c : CoreIx) (sa : Reg) (sb : Reg)
  /-- FETCH (R94). A fetch/stow engine copies a block from DVA space into crib rows. -/
  | fetch (c : CoreIx) (sa : Reg) (sb : Reg) (sc : Reg) (v : Bool) (crib : BitVec 22)
  /-- STOW (R95). A fetch/stow engine copies crib rows into a block of DVA space. -/
  | stow (c : CoreIx) (sa : Reg) (sb : Reg) (sc : Reg) (crib : BitVec 22)
  /-- SIGNAL_INSTRUCTION (R105). Adds an increment to a local or remote sync object after earlier writes are acknowledged. -/
  | signalInstr (c : CoreIx) (r : Reg) (reg : Bool) (remote : Bool) (die : DieIx) (obj : ObjIx) (imm : W32)
  /-- WAIT_INSTRUCTION (R106). Stalls issue until a local sync object meets the condition. -/
  | waitInstr (c : CoreIx) (r : Reg) (equal : Bool) (obj : ObjIx)
  /-- BARRIER_INSTRUCTION (R108). Core, yard, die or system barrier among the launch's participants. -/
  | barrierInstr (c : CoreIx) (scope : Scope)
  /-- SLICE_END (R109). Issues once every earlier instruction has issued and marks the end of the slice. -/
  | sliceEnd (c : CoreIx)
  /-- SLICE_END_RETIRE (R109). SLICE_END retires once every operation of the slice has completed and every write is acknowledged. -/
  | sliceEndRetire (c : CoreIx)
  /-- UNDEFINED_ENCODING (R97). An undefined encoding reaches issue; the slice stops with ILLEGAL_OPCODE and later slices are cancelled. -/
  | undefinedEncoding (c : CoreIx)
  /-- PROGRAM_PARITY_STOP (R116). A parity error on an instruction fetch stops the slice with ECC_UNCORRECTABLE. -/
  | programParityStop (c : CoreIx)
  /-- CRIB_ECC_WRITEBACK (R88). A corrected crib word is written back in the first cycle its bank is free. -/
  | cribEccWriteback (c : CoreIx) (word : Nat)
  /-- FETCH_COMPLETE (R285). A FETCH's rows have all reached the crib and its range-tracker entry is freed. -/
  | fetchComplete (c : CoreIx) (e : EngIx)
  /-- WRITE_ACKNOWLEDGE (R273). A write is acknowledged to its source once performed at its point of coherence and copies are invalidated. -/
  | writeAcknowledge (req : Req) (id : Nat)
  /-- LOAD_RETURN (R91). A load that missed returns its value from the die ring and its dependants may issue. -/
  | loadReturn (c : CoreIx) (id : Nat)
  /-- BARRIER_RELEASE (R108). Every participant has reached the barrier with earlier writes acknowledged and the barrier issues. -/
  | barrierRelease (c : CoreIx)
  /-- SYSBAR_ARRIVAL (R288). The lead receives a die's system-barrier arrival and counts it for the instance. -/
  | sysbarArrival (src : Place) (part : PartIx) (inst : Nat)
  /-- SYSBAR_RELEASE (R288). A die receives the system-barrier release and the barrier issues on its participants. -/
  | sysbarRelease (part : PartIx) (inst : Nat)
  /-- DECODE_ROUND (R210). The decoder considers rings with unstarted packets in ascending index and starts at most one packet per ring after its checks. -/
  | decodeRound
  /-- DOORBELL (R201). A doorbell write advances TAIL of a submission ring or HEAD of a completion ring if accepted. -/
  | doorbell (who : Who) (r : RingIx) (v : W32)
  /-- RESUME (R217). A write of CONTROL.RESUME clears HALTED and resumes decoding or the writing of kept records. -/
  | resume (who : Who) (r : RingIx)
  /-- RING_ENABLE (R203). ENABLE changes from 0 to 1, resetting HEAD and TAIL and clearing HALTED. -/
  | ringEnable (who : Who) (r : RingIx) (v : W32)
  /-- RING_DISABLE (R203). The owning function clears ENABLE; no further packet starts or no new record slot is reserved. -/
  | ringDisable (who : Who) (r : RingIx) (v : W32)
  /-- RING_DISABLE_COMPLETE (R203). A disabling completion ring becomes disabled once no record slot remains reserved. -/
  | ringDisableComplete (r : RingIx)
  /-- COMPLETION_RECORD_WRITE (R220). A packet's record is written once its writes are acknowledged, and TAIL advances once the record is acknowledged. -/
  | completionRecordWrite (pid : Nat)
  /-- NOP_PACKET (R209). The NOP packet completes with no effect. -/
  | nopPacket (pid : Nat)
  /-- LAUNCH_SLICES (R225). Starts a plan of slices at a relative or absolute plan tick. -/
  | launchSlices (pid : Nat)
  /-- LAUNCH_STEP (R232). Starts a plan of slices with a chain of fast-path packets released at plan ticks. -/
  | launchStep (pid : Nat)
  /-- PLAN_TABLE_READ (R228). During the preceding wall tick the command processor reads a plan tick's entries and cancels the launch at a bad entry. -/
  | planTableRead (key : Nat)
  /-- COALESCE_DECODE (R234). A decode request packet is started and waits for acceptance into a batch. -/
  | coalesceDecode (pid : Nat)
  /-- COALESCE_BATCH_COMPLETE (R141). When the batch launch completes, outputs are copied and each request's record is written. -/
  | coalesceBatchComplete (key : Nat)
  /-- COPY (R239). Copies bytes between DVA and crib spaces in ordered chunks. -/
  | copy (pid : Nat)
  /-- COPY_INLINE (R237). Writes up to 448 bytes of inline packet data to a destination. -/
  | copyInline (pid : Nat)
  /-- FILL (R237). Writes a 32-bit pattern repeatedly to a destination. -/
  | fill (pid : Nat)
  /-- COPY_STRIDED (R238). Copies a three-dimensional set of runs with signed strides. -/
  | copyStrided (pid : Nat)
  /-- COPY_CHUNK (R239). A copy engine takes one 64 KiB chunk from a ring with work, reads it whole, then writes it. -/
  | copyChunk (e : CopyIx)
  /-- PREFETCH_RANGE (R381). Fills the device cache with a range, or migrates its HOST pages to device memory. -/
  | prefetchRange (pid : Nat)
  /-- ADVISE (R382). Applies will-need, will-not-need, read-once, prefer-device or prefer-host advice to a range. -/
  | advise (pid : Nat)
  /-- REDUCE_SEGMENT (R178). Arms a reduction slot over a node range after its payload checks. -/
  | reduceSegment (pid : Nat)
  /-- REDUCE_PARTIAL_RECEIVE (R181). A partial arrives for a slot and is accepted, combined, buffered early or dropped. -/
  | reducePartialReceive (m : PartialMsg)
  /-- REDUCE_PARTIAL_SEND (R187). A completed partial leaves over a port in a window tick of its partition. -/
  | reducePartialSend (slot : Fin 1024) (n : Fin 4)
  /-- REDUCE_SLOT_COMPLETE (R184). Once DEST writes and forward receipts are acknowledged, the packet completes OK and the slot is released. -/
  | reduceSlotComplete (slot : Fin 1024)
  /-- EARLY_ARRIVAL_TIMEOUT (R185). A partial that waited RU_TIMEOUT.EARLY ticks for its slot is dropped. -/
  | earlyArrivalTimeout (n : Nat)
  /-- SLOT_TIMEOUT (R186). A slot incomplete RU_TIMEOUT.SLOT ticks after arming is released and its packet completes ABORTED. -/
  | slotTimeout (slot : Fin 1024)
  /-- NORM_PARTIAL (R189). Computes the squared-norm partial of a node of pieces and writes one FP32 value. -/
  | normPartial (pid : Nat)
  /-- OPTIMIZER_STEP (R192). Updates master weights and state by AdamW or momentum SGD and writes working copies and the step CRC. -/
  | optimizerStep (pid : Nat)
  /-- SIGNAL_PACKET (R254). Adds a 64-bit increment to a local or remote sync object with fenced order. -/
  | signalPacket (pid : Nat)
  /-- WAIT_PACKET (R261). Registers a packet waiter on a sync object and blocks its ring until satisfied or timed out. -/
  | waitPacket (pid : Nat)
  /-- BARRIER_PACKET (R243). Completes once every earlier packet of its ring, or of the partition's rings on the die, has completed. -/
  | barrierPacket (pid : Nat)
  /-- FLAG_WRITE (R243). Writes a 32- or 64-bit flag after earlier packets of the ring complete. -/
  | flagWrite (pid : Nat)
  /-- TIMESTAMP (R243). Writes the wall tick, reference clocks since its boundary and the epoch. -/
  | timestamp (pid : Nat)
  /-- MAP_RANGE (R361). Groom maps a DVA range with an attribute, page size and rights after checks. -/
  | mapRange (pid : Nat)
  /-- UNMAP_RANGE (R376). Clears a range's leaves and broadcasts a range invalidation. -/
  | unmapRange (pid : Nat)
  /-- INVALIDATE_RANGE (R376). Broadcasts a range invalidation and drops clean copies of the range's HOST lines. -/
  | invalidateRange (pid : Nat)
  /-- LOAD_PROGRAM (R110). Writes a program into the inactive bank of the named cores. -/
  | loadProgram (pid : Nat)
  /-- SWITCH_PROGRAM (R111). Marks a bank switch pending on the named cores. -/
  | switchProgram (pid : Nat)
  /-- SET_QOS (R476). Writes a partition's rate and burst for one resource. -/
  | setQos (pid : Nat)
  /-- SELFTEST (R537). Accepts a self-test of one unit of one block after checks. -/
  | selftest (pid : Nat)
  /-- QUERY (R209). Returns firmware version, table version, fuse map, core assignment or Groom backlog. -/
  | query (pid : Nat)
  /-- OPEN_WINDOW (R439). Opens an incoming window with base, length, rights and admitted source. -/
  | openWindow (pid : Nat)
  /-- CLOSE_WINDOW (R443). Closes a window once accepted messages are performed and answered. -/
  | closeWindow (pid : Nat)
  /-- PRESERVE_ARM (R387). Arms or disarms preservation and names the preservation record page. -/
  | preserveArm (pid : Nat)
  /-- LOCK_WAYS (R343). Locks, unlocks or exactly sets the locked ways of named slices. -/
  | lockWays (pid : Nat)
  /-- GROOM_ROUND (R248). Groom takes managed packets in rounds across partitions within its per-tick budget. -/
  | groomRound
  /-- GROOM_KICK (R250). A write of GROOM_WDOG.KICK restarts the 64-tick watchdog. -/
  | groomKick (who : Who)
  /-- GROOM_WATCHDOG_EXPIRE (R250). 64 ticks pass without a kick; Groom alone is reset and its packets complete ABORTED. -/
  | groomWatchdogExpire
  /-- GROOM_RESTART_DONE (R251). Groom finishes restarting from the verified image and serves again. -/
  | groomRestartDone
  /-- SYNC_BANK_UPDATE (R263). In a ring cycle a sync bank applies one combined update to one object and tests its waiters. -/
  | syncBankUpdate (bank : Fin 8)
  /-- WAIT_TIMEOUT (R261). A WAIT packet still unsatisfied at B(s+TIMEOUT) completes ABORTED. -/
  | waitTimeout (pid : Nat)
  /-- SIGNAL_MSG_RECEIVE (R256). A SIGNAL message from another die is checked against owner or window and slotted or refused. -/
  | signalMsgReceive (m : SignalMsg)
  /-- SIGNAL_ACK_RECEIVE (R255). The acknowledgement or refusal of a remote signal returns and the sending operation completes. -/
  | signalAckReceive (head : MsgHead) (st : Status)
  /-- SYNC_ADD (R254). A host write to SYNC_ADD adds its value as a signal of source 49. -/
  | syncAdd (who : Who) (n : ObjIx) (v : W32)
  /-- SYNC_OWNER_WRITE (R267). The PF changes an object's owner, zeroing VALUE and ending every waiter. -/
  | syncOwnerWrite (who : Who) (n : ObjIx) (v : W32)
  /-- CLEAR (R268). A CLEAR write sets VALUE to 0 and clears POISON as the bank's next update. -/
  | clear (who : Who) (n : ObjIx)
  /-- SYNC_VALUE_LO_READ (R543). A read of SYNC_VALUE_LO latches bits [63:32] for the same function. -/
  | syncValueLoRead (who : Who) (n : ObjIx)
  /-- TICK_NOW_LO_READ (R543). A read of TICK_NOW_LO latches bits [63:32] for the same function. -/
  | tickNowLoRead (who : Who)
  /-- HOME_REQUEST_ACCEPT (R311). A home slice accepts a request into its acceptance order and serves, allocates or queues it in an MSHR. -/
  | homeRequestAccept (slice : SliceIx) (stop : Fin 64)
  /-- L1_INVALIDATION (R318). An L1 receives an invalidation, performs it and acknowledges. -/
  | l1Invalidation (stop : Fin 64)
  /-- L1_FILL (R318). A fill arrives at an L1 and is installed, or serves its load alone after an invalidation. -/
  | l1Fill (stop : Fin 64)
  /-- MEMORY_FILL_RETURN (R313). Data returns from memory or the host for an MSHR, which completes its secondaries in order. -/
  | memoryFillReturn (line : Nat)
  /-- REVOKE (R330). An L1 holding a line in E receives a revoke and holds the line until HOLD_MIN has passed. -/
  | revoke (stop : Fin 64)
  /-- EXCLUSIVE_RELEASE (R330). Once HOLD_MIN has passed and results are accepted, the L1 sends its release and drops the line. -/
  | exclusiveRelease (stop : Fin 64) (line : Nat)
  /-- RELEASE_RECEIVE (R331). The home receives a release and serves the line's waiting secondaries in order. -/
  | releaseReceive (slice : SliceIx) (stop : Fin 64)
  /-- FAR_ATOMIC_RETURN (R332). The HBM controller returns the old value of a far atomic and the line leaves its MSHR. -/
  | farAtomicReturn (line : Nat)
  /-- HAYLOFT_WRITEBACK (R327). A dirty hayloft entry writes its dirty sectors back, oldest first, and becomes clean. -/
  | hayloftWriteback (slice : SliceIx)
  /-- NEXT_LINE_PREFETCH (R325). A slice receives a next-line prefetch and allocates the line or drops it. -/
  | nextLinePrefetch (slice : SliceIx)
  /-- HOST_SNOOP (R338). A CXL.cache snoop from the host drops slice and L1 copies and is answered after every holder acknowledges. -/
  | hostSnoop (kind : Snoop) (addr : Nat)
  /-- KEY_SWEEP (R341). On a key change every slice drops the partition's lines without write-back. -/
  | keySweep (p : PartIx)
  /-- KEY_SWEEP_COMPLETE (R341). The key-change sweep finishes and DC_SWEEP.BUSY clears. -/
  | keySweepComplete
  /-- PATROL_SCRUB (R351). A controller reads the next line of its stack on its patrol schedule and handles errors. -/
  | patrolScrub (stack : StackIx)
  /-- HBM_OFFLINE (R352). A write of HBM_CTRL.OFFLINE takes a stack in or out of service. -/
  | hbmOffline (who : Who) (v : W32)
  /-- HKM_DATA_ACCESS (R355). A read or write of HKM_DATA accesses the indexed host key map entry and advances GRANULE. -/
  | hkmDataAccess (who : Who) (v : Option W32)
  /-- BIAS_FLIP (R365). A write of BIAS_FLIP starts a page's change to shared or device bias. -/
  | biasFlip (who : Who) (v : W32)
  /-- BIAS_FLIP_COMPLETE (R365). The bias flip finishes and BUSY clears. -/
  | biasFlipComplete
  /-- ROTATE (R356). A write of MEMKEY_CTRL.ROTATE draws a new key pair for a partition and starts its sweep. -/
  | rotate (who : Who) (v : W32)
  /-- ATS_COMPLETION (R370). The host's ATS Translation Completion arrives with a host physical address and rights. -/
  | atsCompletion (id : Nat) (hpa : Nat) (r : Bool) (w : Bool)
  /-- PAGE_REQUEST_SEND (R372). A page fault sends a PRI Page Request or joins an outstanding group. -/
  | pageRequestSend
  /-- PRG_RESPONSE (R374). A page request group response arrives; stalled accesses replay or fail. -/
  | prgResponse (fn : PartIx) (index : Nat) (code : PrgCode)
  /-- PAGE_REQUEST_TIMEOUT (R375). A group with no response after PR_TIMEOUT.TICKS ticks fails its accesses with PAGE_FAULT_UNRESOLVED. -/
  | pageRequestTimeout (fn : PartIx) (index : Nat)
  /-- PRI_ENABLE (R374). The host clears and sets PRI Enable, re-enabling page requests for the function. -/
  | priEnable (fn : PartIx)
  /-- ATS_INVALIDATION (R378). The host's ATS Invalidation Request invalidates matching ATC and TLB entries. -/
  | atsInvalidation (fn : PartIx) (tag : Nat) (lo : Nat) (hi : Nat)
  /-- ATS_INVALIDATION_COMPLETE (R378). The die sends the Invalidation Completion once every access using those translations has completed. -/
  | atsInvalidationComplete (tag : Nat)
  /-- TIER_READ (R385). A die receives a tier-read request and issues a CXL.cache current-read on its host port. -/
  | tierRead (head : MsgHead) (addr : Nat)
  /-- ORPHAN_ENTRY (R388). With preservation armed, a host link loss, hot reset, PERST# or CXL reset puts the die into the orphaned state. -/
  | orphanEntry (ev : HostEvent)
  /-- REATTACH (R390). Groom restores the tables, pools and host key map from the preservation record. -/
  | reattach (who : Who)
  /-- DISCARD (R390). Draws new keys for all partitions and ends the orphaned state. -/
  | discard (who : Who)
  /-- HOST_LINK_TRAIN (R394). The host-port modules train, full or degraded, or the port goes down. -/
  | hostLinkTrain (modules : BitVec 2) (rate : BitVec 3)
  /-- HDM_COMMIT (R400). The host commits die 0's HDM decoders, which Groom mirrors to subordinate PFs. -/
  | hdmCommit (decs : List Hdm)
  /-- HDM_MIRROR_RECEIVE (R400). A subordinate die receives the HDM mirror management message and updates its read-only decoders. -/
  | hdmMirrorReceive (head : MsgHead) (decs : List Hdm)
  /-- CXL_MEM_REQUEST (R404). A host CXL.mem request is performed at the controllers or refused with poison. -/
  | cxlMemRequest (hpa : Nat) (write : Option LineData) (mask : BitVec 128)
  /-- BAR4_ACCESS (R406). A host access through BAR4 reaches the die's device memory through the window in force. -/
  | bar4Access (tlp : Tlp) (off : Nat) (n : Nat) (write : Option (List Byte))
  /-- CXL_CACHE_RESPONSE (R409). The host answers a CXL.cache request from a slice. -/
  | cxlCacheResponse (tag : Nat) (data : LineData)
  /-- CXL_CACHE_TIMEOUT (R410). A CXL.cache request unanswered for HOST_TIMEOUT.US is abandoned with a fatal fault. -/
  | cxlCacheTimeout (tag : Nat)
  /-- P2P_READ_COMPLETION (R419). The completion of a peer-to-peer zero-length read acknowledges the preceding peer writes. -/
  | p2pReadCompletion (tag : Nat) (data : List Byte)
  /-- FLR_VF (R413). A function-level reset of VF p starts the partition reset of partition p. -/
  | flrVf (p : PartIx)
  /-- FLR_PF (R416). A function-level reset of the PF resets all 16 partitions and clears VF Enable. -/
  | flrPf
  /-- CXL_RESET (R417). A CXL Reset resets the die, or orphans it with preservation armed. -/
  | cxlReset
  /-- HOST_RESET_EVENT (R388). Host link loss, hot reset or PERST# without preservation armed causes a die reset. -/
  | hostResetEvent (ev : HostEvent)
  /-- GET_VERSION (R424). SPDM GET_VERSION request over DOE. -/
  | getVersion
  /-- GET_CAPABILITIES (R424). SPDM GET_CAPABILITIES request over DOE. -/
  | getCapabilities
  /-- NEGOTIATE_ALGORITHMS (R425). SPDM NEGOTIATE_ALGORITHMS request over DOE. -/
  | negotiateAlgorithms
  /-- GET_DIGESTS (R425). SPDM GET_DIGESTS request over DOE. -/
  | getDigests
  /-- GET_CERTIFICATE (R425). SPDM GET_CERTIFICATE request over DOE. -/
  | getCertificate (slot : Nat) (off : Nat) (n : Nat)
  /-- CHALLENGE (R425). SPDM CHALLENGE request, answered with a signature within 50 ms. -/
  | challenge (slot : Nat) (nonce : List Byte)
  /-- GET_MEASUREMENTS (R425). SPDM GET_MEASUREMENTS request, answered with signed measurements. -/
  | getMeasurements (index : Nat) (signed : Bool) (nonce : List Byte)
  /-- SPDM_UNSUPPORTED_REQUEST (R424). Any other SPDM request is answered with ERROR UnsupportedRequest. -/
  | spdmUnsupportedRequest (code : Byte)
  /-- DOE_DISCOVERY (R424). A DOE Discovery request on the PF mailbox. -/
  | doeDiscovery (index : Nat)
  /-- CXL_TABLE_ACCESS (R404). A CXL Table Access request over DOE returns the CDAT. -/
  | cxlTableAccess (index : Nat)
  /-- PEER_LINK_TRAIN (R427). A peer port trains and exchanges hellos; the link comes up or is held down. -/
  | peerLinkTrain (port : PortIx) (modules : BitVec 4)
  /-- LINK_HELLO_RECEIVE (R450). A LINK_MANAGEMENT hello arrives with the partner's IDs and pool sizes. -/
  | linkHelloReceive (port : LinkPort) (h : Hello)
  /-- LINK_LIST_RECEIVE (R429). A die receives another die's link list and fills PEER_ROUTE. -/
  | linkListReceive (port : PortIx) (die : DieIx) (links : List (DieIx × PortIx × Bool))
  /-- PEER_MODULE_LOSS (R428). A peer-port module fails and the port runs on the rest at a proportional rate. -/
  | peerModuleLoss (port : PortIx) (m : Fin 4)
  /-- PEER_LINK_DOWN (R430). A peer link goes down; its outstanding operations complete LINK_LOST. -/
  | peerLinkDown (port : PortIx)
  /-- OPTICAL_MSG_RECEIVE (R431). A message received on an optical port passes the fabric gate and port authority or is dropped. -/
  | opticalMsgReceive (n : OptIx) (m : FabMsg) (offset : W16) (chain : W16)
  /-- PEER_MSG_FORWARD (R429). A die forwards a message for a third die by its route entry. -/
  | peerMsgForward (port : LinkPort) (m : FabMsg)
  /-- WINDOW_WRITE (R440). A WINDOW_WRITE message is checked and performed at its target page. -/
  | windowWrite (m : WinWrite)
  /-- WINDOW_READ (R440). A WINDOW_READ message is checked and answered with data. -/
  | windowRead (m : WinRead)
  /-- READ_RESPONSE (R440). A READ_RESPONSE arrives with data or the status of a write, signal or partial. -/
  | readResponse (m : Response)
  /-- WINDOW_OP_TIMEOUT (R444). A sending operation without response after OP_TICKS ticks completes LINK_LOST. -/
  | windowOpTimeout (tag : W32)
  /-- ERROR_REPORT (R458). An ERROR_REPORT from another die is recorded and raises a corrected fault. -/
  | errorReport (m : ErrorReport)
  /-- MANAGEMENT_MSG_RECEIVE (R553). A Groom-to-Groom MANAGEMENT message arrives: forward, mirror, query or reply. -/
  | managementMsgReceive (m : MgmtMsg)
  /-- CREDIT_RECEIVE (R450). Returned credit units arrive in a flit field or a credit message. -/
  | creditReceive (port : LinkPort) (units : List Nat)
  /-- CREDIT_RETURN_TIMER (R450). Units free for 1 µs are returned by a LINK_MANAGEMENT credit message. -/
  | creditReturnTimer (port : LinkPort)
  /-- NIVIK_FLIT_RECEIVE (R446). A Nivik flit arrives and is checked by CRC, tag and sequence number. -/
  | nivikFlitReceive (n : OptIx) (crcOk : Bool) (tagOk : Bool) (seq : Nat) (phase : Bool) (ack : Bool) (credit : Option (Fin 8 × Nat))
  /-- FLIT_REPLAY (R446). On a replay request the sender replays from the flagged flit, or the port goes down at RETRY_LIMIT. -/
  | flitReplay (n : OptIx)
  /-- OPTICAL_LANE_LOSS (R446). A lane loses lock and the port continues at half rate or goes down. -/
  | opticalLaneLoss (n : OptIx) (lane : Fin 16)
  /-- KEY_UPDATE (R454). At sequence number 2^32 the sender starts a key update. -/
  | keyUpdate (n : OptIx)
  /-- SPDM_RECORD_RECEIVE (R453). An SPDM record of the link session arrives in a LINK_MANAGEMENT message. -/
  | spdmRecordReceive (n : OptIx) (r : SessionResult)
  /-- SESSION_TIMEOUT (R453). A session not established within 100 ms of training returns the port to state 0. -/
  | sessionTimeout (n : OptIx)
  /-- CREDIT_STALL (R449). No credit for STALL_TICKS ticks takes the optical port down. -/
  | creditStall (n : OptIx)
  /-- OPT_ENABLE (R455). A write of OPT_CTRL.ENABLE allows training, or takes the port down and ends quarantine. -/
  | optEnable (who : Who) (n : OptIx) (v : W32)
  /-- ADMIT (R456). Setting or clearing OPT_CTRL.ADMIT admits a secured partner or returns the port to state 3. -/
  | admission (who : Who) (n : OptIx) (v : W32)
  /-- TICK_SRC (R457). A write of OPT_CTRL.TICK_SRC makes the port the tick source, ignored on a second port. -/
  | tickSrc (who : Who) (n : OptIx) (v : W32)
  /-- FABRIC_SUPPLY_LOSS (R433). Loss of the fabric-side supply takes both optical ports down. -/
  | fabricSupplyLoss
  /-- PRESENCE_CHANGE (R573). Debounced PRSNT_N changes PRESENT; a loss is a surprise removal. -/
  | presenceChange (n : OptIx) (present : Bool)
  /-- BUTTON (R573). A debounced attention-button press sets the BUTTON latch. -/
  | button (n : OptIx)
  /-- LASER_POWER_FAULT (R460). The laser supply leaves its range; the laser is turned off and POWER_FAULT set. -/
  | laserPowerFault (n : OptIx)
  /-- LASER_EN (R459). A write of CAGE.LASER_EN powers the laser or clears it as a removal. -/
  | laserEn (who : Who) (n : OptIx) (v : W32)
  /-- PARTITION_ENABLE (R464). PART_CTRL.ENABLE changes from 0 to 1, assigning the partition and drawing keys. -/
  | partitionEnable (who : Who) (p : PartIx) (v : W32)
  /-- PARTITION_RESET_REQUEST (R482). A write of PART_CTRL.RESET or ENABLE = 0 requests a partition reset. -/
  | partitionResetRequest (who : Who) (p : PartIx) (v : W32)
  /-- PARTITION_CLEAR (R486). Once nothing remains in flight, the partition's mappings, keys, cores, objects and rings are cleared. -/
  | partitionClear (p : PartIx)
  /-- FAULT_EVENT (R495). The collector takes the events slotted in the previous cycle, sets status bits, writes history and applies reactions. -/
  | faultEvent (us : List Upset)
  /-- NMI_ACK (R505). Groom writes FAULT_IRQ.NMI_ACK to release the trap. -/
  | nmiAck
  /-- FAULT_FORCE (R513). A write to a FAULT_FORCE register slots forced events of that class. -/
  | faultForce (who : Who) (cls : Cls) (v : W32)
  /-- FAULT_HIST_CLEAR (R516). A write of FAULT_HIST_CTRL.CLEAR invalidates every history entry. -/
  | faultHistClear (who : Who)
  /-- INJECT (R520). A write of FAULT_CHECK.INJECT inverts one parity bit, leading to dormant entry. -/
  | inject (who : Who)
  /-- DORMANT_ENTRY (R518). A collector self-check mismatch or parity error sends the die to the dormant state. -/
  | dormantEntry
  /-- ERR_N_SENSE_FALL (R512). The ERR_N net falls while this die does not drive it; SENSE_FELL is set. -/
  | errNSenseFall
  /-- FAST_LIMIT (R526). Current above the cap by 5 % for 1 µs sets K to FAST_K until the boundary. -/
  | fastLimit
  /-- THERMAL_SAMPLE (R528). Every 10 µs the controller reads all sensors and acts on the hottest non-excluded one. -/
  | thermalSample (temps : List (Option Int))
  /-- THERMAL_RESUME (R530). A write of PWR_CTRL.RESUME ends a thermal halt when every sensor is below WARN. -/
  | thermalResume (who : Who) (v : W32)
  /-- THERMTRIP (R566). A dedicated sensor reaches 120 °C and THERMTRIP_N is driven low. -/
  | thermtrip
  /-- SUPPLY_FAULT (R554). A rail leaves its range and a fatal event of source 18 is raised. -/
  | supplyFault (rail : Fin 10)
  /-- PLL_LOCK_LOSS (R521). The core or ring PLL loses lock. -/
  | pllLockLoss (pll : Fin 2)
  /-- REFCLK_LOSS (R561). The reference clock is lost for 1 µs. -/
  | refclkLoss
  /-- BOOT_START (R560). Boot begins at the later of PWRGOOD rising and RESET_N rising. -/
  | bootStart
  /-- RESET_N_FALL (R560). RESET_N falls while PWRGOOD is high, starting a die reset or the exit from dormant. -/
  | resetNFall
  /-- POWER_REMOVAL (R560). PWRGOOD falls and every domain stops within 1 µs. -/
  | powerRemoval
  /-- BOOT_IMAGE_VERIFY (R534). The boot ROM reads and verifies the flash image slots. -/
  | bootImageVerify (slots : List BootSlot)
  /-- HBM_ZEROING (R358). At cold power-on the controllers write zero data and check bits over every stack. -/
  | hbmZeroing
  /-- BOOT_BIST (R536). Boot BIST tests every HBM cell and leaves it zeroed, taking failing stacks offline. -/
  | bootBist (fails : List Nat)
  /-- BOOT_READY (R532). The die becomes ready: Groom serves and the host link is up. -/
  | bootReady (ms : Nat)
  /-- ID_FRAME_SEND (R563). Every 2 µs a die sends an ID frame on ID_OUT. -/
  | idFrameSend
  /-- ID_FRAME_RECEIVE (R563). A die receives an ID frame on ID_IN and takes its IDs after three identical frames. -/
  | idFrameReceive (die : DieIx) (pkg : PkgIx) (crcOk : Bool)
  /-- RESERVED_ACCESS (R545). An access to a reserved offset reads zero or is ignored and is counted. -/
  | reservedAccess (who : Who) (bar2 : Bool) (off : Nat) (write : Bool) (size : Bool)
  /-- REGISTER_WRITE (R295). A write to a register with no row of its own stores its RW fields, subject to digest and mode-change rules. -/
  | registerWrite (who : Who) (bar2 : Bool) (off : Nat) (v : W32)
  /-- I3C_PRIVATE_WRITE (R568). A 4-byte I3C private write sets the BAR0 offset. -/
  | i3cPrivateWrite (off : W32) (v : Option W32)
  /-- I3C_PRIVATE_READ (R568). An I3C private read returns the register at the offset and advances it by 4. -/
  | i3cPrivateRead
  /-- EXTEST (R569). The JTAG EXTEST instruction acts on boundary scan while RESET_N is low. -/
  | extest
  /-- FUSE_PROGRAM (R569). The JTAG fuse-programming instruction programs blank OWNER_KEY fuses while RESET_N is low. -/
  | fuseProgram (digest : BitVec 384)
  /-- IDCODE (R569). The JTAG IDCODE instruction returns the device identity. -/
  | idcode
  /-- BYPASS (R569). The JTAG BYPASS instruction. -/
  | bypass
  /-- ARRAY_STREAM_COMPLETE (R86). An array stream (LOADW, PASS, PASST or DRAIN) moves or writes its last row, releasing its crib slots, the store or its accumulator rows. -/
  | arrayStreamComplete (c : CoreIx) (n : Nat)
  /-- OPTICAL_LINK_TRAIN (R452). An enabled optical port acquires its lanes and completes training, moving from state 1 to state 2. -/
  | opticalLinkTrain (n : OptIx) (lanes : BitVec 16)
  /-- COMPLETION_TIMEOUT (R412). An ATS Translation Request, peer-to-peer read or zero-length read meets its PCIe completion timeout and its access fails. -/
  | completionTimeout (ats : Bool) (id : Nat)
  /-- CONFIGURATION_REQUEST (R480). A host configuration request to a function, such as a write of the power state, Bus Master Enable, MSI-X Enable or mask, or VF Enable, or a read answered with Request Retry Status or Completer Abort. -/
  | configurationRequest (fn : PartIx) (r : CfgReq)
  /-- LINK_LEVEL_RETRY (R426). A flit on a host or peer UCIe port fails its check and is replayed, or a module lane is repaired, raising a corrected fault. -/
  | linkLevelRetry (port : Option PortIx) (kind : RetryKind)
  /-- FABRIC_RAILS_APPLIED (R559). The fabric-side rails return, after which the optical port logic and lasers can run and ports can train again. -/
  | fabricRailsApplied
  /-- DYNAMIC_ADDRESS_ASSIGNMENT (R568). The I3C controller runs dynamic address assignment and the sideband target takes part in it. -/
  | dynamicAddressAssignment (addr : BitVec 7)
deriving DecidableEq, Repr

end Sys2Proof
end

