-- ==== Sys2Proof/Machine/Registers.lean ====
section
/-! DEFINITION. The registers of BAR0: one name per register and per field of the register tables (specs 02 to
17), their access codes and their reset values. Fields whose value is computed from other state (status
views) are read through Access.lean. -/

namespace Sys2Proof.Machine

/-- A field of a register: BAR0 offset, lowest bit, width. -/
structure Fld where
  off : Nat
  lo : Nat
  w : Nat
deriving DecidableEq, Repr

/-- One row of the register index: an array of `n1` × `n2` registers with strides, the masks of its
writable, write-1-to-clear and write-1-to-set bits, and whether it is digested (D) or changed only by a mode
change while the tick runs (M). -/
structure RegRow where
  base : Nat
  n1 : Nat
  s1 : Nat
  n2 : Nat
  s2 : Nat
  rw : Nat
  w1c : Nat
  w1s : Nat
  digested : Bool
  modeOnly : Bool
deriving DecidableEq, Repr

/-- ID, R546. -/
def ID : Nat := 0x0
def ID_PART : Fld := { off := ID, lo := 0, w := 16 }
def ID_STEPPING : Fld := { off := ID, lo := 16, w := 4 }
def ID_GRADE : Fld := { off := ID, lo := 20, w := 2 }
/-- PLACE, R546. -/
def PLACE : Nat := 0x4
def PLACE_DIE : Fld := { off := PLACE, lo := 0, w := 3 }
def PLACE_PACKAGE : Fld := { off := PLACE, lo := 3, w := 12 }
def PLACE_LEAD : Fld := { off := PLACE, lo := 15, w := 1 }
/-- FUSE_ARRAYS, R547. -/
def FUSE_ARRAYS (i : Nat) : Nat := 0x10 + 0x4 * i
def FUSE_ARRAYS_ARRAYS (i : Nat) : Fld := { off := FUSE_ARRAYS i, lo := 0, w := 32 }
/-- CORES_ENABLED_LO, R547. -/
def CORES_ENABLED_LO : Nat := 0x28
def CORES_ENABLED_LO_CORES : Fld := { off := CORES_ENABLED_LO, lo := 0, w := 32 }
/-- CORES_ENABLED_HI, R547. -/
def CORES_ENABLED_HI : Nat := 0x2c
def CORES_ENABLED_HI_CORES : Fld := { off := CORES_ENABLED_HI, lo := 0, w := 16 }
/-- GOOD_COUNT, R547. -/
def GOOD_COUNT : Nat := 0x30
def GOOD_COUNT_ARRAYS : Fld := { off := GOOD_COUNT, lo := 0, w := 8 }
def GOOD_COUNT_CORES : Fld := { off := GOOD_COUNT, lo := 8, w := 6 }
/-- SERIAL_LO, R577. -/
def SERIAL_LO : Nat := 0x34
def SERIAL_LO_SERIAL : Fld := { off := SERIAL_LO, lo := 0, w := 32 }
/-- SERIAL_HI, R577. -/
def SERIAL_HI : Nat := 0x38
def SERIAL_HI_SERIAL : Fld := { off := SERIAL_HI, lo := 0, w := 32 }
/-- FUSE_SEC, R534. -/
def FUSE_SEC : Nat := 0x3c
def FUSE_SEC_SVN_FLOOR : Fld := { off := FUSE_SEC, lo := 0, w := 16 }
def FUSE_SEC_OWNER_KEY : Fld := { off := FUSE_SEC, lo := 16, w := 1 }
/-- RSVD_BAR0, R545. -/
def RSVD_BAR0 : Nat := 0x40
def RSVD_BAR0_COUNT : Fld := { off := RSVD_BAR0, lo := 0, w := 32 }
/-- RSVD_BAR2, R545. -/
def RSVD_BAR2 : Nat := 0x44
def RSVD_BAR2_COUNT : Fld := { off := RSVD_BAR2, lo := 0, w := 32 }
/-- RSVD_LAST, R545. -/
def RSVD_LAST : Nat := 0x48
def RSVD_LAST_OFFSET : Fld := { off := RSVD_LAST, lo := 0, w := 26 }
def RSVD_LAST_BAR : Fld := { off := RSVD_LAST, lo := 26, w := 1 }
def RSVD_LAST_WRITE : Fld := { off := RSVD_LAST, lo := 27, w := 1 }
def RSVD_LAST_DEVICE : Fld := { off := RSVD_LAST, lo := 28, w := 1 }
def RSVD_LAST_SIZE : Fld := { off := RSVD_LAST, lo := 29, w := 1 }
def RSVD_LAST_VALID : Fld := { off := RSVD_LAST, lo := 31, w := 1 }
/-- REG_ORDER, R296. -/
def REG_ORDER : Nat := 0x100
def REG_ORDER_EARLY_ACK : Fld := { off := REG_ORDER, lo := 0, w := 18 }
/-- HOST_LINK, R394. -/
def HOST_LINK : Nat := 0x200
def HOST_LINK_MODULES_UP : Fld := { off := HOST_LINK, lo := 0, w := 2 }
def HOST_LINK_RATE : Fld := { off := HOST_LINK, lo := 2, w := 3 }
def HOST_LINK_DEGRADED : Fld := { off := HOST_LINK, lo := 5, w := 1 }
def HOST_LINK_RETRAINS : Fld := { off := HOST_LINK, lo := 16, w := 16 }
/-- BAR4_BASE, R406. -/
def BAR4_BASE : Nat := 0x204
def BAR4_BASE_BASE : Fld := { off := BAR4_BASE, lo := 0, w := 17 }
/-- HOST_RID, R421. -/
def HOST_RID (i : Nat) : Nat := 0x208 + 0x4 * i
def HOST_RID_RID (i : Nat) : Fld := { off := HOST_RID i, lo := 0, w := 16 }
def HOST_RID_VALID (i : Nat) : Fld := { off := HOST_RID i, lo := 16, w := 1 }
/-- HOST_TIMEOUT, R410. -/
def HOST_TIMEOUT : Nat := 0x210
def HOST_TIMEOUT_US : Fld := { off := HOST_TIMEOUT, lo := 0, w := 16 }
/-- HOST_ERR, R404. -/
def HOST_ERR : Nat := 0x214
def HOST_ERR_CAUSE : Fld := { off := HOST_ERR, lo := 0, w := 4 }
def HOST_ERR_FUNCTION : Fld := { off := HOST_ERR, lo := 4, w := 4 }
def HOST_ERR_VALID : Fld := { off := HOST_ERR, lo := 8, w := 1 }
def HOST_ERR_COUNT : Fld := { off := HOST_ERR, lo := 16, w := 16 }
/-- HOST_ERR_ADDR_LO, R404. -/
def HOST_ERR_ADDR_LO : Nat := 0x218
def HOST_ERR_ADDR_LO_ADDR : Fld := { off := HOST_ERR_ADDR_LO, lo := 0, w := 32 }
/-- HOST_ERR_ADDR_HI, R404. -/
def HOST_ERR_ADDR_HI : Nat := 0x21c
def HOST_ERR_ADDR_HI_ADDR : Fld := { off := HOST_ERR_ADDR_HI, lo := 0, w := 32 }
/-- P2P_BASE_LO, R418. -/
def P2P_BASE_LO (i : Nat) : Nat := 0x300 + 0x10 * i
def P2P_BASE_LO_BASE (i : Nat) : Fld := { off := P2P_BASE_LO i, lo := 0, w := 32 }
/-- P2P_BASE_HI, R418. -/
def P2P_BASE_HI (i : Nat) : Nat := 0x304 + 0x10 * i
def P2P_BASE_HI_BASE (i : Nat) : Fld := { off := P2P_BASE_HI i, lo := 0, w := 32 }
/-- P2P_SIZE, R418. -/
def P2P_SIZE (i : Nat) : Nat := 0x308 + 0x10 * i
def P2P_SIZE_SIZE (i : Nat) : Fld := { off := P2P_SIZE i, lo := 0, w := 32 }
/-- P2P_GRANT, R418. -/
def P2P_GRANT (i : Nat) : Nat := 0x30c + 0x10 * i
def P2P_GRANT_PARTITIONS (i : Nat) : Fld := { off := P2P_GRANT i, lo := 0, w := 16 }
def P2P_GRANT_READ (i : Nat) : Fld := { off := P2P_GRANT i, lo := 16, w := 1 }
def P2P_GRANT_WRITE (i : Nat) : Fld := { off := P2P_GRANT i, lo := 17, w := 1 }
/-- TICK_CTRL, R37. -/
def TICK_CTRL : Nat := 0x10000
def TICK_CTRL_RUN : Fld := { off := TICK_CTRL, lo := 0, w := 1 }
def TICK_CTRL_SYSTEM_LEAD : Fld := { off := TICK_CTRL, lo := 1, w := 1 }
def TICK_CTRL_DIGEST_FENCE : Fld := { off := TICK_CTRL, lo := 2, w := 1 }
def TICK_CTRL_LEAD : Fld := { off := TICK_CTRL, lo := 3, w := 1 }
/-- TICK_STATUS, R57. -/
def TICK_STATUS : Nat := 0x10004
def TICK_STATUS_LOCKED : Fld := { off := TICK_STATUS, lo := 0, w := 1 }
def TICK_STATUS_HOLDOVER : Fld := { off := TICK_STATUS, lo := 1, w := 1 }
def TICK_STATUS_TICK_LOST : Fld := { off := TICK_STATUS, lo := 2, w := 1 }
def TICK_STATUS_FENCED : Fld := { off := TICK_STATUS, lo := 3, w := 1 }
def TICK_STATUS_LAG_SHORT : Fld := { off := TICK_STATUS, lo := 4, w := 1 }
def TICK_STATUS_DUAL_LEAD : Fld := { off := TICK_STATUS, lo := 5, w := 1 }
def TICK_STATUS_NO_SOURCE : Fld := { off := TICK_STATUS, lo := 6, w := 1 }
def TICK_STATUS_DIGEST_WRITE_DROP : Fld := { off := TICK_STATUS, lo := 8, w := 1 }
def TICK_STATUS_EPOCH_REJECT : Fld := { off := TICK_STATUS, lo := 9, w := 1 }
def TICK_STATUS_REJECT_COUNT : Fld := { off := TICK_STATUS, lo := 16, w := 16 }
/-- TICK_PERIOD, R36. -/
def TICK_PERIOD : Nat := 0x10008
def TICK_PERIOD_PERIOD : Fld := { off := TICK_PERIOD, lo := 0, w := 17 }
/-- TICK_GUARD, R41. -/
def TICK_GUARD : Nat := 0x1000c
def TICK_GUARD_GUARD_PCT : Fld := { off := TICK_GUARD, lo := 0, w := 5 }
/-- TICK_NOW_LO, R39. -/
def TICK_NOW_LO : Nat := 0x10010
def TICK_NOW_LO_TICK : Fld := { off := TICK_NOW_LO, lo := 0, w := 32 }
/-- TICK_NOW_HI, R39. -/
def TICK_NOW_HI : Nat := 0x10014
def TICK_NOW_HI_TICK : Fld := { off := TICK_NOW_HI, lo := 0, w := 32 }
/-- TICK_EPOCH, R70. -/
def TICK_EPOCH : Nat := 0x10018
def TICK_EPOCH_EPOCH : Fld := { off := TICK_EPOCH, lo := 0, w := 16 }
/-- TICK_ALIGN, R65. -/
def TICK_ALIGN : Nat := 0x1001c
def TICK_ALIGN_WARN_LIMIT : Fld := { off := TICK_ALIGN, lo := 0, w := 12 }
def TICK_ALIGN_LOSS_LIMIT : Fld := { off := TICK_ALIGN, lo := 12, w := 12 }
def TICK_ALIGN_HOLDOVER : Fld := { off := TICK_ALIGN, lo := 24, w := 4 }
def TICK_ALIGN_ACK_LOSS : Fld := { off := TICK_ALIGN, lo := 28, w := 4 }
/-- TICK_OFFSET, R57. -/
def TICK_OFFSET : Nat := 0x10020
def TICK_OFFSET_OFFSET : Fld := { off := TICK_OFFSET, lo := 0, w := 16 }
/-- DIST_LATENCY, R64. -/
def DIST_LATENCY : Nat := 0x10024
def DIST_LATENCY_LATENCY : Fld := { off := DIST_LATENCY, lo := 0, w := 16 }
/-- CYCLE_BUDGET, R44. -/
def CYCLE_BUDGET : Nat := 0x10028
def CYCLE_BUDGET_BUDGET : Fld := { off := CYCLE_BUDGET, lo := 0, w := 24 }
/-- MEMBERSHIP, R67. -/
def MEMBERSHIP : Nat := 0x10030
def MEMBERSHIP_MEMBER : Fld := { off := MEMBERSHIP, lo := 0, w := 8 }
def MEMBERSHIP_LOST : Fld := { off := MEMBERSHIP, lo := 8, w := 8 }
/-- DIGEST_MISMATCH, R84. -/
def DIGEST_MISMATCH : Nat := 0x10034
def DIGEST_MISMATCH_DIE : Fld := { off := DIGEST_MISMATCH, lo := 0, w := 8 }
def DIGEST_MISMATCH_PACKAGE : Fld := { off := DIGEST_MISMATCH, lo := 8, w := 1 }
/-- DIGEST_LO, R82. -/
def DIGEST_LO : Nat := 0x10038
def DIGEST_LO_DIGEST : Fld := { off := DIGEST_LO, lo := 0, w := 32 }
/-- DIGEST_HI, R82. -/
def DIGEST_HI : Nat := 0x1003c
def DIGEST_HI_DIGEST : Fld := { off := DIGEST_HI, lo := 0, w := 32 }
/-- MODE_STATE, R72. -/
def MODE_STATE : Nat := 0x10040
def MODE_STATE_STATE : Fld := { off := MODE_STATE, lo := 0, w := 3 }
def MODE_STATE_CHANGE_ID : Fld := { off := MODE_STATE, lo := 16, w := 16 }
/-- MODE_TARGET_LO, R72. -/
def MODE_TARGET_LO : Nat := 0x10044
def MODE_TARGET_LO_TARGET : Fld := { off := MODE_TARGET_LO, lo := 0, w := 32 }
/-- MODE_TARGET_HI, R72. -/
def MODE_TARGET_HI : Nat := 0x10048
def MODE_TARGET_HI_TARGET : Fld := { off := MODE_TARGET_HI, lo := 0, w := 32 }
/-- MODE_RESULT, R75. -/
def MODE_RESULT : Nat := 0x1004c
def MODE_RESULT_CAUSE : Fld := { off := MODE_RESULT, lo := 0, w := 4 }
def MODE_RESULT_UNIT : Fld := { off := MODE_RESULT, lo := 8, w := 5 }
def MODE_RESULT_DIE : Fld := { off := MODE_RESULT, lo := 13, w := 3 }
def MODE_RESULT_CHANGE_ID : Fld := { off := MODE_RESULT, lo := 16, w := 16 }
/-- OVERRUN_LAST, R50. -/
def OVERRUN_LAST : Nat := 0x10050
def OVERRUN_LAST_CORE : Fld := { off := OVERRUN_LAST, lo := 0, w := 6 }
def OVERRUN_LAST_PARTITION : Fld := { off := OVERRUN_LAST, lo := 8, w := 4 }
def OVERRUN_LAST_CAUSE : Fld := { off := OVERRUN_LAST, lo := 12, w := 4 }
def OVERRUN_LAST_TICK : Fld := { off := OVERRUN_LAST, lo := 16, w := 16 }
/-- SLIP_CTRL, R46. -/
def SLIP_CTRL (i : Nat) : Nat := 0x10100 + 0x4 * i
def SLIP_CTRL_POLICY (i : Nat) : Fld := { off := SLIP_CTRL i, lo := 0, w := 1 }
def SLIP_CTRL_SLIP_LIMIT (i : Nat) : Fld := { off := SLIP_CTRL i, lo := 1, w := 8 }
def SLIP_CTRL_SLIP_LAG (i : Nat) : Fld := { off := SLIP_CTRL i, lo := 9, w := 4 }
/-- PLAN_OFFSET, R47. -/
def PLAN_OFFSET (i : Nat) : Nat := 0x10140 + 0x4 * i
def PLAN_OFFSET_OFFSET (i : Nat) : Fld := { off := PLAN_OFFSET i, lo := 0, w := 32 }
/-- SLIP_COUNT, R54. -/
def SLIP_COUNT (i : Nat) : Nat := 0x10180 + 0x4 * i
def SLIP_COUNT_OVERRUN_SLIPS (i : Nat) : Fld := { off := SLIP_COUNT i, lo := 0, w := 16 }
def SLIP_COUNT_FAULT_SLIPS (i : Nat) : Fld := { off := SLIP_COUNT i, lo := 16, w := 16 }
/-- SYSBAR_EXPECT, R288. -/
def SYSBAR_EXPECT (i : Nat) : Nat := 0x101c0 + 0x4 * i
def SYSBAR_EXPECT_DIES (i : Nat) : Fld := { off := SYSBAR_EXPECT i, lo := 0, w := 16 }
def SYSBAR_EXPECT_ARRIVED (i : Nat) : Fld := { off := SYSBAR_EXPECT i, lo := 16, w := 16 }
/-- FAULT_STATUS, R496. -/
def FAULT_STATUS : Nat := 0x20000
def FAULT_STATUS_BITS : Fld := { off := FAULT_STATUS, lo := 0, w := 20 }
/-- FAULT_CORRECTED, R496. -/
def FAULT_CORRECTED : Nat := 0x20004
def FAULT_CORRECTED_BITS : Fld := { off := FAULT_CORRECTED, lo := 0, w := 20 }
/-- FAULT_CONTAINED, R496. -/
def FAULT_CONTAINED : Nat := 0x20008
def FAULT_CONTAINED_BITS : Fld := { off := FAULT_CONTAINED, lo := 0, w := 20 }
/-- FAULT_FATAL, R496. -/
def FAULT_FATAL : Nat := 0x2000c
def FAULT_FATAL_BITS : Fld := { off := FAULT_FATAL, lo := 0, w := 20 }
/-- FAULT_PIN_HOLD, R509. -/
def FAULT_PIN_HOLD : Nat := 0x20010
def FAULT_PIN_HOLD_HOLD : Fld := { off := FAULT_PIN_HOLD, lo := 0, w := 20 }
/-- FAULT_PIN, R512. -/
def FAULT_PIN : Nat := 0x20014
def FAULT_PIN_DRIVE : Fld := { off := FAULT_PIN, lo := 0, w := 1 }
def FAULT_PIN_SENSE : Fld := { off := FAULT_PIN, lo := 1, w := 1 }
def FAULT_PIN_SENSE_NMI : Fld := { off := FAULT_PIN, lo := 2, w := 1 }
def FAULT_PIN_SENSE_FELL : Fld := { off := FAULT_PIN, lo := 3, w := 1 }
/-- FAULT_IRQ, R504. -/
def FAULT_IRQ : Nat := 0x20018
def FAULT_IRQ_VECTOR : Fld := { off := FAULT_IRQ, lo := 0, w := 11 }
def FAULT_IRQ_NMI_ACK : Fld := { off := FAULT_IRQ, lo := 16, w := 1 }
def FAULT_IRQ_NMI_HELD : Fld := { off := FAULT_IRQ, lo := 17, w := 1 }
/-- FAULT_HIST_CTRL, R498. -/
def FAULT_HIST_CTRL : Nat := 0x2001c
def FAULT_HIST_CTRL_NEXT : Fld := { off := FAULT_HIST_CTRL, lo := 0, w := 4 }
def FAULT_HIST_CTRL_COUNT : Fld := { off := FAULT_HIST_CTRL, lo := 4, w := 5 }
def FAULT_HIST_CTRL_FIRST : Fld := { off := FAULT_HIST_CTRL, lo := 9, w := 4 }
def FAULT_HIST_CTRL_FIRST_VALID : Fld := { off := FAULT_HIST_CTRL, lo := 13, w := 1 }
def FAULT_HIST_CTRL_CORR_EN : Fld := { off := FAULT_HIST_CTRL, lo := 14, w := 1 }
def FAULT_HIST_CTRL_CLEAR : Fld := { off := FAULT_HIST_CTRL, lo := 15, w := 1 }
def FAULT_HIST_CTRL_LOST : Fld := { off := FAULT_HIST_CTRL, lo := 16, w := 16 }
/-- FAULT_FORCE_CORR, R513. -/
def FAULT_FORCE_CORR : Nat := 0x20020
def FAULT_FORCE_CORR_FORCE : Fld := { off := FAULT_FORCE_CORR, lo := 0, w := 20 }
/-- FAULT_FORCE_CONT, R513. -/
def FAULT_FORCE_CONT : Nat := 0x20024
def FAULT_FORCE_CONT_FORCE : Fld := { off := FAULT_FORCE_CONT, lo := 0, w := 20 }
/-- FAULT_FORCE_FATAL, R513. -/
def FAULT_FORCE_FATAL : Nat := 0x20028
def FAULT_FORCE_FATAL_FORCE : Fld := { off := FAULT_FORCE_FATAL, lo := 0, w := 20 }
/-- FAULT_CHECK, R520. -/
def FAULT_CHECK : Nat := 0x2002c
def FAULT_CHECK_INJECT : Fld := { off := FAULT_CHECK, lo := 0, w := 1 }
/-- DORMANT_CAUSE, R518. -/
def DORMANT_CAUSE : Nat := 0x20030
def DORMANT_CAUSE_DORMANT : Fld := { off := DORMANT_CAUSE, lo := 0, w := 1 }
def DORMANT_CAUSE_WAS_DORMANT : Fld := { off := DORMANT_CAUSE, lo := 1, w := 1 }
def DORMANT_CAUSE_INJECTED : Fld := { off := DORMANT_CAUSE, lo := 2, w := 1 }
def DORMANT_CAUSE_PARITY : Fld := { off := DORMANT_CAUSE, lo := 3, w := 1 }
def DORMANT_CAUSE_MISMATCH : Fld := { off := DORMANT_CAUSE, lo := 4, w := 1 }
def DORMANT_CAUSE_REG : Fld := { off := DORMANT_CAUSE, lo := 8, w := 8 }
/-- YARD_ERR, R497. -/
def YARD_ERR : Nat := 0x20040
def YARD_ERR_YARD : Fld := { off := YARD_ERR, lo := 0, w := 3 }
def YARD_ERR_CAUSE : Fld := { off := YARD_ERR, lo := 3, w := 3 }
def YARD_ERR_VALID : Fld := { off := YARD_ERR, lo := 6, w := 1 }
/-- RING_ERR, R497. -/
def RING_ERR : Nat := 0x20044
def RING_ERR_STOP : Fld := { off := RING_ERR, lo := 0, w := 6 }
def RING_ERR_DIR : Fld := { off := RING_ERR, lo := 6, w := 1 }
def RING_ERR_CAUSE : Fld := { off := RING_ERR, lo := 7, w := 4 }
def RING_ERR_VALID : Fld := { off := RING_ERR, lo := 11, w := 1 }
/-- FAULT_REACT, R503. -/
def FAULT_REACT (i : Nat) : Nat := 0x20080 + 0x4 * i
def FAULT_REACT_CORR (i : Nat) : Fld := { off := FAULT_REACT i, lo := 0, w := 5 }
def FAULT_REACT_CONT (i : Nat) : Fld := { off := FAULT_REACT i, lo := 8, w := 5 }
def FAULT_REACT_FATAL (i : Nat) : Fld := { off := FAULT_REACT i, lo := 16, w := 5 }
/-- PWR_CAP, R523. -/
def PWR_CAP : Nat := 0x30000
def PWR_CAP_WATTS : Fld := { off := PWR_CAP, lo := 0, w := 10 }
def PWR_CAP_BOARD_MAX : Fld := { off := PWR_CAP, lo := 16, w := 10 }
/-- PWR_CTRL, R524. -/
def PWR_CTRL : Nat := 0x30004
def PWR_CTRL_MAX_POINT : Fld := { off := PWR_CTRL, lo := 0, w := 3 }
def PWR_CTRL_FAST_K : Fld := { off := PWR_CTRL, lo := 4, w := 5 }
def PWR_CTRL_RESUME : Fld := { off := PWR_CTRL, lo := 9, w := 1 }
def PWR_CTRL_THERMAL_HALT : Fld := { off := PWR_CTRL, lo := 10, w := 1 }
/-- PWR_STATUS, R521. -/
def PWR_STATUS : Nat := 0x30008
def PWR_STATUS_POINT : Fld := { off := PWR_STATUS, lo := 0, w := 3 }
def PWR_STATUS_K : Fld := { off := PWR_STATUS, lo := 4, w := 5 }
def PWR_STATUS_WATTS : Fld := { off := PWR_STATUS, lo := 16, w := 16 }
/-- PWR_FLOOR, R527. -/
def PWR_FLOOR : Nat := 0x3000c
def PWR_FLOOR_POINT : Fld := { off := PWR_FLOOR, lo := 0, w := 3 }
def PWR_FLOOR_K : Fld := { off := PWR_FLOOR, lo := 4, w := 5 }
/-- THERM_LIMITS, R528. -/
def THERM_LIMITS : Nat := 0x30010
def THERM_LIMITS_WARN : Fld := { off := THERM_LIMITS, lo := 0, w := 8 }
def THERM_LIMITS_THROTTLE : Fld := { off := THERM_LIMITS, lo := 8, w := 8 }
/-- THERM_MAX, R528. -/
def THERM_MAX : Nat := 0x30014
def THERM_MAX_TEMP : Fld := { off := THERM_MAX, lo := 0, w := 8 }
def THERM_MAX_SENSOR : Fld := { off := THERM_MAX, lo := 8, w := 5 }
def THERM_MAX_THROTTLING : Fld := { off := THERM_MAX, lo := 13, w := 1 }
/-- THERM_EXCLUDED, R531. -/
def THERM_EXCLUDED : Nat := 0x30018
def THERM_EXCLUDED_EXCLUDED : Fld := { off := THERM_EXCLUDED, lo := 0, w := 32 }
/-- PWR_ERR, R497. -/
def PWR_ERR : Nat := 0x3001c
def PWR_ERR_CAUSE : Fld := { off := PWR_ERR, lo := 0, w := 4 }
def PWR_ERR_UNIT : Fld := { off := PWR_ERR, lo := 4, w := 5 }
def PWR_ERR_VALID : Fld := { off := PWR_ERR, lo := 9, w := 1 }
/-- ST_CTRL, R539. -/
def ST_CTRL : Nat := 0x30020
def ST_CTRL_HOLD_TICKS : Fld := { off := ST_CTRL, lo := 0, w := 8 }
def ST_CTRL_BOOT_BIST : Fld := { off := ST_CTRL, lo := 8, w := 1 }
/-- ST_STATUS, R538. -/
def ST_STATUS : Nat := 0x30024
def ST_STATUS_PENDING : Fld := { off := ST_STATUS, lo := 0, w := 1 }
def ST_STATUS_ACTIVE : Fld := { off := ST_STATUS, lo := 1, w := 1 }
def ST_STATUS_BLOCK : Fld := { off := ST_STATUS, lo := 2, w := 5 }
def ST_STATUS_UNIT : Fld := { off := ST_STATUS, lo := 7, w := 6 }
def ST_STATUS_END : Fld := { off := ST_STATUS, lo := 16, w := 16 }
/-- THERM_SENSOR, R528. -/
def THERM_SENSOR (i : Nat) : Nat := 0x30100 + 0x4 * i
def THERM_SENSOR_TEMP (i : Nat) : Fld := { off := THERM_SENSOR i, lo := 0, w := 8 }
def THERM_SENSOR_EXCLUDED (i : Nat) : Fld := { off := THERM_SENSOR i, lo := 8, w := 1 }
def THERM_SENSOR_PEAK (i : Nat) : Fld := { off := THERM_SENSOR i, lo := 16, w := 8 }
/-- YARD_RAMP, R134. -/
def YARD_RAMP (i : Nat) : Nat := 0x30200 + 0x4 * i
def YARD_RAMP_LIMIT (i : Nat) : Fld := { off := YARD_RAMP i, lo := 0, w := 4 }
def YARD_RAMP_DELAYS (i : Nat) : Fld := { off := YARD_RAMP i, lo := 16, w := 16 }
/-- PART_CTRL, R464. -/
def PART_CTRL (i : Nat) : Nat := 0x40000 + 0x4 * i
def PART_CTRL_ENABLE (i : Nat) : Fld := { off := PART_CTRL i, lo := 0, w := 1 }
def PART_CTRL_RESET (i : Nat) : Fld := { off := PART_CTRL i, lo := 1, w := 1 }
def PART_CTRL_RESETTING (i : Nat) : Fld := { off := PART_CTRL i, lo := 2, w := 1 }
def PART_CTRL_FLR (i : Nat) : Fld := { off := PART_CTRL i, lo := 3, w := 1 }
def PART_CTRL_SPAN (i : Nat) : Fld := { off := PART_CTRL i, lo := 16, w := 8 }
/-- PQ_STATUS, R468. -/
def PQ_STATUS : Nat := 0x40040
def PQ_STATUS_ASSIGN_DROP : Fld := { off := PQ_STATUS, lo := 0, w := 1 }
def PQ_STATUS_RESETS : Fld := { off := PQ_STATUS, lo := 16, w := 16 }
/-- QOS_CTRL, R474. -/
def QOS_CTRL : Nat := 0x40044
def QOS_CTRL_SPARE : Fld := { off := QOS_CTRL, lo := 0, w := 5 }
/-- QOS_DECODE, R477. -/
def QOS_DECODE (i : Nat) : Nat := 0x40080 + 0x4 * i
def QOS_DECODE_PACKETS (i : Nat) : Fld := { off := QOS_DECODE i, lo := 0, w := 16 }
/-- CORE_ASSIGN, R467. -/
def CORE_ASSIGN (i : Nat) : Nat := 0x40100 + 0x4 * i
def CORE_ASSIGN_PARTITION (i : Nat) : Fld := { off := CORE_ASSIGN i, lo := 0, w := 4 }
def CORE_ASSIGN_ASSIGNED (i : Nat) : Fld := { off := CORE_ASSIGN i, lo := 4, w := 1 }
/-- QOS_RATE, R472. -/
def QOS_RATE (i : Nat) (j : Nat) : Nat := 0x40400 + 0x40 * i + 0x8 * j
def QOS_RATE_RATE (i : Nat) (j : Nat) : Fld := { off := QOS_RATE i j, lo := 0, w := 32 }
/-- QOS_BURST, R472. -/
def QOS_BURST (i : Nat) (j : Nat) : Nat := 0x40404 + 0x40 * i + 0x8 * j
def QOS_BURST_BURST (i : Nat) (j : Nat) : Fld := { off := QOS_BURST i j, lo := 0, w := 32 }
/-- QOS_LEVEL, R472. -/
def QOS_LEVEL (i : Nat) (j : Nat) : Nat := 0x40800 + 0x40 * i + 0x4 * j
def QOS_LEVEL_LEVEL (i : Nat) (j : Nat) : Fld := { off := QOS_LEVEL i j, lo := 0, w := 32 }
/-- MSIX_ALLOC, R478. -/
def MSIX_ALLOC (i : Nat) : Nat := 0x40c00 + 0x4 * i
def MSIX_ALLOC_BASE (i : Nat) : Fld := { off := MSIX_ALLOC i, lo := 0, w := 11 }
def MSIX_ALLOC_COUNT (i : Nat) : Fld := { off := MSIX_ALLOC i, lo := 12, w := 12 }
/-- MSIX_DROP, R479. -/
def MSIX_DROP : Nat := 0x40c40
def MSIX_DROP_COUNT : Fld := { off := MSIX_DROP, lo := 0, w := 32 }
/-- CP_FAULT, R216. -/
def CP_FAULT : Nat := 0x50000
def CP_FAULT_RING : Fld := { off := CP_FAULT, lo := 0, w := 13 }
def CP_FAULT_STATUS : Fld := { off := CP_FAULT, lo := 16, w := 8 }
def CP_FAULT_VALID : Fld := { off := CP_FAULT, lo := 24, w := 1 }
/-- CP_FAULT_INFO, R216. -/
def CP_FAULT_INFO : Nat := 0x50004
def CP_FAULT_INFO_OPCODE : Fld := { off := CP_FAULT_INFO, lo := 0, w := 8 }
def CP_FAULT_INFO_SLOT : Fld := { off := CP_FAULT_INFO, lo := 16, w := 16 }
/-- CP_DB_REJECT, R201. -/
def CP_DB_REJECT : Nat := 0x50008
def CP_DB_REJECT_COUNT : Fld := { off := CP_DB_REJECT, lo := 0, w := 32 }
/-- CP_HALTED, R213. -/
def CP_HALTED (i : Nat) : Nat := 0x50400 + 0x4 * i
def CP_HALTED_HALTED (i : Nat) : Fld := { off := CP_HALTED i, lo := 0, w := 32 }
/-- COALESCE_CTRL, R140. -/
def COALESCE_CTRL (i : Nat) : Nat := 0x50800 + 0x4 * i
def COALESCE_CTRL_DEADLINE (i : Nat) : Fld := { off := COALESCE_CTRL i, lo := 0, w := 8 }
/-- COALESCE_STAT, R140. -/
def COALESCE_STAT (i : Nat) : Nat := 0x50840 + 0x4 * i
def COALESCE_STAT_FULL (i : Nat) : Fld := { off := COALESCE_STAT i, lo := 0, w := 16 }
def COALESCE_STAT_DEADLINE_HIT (i : Nat) : Fld := { off := COALESCE_STAT i, lo := 16, w := 16 }
/-- COALESCE_TABLE_LO, R233. -/
def COALESCE_TABLE_LO (i : Nat) : Nat := 0x50880 + 0x8 * i
def COALESCE_TABLE_LO_TABLE (i : Nat) : Fld := { off := COALESCE_TABLE_LO i, lo := 0, w := 32 }
/-- COALESCE_TABLE_HI, R233. -/
def COALESCE_TABLE_HI (i : Nat) : Nat := 0x50884 + 0x8 * i
def COALESCE_TABLE_HI_TABLE (i : Nat) : Fld := { off := COALESCE_TABLE_HI i, lo := 0, w := 32 }
/-- SYNC_STATUS, R260. -/
def SYNC_STATUS : Nat := 0x60000
def SYNC_STATUS_PKT_WAITERS : Fld := { off := SYNC_STATUS, lo := 0, w := 11 }
def SYNC_STATUS_CORE_WAITERS : Fld := { off := SYNC_STATUS, lo := 16, w := 6 }
/-- SYNC_DROP, R266. -/
def SYNC_DROP : Nat := 0x60004
def SYNC_DROP_COUNT : Fld := { off := SYNC_DROP, lo := 0, w := 32 }
/-- SYNC_ERR, R266. -/
def SYNC_ERR : Nat := 0x60008
def SYNC_ERR_OBJ : Fld := { off := SYNC_ERR, lo := 0, w := 13 }
def SYNC_ERR_CAUSE : Fld := { off := SYNC_ERR, lo := 13, w := 3 }
def SYNC_ERR_VALID : Fld := { off := SYNC_ERR, lo := 16, w := 1 }
def SYNC_ERR_SOURCE : Fld := { off := SYNC_ERR, lo := 17, w := 6 }
/-- SYNC_ERR_SRC, R266. -/
def SYNC_ERR_SRC : Nat := 0x6000c
def SYNC_ERR_SRC_PACKAGE : Fld := { off := SYNC_ERR_SRC, lo := 0, w := 12 }
def SYNC_ERR_SRC_DIE : Fld := { off := SYNC_ERR_SRC, lo := 12, w := 3 }
def SYNC_ERR_SRC_PARTITION : Fld := { off := SYNC_ERR_SRC, lo := 15, w := 4 }
/-- TRANS_STATUS, R372. -/
def TRANS_STATUS : Nat := 0x80000
def TRANS_STATUS_PR_OUT : Fld := { off := TRANS_STATUS, lo := 0, w := 10 }
def TRANS_STATUS_WALKS : Fld := { off := TRANS_STATUS, lo := 16, w := 5 }
def TRANS_STATUS_FAULTQ : Fld := { off := TRANS_STATUS, lo := 21, w := 9 }
/-- PR_TIMEOUT, R375. -/
def PR_TIMEOUT : Nat := 0x80004
def PR_TIMEOUT_TICKS : Fld := { off := PR_TIMEOUT, lo := 0, w := 16 }
def PR_TIMEOUT_RETRIES : Fld := { off := PR_TIMEOUT, lo := 16, w := 4 }
/-- PT_POOL_BASE, R368. -/
def PT_POOL_BASE : Nat := 0x80008
def PT_POOL_BASE_BASE : Fld := { off := PT_POOL_BASE, lo := 0, w := 22 }
/-- PT_POOL_SIZE, R368. -/
def PT_POOL_SIZE : Nat := 0x8000c
def PT_POOL_SIZE_SIZE : Fld := { off := PT_POOL_SIZE, lo := 0, w := 22 }
/-- TRANS_FAULT, R375. -/
def TRANS_FAULT : Nat := 0x80010
def TRANS_FAULT_CAUSE : Fld := { off := TRANS_FAULT, lo := 0, w := 4 }
def TRANS_FAULT_PARTITION : Fld := { off := TRANS_FAULT, lo := 4, w := 4 }
def TRANS_FAULT_STOP : Fld := { off := TRANS_FAULT, lo := 8, w := 6 }
def TRANS_FAULT_VALID : Fld := { off := TRANS_FAULT, lo := 14, w := 1 }
/-- TRANS_FAULT_ADDR_LO, R375. -/
def TRANS_FAULT_ADDR_LO : Nat := 0x80014
def TRANS_FAULT_ADDR_LO_ADDR : Fld := { off := TRANS_FAULT_ADDR_LO, lo := 0, w := 32 }
/-- TRANS_FAULT_ADDR_HI, R375. -/
def TRANS_FAULT_ADDR_HI : Nat := 0x80018
def TRANS_FAULT_ADDR_HI_ADDR : Fld := { off := TRANS_FAULT_ADDR_HI, lo := 0, w := 32 }
/-- TRANS_CTRL, R371. -/
def TRANS_CTRL (i : Nat) : Nat := 0x80100 + 0x4 * i
def TRANS_CTRL_FAULT_MODE (i : Nat) : Fld := { off := TRANS_CTRL i, lo := 0, w := 1 }
/-- TRANS_PASID_DEV, R372. -/
def TRANS_PASID_DEV (i : Nat) : Nat := 0x80140 + 0x8 * i
def TRANS_PASID_DEV_PASID (i : Nat) : Fld := { off := TRANS_PASID_DEV i, lo := 0, w := 20 }
/-- TRANS_PASID_HOST, R370. -/
def TRANS_PASID_HOST (i : Nat) : Nat := 0x80144 + 0x8 * i
def TRANS_PASID_HOST_PASID (i : Nat) : Fld := { off := TRANS_PASID_HOST i, lo := 0, w := 20 }
/-- MIG_POOL_BASE, R381. -/
def MIG_POOL_BASE (i : Nat) : Nat := 0x80200 + 0x8 * i
def MIG_POOL_BASE_BASE (i : Nat) : Fld := { off := MIG_POOL_BASE i, lo := 0, w := 22 }
/-- MIG_POOL_FRAMES, R381. -/
def MIG_POOL_FRAMES (i : Nat) : Nat := 0x80204 + 0x8 * i
def MIG_POOL_FRAMES_FRAMES (i : Nat) : Fld := { off := MIG_POOL_FRAMES i, lo := 0, w := 22 }
/-- PT_ROOT, R367. -/
def PT_ROOT (i : Nat) : Nat := 0x80300 + 0x4 * i
def PT_ROOT_ROOT (i : Nat) : Fld := { off := PT_ROOT i, lo := 0, w := 22 }
/-- TIER_BASE, R384. -/
def TIER_BASE (i : Nat) (j : Nat) : Nat := 0x80400 + 0x20 * i + 0x8 * j
def TIER_BASE_GIB (i : Nat) (j : Nat) : Fld := { off := TIER_BASE i j, lo := 0, w := 22 }
/-- TIER_SIZE, R384. -/
def TIER_SIZE (i : Nat) (j : Nat) : Nat := 0x80404 + 0x20 * i + 0x8 * j
def TIER_SIZE_GIB (i : Nat) (j : Nat) : Fld := { off := TIER_SIZE i j, lo := 0, w := 22 }
def TIER_SIZE_STRIPE_DIES (i : Nat) (j : Nat) : Fld := { off := TIER_SIZE i j, lo := 22, w := 8 }
/-- DC_CTRL, R324. -/
def DC_CTRL : Nat := 0x90000
def DC_CTRL_PREFETCH_EN : Fld := { off := DC_CTRL, lo := 0, w := 1 }
def DC_CTRL_STREAM_EN : Fld := { off := DC_CTRL, lo := 1, w := 1 }
def DC_CTRL_STREAM_LIMIT : Fld := { off := DC_CTRL, lo := 2, w := 5 }
def DC_CTRL_HOLD_MIN : Fld := { off := DC_CTRL, lo := 8, w := 8 }
def DC_CTRL_PRED_EN : Fld := { off := DC_CTRL, lo := 16, w := 1 }
/-- DC_SWEEP, R341. -/
def DC_SWEEP : Nat := 0x90004
def DC_SWEEP_BUSY : Fld := { off := DC_SWEEP, lo := 0, w := 1 }
def DC_SWEEP_PARTITION : Fld := { off := DC_SWEEP, lo := 1, w := 4 }
def DC_SWEEP_COUNT : Fld := { off := DC_SWEEP, lo := 16, w := 16 }
/-- DC_ERR, R345. -/
def DC_ERR : Nat := 0x90008
def DC_ERR_SLICE : Fld := { off := DC_ERR, lo := 0, w := 3 }
def DC_ERR_WAY : Fld := { off := DC_ERR, lo := 3, w := 4 }
def DC_ERR_SET : Fld := { off := DC_ERR, lo := 7, w := 12 }
def DC_ERR_CAUSE : Fld := { off := DC_ERR, lo := 19, w := 4 }
def DC_ERR_VALID : Fld := { off := DC_ERR, lo := 23, w := 1 }
/-- DC_CORRECTED, R345. -/
def DC_CORRECTED : Nat := 0x9000c
def DC_CORRECTED_DATA : Fld := { off := DC_CORRECTED, lo := 0, w := 16 }
def DC_CORRECTED_PARITY : Fld := { off := DC_CORRECTED, lo := 16, w := 16 }
/-- DC_BAR4_HINT, R335. -/
def DC_BAR4_HINT : Nat := 0x90010
def DC_BAR4_HINT_HINT : Fld := { off := DC_BAR4_HINT, lo := 0, w := 8 }
/-- TALLY_FORCED, R322. -/
def TALLY_FORCED : Nat := 0x90014
def TALLY_FORCED_FORCED : Fld := { off := TALLY_FORCED, lo := 0, w := 32 }
/-- AMO_COUNT, R334. -/
def AMO_COUNT : Nat := 0x90018
def AMO_COUNT_NEAR : Fld := { off := AMO_COUNT, lo := 0, w := 16 }
def AMO_COUNT_FAR : Fld := { off := AMO_COUNT, lo := 16, w := 16 }
/-- DC_WAYS, R343. -/
def DC_WAYS (i : Nat) : Nat := 0x90040 + 0x4 * i
def DC_WAYS_LOCKED (i : Nat) : Fld := { off := DC_WAYS i, lo := 0, w := 16 }
def DC_WAYS_DISABLED (i : Nat) : Fld := { off := DC_WAYS i, lo := 16, w := 16 }
/-- DC_LOCKED_LINES, R343. -/
def DC_LOCKED_LINES (i : Nat) : Nat := 0x90060 + 0x4 * i
def DC_LOCKED_LINES_LINES (i : Nat) : Fld := { off := DC_LOCKED_LINES i, lo := 0, w := 17 }
/-- DC_HITS, R311. -/
def DC_HITS (i : Nat) : Nat := 0x90080 + 0x8 * i
def DC_HITS_HITS (i : Nat) : Fld := { off := DC_HITS i, lo := 0, w := 32 }
/-- DC_MISSES, R311. -/
def DC_MISSES (i : Nat) : Nat := 0x90084 + 0x8 * i
def DC_MISSES_MISSES (i : Nat) : Fld := { off := DC_MISSES i, lo := 0, w := 32 }
/-- HAYLOFT, R328. -/
def HAYLOFT (i : Nat) : Nat := 0x900c0 + 0x4 * i
def HAYLOFT_DIRTY (i : Nat) : Fld := { off := HAYLOFT i, lo := 0, w := 6 }
def HAYLOFT_DIRECT (i : Nat) : Fld := { off := HAYLOFT i, lo := 16, w := 16 }
/-- HBM_STATUS, R358. -/
def HBM_STATUS : Nat := 0xa0000
def HBM_STATUS_ONLINE : Fld := { off := HBM_STATUS, lo := 0, w := 4 }
def HBM_STATUS_ZEROING : Fld := { off := HBM_STATUS, lo := 4, w := 1 }
def HBM_STATUS_ZEROED : Fld := { off := HBM_STATUS, lo := 5, w := 1 }
def HBM_STATUS_SELF_REFRESH : Fld := { off := HBM_STATUS, lo := 6, w := 1 }
/-- HBM_CTRL, R352. -/
def HBM_CTRL : Nat := 0xa0004
def HBM_CTRL_OFFLINE : Fld := { off := HBM_CTRL, lo := 0, w := 4 }
/-- HBM_SCRUB, R351. -/
def HBM_SCRUB : Nat := 0xa0008
def HBM_SCRUB_HOURS : Fld := { off := HBM_SCRUB, lo := 0, w := 16 }
/-- HBM_ERR, R349. -/
def HBM_ERR : Nat := 0xa000c
def HBM_ERR_STACK : Fld := { off := HBM_ERR, lo := 0, w := 2 }
def HBM_ERR_CHAN : Fld := { off := HBM_ERR, lo := 2, w := 5 }
def HBM_ERR_CAUSE : Fld := { off := HBM_ERR, lo := 7, w := 3 }
def HBM_ERR_VALID : Fld := { off := HBM_ERR, lo := 10, w := 1 }
/-- HBM_ERR_ADDR_LO, R349. -/
def HBM_ERR_ADDR_LO : Nat := 0xa0010
def HBM_ERR_ADDR_LO_ADDR : Fld := { off := HBM_ERR_ADDR_LO, lo := 0, w := 32 }
/-- HBM_ERR_ADDR_HI, R349. -/
def HBM_ERR_ADDR_HI : Nat := 0xa0014
def HBM_ERR_ADDR_HI_ADDR : Fld := { off := HBM_ERR_ADDR_HI, lo := 0, w := 6 }
/-- HBM_CORRECTED, R349. -/
def HBM_CORRECTED (i : Nat) : Nat := 0xa0020 + 0x4 * i
def HBM_CORRECTED_COUNT (i : Nat) : Fld := { off := HBM_CORRECTED i, lo := 0, w := 32 }
/-- HKM_INDEX, R355. -/
def HKM_INDEX : Nat := 0xa0040
def HKM_INDEX_GRANULE : Fld := { off := HKM_INDEX, lo := 0, w := 17 }
/-- HKM_DATA, R355. -/
def HKM_DATA : Nat := 0xa0044
def HKM_DATA_PARTITION : Fld := { off := HKM_DATA, lo := 0, w := 4 }
/-- BIAS_FLIP, R365. -/
def BIAS_FLIP : Nat := 0xa0048
def BIAS_FLIP_PAGE : Fld := { off := BIAS_FLIP, lo := 0, w := 22 }
def BIAS_FLIP_SHARED : Fld := { off := BIAS_FLIP, lo := 22, w := 1 }
def BIAS_FLIP_BUSY : Fld := { off := BIAS_FLIP, lo := 23, w := 1 }
def BIAS_FLIP_DROPPED : Fld := { off := BIAS_FLIP, lo := 24, w := 1 }
/-- MEMKEY_CTRL, R356. -/
def MEMKEY_CTRL : Nat := 0xa0050
def MEMKEY_CTRL_PARTITION : Fld := { off := MEMKEY_CTRL, lo := 0, w := 4 }
def MEMKEY_CTRL_ROTATE : Fld := { off := MEMKEY_CTRL, lo := 4, w := 1 }
/-- PRESERVE_STATUS, R387. -/
def PRESERVE_STATUS : Nat := 0xa0060
def PRESERVE_STATUS_ARMED : Fld := { off := PRESERVE_STATUS, lo := 0, w := 1 }
def PRESERVE_STATUS_ORPHANED : Fld := { off := PRESERVE_STATUS, lo := 1, w := 1 }
def PRESERVE_STATUS_BAD_RECORD : Fld := { off := PRESERVE_STATUS, lo := 2, w := 1 }
def PRESERVE_STATUS_KEPT : Fld := { off := PRESERVE_STATUS, lo := 4, w := 16 }
/-- PRESERVE_CTRL, R390. -/
def PRESERVE_CTRL : Nat := 0xa0064
def PRESERVE_CTRL_REATTACH : Fld := { off := PRESERVE_CTRL, lo := 0, w := 1 }
def PRESERVE_CTRL_DISCARD : Fld := { off := PRESERVE_CTRL, lo := 1, w := 1 }
/-- MEMKEY_GEN, R356. -/
def MEMKEY_GEN (i : Nat) : Nat := 0xa0080 + 0x4 * i
def MEMKEY_GEN_GEN (i : Nat) : Fld := { off := MEMKEY_GEN i, lo := 0, w := 16 }
/-- RU_STATUS, R185. -/
def RU_STATUS : Nat := 0xb0000
def RU_STATUS_BUSY : Fld := { off := RU_STATUS, lo := 0, w := 1 }
def RU_STATUS_EARLY_FULL : Fld := { off := RU_STATUS, lo := 1, w := 1 }
def RU_STATUS_ARMED : Fld := { off := RU_STATUS, lo := 16, w := 11 }
/-- RU_TIMEOUT, R186. -/
def RU_TIMEOUT : Nat := 0xb0004
def RU_TIMEOUT_SLOT : Fld := { off := RU_TIMEOUT, lo := 0, w := 16 }
def RU_TIMEOUT_EARLY : Fld := { off := RU_TIMEOUT, lo := 16, w := 16 }
/-- RU_ERR, R181. -/
def RU_ERR : Nat := 0xb0008
def RU_ERR_CAUSE : Fld := { off := RU_ERR, lo := 0, w := 4 }
def RU_ERR_VALID : Fld := { off := RU_ERR, lo := 4, w := 1 }
def RU_ERR_SLOT : Fld := { off := RU_ERR, lo := 8, w := 10 }
/-- RU_ERR_SRC, R181. -/
def RU_ERR_SRC : Nat := 0xb000c
def RU_ERR_SRC_PACKAGE : Fld := { off := RU_ERR_SRC, lo := 0, w := 12 }
def RU_ERR_SRC_DIE : Fld := { off := RU_ERR_SRC, lo := 12, w := 3 }
def RU_ERR_SRC_PORT : Fld := { off := RU_ERR_SRC, lo := 15, w := 3 }
/-- RU_DROP, R181. -/
def RU_DROP : Nat := 0xb0010
def RU_DROP_DROPPED : Fld := { off := RU_DROP, lo := 0, w := 16 }
def RU_DROP_SKIPPED : Fld := { off := RU_DROP, lo := 16, w := 16 }
/-- RU_STEP_CRC_LO, R195. -/
def RU_STEP_CRC_LO : Nat := 0xb0018
def RU_STEP_CRC_LO_CRC : Fld := { off := RU_STEP_CRC_LO, lo := 0, w := 32 }
/-- RU_STEP_CRC_HI, R195. -/
def RU_STEP_CRC_HI : Nat := 0xb001c
def RU_STEP_CRC_HI_CRC : Fld := { off := RU_STEP_CRC_HI, lo := 0, w := 32 }
/-- RU_SLOTS, R178. -/
def RU_SLOTS (i : Nat) : Nat := 0xb0100 + 0x4 * i
def RU_SLOTS_BASE (i : Nat) : Fld := { off := RU_SLOTS i, lo := 0, w := 10 }
def RU_SLOTS_COUNT (i : Nat) : Fld := { off := RU_SLOTS i, lo := 10, w := 11 }
/-- REDUCE_WIN, R187. -/
def REDUCE_WIN (i : Nat) : Nat := 0xb0140 + 0x4 * i
def REDUCE_WIN_PERIOD (i : Nat) : Fld := { off := REDUCE_WIN i, lo := 0, w := 8 }
def REDUCE_WIN_PHASE (i : Nat) : Fld := { off := REDUCE_WIN i, lo := 8, w := 8 }
def REDUCE_WIN_LENGTH (i : Nat) : Fld := { off := REDUCE_WIN i, lo := 16, w := 8 }
/-- CE_STATE, R237. -/
def CE_STATE (i : Nat) : Nat := 0xc0000 + 0x4 * i
def CE_STATE_BUSY (i : Nat) : Fld := { off := CE_STATE i, lo := 0, w := 1 }
def CE_STATE_STALLED (i : Nat) : Fld := { off := CE_STATE i, lo := 1, w := 1 }
def CE_STATE_RING (i : Nat) : Fld := { off := CE_STATE i, lo := 3, w := 13 }
/-- CE_BYTES, R237. -/
def CE_BYTES (i : Nat) : Nat := 0xc0040 + 0x4 * i
def CE_BYTES_KIB (i : Nat) : Fld := { off := CE_BYTES i, lo := 0, w := 32 }
/-- PEER_STATE, R427. -/
def PEER_STATE (i : Nat) : Nat := 0xd0000 + 0x40 * i
def PEER_STATE_STATE (i : Nat) : Fld := { off := PEER_STATE i, lo := 0, w := 3 }
def PEER_STATE_MODULES_UP (i : Nat) : Fld := { off := PEER_STATE i, lo := 4, w := 4 }
def PEER_STATE_PARTNER_DIE (i : Nat) : Fld := { off := PEER_STATE i, lo := 8, w := 3 }
def PEER_STATE_PARTNER_PORT (i : Nat) : Fld := { off := PEER_STATE i, lo := 11, w := 2 }
def PEER_STATE_RETRIES (i : Nat) : Fld := { off := PEER_STATE i, lo := 16, w := 16 }
/-- PEER_DELAY, R58. -/
def PEER_DELAY (i : Nat) : Nat := 0xd0004 + 0x40 * i
def PEER_DELAY_DELAY (i : Nat) : Fld := { off := PEER_DELAY i, lo := 0, w := 16 }
/-- PEER_AUTH_CLASS, R434. -/
def PEER_AUTH_CLASS (i : Nat) : Nat := 0xd0008 + 0x40 * i
def PEER_AUTH_CLASS_CLASS (i : Nat) : Fld := { off := PEER_AUTH_CLASS i, lo := 0, w := 10 }
/-- PEER_AUTH_PART, R434. -/
def PEER_AUTH_PART (i : Nat) : Nat := 0xd000c + 0x40 * i
def PEER_AUTH_PART_PART (i : Nat) : Fld := { off := PEER_AUTH_PART i, lo := 0, w := 16 }
/-- PEER_AUTH_WGROUP, R434. -/
def PEER_AUTH_WGROUP (i : Nat) : Nat := 0xd0010 + 0x40 * i
def PEER_AUTH_WGROUP_WGROUP (i : Nat) : Fld := { off := PEER_AUTH_WGROUP i, lo := 0, w := 32 }
/-- PEER_ROUTE, R429. -/
def PEER_ROUTE : Nat := 0xd0100
def PEER_ROUTE_ROUTE : Fld := { off := PEER_ROUTE, lo := 0, w := 24 }
/-- OPT_STATE, R452. -/
def OPT_STATE (i : Nat) : Nat := 0xe0000 + 0x80 * i
def OPT_STATE_STATE (i : Nat) : Fld := { off := OPT_STATE i, lo := 0, w := 3 }
def OPT_STATE_HALF (i : Nat) : Fld := { off := OPT_STATE i, lo := 3, w := 1 }
def OPT_STATE_OUTSTANDING (i : Nat) : Fld := { off := OPT_STATE i, lo := 16, w := 16 }
/-- OPT_CTRL, R455. -/
def OPT_CTRL (i : Nat) : Nat := 0xe0004 + 0x80 * i
def OPT_CTRL_ENABLE (i : Nat) : Fld := { off := OPT_CTRL i, lo := 0, w := 1 }
def OPT_CTRL_ADMIT (i : Nat) : Fld := { off := OPT_CTRL i, lo := 1, w := 1 }
def OPT_CTRL_TICK_SRC (i : Nat) : Fld := { off := OPT_CTRL i, lo := 2, w := 1 }
def OPT_CTRL_QUARANTINE_DROPS (i : Nat) : Fld := { off := OPT_CTRL i, lo := 8, w := 8 }
def OPT_CTRL_RETRY_LIMIT (i : Nat) : Fld := { off := OPT_CTRL i, lo := 16, w := 4 }
/-- OPT_PEER, R456. -/
def OPT_PEER (i : Nat) : Nat := 0xe0008 + 0x80 * i
def OPT_PEER_PACKAGE (i : Nat) : Fld := { off := OPT_PEER i, lo := 0, w := 12 }
def OPT_PEER_DIE (i : Nat) : Fld := { off := OPT_PEER i, lo := 12, w := 3 }
/-- OPT_SRC, R456. -/
def OPT_SRC (i : Nat) : Nat := 0xe000c + 0x80 * i
def OPT_SRC_LO (i : Nat) : Fld := { off := OPT_SRC i, lo := 0, w := 12 }
def OPT_SRC_HI (i : Nat) : Fld := { off := OPT_SRC i, lo := 16, w := 12 }
/-- OPT_AUTH_CLASS, R434. -/
def OPT_AUTH_CLASS (i : Nat) : Nat := 0xe0010 + 0x80 * i
def OPT_AUTH_CLASS_CLASS (i : Nat) : Fld := { off := OPT_AUTH_CLASS i, lo := 0, w := 10 }
/-- OPT_AUTH_PART, R434. -/
def OPT_AUTH_PART (i : Nat) : Nat := 0xe0014 + 0x80 * i
def OPT_AUTH_PART_PART (i : Nat) : Fld := { off := OPT_AUTH_PART i, lo := 0, w := 16 }
/-- OPT_AUTH_WGROUP, R434. -/
def OPT_AUTH_WGROUP (i : Nat) : Nat := 0xe0018 + 0x80 * i
def OPT_AUTH_WGROUP_WGROUP (i : Nat) : Fld := { off := OPT_AUTH_WGROUP i, lo := 0, w := 32 }
/-- OPT_ERR, R453. -/
def OPT_ERR (i : Nat) : Nat := 0xe001c + 0x80 * i
def OPT_ERR_CAUSE (i : Nat) : Fld := { off := OPT_ERR i, lo := 0, w := 4 }
def OPT_ERR_VALID (i : Nat) : Fld := { off := OPT_ERR i, lo := 4, w := 1 }
/-- CAGE, R459. -/
def CAGE (i : Nat) : Nat := 0xe0100 + 0x4 * i
def CAGE_PRESENT (i : Nat) : Fld := { off := CAGE i, lo := 0, w := 1 }
def CAGE_PRESENCE_CHANGED (i : Nat) : Fld := { off := CAGE i, lo := 1, w := 1 }
def CAGE_BUTTON (i : Nat) : Fld := { off := CAGE i, lo := 2, w := 1 }
def CAGE_LASER_EN (i : Nat) : Fld := { off := CAGE i, lo := 3, w := 1 }
def CAGE_LASER_GOOD (i : Nat) : Fld := { off := CAGE i, lo := 4, w := 1 }
def CAGE_POWER_FAULT (i : Nat) : Fld := { off := CAGE i, lo := 5, w := 1 }
def CAGE_PWR_IND (i : Nat) : Fld := { off := CAGE i, lo := 6, w := 2 }
def CAGE_ATTN_IND (i : Nat) : Fld := { off := CAGE i, lo := 8, w := 2 }
/-- GATE_DROP, R431. -/
def GATE_DROP (i : Nat) : Nat := 0xe0200 + 0x4 * i
def GATE_DROP_COUNT (i : Nat) : Fld := { off := GATE_DROP i, lo := 0, w := 32 }
/-- FAB_TIMEOUT, R444. -/
def FAB_TIMEOUT : Nat := 0xe0300
def FAB_TIMEOUT_OP_TICKS : Fld := { off := FAB_TIMEOUT, lo := 0, w := 16 }
def FAB_TIMEOUT_STALL_TICKS : Fld := { off := FAB_TIMEOUT, lo := 16, w := 8 }
/-- WIN_ERR, R440. -/
def WIN_ERR : Nat := 0xe0304
def WIN_ERR_WINDOW : Fld := { off := WIN_ERR, lo := 0, w := 10 }
def WIN_ERR_CHECK : Fld := { off := WIN_ERR, lo := 10, w := 4 }
def WIN_ERR_VALID : Fld := { off := WIN_ERR, lo := 14, w := 1 }
/-- WIN_ERR_SRC, R440. -/
def WIN_ERR_SRC : Nat := 0xe0308
def WIN_ERR_SRC_PACKAGE : Fld := { off := WIN_ERR_SRC, lo := 0, w := 12 }
def WIN_ERR_SRC_DIE : Fld := { off := WIN_ERR_SRC, lo := 12, w := 3 }
def WIN_ERR_SRC_PORT : Fld := { off := WIN_ERR_SRC, lo := 15, w := 3 }
/-- FAB_REMOTE_ERR, R458. -/
def FAB_REMOTE_ERR : Nat := 0xe030c
def FAB_REMOTE_ERR_PACKAGE : Fld := { off := FAB_REMOTE_ERR, lo := 0, w := 12 }
def FAB_REMOTE_ERR_DIE : Fld := { off := FAB_REMOTE_ERR, lo := 12, w := 3 }
def FAB_REMOTE_ERR_VALID : Fld := { off := FAB_REMOTE_ERR, lo := 15, w := 1 }
def FAB_REMOTE_ERR_COUNT : Fld := { off := FAB_REMOTE_ERR, lo := 16, w := 16 }
/-- WIN_OPEN, R440. -/
def WIN_OPEN (i : Nat) : Nat := 0xe0400 + 0x4 * i
def WIN_OPEN_OPEN (i : Nat) : Fld := { off := WIN_OPEN i, lo := 0, w := 32 }
/-- BOOT_STATUS, R532. -/
def BOOT_STATUS : Nat := 0xf0000
def BOOT_STATUS_STAGE : Fld := { off := BOOT_STATUS, lo := 0, w := 4 }
def BOOT_STATUS_SLOT : Fld := { off := BOOT_STATUS, lo := 4, w := 1 }
def BOOT_STATUS_OWNER_KEY : Fld := { off := BOOT_STATUS, lo := 5, w := 1 }
def BOOT_STATUS_PRESERVED : Fld := { off := BOOT_STATUS, lo := 6, w := 1 }
def BOOT_STATUS_BIST_RAN : Fld := { off := BOOT_STATUS, lo := 7, w := 1 }
def BOOT_STATUS_MS : Fld := { off := BOOT_STATUS, lo := 8, w := 8 }
def BOOT_STATUS_SVN : Fld := { off := BOOT_STATUS, lo := 16, w := 16 }
/-- SEC_ERR, R497. -/
def SEC_ERR : Nat := 0xf0004
def SEC_ERR_CAUSE : Fld := { off := SEC_ERR, lo := 0, w := 4 }
def SEC_ERR_STAGE : Fld := { off := SEC_ERR, lo := 4, w := 4 }
def SEC_ERR_VALID : Fld := { off := SEC_ERR, lo := 8, w := 1 }
/-- GROOM_STATUS, R251. -/
def GROOM_STATUS : Nat := 0x100000
def GROOM_STATUS_STATE : Fld := { off := GROOM_STATUS, lo := 0, w := 2 }
def GROOM_STATUS_BACKLOG : Fld := { off := GROOM_STATUS, lo := 16, w := 9 }
/-- GROOM_BUDGET, R247. -/
def GROOM_BUDGET : Nat := 0x100004
def GROOM_BUDGET_UNITS : Fld := { off := GROOM_BUDGET, lo := 0, w := 8 }
/-- GROOM_WDOG, R250. -/
def GROOM_WDOG : Nat := 0x100008
def GROOM_WDOG_KICK : Fld := { off := GROOM_WDOG, lo := 0, w := 1 }
def GROOM_WDOG_RESETS : Fld := { off := GROOM_WDOG, lo := 16, w := 16 }
/-- GROOM_DEFERRED, R249. -/
def GROOM_DEFERRED : Nat := 0x10000c
def GROOM_DEFERRED_COUNT : Fld := { off := GROOM_DEFERRED, lo := 0, w := 32 }
/-- GROOM_SHARE, R249. -/
def GROOM_SHARE (i : Nat) : Nat := 0x100040 + 0x4 * i
def GROOM_SHARE_SHARE (i : Nat) : Fld := { off := GROOM_SHARE i, lo := 0, w := 9 }
/-- CORE_STATUS, R85. -/
def CORE_STATUS (i : Nat) : Nat := 0x1000000 + 0x10000 * i
def CORE_STATUS_STATE (i : Nat) : Fld := { off := CORE_STATUS i, lo := 0, w := 3 }
def CORE_STATUS_LOADW_ACTIVE (i : Nat) : Fld := { off := CORE_STATUS i, lo := 3, w := 1 }
def CORE_STATUS_ARRAYS_GOOD (i : Nat) : Fld := { off := CORE_STATUS i, lo := 4, w := 4 }
def CORE_STATUS_PARTITION (i : Nat) : Fld := { off := CORE_STATUS i, lo := 8, w := 4 }
/-- CORE_FAULT, R97. -/
def CORE_FAULT (i : Nat) : Nat := 0x1000004 + 0x10000 * i
def CORE_FAULT_CAUSE (i : Nat) : Fld := { off := CORE_FAULT i, lo := 0, w := 5 }
def CORE_FAULT_VALID (i : Nat) : Fld := { off := CORE_FAULT i, lo := 8, w := 1 }
def CORE_FAULT_TICK (i : Nat) : Fld := { off := CORE_FAULT i, lo := 16, w := 16 }
/-- CORE_FAULT_PC, R97. -/
def CORE_FAULT_PC (i : Nat) : Nat := 0x1000008 + 0x10000 * i
def CORE_FAULT_PC_OFFSET (i : Nat) : Fld := { off := CORE_FAULT_PC i, lo := 0, w := 17 }
def CORE_FAULT_PC_BANK (i : Nat) : Fld := { off := CORE_FAULT_PC i, lo := 17, w := 1 }
/-- PROG_BANK, R111. -/
def PROG_BANK (i : Nat) : Nat := 0x100000c + 0x10000 * i
def PROG_BANK_ACTIVE (i : Nat) : Fld := { off := PROG_BANK i, lo := 0, w := 1 }
def PROG_BANK_SWITCH_PENDING (i : Nat) : Fld := { off := PROG_BANK i, lo := 1, w := 1 }
def PROG_BANK_LOADING (i : Nat) : Fld := { off := PROG_BANK i, lo := 2, w := 1 }
def PROG_BANK_SWITCH_COUNT (i : Nat) : Fld := { off := PROG_BANK i, lo := 16, w := 16 }
/-- CRIB_ECC, R88. -/
def CRIB_ECC (i : Nat) : Nat := 0x1000010 + 0x10000 * i
def CRIB_ECC_CORRECTED (i : Nat) : Fld := { off := CRIB_ECC i, lo := 0, w := 16 }
def CRIB_ECC_UNCORRECTABLE (i : Nat) : Fld := { off := CRIB_ECC i, lo := 16, w := 1 }
/-- ARRAY_STATE, R131. -/
def ARRAY_STATE (i : Nat) : Nat := 0x1000020 + 0x10000 * i
def ARRAY_STATE_STREAMING (i : Nat) : Fld := { off := ARRAY_STATE i, lo := 0, w := 4 }
def ARRAY_STATE_DRAINING (i : Nat) : Fld := { off := ARRAY_STATE i, lo := 4, w := 4 }
def ARRAY_STATE_LOADING (i : Nat) : Fld := { off := ARRAY_STATE i, lo := 8, w := 1 }
def ARRAY_STATE_STORE_FMT (i : Nat) : Fld := { off := ARRAY_STATE i, lo := 9, w := 4 }
/-- ARRAY_ERR, R136. -/
def ARRAY_ERR (i : Nat) : Nat := 0x1000024 + 0x10000 * i
def ARRAY_ERR_ARRAY (i : Nat) : Fld := { off := ARRAY_ERR i, lo := 0, w := 2 }
def ARRAY_ERR_STRUCT (i : Nat) : Fld := { off := ARRAY_ERR i, lo := 2, w := 2 }
def ARRAY_ERR_ROW (i : Nat) : Fld := { off := ARRAY_ERR i, lo := 4, w := 8 }
def ARRAY_ERR_VALID (i : Nat) : Fld := { off := ARRAY_ERR i, lo := 12, w := 1 }
def ARRAY_ERR_TICK (i : Nat) : Fld := { off := ARRAY_ERR i, lo := 16, w := 16 }
/-- ARRAY_BUSY, R117. -/
def ARRAY_BUSY (i : Nat) (j : Nat) : Nat := 0x1000030 + 0x10000 * i + 0x4 * j
def ARRAY_BUSY_CYCLES (i : Nat) (j : Nat) : Fld := { off := ARRAY_BUSY i j, lo := 0, w := 32 }
/-- SYNC_VALUE_LO, R253. -/
def SYNC_VALUE_LO (i : Nat) : Nat := 0x2000000 + 0x10 * i
def SYNC_VALUE_LO_VALUE (i : Nat) : Fld := { off := SYNC_VALUE_LO i, lo := 0, w := 32 }
/-- SYNC_VALUE_HI, R253. -/
def SYNC_VALUE_HI (i : Nat) : Nat := 0x2000004 + 0x10 * i
def SYNC_VALUE_HI_VALUE (i : Nat) : Fld := { off := SYNC_VALUE_HI i, lo := 0, w := 32 }
/-- SYNC_ADD, R254. -/
def SYNC_ADD (i : Nat) : Nat := 0x2000008 + 0x10 * i
def SYNC_ADD_INCREMENT (i : Nat) : Fld := { off := SYNC_ADD i, lo := 0, w := 32 }
/-- SYNC_CTRL, R267. -/
def SYNC_CTRL (i : Nat) : Nat := 0x200000c + 0x10 * i
def SYNC_CTRL_OWNER (i : Nat) : Fld := { off := SYNC_CTRL i, lo := 0, w := 4 }
def SYNC_CTRL_CLEAR (i : Nat) : Fld := { off := SYNC_CTRL i, lo := 4, w := 1 }
def SYNC_CTRL_POISON (i : Nat) : Fld := { off := SYNC_CTRL i, lo := 5, w := 1 }
def SYNC_CTRL_WAITERS (i : Nat) : Fld := { off := SYNC_CTRL i, lo := 16, w := 11 }

def regRows0 : List RegRow := [
  { base := 0x0, n1 := 1, s1 := 0x4, n2 := 1, s2 := 0x4, rw := 0x0, w1c := 0x0, w1s := 0x0, digested := false, modeOnly := false },
  { base := 0x4, n1 := 1, s1 := 0x4, n2 := 1, s2 := 0x4, rw := 0x0, w1c := 0x0, w1s := 0x0, digested := false, modeOnly := false },
  { base := 0x10, n1 := 6, s1 := 0x4, n2 := 1, s2 := 0x4, rw := 0x0, w1c := 0x0, w1s := 0x0, digested := false, modeOnly := false },
  { base := 0x28, n1 := 1, s1 := 0x4, n2 := 1, s2 := 0x4, rw := 0x0, w1c := 0x0, w1s := 0x0, digested := false, modeOnly := false },
  { base := 0x2c, n1 := 1, s1 := 0x4, n2 := 1, s2 := 0x4, rw := 0x0, w1c := 0x0, w1s := 0x0, digested := false, modeOnly := false },
  { base := 0x30, n1 := 1, s1 := 0x4, n2 := 1, s2 := 0x4, rw := 0x0, w1c := 0x0, w1s := 0x0, digested := false, modeOnly := false },
  { base := 0x34, n1 := 1, s1 := 0x4, n2 := 1, s2 := 0x4, rw := 0x0, w1c := 0x0, w1s := 0x0, digested := false, modeOnly := false },
  { base := 0x38, n1 := 1, s1 := 0x4, n2 := 1, s2 := 0x4, rw := 0x0, w1c := 0x0, w1s := 0x0, digested := false, modeOnly := false },
  { base := 0x3c, n1 := 1, s1 := 0x4, n2 := 1, s2 := 0x4, rw := 0x0, w1c := 0x0, w1s := 0x0, digested := false, modeOnly := false },
  { base := 0x40, n1 := 1, s1 := 0x4, n2 := 1, s2 := 0x4, rw := 0x0, w1c := 0x0, w1s := 0x0, digested := false, modeOnly := false },
  { base := 0x44, n1 := 1, s1 := 0x4, n2 := 1, s2 := 0x4, rw := 0x0, w1c := 0x0, w1s := 0x0, digested := false, modeOnly := false },
  { base := 0x48, n1 := 1, s1 := 0x4, n2 := 1, s2 := 0x4, rw := 0x0, w1c := 0x80000000, w1s := 0x0, digested := false, modeOnly := false },
  { base := 0x100, n1 := 1, s1 := 0x4, n2 := 1, s2 := 0x4, rw := 0x3ffff, w1c := 0x0, w1s := 0x0, digested := false, modeOnly := false },
  { base := 0x200, n1 := 1, s1 := 0x4, n2 := 1, s2 := 0x4, rw := 0x0, w1c := 0x0, w1s := 0x0, digested := false, modeOnly := false },
  { base := 0x204, n1 := 1, s1 := 0x4, n2 := 1, s2 := 0x4, rw := 0x1ffff, w1c := 0x0, w1s := 0x0, digested := false, modeOnly := false },
  { base := 0x208, n1 := 2, s1 := 0x4, n2 := 1, s2 := 0x4, rw := 0x1ffff, w1c := 0x0, w1s := 0x0, digested := false, modeOnly := false },
  { base := 0x210, n1 := 1, s1 := 0x4, n2 := 1, s2 := 0x4, rw := 0xffff, w1c := 0x0, w1s := 0x0, digested := false, modeOnly := false },
  { base := 0x214, n1 := 1, s1 := 0x4, n2 := 1, s2 := 0x4, rw := 0x0, w1c := 0x100, w1s := 0x0, digested := false, modeOnly := false },
  { base := 0x218, n1 := 1, s1 := 0x4, n2 := 1, s2 := 0x4, rw := 0x0, w1c := 0x0, w1s := 0x0, digested := false, modeOnly := false },
  { base := 0x21c, n1 := 1, s1 := 0x4, n2 := 1, s2 := 0x4, rw := 0x0, w1c := 0x0, w1s := 0x0, digested := false, modeOnly := false }]

def regRows1 : List RegRow := [
  { base := 0x300, n1 := 8, s1 := 0x10, n2 := 1, s2 := 0x4, rw := 0xffffffff, w1c := 0x0, w1s := 0x0, digested := false, modeOnly := false },
  { base := 0x304, n1 := 8, s1 := 0x10, n2 := 1, s2 := 0x4, rw := 0xffffffff, w1c := 0x0, w1s := 0x0, digested := false, modeOnly := false },
  { base := 0x308, n1 := 8, s1 := 0x10, n2 := 1, s2 := 0x4, rw := 0xffffffff, w1c := 0x0, w1s := 0x0, digested := false, modeOnly := false },
  { base := 0x30c, n1 := 8, s1 := 0x10, n2 := 1, s2 := 0x4, rw := 0x3ffff, w1c := 0x0, w1s := 0x0, digested := false, modeOnly := false },
  { base := 0x10000, n1 := 1, s1 := 0x4, n2 := 1, s2 := 0x4, rw := 0x6, w1c := 0x0, w1s := 0x1, digested := false, modeOnly := false },
  { base := 0x10004, n1 := 1, s1 := 0x4, n2 := 1, s2 := 0x4, rw := 0x0, w1c := 0x320, w1s := 0x0, digested := false, modeOnly := false },
  { base := 0x10008, n1 := 1, s1 := 0x4, n2 := 1, s2 := 0x4, rw := 0x1ffff, w1c := 0x0, w1s := 0x0, digested := true, modeOnly := false },
  { base := 0x1000c, n1 := 1, s1 := 0x4, n2 := 1, s2 := 0x4, rw := 0x1f, w1c := 0x0, w1s := 0x0, digested := true, modeOnly := false },
  { base := 0x10010, n1 := 1, s1 := 0x4, n2 := 1, s2 := 0x4, rw := 0x0, w1c := 0x0, w1s := 0x0, digested := false, modeOnly := false },
  { base := 0x10014, n1 := 1, s1 := 0x4, n2 := 1, s2 := 0x4, rw := 0x0, w1c := 0x0, w1s := 0x0, digested := false, modeOnly := false },
  { base := 0x10018, n1 := 1, s1 := 0x4, n2 := 1, s2 := 0x4, rw := 0x0, w1c := 0x0, w1s := 0x0, digested := true, modeOnly := false },
  { base := 0x1001c, n1 := 1, s1 := 0x4, n2 := 1, s2 := 0x4, rw := 0xffffffff, w1c := 0x0, w1s := 0x0, digested := false, modeOnly := false },
  { base := 0x10020, n1 := 1, s1 := 0x4, n2 := 1, s2 := 0x4, rw := 0x0, w1c := 0x0, w1s := 0x0, digested := false, modeOnly := false },
  { base := 0x10024, n1 := 1, s1 := 0x4, n2 := 1, s2 := 0x4, rw := 0x0, w1c := 0x0, w1s := 0x0, digested := false, modeOnly := false },
  { base := 0x10028, n1 := 1, s1 := 0x4, n2 := 1, s2 := 0x4, rw := 0x0, w1c := 0x0, w1s := 0x0, digested := false, modeOnly := false },
  { base := 0x10030, n1 := 1, s1 := 0x4, n2 := 1, s2 := 0x4, rw := 0x0, w1c := 0xff00, w1s := 0x0, digested := false, modeOnly := false },
  { base := 0x10034, n1 := 1, s1 := 0x4, n2 := 1, s2 := 0x4, rw := 0x0, w1c := 0x1ff, w1s := 0x0, digested := false, modeOnly := false },
  { base := 0x10038, n1 := 1, s1 := 0x4, n2 := 1, s2 := 0x4, rw := 0x0, w1c := 0x0, w1s := 0x0, digested := false, modeOnly := false },
  { base := 0x1003c, n1 := 1, s1 := 0x4, n2 := 1, s2 := 0x4, rw := 0x0, w1c := 0x0, w1s := 0x0, digested := false, modeOnly := false },
  { base := 0x10040, n1 := 1, s1 := 0x4, n2 := 1, s2 := 0x4, rw := 0x0, w1c := 0x0, w1s := 0x0, digested := false, modeOnly := false }]

def regRows2 : List RegRow := [
  { base := 0x10044, n1 := 1, s1 := 0x4, n2 := 1, s2 := 0x4, rw := 0x0, w1c := 0x0, w1s := 0x0, digested := false, modeOnly := false },
  { base := 0x10048, n1 := 1, s1 := 0x4, n2 := 1, s2 := 0x4, rw := 0x0, w1c := 0x0, w1s := 0x0, digested := false, modeOnly := false },
  { base := 0x1004c, n1 := 1, s1 := 0x4, n2 := 1, s2 := 0x4, rw := 0x0, w1c := 0x0, w1s := 0x0, digested := false, modeOnly := false },
  { base := 0x10050, n1 := 1, s1 := 0x4, n2 := 1, s2 := 0x4, rw := 0x0, w1c := 0x0, w1s := 0x0, digested := false, modeOnly := false },
  { base := 0x10100, n1 := 16, s1 := 0x4, n2 := 1, s2 := 0x4, rw := 0x1fff, w1c := 0x0, w1s := 0x0, digested := false, modeOnly := false },
  { base := 0x10140, n1 := 16, s1 := 0x4, n2 := 1, s2 := 0x4, rw := 0x0, w1c := 0x0, w1s := 0x0, digested := false, modeOnly := false },
  { base := 0x10180, n1 := 16, s1 := 0x4, n2 := 1, s2 := 0x4, rw := 0x0, w1c := 0x0, w1s := 0x0, digested := false, modeOnly := false },
  { base := 0x101c0, n1 := 16, s1 := 0x4, n2 := 1, s2 := 0x4, rw := 0xffff, w1c := 0x0, w1s := 0x0, digested := false, modeOnly := false },
  { base := 0x20000, n1 := 1, s1 := 0x4, n2 := 1, s2 := 0x4, rw := 0x0, w1c := 0x0, w1s := 0x0, digested := false, modeOnly := false },
  { base := 0x20004, n1 := 1, s1 := 0x4, n2 := 1, s2 := 0x4, rw := 0x0, w1c := 0xfffff, w1s := 0x0, digested := false, modeOnly := false },
  { base := 0x20008, n1 := 1, s1 := 0x4, n2 := 1, s2 := 0x4, rw := 0x0, w1c := 0xfffff, w1s := 0x0, digested := false, modeOnly := false },
  { base := 0x2000c, n1 := 1, s1 := 0x4, n2 := 1, s2 := 0x4, rw := 0x0, w1c := 0xfffff, w1s := 0x0, digested := false, modeOnly := false },
  { base := 0x20010, n1 := 1, s1 := 0x4, n2 := 1, s2 := 0x4, rw := 0x0, w1c := 0x0, w1s := 0x0, digested := false, modeOnly := false },
  { base := 0x20014, n1 := 1, s1 := 0x4, n2 := 1, s2 := 0x4, rw := 0x4, w1c := 0x8, w1s := 0x0, digested := false, modeOnly := false },
  { base := 0x20018, n1 := 1, s1 := 0x4, n2 := 1, s2 := 0x4, rw := 0x7ff, w1c := 0x0, w1s := 0x0, digested := false, modeOnly := false },
  { base := 0x2001c, n1 := 1, s1 := 0x4, n2 := 1, s2 := 0x4, rw := 0x4000, w1c := 0x0, w1s := 0x0, digested := false, modeOnly := false },
  { base := 0x20020, n1 := 1, s1 := 0x4, n2 := 1, s2 := 0x4, rw := 0x0, w1c := 0x0, w1s := 0x0, digested := false, modeOnly := false },
  { base := 0x20024, n1 := 1, s1 := 0x4, n2 := 1, s2 := 0x4, rw := 0x0, w1c := 0x0, w1s := 0x0, digested := false, modeOnly := false },
  { base := 0x20028, n1 := 1, s1 := 0x4, n2 := 1, s2 := 0x4, rw := 0x0, w1c := 0x0, w1s := 0x0, digested := false, modeOnly := false },
  { base := 0x2002c, n1 := 1, s1 := 0x4, n2 := 1, s2 := 0x4, rw := 0x0, w1c := 0x0, w1s := 0x0, digested := false, modeOnly := false }]

def regRows3 : List RegRow := [
  { base := 0x20030, n1 := 1, s1 := 0x4, n2 := 1, s2 := 0x4, rw := 0x0, w1c := 0x2, w1s := 0x0, digested := false, modeOnly := false },
  { base := 0x20040, n1 := 1, s1 := 0x4, n2 := 1, s2 := 0x4, rw := 0x0, w1c := 0x40, w1s := 0x0, digested := false, modeOnly := false },
  { base := 0x20044, n1 := 1, s1 := 0x4, n2 := 1, s2 := 0x4, rw := 0x0, w1c := 0x800, w1s := 0x0, digested := false, modeOnly := false },
  { base := 0x20080, n1 := 20, s1 := 0x4, n2 := 1, s2 := 0x4, rw := 0x1f1f1f, w1c := 0x0, w1s := 0x0, digested := false, modeOnly := false },
  { base := 0x30000, n1 := 1, s1 := 0x4, n2 := 1, s2 := 0x4, rw := 0x3ff, w1c := 0x0, w1s := 0x0, digested := false, modeOnly := false },
  { base := 0x30004, n1 := 1, s1 := 0x4, n2 := 1, s2 := 0x4, rw := 0x1f7, w1c := 0x0, w1s := 0x0, digested := false, modeOnly := false },
  { base := 0x30008, n1 := 1, s1 := 0x4, n2 := 1, s2 := 0x4, rw := 0x0, w1c := 0x0, w1s := 0x0, digested := false, modeOnly := false },
  { base := 0x3000c, n1 := 1, s1 := 0x4, n2 := 1, s2 := 0x4, rw := 0x0, w1c := 0x0, w1s := 0x0, digested := false, modeOnly := false },
  { base := 0x30010, n1 := 1, s1 := 0x4, n2 := 1, s2 := 0x4, rw := 0xffff, w1c := 0x0, w1s := 0x0, digested := false, modeOnly := false },
  { base := 0x30014, n1 := 1, s1 := 0x4, n2 := 1, s2 := 0x4, rw := 0x0, w1c := 0x0, w1s := 0x0, digested := false, modeOnly := false },
  { base := 0x30018, n1 := 1, s1 := 0x4, n2 := 1, s2 := 0x4, rw := 0x0, w1c := 0x0, w1s := 0x0, digested := false, modeOnly := false },
  { base := 0x3001c, n1 := 1, s1 := 0x4, n2 := 1, s2 := 0x4, rw := 0x0, w1c := 0x200, w1s := 0x0, digested := false, modeOnly := false },
  { base := 0x30020, n1 := 1, s1 := 0x4, n2 := 1, s2 := 0x4, rw := 0xff, w1c := 0x0, w1s := 0x0, digested := false, modeOnly := false },
  { base := 0x30024, n1 := 1, s1 := 0x4, n2 := 1, s2 := 0x4, rw := 0x0, w1c := 0x0, w1s := 0x0, digested := false, modeOnly := false },
  { base := 0x30100, n1 := 32, s1 := 0x4, n2 := 1, s2 := 0x4, rw := 0x0, w1c := 0x0, w1s := 0x0, digested := false, modeOnly := false },
  { base := 0x30200, n1 := 6, s1 := 0x4, n2 := 1, s2 := 0x4, rw := 0xf, w1c := 0x0, w1s := 0x0, digested := false, modeOnly := false },
  { base := 0x40000, n1 := 16, s1 := 0x4, n2 := 1, s2 := 0x4, rw := 0xff0001, w1c := 0x0, w1s := 0x0, digested := false, modeOnly := false },
  { base := 0x40040, n1 := 1, s1 := 0x4, n2 := 1, s2 := 0x4, rw := 0x0, w1c := 0x1, w1s := 0x0, digested := false, modeOnly := false },
  { base := 0x40044, n1 := 1, s1 := 0x4, n2 := 1, s2 := 0x4, rw := 0x1f, w1c := 0x0, w1s := 0x0, digested := false, modeOnly := false },
  { base := 0x40080, n1 := 16, s1 := 0x4, n2 := 1, s2 := 0x4, rw := 0xffff, w1c := 0x0, w1s := 0x0, digested := false, modeOnly := false }]

def regRows4 : List RegRow := [
  { base := 0x40100, n1 := 48, s1 := 0x4, n2 := 1, s2 := 0x4, rw := 0x1f, w1c := 0x0, w1s := 0x0, digested := false, modeOnly := true },
  { base := 0x40400, n1 := 16, s1 := 0x40, n2 := 5, s2 := 0x8, rw := 0xffffffff, w1c := 0x0, w1s := 0x0, digested := false, modeOnly := false },
  { base := 0x40404, n1 := 16, s1 := 0x40, n2 := 5, s2 := 0x8, rw := 0xffffffff, w1c := 0x0, w1s := 0x0, digested := false, modeOnly := false },
  { base := 0x40800, n1 := 16, s1 := 0x40, n2 := 5, s2 := 0x4, rw := 0x0, w1c := 0x0, w1s := 0x0, digested := false, modeOnly := false },
  { base := 0x40c00, n1 := 16, s1 := 0x4, n2 := 1, s2 := 0x4, rw := 0xfff7ff, w1c := 0x0, w1s := 0x0, digested := false, modeOnly := false },
  { base := 0x40c40, n1 := 1, s1 := 0x4, n2 := 1, s2 := 0x4, rw := 0x0, w1c := 0x0, w1s := 0x0, digested := false, modeOnly := false },
  { base := 0x50000, n1 := 1, s1 := 0x4, n2 := 1, s2 := 0x4, rw := 0x0, w1c := 0x1000000, w1s := 0x0, digested := false, modeOnly := false },
  { base := 0x50004, n1 := 1, s1 := 0x4, n2 := 1, s2 := 0x4, rw := 0x0, w1c := 0x0, w1s := 0x0, digested := false, modeOnly := false },
  { base := 0x50008, n1 := 1, s1 := 0x4, n2 := 1, s2 := 0x4, rw := 0x0, w1c := 0x0, w1s := 0x0, digested := false, modeOnly := false },
  { base := 0x50400, n1 := 256, s1 := 0x4, n2 := 1, s2 := 0x4, rw := 0x0, w1c := 0x0, w1s := 0x0, digested := false, modeOnly := false },
  { base := 0x50800, n1 := 16, s1 := 0x4, n2 := 1, s2 := 0x4, rw := 0xff, w1c := 0x0, w1s := 0x0, digested := false, modeOnly := false },
  { base := 0x50840, n1 := 16, s1 := 0x4, n2 := 1, s2 := 0x4, rw := 0x0, w1c := 0x0, w1s := 0x0, digested := false, modeOnly := false },
  { base := 0x50880, n1 := 16, s1 := 0x8, n2 := 1, s2 := 0x4, rw := 0xffffffff, w1c := 0x0, w1s := 0x0, digested := false, modeOnly := false },
  { base := 0x50884, n1 := 16, s1 := 0x8, n2 := 1, s2 := 0x4, rw := 0xffffffff, w1c := 0x0, w1s := 0x0, digested := false, modeOnly := false },
  { base := 0x60000, n1 := 1, s1 := 0x4, n2 := 1, s2 := 0x4, rw := 0x0, w1c := 0x0, w1s := 0x0, digested := false, modeOnly := false },
  { base := 0x60004, n1 := 1, s1 := 0x4, n2 := 1, s2 := 0x4, rw := 0x0, w1c := 0x0, w1s := 0x0, digested := false, modeOnly := false },
  { base := 0x60008, n1 := 1, s1 := 0x4, n2 := 1, s2 := 0x4, rw := 0x0, w1c := 0x10000, w1s := 0x0, digested := false, modeOnly := false },
  { base := 0x6000c, n1 := 1, s1 := 0x4, n2 := 1, s2 := 0x4, rw := 0x0, w1c := 0x0, w1s := 0x0, digested := false, modeOnly := false },
  { base := 0x80000, n1 := 1, s1 := 0x4, n2 := 1, s2 := 0x4, rw := 0x0, w1c := 0x0, w1s := 0x0, digested := false, modeOnly := false },
  { base := 0x80004, n1 := 1, s1 := 0x4, n2 := 1, s2 := 0x4, rw := 0xfffff, w1c := 0x0, w1s := 0x0, digested := false, modeOnly := false }]

def regRows5 : List RegRow := [
  { base := 0x80008, n1 := 1, s1 := 0x4, n2 := 1, s2 := 0x4, rw := 0x3fffff, w1c := 0x0, w1s := 0x0, digested := false, modeOnly := false },
  { base := 0x8000c, n1 := 1, s1 := 0x4, n2 := 1, s2 := 0x4, rw := 0x3fffff, w1c := 0x0, w1s := 0x0, digested := false, modeOnly := false },
  { base := 0x80010, n1 := 1, s1 := 0x4, n2 := 1, s2 := 0x4, rw := 0x0, w1c := 0x4000, w1s := 0x0, digested := false, modeOnly := false },
  { base := 0x80014, n1 := 1, s1 := 0x4, n2 := 1, s2 := 0x4, rw := 0x0, w1c := 0x0, w1s := 0x0, digested := false, modeOnly := false },
  { base := 0x80018, n1 := 1, s1 := 0x4, n2 := 1, s2 := 0x4, rw := 0x0, w1c := 0x0, w1s := 0x0, digested := false, modeOnly := false },
  { base := 0x80100, n1 := 16, s1 := 0x4, n2 := 1, s2 := 0x4, rw := 0x1, w1c := 0x0, w1s := 0x0, digested := false, modeOnly := false },
  { base := 0x80140, n1 := 16, s1 := 0x8, n2 := 1, s2 := 0x4, rw := 0xfffff, w1c := 0x0, w1s := 0x0, digested := false, modeOnly := false },
  { base := 0x80144, n1 := 16, s1 := 0x8, n2 := 1, s2 := 0x4, rw := 0xfffff, w1c := 0x0, w1s := 0x0, digested := false, modeOnly := false },
  { base := 0x80200, n1 := 16, s1 := 0x8, n2 := 1, s2 := 0x4, rw := 0x3fffff, w1c := 0x0, w1s := 0x0, digested := false, modeOnly := false },
  { base := 0x80204, n1 := 16, s1 := 0x8, n2 := 1, s2 := 0x4, rw := 0x3fffff, w1c := 0x0, w1s := 0x0, digested := false, modeOnly := false },
  { base := 0x80300, n1 := 16, s1 := 0x4, n2 := 1, s2 := 0x4, rw := 0x0, w1c := 0x0, w1s := 0x0, digested := false, modeOnly := false },
  { base := 0x80400, n1 := 16, s1 := 0x20, n2 := 4, s2 := 0x8, rw := 0x3fffff, w1c := 0x0, w1s := 0x0, digested := false, modeOnly := false },
  { base := 0x80404, n1 := 16, s1 := 0x20, n2 := 4, s2 := 0x8, rw := 0x3fffffff, w1c := 0x0, w1s := 0x0, digested := false, modeOnly := false },
  { base := 0x90000, n1 := 1, s1 := 0x4, n2 := 1, s2 := 0x4, rw := 0x1ff7f, w1c := 0x0, w1s := 0x0, digested := false, modeOnly := false },
  { base := 0x90004, n1 := 1, s1 := 0x4, n2 := 1, s2 := 0x4, rw := 0x0, w1c := 0x0, w1s := 0x0, digested := false, modeOnly := false },
  { base := 0x90008, n1 := 1, s1 := 0x4, n2 := 1, s2 := 0x4, rw := 0x0, w1c := 0x800000, w1s := 0x0, digested := false, modeOnly := false },
  { base := 0x9000c, n1 := 1, s1 := 0x4, n2 := 1, s2 := 0x4, rw := 0x0, w1c := 0x0, w1s := 0x0, digested := false, modeOnly := false },
  { base := 0x90010, n1 := 1, s1 := 0x4, n2 := 1, s2 := 0x4, rw := 0xff, w1c := 0x0, w1s := 0x0, digested := false, modeOnly := false },
  { base := 0x90014, n1 := 1, s1 := 0x4, n2 := 1, s2 := 0x4, rw := 0x0, w1c := 0x0, w1s := 0x0, digested := false, modeOnly := false },
  { base := 0x90018, n1 := 1, s1 := 0x4, n2 := 1, s2 := 0x4, rw := 0x0, w1c := 0x0, w1s := 0x0, digested := false, modeOnly := false }]

def regRows6 : List RegRow := [
  { base := 0x90040, n1 := 8, s1 := 0x4, n2 := 1, s2 := 0x4, rw := 0x0, w1c := 0x0, w1s := 0x0, digested := false, modeOnly := false },
  { base := 0x90060, n1 := 8, s1 := 0x4, n2 := 1, s2 := 0x4, rw := 0x0, w1c := 0x0, w1s := 0x0, digested := false, modeOnly := false },
  { base := 0x90080, n1 := 8, s1 := 0x8, n2 := 1, s2 := 0x4, rw := 0x0, w1c := 0x0, w1s := 0x0, digested := false, modeOnly := false },
  { base := 0x90084, n1 := 8, s1 := 0x8, n2 := 1, s2 := 0x4, rw := 0x0, w1c := 0x0, w1s := 0x0, digested := false, modeOnly := false },
  { base := 0x900c0, n1 := 8, s1 := 0x4, n2 := 1, s2 := 0x4, rw := 0x0, w1c := 0x0, w1s := 0x0, digested := false, modeOnly := false },
  { base := 0xa0000, n1 := 1, s1 := 0x4, n2 := 1, s2 := 0x4, rw := 0x0, w1c := 0x0, w1s := 0x0, digested := false, modeOnly := false },
  { base := 0xa0004, n1 := 1, s1 := 0x4, n2 := 1, s2 := 0x4, rw := 0xf, w1c := 0x0, w1s := 0x0, digested := false, modeOnly := false },
  { base := 0xa0008, n1 := 1, s1 := 0x4, n2 := 1, s2 := 0x4, rw := 0xffff, w1c := 0x0, w1s := 0x0, digested := false, modeOnly := false },
  { base := 0xa000c, n1 := 1, s1 := 0x4, n2 := 1, s2 := 0x4, rw := 0x0, w1c := 0x400, w1s := 0x0, digested := false, modeOnly := false },
  { base := 0xa0010, n1 := 1, s1 := 0x4, n2 := 1, s2 := 0x4, rw := 0x0, w1c := 0x0, w1s := 0x0, digested := false, modeOnly := false },
  { base := 0xa0014, n1 := 1, s1 := 0x4, n2 := 1, s2 := 0x4, rw := 0x0, w1c := 0x0, w1s := 0x0, digested := false, modeOnly := false },
  { base := 0xa0020, n1 := 4, s1 := 0x4, n2 := 1, s2 := 0x4, rw := 0x0, w1c := 0x0, w1s := 0x0, digested := false, modeOnly := false },
  { base := 0xa0040, n1 := 1, s1 := 0x4, n2 := 1, s2 := 0x4, rw := 0x1ffff, w1c := 0x0, w1s := 0x0, digested := false, modeOnly := false },
  { base := 0xa0044, n1 := 1, s1 := 0x4, n2 := 1, s2 := 0x4, rw := 0xf, w1c := 0x0, w1s := 0x0, digested := false, modeOnly := false },
  { base := 0xa0048, n1 := 1, s1 := 0x4, n2 := 1, s2 := 0x4, rw := 0x7fffff, w1c := 0x1000000, w1s := 0x0, digested := false, modeOnly := false },
  { base := 0xa0050, n1 := 1, s1 := 0x4, n2 := 1, s2 := 0x4, rw := 0xf, w1c := 0x0, w1s := 0x0, digested := false, modeOnly := false },
  { base := 0xa0060, n1 := 1, s1 := 0x4, n2 := 1, s2 := 0x4, rw := 0x0, w1c := 0x4, w1s := 0x0, digested := false, modeOnly := false },
  { base := 0xa0064, n1 := 1, s1 := 0x4, n2 := 1, s2 := 0x4, rw := 0x0, w1c := 0x0, w1s := 0x0, digested := false, modeOnly := false },
  { base := 0xa0080, n1 := 16, s1 := 0x4, n2 := 1, s2 := 0x4, rw := 0x0, w1c := 0x0, w1s := 0x0, digested := false, modeOnly := false },
  { base := 0xb0000, n1 := 1, s1 := 0x4, n2 := 1, s2 := 0x4, rw := 0x0, w1c := 0x0, w1s := 0x0, digested := false, modeOnly := false }]

def regRows7 : List RegRow := [
  { base := 0xb0004, n1 := 1, s1 := 0x4, n2 := 1, s2 := 0x4, rw := 0xffffffff, w1c := 0x0, w1s := 0x0, digested := true, modeOnly := false },
  { base := 0xb0008, n1 := 1, s1 := 0x4, n2 := 1, s2 := 0x4, rw := 0x0, w1c := 0x10, w1s := 0x0, digested := false, modeOnly := false },
  { base := 0xb000c, n1 := 1, s1 := 0x4, n2 := 1, s2 := 0x4, rw := 0x0, w1c := 0x0, w1s := 0x0, digested := false, modeOnly := false },
  { base := 0xb0010, n1 := 1, s1 := 0x4, n2 := 1, s2 := 0x4, rw := 0x0, w1c := 0x0, w1s := 0x0, digested := false, modeOnly := false },
  { base := 0xb0018, n1 := 1, s1 := 0x4, n2 := 1, s2 := 0x4, rw := 0x0, w1c := 0x0, w1s := 0x0, digested := false, modeOnly := false },
  { base := 0xb001c, n1 := 1, s1 := 0x4, n2 := 1, s2 := 0x4, rw := 0x0, w1c := 0x0, w1s := 0x0, digested := false, modeOnly := false },
  { base := 0xb0100, n1 := 16, s1 := 0x4, n2 := 1, s2 := 0x4, rw := 0x1fffff, w1c := 0x0, w1s := 0x0, digested := false, modeOnly := false },
  { base := 0xb0140, n1 := 16, s1 := 0x4, n2 := 1, s2 := 0x4, rw := 0xffffff, w1c := 0x0, w1s := 0x0, digested := false, modeOnly := false },
  { base := 0xc0000, n1 := 16, s1 := 0x4, n2 := 1, s2 := 0x4, rw := 0x0, w1c := 0x0, w1s := 0x0, digested := false, modeOnly := false },
  { base := 0xc0040, n1 := 16, s1 := 0x4, n2 := 1, s2 := 0x4, rw := 0x0, w1c := 0x0, w1s := 0x0, digested := false, modeOnly := false },
  { base := 0xd0000, n1 := 4, s1 := 0x40, n2 := 1, s2 := 0x4, rw := 0x0, w1c := 0x0, w1s := 0x0, digested := false, modeOnly := false },
  { base := 0xd0004, n1 := 4, s1 := 0x40, n2 := 1, s2 := 0x4, rw := 0x0, w1c := 0x0, w1s := 0x0, digested := false, modeOnly := false },
  { base := 0xd0008, n1 := 4, s1 := 0x40, n2 := 1, s2 := 0x4, rw := 0x3ff, w1c := 0x0, w1s := 0x0, digested := false, modeOnly := false },
  { base := 0xd000c, n1 := 4, s1 := 0x40, n2 := 1, s2 := 0x4, rw := 0xffff, w1c := 0x0, w1s := 0x0, digested := false, modeOnly := false },
  { base := 0xd0010, n1 := 4, s1 := 0x40, n2 := 1, s2 := 0x4, rw := 0xffffffff, w1c := 0x0, w1s := 0x0, digested := false, modeOnly := false },
  { base := 0xd0100, n1 := 1, s1 := 0x4, n2 := 1, s2 := 0x4, rw := 0x0, w1c := 0x0, w1s := 0x0, digested := false, modeOnly := false },
  { base := 0xe0000, n1 := 2, s1 := 0x80, n2 := 1, s2 := 0x4, rw := 0x0, w1c := 0x0, w1s := 0x0, digested := false, modeOnly := false },
  { base := 0xe0004, n1 := 2, s1 := 0x80, n2 := 1, s2 := 0x4, rw := 0xfff07, w1c := 0x0, w1s := 0x0, digested := false, modeOnly := false },
  { base := 0xe0008, n1 := 2, s1 := 0x80, n2 := 1, s2 := 0x4, rw := 0x0, w1c := 0x0, w1s := 0x0, digested := false, modeOnly := false },
  { base := 0xe000c, n1 := 2, s1 := 0x80, n2 := 1, s2 := 0x4, rw := 0xfff0fff, w1c := 0x0, w1s := 0x0, digested := false, modeOnly := false }]

def regRows8 : List RegRow := [
  { base := 0xe0010, n1 := 2, s1 := 0x80, n2 := 1, s2 := 0x4, rw := 0x3ff, w1c := 0x0, w1s := 0x0, digested := false, modeOnly := false },
  { base := 0xe0014, n1 := 2, s1 := 0x80, n2 := 1, s2 := 0x4, rw := 0xffff, w1c := 0x0, w1s := 0x0, digested := false, modeOnly := false },
  { base := 0xe0018, n1 := 2, s1 := 0x80, n2 := 1, s2 := 0x4, rw := 0xffffffff, w1c := 0x0, w1s := 0x0, digested := false, modeOnly := false },
  { base := 0xe001c, n1 := 2, s1 := 0x80, n2 := 1, s2 := 0x4, rw := 0x0, w1c := 0x10, w1s := 0x0, digested := false, modeOnly := false },
  { base := 0xe0100, n1 := 2, s1 := 0x4, n2 := 1, s2 := 0x4, rw := 0x3c8, w1c := 0x26, w1s := 0x0, digested := false, modeOnly := false },
  { base := 0xe0200, n1 := 16, s1 := 0x4, n2 := 1, s2 := 0x4, rw := 0x0, w1c := 0x0, w1s := 0x0, digested := false, modeOnly := false },
  { base := 0xe0300, n1 := 1, s1 := 0x4, n2 := 1, s2 := 0x4, rw := 0xffffff, w1c := 0x0, w1s := 0x0, digested := false, modeOnly := false },
  { base := 0xe0304, n1 := 1, s1 := 0x4, n2 := 1, s2 := 0x4, rw := 0x0, w1c := 0x4000, w1s := 0x0, digested := false, modeOnly := false },
  { base := 0xe0308, n1 := 1, s1 := 0x4, n2 := 1, s2 := 0x4, rw := 0x0, w1c := 0x0, w1s := 0x0, digested := false, modeOnly := false },
  { base := 0xe030c, n1 := 1, s1 := 0x4, n2 := 1, s2 := 0x4, rw := 0x0, w1c := 0x8000, w1s := 0x0, digested := false, modeOnly := false },
  { base := 0xe0400, n1 := 32, s1 := 0x4, n2 := 1, s2 := 0x4, rw := 0x0, w1c := 0x0, w1s := 0x0, digested := false, modeOnly := false },
  { base := 0xf0000, n1 := 1, s1 := 0x4, n2 := 1, s2 := 0x4, rw := 0x0, w1c := 0x0, w1s := 0x0, digested := false, modeOnly := false },
  { base := 0xf0004, n1 := 1, s1 := 0x4, n2 := 1, s2 := 0x4, rw := 0x0, w1c := 0x100, w1s := 0x0, digested := false, modeOnly := false },
  { base := 0x100000, n1 := 1, s1 := 0x4, n2 := 1, s2 := 0x4, rw := 0x0, w1c := 0x0, w1s := 0x0, digested := false, modeOnly := false },
  { base := 0x100004, n1 := 1, s1 := 0x4, n2 := 1, s2 := 0x4, rw := 0xff, w1c := 0x0, w1s := 0x0, digested := false, modeOnly := false },
  { base := 0x100008, n1 := 1, s1 := 0x4, n2 := 1, s2 := 0x4, rw := 0x0, w1c := 0x0, w1s := 0x0, digested := false, modeOnly := false },
  { base := 0x10000c, n1 := 1, s1 := 0x4, n2 := 1, s2 := 0x4, rw := 0x0, w1c := 0x0, w1s := 0x0, digested := false, modeOnly := false },
  { base := 0x100040, n1 := 16, s1 := 0x4, n2 := 1, s2 := 0x4, rw := 0x1ff, w1c := 0x0, w1s := 0x0, digested := false, modeOnly := false },
  { base := 0x1000000, n1 := 48, s1 := 0x10000, n2 := 1, s2 := 0x4, rw := 0x0, w1c := 0x0, w1s := 0x0, digested := false, modeOnly := false },
  { base := 0x1000004, n1 := 48, s1 := 0x10000, n2 := 1, s2 := 0x4, rw := 0x0, w1c := 0x100, w1s := 0x0, digested := false, modeOnly := false }]

def regRows9 : List RegRow := [
  { base := 0x1000008, n1 := 48, s1 := 0x10000, n2 := 1, s2 := 0x4, rw := 0x0, w1c := 0x0, w1s := 0x0, digested := false, modeOnly := false },
  { base := 0x100000c, n1 := 48, s1 := 0x10000, n2 := 1, s2 := 0x4, rw := 0x0, w1c := 0x0, w1s := 0x0, digested := false, modeOnly := false },
  { base := 0x1000010, n1 := 48, s1 := 0x10000, n2 := 1, s2 := 0x4, rw := 0x0, w1c := 0x10000, w1s := 0x0, digested := false, modeOnly := false },
  { base := 0x1000020, n1 := 48, s1 := 0x10000, n2 := 1, s2 := 0x4, rw := 0x0, w1c := 0x0, w1s := 0x0, digested := false, modeOnly := false },
  { base := 0x1000024, n1 := 48, s1 := 0x10000, n2 := 1, s2 := 0x4, rw := 0x0, w1c := 0x1000, w1s := 0x0, digested := false, modeOnly := false },
  { base := 0x1000030, n1 := 48, s1 := 0x10000, n2 := 4, s2 := 0x4, rw := 0x0, w1c := 0x0, w1s := 0x0, digested := false, modeOnly := false },
  { base := 0x2000000, n1 := 8192, s1 := 0x10, n2 := 1, s2 := 0x4, rw := 0x0, w1c := 0x0, w1s := 0x0, digested := false, modeOnly := false },
  { base := 0x2000004, n1 := 8192, s1 := 0x10, n2 := 1, s2 := 0x4, rw := 0x0, w1c := 0x0, w1s := 0x0, digested := false, modeOnly := false },
  { base := 0x2000008, n1 := 8192, s1 := 0x10, n2 := 1, s2 := 0x4, rw := 0x0, w1c := 0x0, w1s := 0x0, digested := false, modeOnly := false },
  { base := 0x200000c, n1 := 8192, s1 := 0x10, n2 := 1, s2 := 0x4, rw := 0xf, w1c := 0x0, w1s := 0x0, digested := false, modeOnly := false }]

/-- Every register of the index (R541 to R553). -/
def regRows : List RegRow :=
  regRows0 ++ regRows1 ++ regRows2 ++ regRows3 ++ regRows4 ++ regRows5 ++ regRows6 ++ regRows7 ++ regRows8 ++ regRows9

/-- The row's array holds a register at this offset. -/
def RegRow.has (r : RegRow) (off : Nat) : Bool :=
  decide (r.base ≤ off) &&
    (let x := off - r.base
     let i := min (x / r.s1) (r.n1 - 1)
     let y := x - i * r.s1
     let j := min (y / r.s2) (r.n2 - 1)
     y == j * r.s2)

def findRow (off : Nat) : Option RegRow := regRows.find? fun r => r.has off

/-- The offset lies in an array of `n` registers with stride `s` from `b`. -/
def inArr (off b n s : Nat) : Bool :=
  decide (b ≤ off) && decide (off < b + n * s) && (off - b) % s == 0

/-- Reset values of the register tables (00 R576); log entry 3 for straps, fuses and the boot image. -/
def regReset (off : Nat) : Nat :=
  if off == 0x40000 then 1
  else if off == 0x0 then 0x4c34
  else if off == 0x210 then 0x2710
  else if off == 0x10000 then 0x4
  else if off == 0x10008 then 0x3e8
  else if off == 0x1000c then 0x5
  else if off == 0x1001c then 0x44140020
  else if off == 0x10028 then 0x2512
  else if inArr off 0x10100 16 0x4 then 0x210
  else if inArr off 0x101c0 16 0x4 then 0x1
  else if off == 0x20014 then 0x2
  else if off == 0x2001c then 0x4000
  else if inArr off 0x20080 20 0x4 then 0x130301
  else if off == 0x30000 then 0x258
  else if off == 0x30004 then 0x80
  else if off == 0x30008 then 0x107
  else if off == 0x3000c then 0x104
  else if off == 0x30010 then 0x645f
  else if off == 0x30020 then 0x10
  else if inArr off 0x30200 6 0x4 then 0x8
  else if off == 0x40044 then 0x1f
  else if inArr off 0x40100 48 0x4 then 0x10
  else if decide (0x40400 ≤ off) && decide (off < 0x40800) && (off - 0x40400) % 0x40 < 0x28 && (off - 0x40400) % 0x8 == 0 then 0xffffffff
  else if decide (0x40404 ≤ off) && decide (off < 0x40804) && (off - 0x40404) % 0x40 < 0x28 && (off - 0x40404) % 0x8 == 0 then 0xffffffff
  else if decide (0x40800 ≤ off) && decide (off < 0x40c00) && (off - 0x40800) % 0x40 < 0x14 && (off - 0x40800) % 0x4 == 0 then 0x7fffffff
  else if inArr off 0x50800 16 0x4 then 0x1
  else if off == 0x80004 then 0x32710
  else if off == 0x90000 then 0x12043
  else if off == 0xa0000 then 0xf
  else if off == 0xa0008 then 0x18
  else if off == 0xb0004 then 0x401000
  else if inArr off 0xd0008 4 0x40 then 0x3ff
  else if inArr off 0xd000c 4 0x40 then 0xffff
  else if inArr off 0xd0010 4 0x40 then 0xffffffff
  else if inArr off 0xe0004 2 0x80 then 0x80000
  else if inArr off 0xe0010 2 0x80 then 0xff
  else if off == 0xe0300 then 0x100400
  else if off == 0x100004 then 0x40
  else if inArr off 0x100040 16 0x4 then 0x10
  else if off == 0x40C00 then 0x7F0000
  else if inArr off 0x40C04 15 4 then 0x1000 + 0x7F0 + (off - 0x40C00) / 4
  else 0

end Sys2Proof.Machine
end

