-- ==== Sys2Proof/Machine/Types2.lean ====
section
/-! DEFINITION. The state of the device cache, device memory, translation, the host endpoint, the die ports, the
partitions, the fault collector, power, boot and pins (specs 10 to 18), and what leaves the die. -/

namespace Sys2Proof.Machine

/-! ### Device cache (spec 10) -/

/-- A line of a slice or of its hayloft (R310): byte address, space, key tag, four sectors. -/
structure CLine where
  addr : Nat
  host : Bool
  key : Nat
  valid : BitVec 4
  dirty : BitVec 4
  poison : BitVec 4
  data : LineData
deriving DecidableEq, Repr

/-- A tally entry (R320): `excl` is state E with the owner's stop; `forced` an entry chosen as a victim (R322). -/
structure TallyEntry where
  addr : Nat
  host : Bool
  key : Nat
  excl : Bool
  count : Nat
  owner : Fin 64
  revoked : Bool
  forced : Bool := false
deriving DecidableEq, Repr

/-- A line of an L1 or of Groom's cache (R315): shared, or exclusive (`excl`) and perhaps revoked (R330). -/
structure L1Line where
  addr : Nat
  host : Bool
  excl : Bool
  revoked : Bool
  data : LineData
deriving DecidableEq, Repr

/-- Who gets the answer of a request: a requester and the number of its operation. -/
structure Asker where
  req : Req
  id : Nat
deriving DecidableEq, Repr

/-- What a request asks of the home slice (R312 to R333). `near` is the placement decided at acceptance. -/
inductive HomeOp where
  | fill
  | read (addr n : Nat)
  | write (addr : Nat) (data : List Byte)
  | amo (op : AmoOp) (addr n : Nat) (cmp new : W64) (near : Option Bool)
  | result (addr : Nat) (data : List Byte)
  | evict
  | release
  | prefetch
deriving DecidableEq, Repr

/-- The kind of page a request goes to (table after R359). -/
inductive Space where
  | dev | shr | host
deriving DecidableEq, Repr

/-- A request to a home slice, from the stop it was sent by. `once` is the read-once advice (R326), `keep` and `push` a slice and a core hint (R335,
R336), `tier` the die whose host port reads the line (R385), `part` the partition it acts for and `dva` the address that its source asked for. -/
structure HomeReq where
  stop : Fin 64
  slice : SliceIx
  line : Nat
  space : Space
  key : Nat
  once : Bool
  op : HomeOp
  who : Asker
  keep : Bool := false
  push : Option CoreIx := none
  tier : Option DieIx := none
  part : Nat := 0
  dva : Option Nat := none
deriving DecidableEq, Repr

/-- What a line's MSHR waits on (R313): memory, the host, the slice's atomic unit (R333), a revoke, an invalidation, a tally entry or a sweep that
must end first (R322, R341), or a far atomic. -/
inductive MshrWait where
  | memory | host | hostAtomic | hostWriteback (old : W64) | unit | revoke | inval | tally | far
deriving DecidableEq, Repr

/-- An MSHR: the request that allocated it, then its secondaries in acceptance order. -/
structure Mshr where
  slice : SliceIx
  line : Nat
  host : Bool
  why : MshrWait
  reqs : List HomeReq
deriving DecidableEq, Repr

/-- What happens once every holder has acknowledged an invalidation (R321, R322, R338, R365). -/
inductive InvDone where
  | none | ack (r : HomeReq) | snoop (line : Nat) (held : Bool)
deriving DecidableEq, Repr

/-- An invalidation under way: acknowledgements still to come. It ends once the last has come and the line's tally entry is gone (R321). -/
structure InvPend where
  id : Nat
  slice : SliceIx
  line : Nat
  host : Bool
  left : Nat
  done : InvDone
deriving DecidableEq, Repr

/-- A message from a slice to a caching agent (R308): they arrive in the order sent. -/
inductive L1Kind where
  | fill (excl : Bool) (data : LineData)
  | push (data : LineData)
  | bad (st : Status)
  | inval (id : Nat)
  | revoke
  | reply (who : Asker) (st : Status) (data : Option (List Byte))
deriving DecidableEq, Repr

structure L1Msg where
  stop : Fin 64
  slice : SliceIx
  line : Nat
  host : Bool
  kind : L1Kind
deriving DecidableEq, Repr

/-- A miss of an L1 that waits for its fill (R318). -/
structure L1Miss where
  stop : Fin 64
  line : Nat
  host : Bool
  killed : Bool
deriving DecidableEq, Repr

/-- A next-line prefetch on its way to a slice (R325). -/
structure Prefetch where
  slice : SliceIx
  line : Nat
  key : Nat
  once : Bool
deriving DecidableEq, Repr

/-- A slice's answer to a requester that is no core, kept until the requester takes it: of a read of `n` bytes at `addr`, or of a write. -/
structure Reply where
  who : Asker
  addr : Nat
  n : Nat
  write : Bool
  st : Status
  data : List Byte
deriving DecidableEq, Repr

/-- A push that waits until its line may be held by one agent more (R335). -/
structure PushReq where
  line : Nat
  host : Bool
  key : Nat
  core : CoreIx
deriving DecidableEq, Repr

/-- The device cache. `blocked` are the slices that accept nothing until a request of the stop named can be accepted (R314); `lost` the failed writes
of requesters that are no cores. -/
structure CacheUnit where
  lines : List (Nat × CLine) := []
  trees : List (Nat × BitVec 15) := []
  hay : List (Nat × List CLine) := []
  direct : List (Nat × Nat) := []
  tally : List (Nat × TallyEntry) := []
  tallyTrees : List (Nat × BitVec 15) := []
  mshrs : List Mshr := []
  invs : List InvPend := []
  nextInv : Nat := 0
  runs : List (Nat × Nat) := []
  pred : List (Nat × BitVec 2) := []
  l1 : List (Nat × L1Line) := []
  l1Trees : List (Nat × BitVec 3) := []
  misses : List L1Miss := []
  ring : List HomeReq := []
  toL1 : List L1Msg := []
  prefetches : List Prefetch := []
  replies : List Reply := []
  pushes : List PushReq := []
  blocked : List (Nat × Fin 64) := []
  sweeps : List Nat := []
  owned : List Nat := []
  lost : List (Asker × Nat × Status) := []
deriving DecidableEq, Repr

/-! ### Device memory (spec 11) -/

/-- State of a 32-byte sector: zeroed (R357), written under key `gen` of partition `p` (R353, R356), or poisoned (R350). -/
inductive SecTag where
  | zeroed | keyed (p gen : Nat) | poison
deriving DecidableEq, Repr

/-- A bias flip in progress (R365); `started` once what it asks of the caches or of the host has been asked. -/
structure Flip where
  page : Nat
  shared : Bool
  started : Bool := false
deriving DecidableEq, Repr

/-- Device memory: `hbm` holds plaintext, and `Die.stored` is what a sector stores. `err` are the words with an error not yet read; `keys` are the
pairs of 256-bit keys drawn, by partition and generation, free values (R353): a partition has the pair of its generation `keyGen`, and the earlier
ones stand here only because what was written under them is still stored. -/
structure MemUnit where
  hbm : List Host.Cell := []
  tag : List (Nat × SecTag) := []
  err : List (Nat × HbmUpset) := []
  keyGen : List (Nat × Nat) := []
  keys : List ((Nat × Nat) × BitVec 256 × BitVec 256) := []
  keysHeld : Bool := false
  hkm : List (Nat × BitVec 4) := []
  shared : List (Nat × Bool) := []
  flip : Option Flip := none
  scrub : List (Nat × Nat) := []
  record : Nat := 0
  recordGen : Nat := 0
deriving DecidableEq, Repr

/-! ### Translation (spec 11) -/

/-- A leaf of a page table (R367). -/
structure Leaf where
  attr : Nat
  r : Bool
  w : Bool
  migrated : Bool
  prefHost : Bool
  once : Bool
  target : Nat
deriving DecidableEq, Repr

/-- A TLB entry of a unit (R369): page of 2^bits bytes. -/
structure TlbEntry where
  unit : Nat
  part : Nat
  base : Nat
  bits : Nat
  leaf : Leaf
deriving DecidableEq, Repr

/-- An entry of the walk cache (R369). -/
structure WalkEntry where
  part : Nat
  level : Nat
  index : Nat
  entry : Nat
deriving DecidableEq, Repr

/-- An entry of the address translation cache (R370): 4 KiB pages of the host PASID of a partition. -/
structure AtcEntry where
  part : Nat
  page : Nat
  hpa : Nat
  r : Bool
  w : Bool
deriving DecidableEq, Repr

/-- An ATS Translation Request without its completion. -/
structure AtsReq where
  id : Nat
  part : Nat
  page : Nat
  dead : Bool := false
deriving DecidableEq, Repr

/-- Where a fault stands (R372 to R375). -/
inductive FaultState where
  | queued | group (index : Nat) | retry | failed (cause : Nat)
deriving DecidableEq, Repr

/-- A fault of one source on one page (R371 to R375); `tries` counts Success responses. -/
structure PageFault where
  req : Req
  part : Nat
  host : Bool
  page : Nat
  dva : Nat
  read : Bool
  write : Bool
  tries : Nat
  state : FaultState
deriving DecidableEq, Repr

/-- An outstanding page request group (R372). -/
structure PrGroup where
  index : Nat
  part : Nat
  host : Bool
  page : Nat
  sentTick : Nat
deriving DecidableEq, Repr

/-- Who makes an access to DVA space: the requester, its ring stop, its TLB, its partition (R354, R369); `id` is the place of a read in its packet's
order (R242), `amo` an atomic, which reads and writes (R372). -/
structure Src where
  req : Req
  stop : Nat
  tlb : Nat
  part : Nat
  id : Nat := 0
  amo : Bool := false
deriving DecidableEq, Repr

/-- A read of DVA space by a bulk requester that is under way or kept for its command: the bytes got so far. -/
structure DvaRead where
  req : Req
  addr : Nat
  n : Nat
  got : List Byte
deriving DecidableEq, Repr

/-- A write of DVA space by a bulk requester: the bytes written so far. -/
structure DvaWrite where
  req : Req
  addr : Nat
  n : Nat
  done : Nat
deriving DecidableEq, Repr

/-- A migration frame in use (R367, R381). -/
structure Frame where
  part : Nat
  frame : Nat
  dva : Nat
  iova : Nat
deriving DecidableEq, Repr

/-- A page under migration (R383): leaf rewrite still to come. -/
structure Migration where
  pid : Nat
  part : Nat
  dva : Nat
  frame : Nat
  back : Bool
deriving DecidableEq, Repr

/-- An ATS Invalidation Request being worked on (R378). -/
structure AtsInval where
  tag : Nat
  part : Nat
  lo : Nat
  hi : Nat
deriving DecidableEq, Repr

structure TransUnit where
  tlb : List TlbEntry := []
  walk : List WalkEntry := []
  atc : List AtcEntry := []
  ats : List AtsReq := []
  atsBad : List (Nat × Nat) := []
  nextAts : Nat := 0
  faults : List PageFault := []
  groups : List PrGroup := []
  abandoned : List (Nat × Nat × Nat) := []
  prOff : List Nat := []
  tables : List (Nat × Nat × Nat) := []
  frames : List Frame := []
  moves : List Migration := []
  reads : List DvaRead := []
  writes : List DvaWrite := []
  invals : List AtsInval := []
deriving DecidableEq, Repr

/-! ### Host endpoint (spec 12) -/

/-- Configuration state of a function (table after R404, R480). -/
structure FnCfg where
  busMaster : Bool := false
  memEnable : Bool := false
  d3 : Bool := false
  msixEnable : Bool := false
  funcMask : Bool := false
  priEnable : Bool := false
  priAlloc : Nat := 512
  inFlr : Bool := false
  romEnable : Bool := false
deriving DecidableEq, Repr

/-- What a CXL.cache request to the host is (table before R409). -/
inductive CxlKind where
  | rdShared | rdCurr | wrInv | rdOwn | rdOwnNoData | dirtyEvict
deriving DecidableEq, Repr

/-- A CXL.cache request without its response (R409, R410): for a slice's MSHR, for a bulk write of a requester, or
for another die's tier read (R385). -/
structure CxlOp where
  tag : Nat
  kind : CxlKind
  addr : Nat
  slice : SliceIx
  mshr : Bool
  who : Asker
  part : Nat
  dva : Option Nat
  tier : Option MsgHead
deriving DecidableEq, Repr

/-- A peer-to-peer read (or the zero-length read behind writes) without its completion (R418, R419). -/
structure P2pOp where
  tag : Nat
  req : Req
  id : Nat
  part : Nat
  addr : Nat
  n : Nat
  data : Option (List Byte)
deriving DecidableEq, Repr

/-- State of the SPDM responder (R424, R425). -/
structure Spdm where
  version : Bool := false
  caps : Bool := false
  algs : Bool := false
deriving DecidableEq, Repr

/-- An MSI-X vector (R478, R480): table entry and pending bit. -/
structure MsixVec where
  addr : W64 := 0
  data : W32 := 0
  masked : Bool := true
  pending : Bool := false
deriving DecidableEq, Repr

/-- What a register read that has a command of its own reads. -/
inductive PostedRead where
  | tickLo | valueLo (n : ObjIx) | hkm
deriving DecidableEq, Repr

/-- An access that the host port has taken and not yet performed, in the order of arrival (R300): of a register, or of BAR4, whose lines have been asked of
their slices once it has an address (`base`). -/
inductive Posted where
  | regWrite (who : Who) (bar2 : Bool) (off : Nat) (v : Nat)
  | regRead (who : Who) (what : PostedRead)
  | reserved (who : Who) (bar2 : Bool) (off : Nat) (write size : Bool)
  | bar (id off n : Nat) (write : Option (List Byte)) (base : Option Nat)
deriving DecidableEq, Repr

structure HostUnit where
  posted : List Posted := []
  nextBar : Nat := 0
  fns : List (Nat × FnCfg) := []
  vfEnable : Bool := false
  hdm : List Hdm := []
  hdmError : Bool := false
  cxl : List CxlOp := []
  p2p : List P2pOp := []
  nextTag : Nat := 0
  spdm : Spdm := {}
  msix : List (Nat × MsixVec) := []
  trained : Bool := false
  subVendor : W16 := 0
  subId : W16 := 0
  rom : Bool := false
  aerSent : Nat := 0
deriving DecidableEq, Repr

/-! ### Die ports (spec 13) -/

/-- An operation whose message has left the die and has no response (R444): a read waits with its bytes, then
holds its reply until its source takes it. -/
structure RemoteOp where
  tag : W32
  req : Req
  id : Nat
  part : Nat
  dst : Place
  port : LinkPort
  sentTick : Nat
  read : Option (Nat × Nat)
  aperture : Bool
  reply : Option (Status × List Byte)
deriving DecidableEq, Repr

/-- Credits towards the partner of a port, per class 0 to 9 (R449, R450): units held, the partner's pool, and our
own freed units not yet returned. -/
structure Credits where
  held : List Nat := []
  pool : List Nat := []
  freed : List Nat := []
deriving DecidableEq, Repr

structure PeerPort where
  hello : Option Hello := none
  credits : Credits := {}
deriving DecidableEq, Repr

/-- The session of an optical link (R453, R454). -/
structure Session where
  partner : Place
  txSeq : Nat := 0
  rxSeq : Nat := 0
  txPhase : Bool := false
  rxPhase : Bool := false
deriving DecidableEq, Repr

structure OptPort where
  session : Option Session := none
  hello : Option Hello := none
  credits : Credits := {}
  lanes : BitVec 16 := BitVec.allOnes 16
  replays : Nat := 0
  stall : Nat := 0
  drops : Nat := 0
  turn : Nat := 0
  barred : Bool := false
deriving DecidableEq, Repr

/-- A window (R438 to R443). -/
structure Window where
  part : Nat
  base : Nat
  bytes : Nat
  flags : BitVec 5
  srcPkg : PkgIx
  srcDies : Byte
deriving DecidableEq, Repr

/-- A window access at work on this die (R273, R440): its pieces are requests at their home slices, and it is answered once all have been answered. -/
structure WinOp where
  id : Nat
  part : Nat
  head : MsgHead
  write : Bool
  pieces : List (Nat × Nat)
deriving DecidableEq, Repr

/-- The ports. `held` are the sources whose earlier window write is held at this die and so holds their later ones to the same lines' slice (R277). -/
structure PortUnit where
  held : List (LinkPort × Place × W32) := []
  winOps : List WinOp := []
  nextWin : Nat := 0
  peer : List (Nat × PeerPort) := []
  opt : List (Nat × OptPort) := []
  lists : List (Nat × List DieIx) := []
  newRoute : Bool := false
  ops : List RemoteOp := []
  outq : List (LinkPort × Nat × FabMsg) := []
  nextTag : Nat := 0
  wins : List (Nat × Option Window) := []
  tierReads : List (W32 × Asker × Nat) := []
  mgmtSeq : Nat := 0
deriving DecidableEq, Repr

/-! ### Partitions (spec 14) -/

/-- A partition reset in progress (R482 to R487). -/
structure PartReset where
  part : Nat
  flr : Bool
  disable : Bool
  past : Bool
deriving DecidableEq, Repr

/-- `rates` are the QOS_RATE values in force, taken over at boundaries, and `qosNew` the buckets that SET_QOS has changed
since the last one (R476). -/
structure PartUnit where
  resets : List PartReset := []
  started : List (Nat × Nat) := []
  rates : List (Nat × W32) := []
  qosNew : List Nat := []
deriving DecidableEq, Repr

/-! ### Fault collector (spec 15) -/

/-- A history entry (R498 to R501); `order` is the order of writing. -/
structure HistEntry where
  tick : Nat := 0
  src : Fin 20 := 0
  cls : Nat := 0
  first : Bool := false
  forced : Bool := false
  noTick : Bool := false
  valid : Bool := false
  repeat_ : Nat := 0
  detail : W32 := 0
  order : Nat := 0
deriving DecidableEq, Repr

/-- A failed self-check of the collector (R517, R520): word index of the register, INJECT's own parity error, or a
mismatch between copies or logic. -/
structure SelfCheck where
  word : Nat
  injected : Bool
  mismatch : Bool
deriving DecidableEq, Repr

structure FaultUnit where
  slots : List Event := []
  hist : List (Nat × HistEntry) := []
  order : Nat := 0
  check : Option SelfCheck := none
  irqDue : Bool := false
  readOrder : Nat := 0
deriving DecidableEq, Repr

/-! ### Power, boot and self-test (spec 16) -/

/-- A decided change of the operating point (R521, R522). -/
inductive PointMove where
  | rise (atTick : Nat) | fall (atTick : Nat)
deriving DecidableEq, Repr

/-- The power controller (spec 16): the decided move, whether the core clock is in service, the duty K beneath thermal
and fast limits, the tick's measured power, crossings already reported, and sensors without a reading and for how
many samples. -/
structure PowerUnit where
  move : Option PointMove := none
  service : Bool := false
  k : Nat := 16
  watts : Nat := 0
  warned : Bool := false
  throttled : Bool := false
  fast : Bool := false
  hot : Bool := false
  haltDue : Bool := false
  absent : List (Nat × Nat) := []
deriving DecidableEq, Repr

/-- A self-test (R537, R538): accepted at a tick, begun at B(start); `stopped` by a Groom reset (R540). -/
structure SelfTest where
  pid : Nat
  block : Nat
  unit : Nat
  maxTicks : Nat
  ticks : Nat
  accepted : Nat
  start : Option Nat
  stopped : Bool
deriving DecidableEq, Repr

/-- What the die as a whole is doing (R388, R518, R532, R535, R560). -/
inductive Phase where
  | off | boot | ready | failed | orphaned | dormant
deriving DecidableEq, Repr

/-- Pins and straps (spec 18). -/
structure Pins where
  pwrGood : Bool := true
  resetN : Bool := true
  lead : Bool := true
  pkgStrap : PkgIx := 0
  errSense : Bool := true
  thermtrip : Bool := false
  fabricRails : Bool := false
  vid : Byte := 0x3C
  idFrames : List (DieIx × PkgIx) := []
  idSending : Bool := false
deriving DecidableEq, Repr

/-- The JTAG instruction in force (R569). -/
inductive JtagIr where
  | idcode | bypass | extest | fuseProgram
deriving DecidableEq, Repr

/-- Boot, the identity chain and the management ports; `chainBad`: the die has not joined its package (R27). -/
structure BootUnit where
  chainBad : Bool := false
  phase : Phase := .boot
  cold : Bool := true
  verified : Bool := false
  zeroed : Bool := false
  altRoot : BitVec 384 := 0
  preserved : Bool := false
  test : Option SelfTest := none
  i3cOffset : W32 := 0
  i3cAddr : Option (BitVec 7) := none
  jtag : JtagIr := .idcode
deriving DecidableEq, Repr

/-! ### Rings and the rest of the command processor -/

/-- The command processor. `ready` are the packets that have completed and whose records are due, in their order (R221); `accepted` is the ring of
the last request that each partition has had accepted in this guard (R139). -/
structure CpUnit where
  rings : List (Nat × Ring) := []
  nextPid : Nat := 0
  nextLaunch : Nat := 0
  batches : List Batch := []
  nextBatch : Nat := 0
  classCount : List (Nat × Nat) := []
  engines : List (Nat × CopyEngine) := []
  groom : GroomUnit := {}
  restarting : Bool := false
  irqDue : List (Nat × Nat) := []
  sysbars : List SysInstance := []
  ready : List Nat := []
  accepted : List (Nat × Nat) := []
deriving DecidableEq, Repr

/-! ### What leaves the die -/

/-- AER errors (table before R423). -/
inductive Aer where
  | correctable | poisonedTlp | unsupported | completionTimeout | internalFatal
deriving DecidableEq, Repr

/-- An answer of the DOE mailbox (R404, R424, R425). -/
inductive DoeAnswer where
  | version (v : Byte)
  | capabilities (ctExponent : Nat)
  | algorithms
  | digests (slots : Byte) (digest : List Byte)
  | certificate (portion : List Byte) (remainder : Nat)
  | challenge (chain : List Byte) (signature : List Byte)
  | measurements (count : Nat) (blocks : List (Nat × List Byte)) (signature : Option (List Byte))
  | error (code : Byte)
  | discovery (vendor type next : Nat)
  | cdatHeader (ranges : Nat)
  | cdatRange (base size readNs writeNs gbps : Nat)
  | cdatEnd
deriving DecidableEq, Repr

/-- What the die has sent or shown to the outside; every message over a port carries the die's epoch (R79). -/
inductive Out where
  | msg (port : LinkPort) (m : FabMsg)
  | hello (port : LinkPort) (epoch : W16) (place : Place) (pools : List Nat)
  | linkList (port : LinkPort) (epoch : W16) (die : DieIx) (links : List (DieIx × PortIx × Bool))
  | echo (port : LinkPort) (epoch : W16) (reply : Bool) (time : Nat)
  | credit (port : LinkPort) (epoch : W16) (units : List Nat)
  | flit (n : OptIx) (seq : Nat) (credit : Option (Nat × Nat)) (phase : Bool)
  | replayRequest (n : OptIx)
  | replay (n : OptIx)
  | keyUpdate (n : OptIx) (epoch : W16)
  | spdmRecord (n : OptIx) (epoch : W16)
  | msix (fn : Nat) (addr : W64) (data : W32)
  | aer (fn : Nat) (e : Aer)
  | atsRequest (id part pasid page : Nat)
  | pageRequest (index part pasid page : Nat) (read write : Bool)
  | stopMarker (part pasid : Nat)
  | invalidationCompletion (tag : Nat)
  | cxl (tag : Nat) (kind : CxlKind) (addr : Nat) (data : List Byte)
  | cleanEvict (addr : Nat)
  | snoopResponse (addr : Nat) (held : Bool)
  | memData (addr : Nat) (data : Option (List Byte))
  | barData (fn : Nat) (data : Option (List Byte))
  | regData (who : Who) (off : Nat) (v : W32)
  | p2p (tag part addr n : Nat) (data : Option (List Byte))
  | unsupported (fn : Nat)
  | cfg (fn : Nat) (status : Nat)
  | cfgData (fn : Nat) (v : W64)
  | capability (fn : Nat) (c : Capability) (settings : Option (List Nat))
  | doe (answer : DoeAnswer)
  | idFrame (die : DieIx) (pkg : PkgIx)
  | i3c (v : W32)
  | tdo (v : Nat)
  | boundary
deriving DecidableEq, Repr

end Sys2Proof.Machine
end

