-- ==== Sys2Proof/Machine/Die.lean ====
section
/-! DEFINITION. The die's whole state but its queue of commands. -/

namespace Sys2Proof.Machine

structure Die where
  fuses : Fuses := {}
  dieId : Option DieIx := none
  pkgId : Option PkgIx := none
  regs : List (Nat × W32) := []
  freeCtr : Nat := 0
  clk : Nat := 0
  clkInTick : Nat := 0
  tick : TickUnit := {}
  cores : List (Nat × Core) := []
  ru : RuUnit := {}
  sync : SyncUnit := {}
  launches : List Launch := []
  pkts : List Pkt := []
  cp : CpUnit := {}
  cache : CacheUnit := {}
  mem : MemUnit := {}
  tr : TransUnit := {}
  host : HostUnit := {}
  ports : PortUnit := {}
  parts : PartUnit := {}
  fault : FaultUnit := {}
  power : PowerUnit := {}
  boot : BootUnit := {}
  pins : Pins := {}
  out : List Out := []
deriving DecidableEq, Repr

end Sys2Proof.Machine
end

