-- ==== Sys2Proof/Machine/Ops.lean ====
section
/-! DEFINITION. The named operations over tables, memory, registers and free values. -/

namespace Sys2Proof.Machine

/-! ### Tables: key and value pairs, keys strictly rising, no entry equal to the default -/

/-- The value at a key; a key that is not listed has its default. -/
def tblGet {α : Type} (dflt : Nat → α) : List (Nat × α) → Nat → α
  | [], k => dflt k
  | (j, v) :: t, k => if k == j then v else if k < j then dflt k else tblGet dflt t k

/-- Write a key, keeping the order and listing no default. -/
def tblPut {α : Type} [DecidableEq α] (dflt : Nat → α) : List (Nat × α) → Nat → α → List (Nat × α)
  | [], k, v => if v = dflt k then [] else [(k, v)]
  | (j, u) :: t, k, v =>
    if k == j then (if v = dflt k then t else (k, v) :: t)
    else if k < j then (if v = dflt k then (j, u) :: t else (k, v) :: (j, u) :: t)
    else (j, u) :: tblPut dflt t k v

/-- Forget every key in [lo, hi). -/
def tblDrop {α : Type} (t : List (Nat × α)) (lo hi : Nat) : List (Nat × α) :=
  t.filter fun e => decide (e.1 < lo) || decide (hi ≤ e.1)

/-- The keys rise strictly from above `lo` and no entry is the default. -/
def tblWf {α : Type} [DecidableEq α] (dflt : Nat → α) : Option Nat → List (Nat × α) → Bool
  | _, [] => true
  | lo, (j, v) :: t => (match lo with | none => true | some l => decide (l < j)) && decide (v ≠ dflt j) && tblWf dflt (some j) t

/-! ### Byte memories: `List Host.Cell`, an unlisted byte reads 0 -/

abbrev Memory := List Host.Cell

/-- What an unlisted byte reads as (R358, R359; log entry 7 for host memory). -/
def memDflt (_ : Nat) : Byte := 0

def memGet (m : Memory) (a : Nat) : Byte := tblGet memDflt m a

def memPut (m : Memory) (a : Nat) (b : Byte) : Memory := tblPut memDflt m a b

/-- The canonical form of a memory: addresses strictly rising, no entry equal to what an unlisted address reads as. -/
def Memory.wf (m : Memory) : Bool := tblWf memDflt none m

/-- `n` bytes from `a`, lowest address first. -/
def memRead (m : Memory) (a n : Nat) : List Byte := (List.range n).map fun i => memGet m (a + i)

/-- Write bytes from `a` upward. -/
def memWrite (m : Memory) (a : Nat) : List Byte → Memory
  | [] => m
  | b :: bs => memWrite (memPut m a b) (a + 1) bs

/-- Forget the bytes of [lo, hi): they read 0. -/
def memZero (m : Memory) (lo hi : Nat) : Memory := tblDrop m lo hi

/-! ### Byte order (R14) -/

/-- The little-endian number of a byte list. -/
def leNat : List Byte → Nat
  | [] => 0
  | b :: bs => b.toNat + 256 * leNat bs

/-- The low `n` bytes of a number, lowest first. -/
def leBytes : Nat → Nat → List Byte
  | 0, _ => []
  | n + 1, v => BitVec.ofNat 8 (v % 256) :: leBytes n (v / 256)

def le64 (bs : List Byte) : W64 := BitVec.ofNat 64 (leNat bs)
def le32 (bs : List Byte) : W32 := BitVec.ofNat 32 (leNat bs)

/-- Bytes [off, off + n) of a byte list as a little-endian number. -/
def field (bs : List Byte) (off n : Nat) : Nat := leNat ((bs.drop off).take n)

/-- All of bytes [off, off + n) are zero. -/
def zeroBytes (bs : List Byte) (off n : Nat) : Bool := ((bs.drop off).take n).all (· == 0)

/-- Bits [lo, lo + w) of a number. -/
def sub (v lo w : Nat) : Nat := v / 2 ^ lo % 2 ^ w

/-! ### Lists used as small sets and maps -/

/-- Replace the first entry that satisfies `p`. -/
def listUpd {α : Type} (p : α → Bool) (f : α → α) : List α → List α
  | [] => []
  | x :: xs => if p x then f x :: xs else x :: listUpd p f xs

/-- An unsorted association read. -/
def assoc {α : Type} (t : List (Nat × α)) (k : Nat) : Option α := (t.find? fun e => e.1 == k).map (·.2)

/-- An unsorted association write. -/
def assocPut {α : Type} (t : List (Nat × α)) (k : Nat) (v : α) : List (Nat × α) := (t.filter fun e => e.1 != k) ++ [(k, v)]

/-- Saturating addition to `w` bits. -/
def satAdd (w a b : Nat) : Nat := min (a + b) (2 ^ w - 1)

/-- Wrapping addition to `w` bits. -/
def wrapAdd (w a b : Nat) : Nat := (a + b) % 2 ^ w

/-- Bit `i` of a small mask. -/
def maskBit {w : Nat} (m : BitVec w) (i : Nat) : Bool := m.getLsbD i

def setMask {w : Nat} (m : BitVec w) (i : Nat) (v : Bool) : BitVec w :=
  if v then m ||| (1#w <<< i) else m &&& ~~~(1#w <<< i)

/-! ### Registers -/

/-- The stored value of the register at a BAR0 offset. -/
def Die.raw (d : Die) (off : Nat) : Nat := (tblGet (fun o => BitVec.ofNat 32 (regReset o)) d.regs off).toNat

def Die.putRaw (d : Die) (off v : Nat) : Die :=
  { d with regs := tblPut (fun o => BitVec.ofNat 32 (regReset o)) d.regs off (BitVec.ofNat 32 v) }

/-- The value of a field. -/
def Die.get (d : Die) (f : Fld) : Nat := sub (d.raw f.off) f.lo f.w

/-- The bit of a one-bit field. -/
def Die.bit (d : Die) (f : Fld) : Bool := d.get f == 1

/-- Set a field, leaving the register's other bits. -/
def Die.put (d : Die) (f : Fld) (v : Nat) : Die :=
  let r := d.raw f.off
  d.putRaw f.off (r - sub r f.lo f.w * 2 ^ f.lo + v % 2 ^ f.w * 2 ^ f.lo)

def Die.putB (d : Die) (f : Fld) (v : Bool) : Die := d.put f (if v then 1 else 0)

/-- Add to a saturating counter field. -/
def Die.count (d : Die) (f : Fld) (n : Nat) : Die := d.put f (satAdd f.w (d.get f) n)

/-- Add to a wrapping counter field. -/
def Die.countWrap (d : Die) (f : Fld) (n : Nat) : Die := d.put f (wrapAdd f.w (d.get f) n)

/-- Fields in which 0 acts as 1. -/
def orOne (n : Nat) : Nat := if n == 0 then 1 else n

/-! ### Free values (log entry 2) -/

/-- Draw the index of a fresh free value. -/
def Die.fresh (d : Die) : Nat × Die := (d.freeCtr, { d with freeCtr := d.freeCtr + 1 })

/-- `n` free bytes. -/
def Die.freshBytes (d : Die) (n : Nat) : List Byte × Die :=
  ((List.range n).map fun i => Config.freeByte (d.freeCtr + i), { d with freeCtr := d.freeCtr + n })

/-- PLACE: die ID in [2:0], package ID in [14:3], LEAD in [15] (R546). -/
def Die.placeWord (d : Die) : Nat :=
  (match d.dieId with | some x => x.val | none => 0) + 8 * (match d.pkgId with | some x => x.val | none => 0)
    + (if d.pins.lead then 32768 else 0)

/-! ### Power and clocks (R33, R518, R560) -/

/-- The always-on domains have power: they run in every reset and in the dormant and orphaned states (R33). -/
def Die.awake (d : Die) : Bool := d.pins.pwrGood

/-- The other domains run too: the die is neither held in reset nor dormant. -/
def Die.running (d : Die) : Bool := d.boot.phase != .off && d.boot.phase != .dormant

/-! ### Cores -/

def Die.core (d : Die) (c : CoreIx) : Core := tblGet (fun _ => ({} : Core)) d.cores c.val

def Die.setCore (d : Die) (c : CoreIx) (k : Core) : Die := { d with cores := tblPut (fun _ => ({} : Core)) d.cores c.val k }

/-- Change one core. -/
def Die.onCore (d : Die) (c : CoreIx) (f : Core → Core) : Die := d.setCore c (f (d.core c))

/-- Scalar register: s0 reads as zero and ignores writes (spec 03). -/
def Core.s (k : Core) (r : Reg) : W64 := if r == 0 then 0 else tblGet (fun _ => 0#64) k.sreg r.toNat

def Core.setS (k : Core) (r : Reg) (v : W64) : Core :=
  if r == 0 then k else { k with sreg := tblPut (fun _ => 0#64) k.sreg r.toNat v }

/-- Vector register. -/
def Core.v (k : Core) (r : Reg) : VecData := tblGet (fun _ => 0#4096) k.vreg r.toNat

def Core.setV (k : Core) (r : Reg) (v : VecData) : Core := { k with vreg := tblPut (fun _ => 0#4096) k.vreg r.toNat v }

/-- Lane mask: m0 is fixed at all ones (spec 03). -/
def Core.m (k : Core) (i : BitVec 2) : LaneMask := if i == 0 then BitVec.allOnes 128 else tblGet (fun _ => 0#128) k.mask i.toNat

def Core.setM (k : Core) (i : BitVec 2) (v : LaneMask) : Core :=
  if i == 0 then k else { k with mask := tblPut (fun _ => 0#128) k.mask i.toNat v }

/-- The unit of a block is in its maintenance ticks (R538). -/
def Die.underTest (d : Die) (block unit : Nat) : Bool :=
  match d.boot.test with
  | some t => t.start.isSome && t.block == block && t.unit == unit
  | none => false

end Sys2Proof.Machine
end

