-- ==== Sys2Proof/Machine/Flags.lean ====
section
/-! DEFINITION. Status and error registers: events to the fault collector (R493 to R497), first-error records
under a VALID bit, and the failure and cancellation of launches that a stopped slice causes (R52, R97, R581). -/

namespace Sys2Proof.Machine

/-- DETAIL: UNIT [7:0], CAUSE [15:8], EXTRA [31:16] (R497). -/
def detail (unit cause extra : Nat) : W32 := BitVec.ofNat 32 (unit % 256 + cause % 256 * 256 + extra % 65536 * 65536)

/-- Raise an event: it is slotted at the collector (R493, R495). -/
def Die.raise (d : Die) (src : Fin 20) (cls : Cls) (det : W32) : Die :=
  { d with fault := { d.fault with slots := d.fault.slots ++ [{ src := src, cls := cls, detail := det, forced := false }] } }

/-- Fill a record only while its VALID bit is clear. -/
def Die.record (d : Die) (valid : Fld) (fields : List (Fld × Nat)) : Die :=
  if d.bit valid then d else (fields.foldl (fun e fv => e.put fv.1 fv.2) d).putB valid true

/-- The earlier of two failures in the order of (plan tick, core) (R231). -/
def firstFailure (a : Option (Nat × Nat × Status)) (b : Nat × Nat × Status) : Nat × Nat × Status :=
  match a with
  | none => b
  | some x => if x.1 < b.1 || (x.1 == b.1 && x.2.1 ≤ b.2.1) then x else b

/-- The earlier of two cancellation points. -/
def firstCancel (a : Option Nat) (b : Nat) : Option Nat :=
  match a with
  | none => some b
  | some x => some (min x b)

/-- Change the launch with a key. -/
def Die.onLaunch (d : Die) (key : Nat) (f : Launch → Launch) : Die :=
  { d with launches := listUpd (fun l => l.key == key) f d.launches }

def Die.launch? (d : Die) (key : Nat) : Option Launch := d.launches.find? fun l => l.key == key

/-- Cancel a launch from a relative plan tick on this die, and report it in the tick acknowledgement when other
dies take part (R52, R230). -/
def Die.cancelLaunch (d : Die) (key : Nat) (rel : Nat) : Die :=
  match d.launch? key with
  | none => d
  | some l =>
    let d := d.onLaunch key fun l => { l with cancelFrom := firstCancel l.cancelFrom rel }
    if l.batch.isNone && decide (l.dies.toNat &&& (l.dies.toNat - 1) ≠ 0) then
      { d with tick := { d.tick with cancelsNow := d.tick.cancelsNow ++ [{ launchId := l.id, part := l.part, planTick := rel, pkg := d.pkgId.getD 0, dies := l.dies }] } }
    else d

/-- Record a failure of a launch at a relative plan tick and core; later plan ticks are cancelled (R231, R581). -/
def Die.failLaunch (d : Die) (key : Nat) (rel core : Nat) (st : Status) : Die :=
  (d.onLaunch key fun l => { l with failure := some (firstFailure l.failure (rel, core, st)) }).cancelLaunch key (rel + 1)

/-- Nothing of the slice is outstanding. -/
def Core.quiet (k : Core) : Bool := k.streams.isEmpty && k.engines.isEmpty && k.ops.isEmpty

/-- The core leaves its slice: no wait, nothing held; masks are all ones and CSRs zero at the next start (R133, R101). -/
def Core.leave (k : Core) : Core := { k with run := none, wait := none, held := [] }

/-- A stopping slice ends once everything it issued has completed (R53). -/
def Die.settle (d : Die) (c : CoreIx) : Die :=
  let k := d.core c
  match k.run with
  | none => d
  | some r =>
    match r.stopping with
    | none => d
    | some _ => if k.quiet then d.setCore c k.leave else d

/-- The slice of a core runs and has not been stopped. -/
def Core.going (k : Core) : Bool := match k.run with | some r => r.stopping.isNone | none => false

/-- Stop the slice of a core with a status (R53): it issues nothing more, its launch records the failure. -/
def Die.stopSlice (d : Die) (c : CoreIx) (st : Status) : Die :=
  let k := d.core c
  match k.run with
  | none => d
  | some r =>
    match r.stopping with
    | some _ => d
    | none =>
      let d := d.setCore c { k with run := some { r with stopping := some st }, wait := none }
      let rel := match d.launch? r.launch with | some l => r.planTick - l.first | none => 0
      (d.failLaunch r.launch rel c.val st).settle c

/-- The partition of the slice a core runs, 0 for none. -/
def Core.slicePart (k : Core) : Nat :=
  match k.run with
  | none => 0
  | some r => r.part.val

/-- Record a stop in CORE_FAULT and CORE_FAULT_PC under VALID (table after R116). -/
def Die.coreFaultRecord (d : Die) (c : CoreIx) (cause pc : Nat) : Die :=
  d.record (CORE_FAULT_VALID c.val)
    [(CORE_FAULT_CAUSE c.val, cause), (CORE_FAULT_TICK c.val, d.tick.now), (CORE_FAULT_PC_OFFSET c.val, pc),
     (CORE_FAULT_PC_BANK c.val, if (d.core c).active then 1 else 0)]

/-- A contained fault of the core array with the record of its cause, and the stop of the slice (R97, R116, R579). -/
def Die.coreFault (d : Die) (c : CoreIx) (cause pc : Nat) (st : Status) : Die :=
  let p := (d.core c).slicePart
  ((d.coreFaultRecord c cause pc).raise 0 .contained (detail c.val cause p)).stopSlice c st

/-! ### Acknowledgements and completion (R220, R221) -/

/-- The partition of a requester; none where it acts for no partition. -/
def Die.reqPart (d : Die) : Req → Option Nat
  | .core c => some (d.core c).slicePart
  | .eng c e => (match assoc (d.core c).engines e.val with | some x => some x.part.val | none => some (d.core c).slicePart)
  | .pkt pid => (d.pkts.find? fun q => q.pid == pid).map (·.part.val)
  | .launch key => (d.launches.find? fun l => l.key == key).map (·.part.val)
  | .batch key => (d.cp.batches.find? fun b => b.key == key).map (·.part.val)
  | .ring r => some (tblGet (fun _ => ({} : Ring)) d.cp.rings r.val).part.toNat
  | .win id => (d.ports.winOps.find? fun o => o.id == id).map (·.part)
  | .bar _ | .groom | .reg => none

/-- A request to a home slice that writes. -/
def HomeReq.writes (r : HomeReq) : Bool := match r.op with | .write .. | .amo .. | .result .. => true | _ => false

/-- The source that a requester is (R271): a core's sequencer, a fetch/stow engine, a copy engine with all its packets, the reduce-and-update unit, or the
command processor. -/
def Die.sourceKey (d : Die) : Req → Nat × Nat
  | .core c => (0, c.val)
  | .eng c e => (1, 4 * c.val + e.val)
  | .pkt pid =>
    (match d.pkts.find? fun q => q.pid == pid with
     | some q =>
       let op := q.opcode.toNat
       if decide (0x10 ≤ op) && decide (op ≤ 0x15) then (2, q.engine) else if decide (0x20 ≤ op) && decide (op ≤ 0x22) then (3, 0) else (4, 0)
     | none => (4, 0))
  | .launch _ | .batch _ | .ring _ => (4, 0)
  | .win id => (5, id)
  | .bar _ | .groom | .reg => (6, 0)

/-- Operations of some requesters that have not been acknowledged (R220, R273). -/
def Die.openWrites (d : Die) (p : Req → Bool) : Bool :=
  (d.ports.ops.any fun o => p o.req && o.reply.isNone && o.read.isNone)
  || (d.host.cxl.any fun x => p x.who.req && !x.mshr)
  || (d.host.p2p.any fun o => p o.req && o.n == 0)
  || (d.cache.ring.any fun q => p q.who.req && q.writes)
  || (d.cache.mshrs.any fun m => m.reqs.any fun q => p q.who.req && q.writes)
  || (d.cache.invs.any fun v => match v.done with | .ack q => p q.who.req | _ => false)
  || (d.sync.slots.any fun x => match x.2.who with | some (q, _) => p q | none => false)
  || d.sync.clears.any fun x => match x.who with | some (q, _) => p q | none => false

def Die.unacked (d : Die) (r : Req) : Bool := d.openWrites (· == r)

/-- A source has writes without acknowledgement. -/
def Die.sourceOpen (d : Die) (r : Req) : Bool := let k := d.sourceKey r; d.openWrites fun x => d.sourceKey x == k

/-- Put a packet behind those of lower rings and the earlier ones of its own. -/
def inRing (q : Pkt) : List Pkt → List Pkt
  | [] => [q]
  | x :: xs => if q.ring.val < x.ring.val || (q.ring == x.ring && decide (q.pid < x.pid)) then q :: x :: xs else x :: inRing q xs

/-- Packets in ascending ring index, and in ring order within one ring. -/
def ringOrder (qs : List Pkt) : List Pkt := qs.foldr inRing []

/-- A packet completes: its status is decided and every write of it acknowledged (R220). -/
def Die.completes (d : Die) (q : Pkt) : Bool := q.phase == .finished && !d.unacked (.pkt q.pid) && !d.cp.ready.contains q.pid

/-- The packets that complete together: their records are due in ascending source ring, and in ring order (R221). -/
def Die.noteReady (d : Die) : Die := { d with cp := { d.cp with ready := d.cp.ready ++ (ringOrder (d.pkts.filter d.completes)).map (·.pid) } }

end Sys2Proof.Machine
end

