-- ==== Sys2Proof/Machine/CoreOps.lean ====
section
/-! DEFINITION. What every core instruction shares: whether the sequencer may issue (R89), hazards of ranges (R91),
crib accesses with their ECC (R88), and the issue of one decoded word with its run-time faults (R96 to R104). -/

namespace Sys2Proof.Machine

def cribEnd : Nat := 0x300000
def bankBytes : Nat := 0x20000

/-- A tracked range: crib or DVA, bytes [lo, hi), and whether it is written (R91). -/
structure Range where
  dva : Bool
  lo : Nat
  hi : Nat
  write : Bool
deriving DecidableEq, Repr

/-- The granule of a range: 64 bytes in the crib, 128-byte lines in DVA space (R91). -/
def Range.granule (r : Range) : Nat := if r.dva then 128 else 64

/-- Two ranges meet in a granule. -/
def Range.meets (a b : Range) : Bool :=
  a.dva == b.dva &&
    (let g := a.granule
     decide (a.lo / g < (b.hi + g - 1) / g) && decide (b.lo / g < (a.hi + g - 1) / g) && decide (a.lo < a.hi) && decide (b.lo < b.hi))

/-- An earlier outstanding range holds a later instruction back (R89). -/
def Range.holds (earlier later : Range) : Bool := earlier.meets later && (earlier.write || later.write)

/-- Row `i` of a fetch or stow begins at base + i × stride (spec 03). -/
def EngOp.rowAddr (e : EngOp) (i : Nat) : Nat := (((e.dva : Int) + i * e.stride) % 2 ^ 64).toNat

def EngOp.ranges (e : EngOp) : List Range :=
  { dva := false, lo := e.crib, hi := e.crib + e.rowBytes * e.rows, write := !e.stow } ::
    (List.range e.rows).map fun i => { dva := true, lo := e.rowAddr i, hi := e.rowAddr i + e.rowBytes, write := e.stow }

def Stream.range (s : Stream) : Range := { dva := false, lo := s.lo, hi := s.hi, write := s.kind == .drain }

def CoreOpEntry.range (o : CoreOpEntry) : Range :=
  { dva := true, lo := o.addr, hi := o.addr + o.bytes,
    write := match o.acc with | .read => false | _ => true }

/-- Every range outstanding on the core. -/
def Core.outstanding (k : Core) : List Range :=
  k.streams.map Stream.range ++ k.ops.map CoreOpEntry.range ++ k.engines.flatMap fun e => e.2.ranges

/-- Entries of the range tracker in use, of 64 (R91). -/
def Core.tracked (k : Core) : Nat := k.streams.length + (k.ops.filter fun o => !o.tail).length + k.engines.length

/-- No outstanding range holds these ranges, and the tracker has room when the instruction needs an entry. -/
def Core.clear (k : Core) (rs : List Range) (entry : Bool) : Bool :=
  (rs.all fun r => k.outstanding.all fun e => !e.holds r) && (!entry || decide (k.tracked < 64))

/-- A scalar register waits for a load. -/
def Core.sPending (k : Core) (r : Reg) : Bool :=
  r != 0 && k.ops.any fun o => match o.dest with | some (.sreg q _) => q == r | _ => false

def Core.vPending (k : Core) (r : Reg) : Bool :=
  k.ops.any fun o => match o.dest with | some (.vreg q _ _) => q == r | _ => false

/-- Source and destination registers hold results of completed instructions (R89). -/
def Core.regsReady (k : Core) (ss vs : List Reg) : Bool :=
  (ss.all fun r => !k.sPending r) && (vs.all fun r => !k.vPending r)

/-- A volatile read is outstanding: no later read of DVA space or the crib issues (R284, R285). -/
def Core.volatileBusy (k : Core) : Bool :=
  (k.ops.any fun o => o.vol) || k.engines.any fun e => e.2.v && !e.2.stow

/-- The word at the core's issue point, and whether its parity is bad; none past the end of the bank. -/
def Core.wordAt (k : Core) : Option (W64 × Bool) :=
  if k.pc < bankBytes then
    let i := (if k.active then 16384 else 0) + k.pc / 8
    some (tblGet (fun _ => 0#64) k.prog i, k.progBad.contains i)
  else none

/-- The sequencer may issue: a slice runs, is not stopping, has not ended and stands at no WAIT or BARRIER. -/
def Core.issuing (k : Core) : Bool :=
  !k.inReset && k.wait.isNone &&
    match k.run with
    | none => false
    | some r => r.stopping.isNone && !r.ended

/-- The operation at the issue point, when its word is a good one. -/
def Core.opAt (k : Core) : Option CoreOp :=
  match k.wordAt with
  | some (w, false) => (match decodeWord w with | .ok op => some op | .error _ => none)
  | _ => none

/-- Move to the next word. -/
def Core.next (k : Core) : Core := { k with pc := k.pc + 8 }

/-! ### The crib (R88) -/

def Core.cribErrAt (k : Core) (w : Nat) : Option CribErr := assoc k.cribErr w

/-- Words (8 bytes) touched by [a, a + n). -/
def wordsOf (a n : Nat) : List Nat := if n == 0 then [] else (List.range ((a + n - 1) / 8 - a / 8 + 1)).map (· + a / 8)

/-- Read crib bytes: corrected errors are reported and counted once; an uncorrectable word answers none. -/
def Die.cribRead (d : Die) (c : CoreIx) (a n : Nat) : Option (List Byte) × Die :=
  let k := d.core c
  let ws := (wordsOf a n).filter fun w => (k.cribErrAt w).isSome
  let d := ws.foldl (fun e w =>
    match k.cribErrAt w with
    | some .single =>
      ((e.onCore c fun k => { k with cribErr := assocPut k.cribErr w .pending }).count (CRIB_ECC_CORRECTED c.val) 1).raise 1 .corrected
        (detail c.val 1 (w / 16))
    | some .bad => (e.putB (CRIB_ECC_UNCORRECTABLE c.val) true).raise 1 .contained (detail c.val 2 (w / 16))
    | _ => e) d
  if ws.any fun w => k.cribErrAt w == some .bad then (none, d) else (some (memRead k.crib a n), d)

/-- Write crib bytes; a written word's error is gone (R88). -/
def Core.cribWrite (k : Core) (a : Nat) (bs : List Byte) : Core :=
  { k with crib := memWrite k.crib a bs,
           cribErr := k.cribErr.filter fun e => !(wordsOf a bs.length).contains e.1 }

/-- A crib read of the core met an uncorrectable word: the slice stops (R88). -/
def Die.cribStop (d : Die) (c : CoreIx) (pc : Nat) : Die := (d.coreFaultRecord c 11 pc).stopSlice c .eccUncorrectable

/-! ### Operands -/

/-- Address of a scalar or vector access, in 64-bit arithmetic (R99). -/
def Core.ea (k : Core) (sa : Reg) (imm : W32) : Nat := (k.s sa + sext imm).toNat

/-- The crib bytes [sa + imm, sa + imm + n) lie in the crib: the sum is taken as an integer, so that it never wraps into the crib (R99; log entry 79). -/
def Core.inCrib (k : Core) (sa : Reg) (imm : W32) (n : Nat) : Bool :=
  let a : Int := (k.s sa).toNat + imm.toInt
  decide (0 ≤ a) && decide (a + n ≤ cribEnd)

/-- Accumulator rows a pass writes: twice ROWS for a transposed 8-bit or MXFP4 tile, whatever the moving format (R123). -/
def passSpan (transposed : Bool) (tile : ArrFmt) (rows : Nat) : Nat :=
  if transposed && tile != .bf16 then 2 * rows else rows

/-- Scale bytes of a stream of `rows` rows. -/
def scaleBytes (fmt : ArrFmt) (rows : Nat) : Nat := if fmt.mx then rows * fmt.k / 32 else 0

/-- The format of the last LOADW: the one still moving rows, or the last completed one (R103, R131). -/
def Core.lastFmt (k : Core) : BitVec 4 :=
  match k.streams.find? fun s => s.kind == .loadw with
  | some s => s.fmt
  | none => k.storeFmt

/-- CSR numbers: listed, and writable (R101). -/
def csrListed (n : BitVec 12) : Bool := (decide (n.toNat ≤ 0x006)) || (decide (8 ≤ n.toNat) && decide (n.toNat ≤ 0xB)) || (decide (0x10 ≤ n.toNat) && decide (n.toNat ≤ 0x12))
def csrWritable (n : BitVec 12) : Bool := decide (0x10 ≤ n.toNat) && decide (n.toNat ≤ 0x12)

def brTaken (op : BrOp) (a b : W64) : Bool :=
  match op with
  | .eq => a == b
  | .ne => a != b
  | .lt => a.slt b
  | .ge => !a.slt b
  | .ltu => a.ult b
  | .geu => !a.ult b

/-- Target of a branch from `pc`, as an integer (spec 03). -/
def brTarget (pc : Nat) (imm : W32) : Int := (pc : Int) + 8 * imm.toInt

def inBank (t : Int) : Bool := decide (0 ≤ t) && decide (t < 0x20000)

/-- The lowest cause of CORE_FAULT that applies to a list of (condition, cause). -/
def firstCause : List (Bool × Nat) → Option Nat
  | [] => none
  | (b, n) :: t => if b then some n else firstCause t

/-- The array is good by fuse (R85, R103). -/
def arrayGood (fuse : BitVec 192) (c : CoreIx) (arr : Nat) : Bool := fuse.getLsbD (4 * c.val + arr)

/-- Run-time conditions of an undefined encoding (R99 to R104, R123), lowest cause first. -/
def runtimeCause (fuse : BitVec 192) (c : CoreIx) (k : Core) (op : CoreOp) : Option Nat :=
  match op with
  | .ld _ sa imm _ | .sd _ sa imm => firstCause [(k.ea sa imm % 8 != 0, 4)]
  | .lw _ sa imm _ | .sw _ sa imm => firstCause [(k.ea sa imm % 4 != 0, 4)]
  | .ldc _ sa imm | .sdc _ sa imm => firstCause [(k.ea sa imm % 8 != 0 || !k.inCrib sa imm 8, 4)]
  | .amo _ _ sa _ w => firstCause [((k.s sa).toNat % (if w then 8 else 4) != 0, 4)]
  | .csrr _ n => firstCause [(!csrListed n, 9)]
  | .csrw _ n => firstCause [(!csrWritable n, 9)]
  | .branch _ _ _ imm => firstCause [(!inBank (brTarget k.pc imm), 8)]
  | .jal _ imm => firstCause [(!inBank (brTarget k.pc imm), 8)]
  | .jr sa => firstCause [((k.s sa).toNat % 8 != 0 || decide ((k.s sa).toNat ≥ bankBytes), 8)]
  | .vld _ sa _ imm | .vst _ sa imm =>
    firstCause [(k.ea sa imm % 64 != 0 || !k.inCrib sa imm 512, 4)]
  | .vldg _ sa _ imm | .vstg _ sa imm => firstCause [(k.ea sa imm % 64 != 0, 4)]
  | .loadw fmt src =>
    firstCause [(src.toNat % 128 != 0 || decide (src.toNat + 8192 + scaleBytes fmt 64 > cribEnd), 4)]
  | .pass tr fmt _ arr rowsM1 acc src =>
    let rows := rowsM1.toNat + 1
    firstCause
      [(src.toNat % 128 != 0 || decide (src.toNat + 128 * rows + scaleBytes fmt rows > cribEnd), 4),
       (decide (acc.toNat + passSpan tr (arrFmtOf k.lastFmt.toNat) rows > 256), 5),
       (!arrayGood fuse c arr.toNat, 6),
       (!(fmt.pairs (arrFmtOf k.lastFmt.toNat)), 7)]
  | .drain _ _ arr rowsM1 acc out _ dst =>
    let rows := rowsM1.toNat + 1
    firstCause
      [(dst.toNat % 64 != 0 || decide (dst.toNat + rows * 64 * out.bytes > cribEnd), 4),
       (decide (acc.toNat + rows > 256), 5),
       (!arrayGood fuse c arr.toNat, 6)]
  | .fetch sa sb _ _ crib | .stow sa sb _ crib =>
    let rb := (k.s sb).toNat % 2 ^ 32
    let rows := (k.s sb).toNat / 2 ^ 32 % 2 ^ 16
    firstCause [(crib.toNat % 64 != 0 || rows == 0 || (k.s sa).toNat % 64 != 0 || rb % 64 != 0 ||
      decide (crib.toNat + rb * rows > cribEnd), 4)]
  | _ => none

/-- The scalar registers whose values an operation needs, and its scalar destination. -/
def sregsOf : CoreOp → List Reg
  | .alu _ sd sa sb => [sd, sa, sb]
  | .alui _ sd sa _ => [sd, sa]
  | .li sd _ | .lih sd _ => [sd]
  | .ld sd sa _ _ | .lw sd sa _ _ | .sd sd sa _ | .sw sd sa _ | .ldc sd sa _ | .sdc sd sa _ => [sd, sa]
  | .csrr sd _ => [sd]
  | .csrw sa _ => [sa]
  | .amo _ sd sa sb _ => [sd, sa, sb]
  | .branch _ sa sb _ => [sa, sb]
  | .jal sd _ => [sd]
  | .jr sa => [sa]
  | .vcvt _ _ vb _ _ _ rnd => if rnd == .sr then [vb] else []
  | .vbcast _ sa _ => [sa]
  | .vmovs sd _ _ => [sd]
  | .vld _ sa _ _ | .vst _ sa _ | .vldg _ sa _ _ | .vstg _ sa _ => [sa]
  | .drain sa sb _ _ _ _ _ _ | .mask sa sb => [sa, sb]
  | .fetch sa sb sc _ _ | .stow sa sb sc _ => [sa, sb, sc]
  | .signal s reg _ _ _ _ => if reg then [s] else []
  | .wait s _ _ => [s]
  | _ => []

/-- The vector registers an operation reads or writes. -/
def vregsOf : CoreOp → List Reg
  | .vec2 _ vd va vb _ _ | .vsel vd va vb _ => [vd, va, vb]
  | .vabs vd va _ _ | .vcvt vd va _ _ _ _ _ | .vred vd va _ _ | .vtrans _ vd va _ => [vd, va]
  | .vfma vd va vb vc _ _ => [vd, va, vb, vc]
  | .vcmp _ va vb _ _ _ => [va, vb]
  | .vbcast vd _ _ => [vd]
  | .vmovs _ va _ => [va]
  | .vld vd _ _ _ | .vst vd _ _ | .vldg vd _ _ _ | .vstg vd _ _ => [vd]
  | _ => []

/-- The operation reads DVA space or the crib, so a volatile read holds it (R284, R285). -/
def readsOf : CoreOp → Bool
  | .ld .. | .lw .. | .ldc .. | .amo .. | .vld .. | .vldg .. | .loadw .. | .pass .. | .fetch .. | .stow .. => true
  | _ => false

/-- Issue one instruction of a core (R89): the word at the issue point must be this operation; its registers
must be complete; a run-time undefined encoding stops the slice (R97); else `ready` says whether its unit and
ranges are free, and `run` gives its effect. An instruction that cannot issue waits: nothing changes. -/
def Die.issue (d : Die) (c : CoreIx) (op : CoreOp) (ready : Core → Bool) (run : Die → Core → Die) : Die :=
  let k := d.core c
  if k.issuing && k.opAt == some op && k.regsReady (sregsOf op) (vregsOf op) then
    match runtimeCause d.fuses.arrays c k op with
    | some cause => d.coreFault c cause k.pc .illegalOpcode
    | none => if ready k && !(readsOf op && k.volatileBusy) then run d k else d
  else d

end Sys2Proof.Machine
end

