-- ==== Sys2Proof/Machine/Scalar.lean ====
section
/-! DEFINITION. Scalar, branch and CSR instructions and crib loads and stores (spec 03, R89, R98 to R101). -/

namespace Sys2Proof.Machine

/-- The fourteen scalar operations of opcodes 0x01 to 0x0E and 0x11 to 0x1E. -/
def aluVal (op : AluOp) (a b : W64) : W64 :=
  match op with
  | .add => a + b
  | .sub => a - b
  | .and => a &&& b
  | .or => a ||| b
  | .xor => a ^^^ b
  | .shl => a <<< (b.toNat % 64)
  | .shr => a >>> (b.toNat % 64)
  | .sra => a.sshiftRight (b.toNat % 64)
  | .mul => a * b
  | .mulhu => BitVec.ofNat 64 (a.toNat * b.toNat / 2 ^ 64)
  | .slt => if a.slt b then 1 else 0
  | .sltu => if a.ult b then 1 else 0
  | .min => if a.slt b then a else b
  | .max => if a.slt b then b else a

/-- A core instruction that only changes the core's registers: issue, then `f`. -/
def Die.issueCore (d : Die) (c : CoreIx) (op : CoreOp) (f : Core → Core) : Die :=
  d.issue c op (fun _ => true) fun d k => d.setCore c (f k).next

def aluReg (op : AluOp) (c : CoreIx) (sd sa sb : Reg) (d : Die) : Die :=
  d.issueCore c (.alu op sd sa sb) fun k => k.setS sd (aluVal op (k.s sa) (k.s sb))

def aluImm (op : AluOp) (c : CoreIx) (sd sa : Reg) (imm : W32) (d : Die) : Die :=
  d.issueCore c (.alui op sd sa imm) fun k => k.setS sd (aluVal op (k.s sa) (sext imm))

def opLi (c : CoreIx) (sd : Reg) (imm : W32) (d : Die) : Die :=
  d.issueCore c (.li sd imm) fun k => k.setS sd (sext imm)

def opLih (c : CoreIx) (sd : Reg) (imm : W32) (d : Die) : Die :=
  d.issueCore c (.lih sd imm) fun k => k.setS sd (imm ++ (k.s sd).truncate 32 : W64)

def opNop (c : CoreIx) (d : Die) : Die := d.issueCore c .nop id

/-- A taken branch goes to pc + 8 × imm (spec 03). -/
def opBranch (op : BrOp) (c : CoreIx) (sa sb : Reg) (imm : W32) (d : Die) : Die :=
  d.issue c (.branch op sa sb imm) (fun _ => true) fun d k =>
    d.setCore c (if brTaken op (k.s sa) (k.s sb) then { k with pc := (brTarget k.pc imm).toNat } else k.next)

def opJal (c : CoreIx) (sd : Reg) (imm : W32) (d : Die) : Die :=
  d.issue c (.jal sd imm) (fun _ => true) fun d k =>
    d.setCore c { k.setS sd (BitVec.ofNat 64 (k.pc + 8)) with pc := (brTarget k.pc imm).toNat }

def opJr (c : CoreIx) (sa : Reg) (d : Die) : Die :=
  d.issue c (.jr sa) (fun _ => true) fun d k => d.setCore c { k with pc := (k.s sa).toNat }

/-- LDC: 64-bit crib load (spec 03); an uncorrectable word stops the slice (R88). -/
def opLdc (c : CoreIx) (sd sa : Reg) (imm : W32) (d : Die) : Die :=
  d.issue c (.ldc sd sa imm) (fun k => k.clear [{ dva := false, lo := k.ea sa imm, hi := k.ea sa imm + 8, write := false }] false)
    fun d k =>
      match d.cribRead c (k.ea sa imm) 8 with
      | (none, d) => d.cribStop c k.pc
      | (some bs, d) => d.onCore c fun k => (k.setS sd (le64 bs)).next

/-- SDC: 64-bit crib store. -/
def opSdc (c : CoreIx) (sd sa : Reg) (imm : W32) (d : Die) : Die :=
  d.issue c (.sdc sd sa imm) (fun k => k.clear [{ dva := false, lo := k.ea sa imm, hi := k.ea sa imm + 8, write := true }] false)
    fun d k => d.setCore c (k.cribWrite (k.ea sa imm) (leBytes 8 (k.s sd).toNat)).next

/-- CSR values (table after R100). CYCLE and, before the guard, BUDGET_LEFT count core cycles, which the model
leaves free (log entry 6). -/
def csrValue (d : Die) (c : CoreIx) (k : Core) (n : BitVec 12) : W64 :=
  match k.run with
  | none => 0
  | some r =>
    match n.toNat with
    | 0x000 => BitVec.ofNat 64 c.val
    | 0x001 => BitVec.ofNat 64 d.placeWord
    | 0x002 => BitVec.ofNat 64 r.part.val
    | 0x003 => BitVec.ofNat 64 d.tick.now
    | 0x004 => BitVec.ofNat 64 r.planTick
    | 0x005 => BitVec.ofNat 64 (Config.freeNat d.freeCtr)
    | 0x006 => if d.tick.inGuard then 0 else BitVec.ofNat 64 (Config.freeNat d.freeCtr)
    | 0x008 => r.args.getD 0 0
    | 0x009 => r.args.getD 1 0
    | 0x00A => r.args.getD 2 0
    | 0x00B => r.args.getD 3 0
    | 0x010 => k.srSeed
    | 0x011 => k.srTensor
    | _ => k.srStep

def opCsrr (c : CoreIx) (sd : Reg) (n : BitVec 12) (d : Die) : Die :=
  d.issue c (.csrr sd n) (fun _ => true) fun d k =>
    let v := csrValue d c k n
    (d.fresh.2).setCore c (k.setS sd v).next

def opCsrw (c : CoreIx) (sa : Reg) (n : BitVec 12) (d : Die) : Die :=
  d.issueCore c (.csrw sa n) fun k =>
    match n.toNat with
    | 0x010 => { k with srSeed := k.s sa }
    | 0x011 => { k with srTensor := k.s sa }
    | 0x012 => { k with srStep := k.s sa }
    | _ => k

end Sys2Proof.Machine
end

