-- ==== Sys2Proof/Machine/Vector.lean ====
section
/-! DEFINITION. Vector instructions (spec 03 table of vector operations; spec 05 R157, R162 to R175). -/

namespace Sys2Proof.Machine

/-- Lane `i` of a vector register. -/
def lane (v : VecData) (i : Nat) : W32 := v.extractLsb' (32 * i) 32

def lanes (v : VecData) : List W32 := (List.range 128).map (lane v)

/-- The number whose 32-bit digits, lowest first, are the lanes. -/
def lanesNat : List W32 → Nat
  | [] => 0
  | x :: xs => x.toNat + 2 ^ 32 * lanesNat xs

def ofLanes (xs : List W32) : VecData := BitVec.ofNat 4096 (lanesNat xs)

/-- Lanes whose mask bit is 0 keep the old value (spec 03). -/
def blend (m : LaneMask) (new old : List W32) : List W32 :=
  (List.range 128).map fun i => if m.getLsbD i then new.getD i 0 else old.getD i 0

/-- Write the lanes of vd that the mask selects. -/
def Core.putLanes (k : Core) (vd : Reg) (m : BitVec 2) (new : List W32) : Core :=
  k.setV vd (ofLanes (blend (k.m m) new (lanes (k.v vd))))

/-- Apply a BF16 operation to both halves of a lane (R171). -/
def halves (f : W16 → W16 → W16 → W16) (x y z : W32) : W32 :=
  f (x.extractLsb' 16 16) (y.extractLsb' 16 16) (z.extractLsb' 16 16) ++ f (x.truncate 16) (y.truncate 16) (z.truncate 16)

/-- Order key of a BF16 value with −0 below +0 (R172). -/
def key16z (x : W16) : Int := key32z (x ++ 0#16 : W32)

def min32 (x y : W32) : W32 :=
  if (num32 x).isNan || (num32 y).isNan then nan32 else if key32z x ≤ key32z y then x else y

def max32 (x y : W32) : W32 :=
  if (num32 x).isNan || (num32 y).isNan then nan32 else if key32z y ≤ key32z x then x else y

def min16 (x y : W16) : W16 :=
  if (num16 x).isNan || (num16 y).isNan then 0x7FC0#16 else if key16z x ≤ key16z y then x else y

def max16 (x y : W16) : W16 :=
  if (num16 x).isNan || (num16 y).isNan then 0x7FC0#16 else if key16z y ≤ key16z x then x else y

def addBf16 (x y : W16) : W16 := toBf16 (addNum (num16 x) (num16 y))

/-- One lane of VADD, VSUB, VMUL, VMIN or VMAX (R170 to R173). -/
def lane2 (op : Vec2Op) (ty : VType) (x y : W32) : W32 :=
  match ty with
  | .fp32 =>
    (match op with
      | .add => addRne x y
      | .sub => subRne x y
      | .mul => mulRne x y
      | .min => min32 x y
      | .max => max32 x y)
  | .bf16 =>
    (match op with
      | .add => halves (fun a b _ => addBf16 a b) x y 0
      | .sub => halves (fun a b _ => toBf16 (addNum (num16 a) (negNum (num16 b)))) x y 0
      | .mul => halves (fun a b _ => toBf16 (mulNum (num16 a) (num16 b))) x y 0
      | .min => halves (fun a b _ => min16 a b) x y 0
      | .max => halves (fun a b _ => max16 a b) x y 0)
  | .int32 =>
    (match op with
      | .add => x + y
      | .sub => x - y
      | .mul => x * y
      | .min => if x.slt y then x else y
      | .max => if x.slt y then y else x)

/-- VABS clears the sign bit, NaN included, then R165 applies (R170); −2³¹ stays in INT32 (R173). -/
def laneAbs (ty : VType) (x : W32) : W32 :=
  match ty with
  | .fp32 => canon32 (x &&& 0x7FFFFFFF#32)
  | .bf16 => halves (fun a _ _ => let v := a &&& 0x7FFF#16; if (num16 v).isNan then 0x7FC0#16 else v) x 0 0
  | .int32 => if x.msb then 0 - x else x

/-- VFMA with one rounding (R170, R171, R173). -/
def laneFma (ty : VType) (x y z : W32) : W32 :=
  match ty with
  | .fp32 => fmaRne x y z
  | .bf16 => halves (fun a b c => toBf16 (addNum (mulNum (num16 a) (num16 b)) (num16 c))) x y z
  | .int32 => x * y + z

/-- One lane of VCMP (R172, R173). -/
def laneCmp (ty : VType) (op : CmpOp) (x y : W32) : Bool :=
  let rel (a b : Int) : Bool :=
    match op with
    | .eq => a == b
    | .ne => a != b
    | .lt => decide (a < b)
    | .le => decide (a ≤ b)
  match ty with
  | .int32 => rel x.toInt y.toInt
  | _ => if (num32 x).isNan || (num32 y).isNan then (op == .ne) else rel (key32 x) (key32 y)

/-- The source value of a conversion lane (R166). -/
def cvtSource (ty : VType) (x : W32) : Num :=
  match ty with
  | .fp32 => num32 x
  | .bf16 => num16 (x.truncate 16)
  | .int32 => .fin x.msb x.toInt.natAbs 0

/-- One lane of VCVT (R162 to R168). -/
def laneCvt (k : Core) (ty : VType) (out : OutFmt) (rnd : Rounding) (index : W64) (x : W32) : W32 :=
  let w := if rnd == .sr then sinter k.srSeed (k.srTensor.truncate 32) index (k.srStep.truncate 32) else 0
  BitVec.ofNat 32 (convert out rnd w (cvtSource ty x))

/-- VRED by the canonical tree (R157, R171, R173). -/
def vredVal (ty : VType) (xs : List W32) : W32 :=
  match ty with
  | .fp32 => (ctree addRne xs).getD 0
  | .bf16 =>
    ((ctree addBf16 (xs.map fun x => x.extractLsb' 16 16)).getD 0) ++ ((ctree addBf16 (xs.map fun x => x.truncate 16)).getD 0)
  | .int32 => xs.foldl (· + ·) 0

def transVal (op : TransOp) (x : W32) : W32 :=
  match op with
  | .exp => fnExp x
  | .log => fnLog x
  | .rcp => fnRcp x
  | .rsqrt => fnRsqrt x
  | .sin => fnSin x
  | .cos => fnCos x
  | .tanh => fnTanh x
  | .sigm => fnSigm x

def vec2 (op : Vec2Op) (c : CoreIx) (vd va vb : Reg) (m : BitVec 2) (ty : VType) (d : Die) : Die :=
  d.issueCore c (.vec2 op vd va vb m ty) fun k => k.putLanes vd m (List.zipWith (lane2 op ty) (lanes (k.v va)) (lanes (k.v vb)))

def opVabs (c : CoreIx) (vd va : Reg) (m : BitVec 2) (ty : VType) (d : Die) : Die :=
  d.issueCore c (.vabs vd va m ty) fun k => k.putLanes vd m ((lanes (k.v va)).map (laneAbs ty))

def opVfma (c : CoreIx) (vd va vb vc : Reg) (m : BitVec 2) (ty : VType) (d : Die) : Die :=
  d.issueCore c (.vfma vd va vb vc m ty) fun k =>
    k.putLanes vd m ((List.range 128).map fun i => laneFma ty (lane (k.v va) i) (lane (k.v vb) i) (lane (k.v vc) i))

/-- The lane mask of the lanes for which `f` holds. -/
def maskOf (f : Nat → Bool) : LaneMask := BitVec.ofNat 128 ((List.range 128).foldl (fun acc i => if f i then acc + 2 ^ i else acc) 0)

def opVcmp (c : CoreIx) (md : BitVec 2) (va vb : Reg) (m : BitVec 2) (ty : VType) (op : CmpOp) (d : Die) : Die :=
  d.issueCore c (.vcmp md va vb m ty op) fun k =>
    let new := maskOf fun i => laneCmp ty op (lane (k.v va) i) (lane (k.v vb) i)
    k.setM md ((new &&& k.m m) ||| (k.m md &&& ~~~(k.m m)))

def opVsel (c : CoreIx) (vd va vb : Reg) (m : BitVec 2) (d : Die) : Die :=
  d.issueCore c (.vsel vd va vb m) fun k => k.setV vd (ofLanes (blend (k.m m) (lanes (k.v va)) (lanes (k.v vb))))

def opVcvt (c : CoreIx) (vd va vb : Reg) (m : BitVec 2) (ty : VType) (out : OutFmt) (rnd : Rounding) (d : Die) : Die :=
  d.issueCore c (.vcvt vd va vb m ty out rnd) fun k =>
    k.putLanes vd m ((List.range 128).map fun i => laneCvt k ty out rnd (k.s vb + BitVec.ofNat 64 i) (lane (k.v va) i))

def opVbcast (c : CoreIx) (vd sa : Reg) (m : BitVec 2) (d : Die) : Die :=
  d.issueCore c (.vbcast vd sa m) fun k => k.putLanes vd m (List.replicate 128 ((k.s sa).truncate 32))

def opVred (c : CoreIx) (vd va : Reg) (m : BitVec 2) (ty : VType) (d : Die) : Die :=
  d.issueCore c (.vred vd va m ty) fun k => k.putLanes vd m (vredVal ty (lanes (k.v va)) :: List.replicate 127 0)

def opVmovs (c : CoreIx) (sd va : Reg) (ln : BitVec 7) (d : Die) : Die :=
  d.issueCore c (.vmovs sd va ln) fun k => k.setS sd ((lane (k.v va) ln.toNat).zeroExtend 64)

def vtrans (op : TransOp) (c : CoreIx) (vd va : Reg) (m : BitVec 2) (d : Die) : Die :=
  d.issueCore c (.vtrans op vd va m) fun k => k.putLanes vd m ((lanes (k.v va)).map (transVal op))

/-- The bytes of a list of lanes, lane 0 lowest. -/
def laneBytes (xs : List W32) : List Byte := xs.flatMap fun x => leBytes 4 x.toNat

/-- The lanes of 512 bytes. -/
def bytesLanes (bs : List Byte) : List W32 := (List.range 128).map fun i => BitVec.ofNat 32 (field bs (4 * i) 4)

/-- VLD: 512 bytes from the crib (R99, R88). -/
def opVld (c : CoreIx) (vd sa : Reg) (m : BitVec 2) (imm : W32) (d : Die) : Die :=
  d.issue c (.vld vd sa m imm) (fun k => k.clear [{ dva := false, lo := k.ea sa imm, hi := k.ea sa imm + 512, write := false }] false)
    fun d k =>
      match d.cribRead c (k.ea sa imm) 512 with
      | (none, d) => d.cribStop c k.pc
      | (some bs, d) => d.onCore c fun k => (k.putLanes vd m (bytesLanes bs)).next

/-- VST: the register's 512 bytes to the crib. -/
def opVst (c : CoreIx) (vd sa : Reg) (imm : W32) (d : Die) : Die :=
  d.issue c (.vst vd sa imm) (fun k => k.clear [{ dva := false, lo := k.ea sa imm, hi := k.ea sa imm + 512, write := true }] false)
    fun d k => d.setCore c (k.cribWrite (k.ea sa imm) (laneBytes (lanes (k.v vd)))).next

end Sys2Proof.Machine
end

