-- ==== Sys2Proof/Machine/Array.lean ====
section
/-! DEFINITION. Broadcast lane arrays: LOADW, PASS, PASST, DRAIN, MASK and the completion of a stream (spec 04,
R102, R114, R117 to R137). The data of a stream is moved at its issue with the masks in force (R133); the
stream holds its ranges until ARRAY_STREAM_COMPLETE. MX scales pass through the scale buffers, which the sequencer also fills
ahead of the issue of the instructions it holds (R127). -/

namespace Sys2Proof.Machine

/-- Index of accumulator element (array, row, lane). -/
def accIx (a row lane : Nat) : Nat := a * 16384 + row * 64 + lane

/-- What an accumulator element or a store cell that is not listed holds: zero (R131), or after a core reset a free
value (R115, R492). -/
def Core.accDflt (k : Core) (i : Nat) : W32 := match k.wild with | none => 0 | some b => Config.freeWord (b + i)
def Core.cellDflt (k : Core) (i : Nat) : W16 := match k.wild with | none => 0 | some b => (Config.freeWord (b + 65536 + i)).setWidth 16

def Core.accGet (k : Core) (a row lane : Nat) : W32 := tblGet k.accDflt k.acc (accIx a row lane)

def Core.accPut (k : Core) (a row lane : Nat) (v : W32) : Core :=
  { k with acc := tblPut k.accDflt k.acc (accIx a row lane) v }

/-- A stationary cell (R118). -/
def Core.cell (k : Core) (r c : Nat) : Nat := (tblGet k.cellDflt k.store (r * 64 + c)).toNat

/-- Element `q` of a cell (R118, stationary cell layout). -/
def cellElem (fmt : ArrFmt) (cell q : Nat) : Nat :=
  match fmt.perCell with
  | 1 => cell
  | 2 => sub cell (8 * q) 8
  | _ => sub cell (4 * q) 4

/-- Element `k` of a moving row of 128 bytes (spec 04 after R119). -/
def moveElem (fmt : ArrFmt) (row : List Byte) (k : Nat) : Nat :=
  match fmt.perCell with
  | 1 => field row (2 * k) 2
  | 2 => field row k 1
  | _ => sub (field row (k / 2) 1) (4 * (k % 2)) 4

/-- The exponent of an E8M0 scale and whether it is NaN (R146); 0 without MX scales. -/
def scaleExp (fmt : ArrFmt) (x : Byte) : Int × Bool :=
  if fmt.mx then ((x.toNat : Int) - 127, x == 0xFF) else (0, false)

/-- The window width of a pairing (R147). -/
def windowOf (mv : ArrFmt) : Nat := if mv == .bf16 then 48 else 54

/-- One product of a moving element and a stored element with their scales (R126, R147). -/
def term (mvFmt stFmt : ArrFmt) (mv st : Nat) (ms ts : Byte) : Term :=
  let a := scaleExp mvFmt ms
  let b := scaleExp stFmt ts
  { a := decodeElem mvFmt.elem mv, b := decodeElem stFmt.elem st, x := a.1 + b.1, nanScale := a.2 || b.2 }

/-- A scale of the stored tile, in the tile-scale buffer that its LOADW used (R126, R127). -/
def Core.tileScaleAt (k : Core) (i : Nat) : Byte := tblGet (fun _ => 0#8) k.tileScale ((if k.tileBuf then 512 else 0) + i)

/-- R120: the block sum of lane `c` for one moving row. -/
def passLane (k : Core) (mvFmt stFmt : ArrFmt) (row scales : List Byte) (i c : Nat) : W32 :=
  let kk := stFmt.k
  blockSum (windowOf mvFmt)
    (((List.range kk).filter fun x => k.rowMask.getLsbD (x % 64)).map fun x =>
      term mvFmt stFmt (moveElem mvFmt row x) (cellElem stFmt (k.cell (x % 64) c) (x / 64))
        (scales.getD (kk / 32 * i + x / 32) 0) (k.tileScaleAt (kk / 32 * c + x / 32)))

/-- R121: the block sum of lane `r` and quarter `q` for one moving row. -/
def passtLane (k : Core) (mvFmt stFmt : ArrFmt) (row scales : List Byte) (i r q : Nat) : W32 :=
  let kk := stFmt.k
  blockSum (windowOf mvFmt)
    (((List.range 64).filter fun n => k.colMask.getLsbD n).map fun n =>
      term mvFmt stFmt (moveElem mvFmt row n) (cellElem stFmt (k.cell r n) q)
        (scales.getD (kk / 32 * i + n / 32) 0) (k.tileScaleAt (kk / 32 * n + (r + 64 * q) / 32)))

/-- Quarters of a transposed row (R121, R122). -/
def quarters (fmt : ArrFmt) (i : Nat) : List Nat :=
  match fmt.perCell with
  | 1 => [0]
  | 2 => [0, 1]
  | _ => if i % 2 == 0 then [0, 1] else [2, 3]

/-- Write one block sum into an accumulator element: FOLD adds to it (R102, R120). -/
def Core.fold (k : Core) (fold : Bool) (a row lane : Nat) (s : W32) : Core :=
  k.accPut a row lane (if fold then addRne (k.accGet a row lane) s else s)

/-- The accumulator rows a moving row writes. -/
def passRows (tr : Bool) (fmt : ArrFmt) (acc i : Nat) : List Nat :=
  if tr && fmt != .bf16 then [acc + 2 * i, acc + 2 * i + 1] else [acc + i]

/-- One moving row of a PASS (R120) or PASST (R121). -/
def passRow (k : Core) (tr : Bool) (mvFmt stFmt : ArrFmt) (fold : Bool) (a acc i : Nat) (row scales : List Byte) : Core :=
  if tr then
    (((List.range 64).filter fun r => k.rowMask.getLsbD r).flatMap fun r => (quarters stFmt i).map fun q => (r, q)).foldl
      (fun k' rq =>
        let d := if stFmt == .bf16 then acc + i else acc + 2 * i + rq.2 % 2
        k'.fold fold a d rq.1 (passtLane k mvFmt stFmt row scales i rq.1 rq.2)) k
  else
    ((List.range 64).filter fun c => k.colMask.getLsbD c).foldl
      (fun k' c => k'.fold fold a (acc + i) c (passLane k mvFmt stFmt row scales i c)) k

/-- The accumulator rows [acc, acc + n) of a moving row that met an error take free values in the lanes it writes: the manual gives no result there
(R88, R136; log entry 82). -/
def Core.wildRows (k : Core) (tr : Bool) (lanes : Nat → Bool) (a : Nat) (rows : List Nat) (base : Nat) : Core :=
  rows.zipIdx.foldl (fun k' r => ((List.range 64).filter fun c => (if tr then k.rowMask.getLsbD c else k.colMask.getLsbD c) && lanes c).foldl
    (fun k' c => k'.accPut a r.1 c (Config.freeWord (base + 64 * r.2 + c))) k') k

/-- Store rows a pass reads: all of them whose lanes or terms the masks keep. -/
def Core.storeBadRead (k : Core) : Option Nat := k.storeBad.find? fun r => k.rowMask.getLsbD r

/-! ### The scale buffers (R127) -/

/-- First byte of a scale buffer in its table: the core's two of 512 bytes, or an array's two of 2 KiB. -/
def scaleBase (tile : Bool) (arr : Nat) (buf : Bool) : Nat := if tile then (if buf then 512 else 0) else (2 * arr + (if buf then 1 else 0)) * 2048

/-- Bank rows of 128 bytes of a scale buffer, as errors name them (R136). -/
def scaleRow (tile buf : Bool) (i : Nat) : Nat := (if buf then (if tile then 4 else 16) else 0) + i

/-- The buffer that the next stream of its kind fills: the one that is not in use. -/
def Core.nextBuf (k : Core) (tile : Bool) (arr : Nat) : Bool := if tile then !k.tileBuf else !k.moveBuf.getLsbD arr

/-- Refill a scale buffer: its errors are gone (R136). -/
def Core.fillScales (k : Core) (tile : Bool) (arr : Nat) (buf : Bool) (bs : List Byte) : Core :=
  let put (t : List (Nat × Byte)) : List (Nat × Byte) := bs.zipIdx.foldl (fun t e => tblPut (fun _ => 0#8) t (scaleBase tile arr buf + e.2) e.1) t
  let mine (e : Bool × BitVec 2 × Byte) : Bool :=
    e.1 == tile && (tile || e.2.1.toNat == arr) && decide (scaleRow tile buf 0 ≤ e.2.2.toNat) && decide (e.2.2.toNat < scaleRow tile buf (if tile then 4 else 16))
  { k with tileScale := if tile then put k.tileScale else k.tileScale, moveScale := if tile then k.moveScale else put k.moveScale,
           scaleBad := k.scaleBad.filter fun e => !mine e }

/-- The scales of an instruction that issues: those read ahead for it, or read from the crib now; false at an uncorrectable word (R88). -/
def Die.takeScales (d : Die) (c : CoreIx) (pc : Nat) (tile : Bool) (arr a n : Nat) : Bool × Die :=
  let k := d.core c
  let use (k : Core) (buf : Bool) : Core := if tile then { k with tileBuf := buf } else { k with moveBuf := setMask k.moveBuf arr buf }
  if n == 0 then (true, d)
  else
    match k.held.find? fun h => h.pc == pc with
    | some h => (true, d.setCore c { use k h.buf with held := k.held.filter fun x => x.pc != pc })
    | none =>
      match d.cribRead c a n with
      | (none, d) => (false, d)
      | (some bs, d) => let b := k.nextBuf tile arr; (true, d.onCore c fun k => use (k.fillScales tile arr b bs) b)

/-- The scale range of an array instruction: for the tile, the array, its bytes. -/
def scalesOf : CoreOp → Option (Bool × Nat × Nat × Nat)
  | .loadw fmt src => some (true, 0, src.toNat + 8192, scaleBytes fmt 64)
  | .pass _ fmt _ arr rowsM1 _ src => some (false, arr.toNat, src.toNat + 128 * (rowsM1.toNat + 1), scaleBytes fmt (rowsM1.toNat + 1))
  | _ => none

/-- An instruction past which the sequencer reads no scales: a branch or jump, and one that writes the crib at a place not yet known (R127). -/
def endsWindow : CoreOp → Bool
  | .branch .. | .jal .. | .jr .. | .sdc .. | .vst .. | .fetch .. | .drain .. | .sliceEnd => true
  | _ => false

/-- The sequencer reads scales for the instructions it holds, in program order (R127): up to `n` of them from the one at `pc` on. -/
def Die.readAhead (c : CoreIx) : Nat → Nat → Die → Die
  | 0, _, d => d
  | n + 1, pc, d =>
    let k := d.core c
    match ({ k with pc := pc } : Core).opAt with
    | none => d
    | some op =>
      if endsWindow op then d
      else
        match scalesOf op with
        | none => readAhead c n (pc + 8) d
        | some (tile, arr, a, len) =>
          if len == 0 then readAhead c n (pc + 8) d
          else
            let same (h : ScaleRead) : Bool := match ({ k with pc := h.pc } : Core).opAt.bind scalesOf with
              | some x => x.1 == tile && (tile || x.2.1 == arr)
              | none => false
            let range : Range := { dva := false, lo := a, hi := a + len, write := false }
            if k.held.any same || decide (cribEnd < a + len) || (k.outstanding.any fun e => e.holds range) then d
            else
              match d.cribRead c a len with
              | (none, d) => d.cribStop c pc
              | (some bs, d) =>
                let b := k.nextBuf tile arr
                readAhead c n (pc + 8) (d.onCore c fun k => { k.fillScales tile arr b bs with held := k.held ++ [{ pc := pc, buf := b }] })

/-- Read ahead from the core's issue point, while it may issue. -/
def Die.lookAhead (d : Die) (c : CoreIx) : Die := if (d.core c).issuing then Die.readAhead c 8 (d.core c).pc d else d

/-- The bytes of the moving-scale buffer that a pass uses. -/
def Core.movingScales (k : Core) (arr n : Nat) : List Byte :=
  (List.range n).map fun i => tblGet (fun _ => 0#8) k.moveScale (scaleBase false arr (k.moveBuf.getLsbD arr) + i)

/-- The first bank row with an error among the scales that a pass reads: of the stored tile (structure 3) or of its own (structure 2). -/
def Core.badScale (k : Core) (fmt : ArrFmt) (arr n : Nat) : Option (Nat × Nat) :=
  let hit (tile buf : Bool) (bytes : Nat) (e : Bool × BitVec 2 × Byte) : Bool :=
    e.1 == tile && (tile || e.2.1.toNat == arr) && decide (scaleRow tile buf 0 ≤ e.2.2.toNat) && decide (e.2.2.toNat < scaleRow tile buf ((bytes + 127) / 128))
  if !fmt.mx then none
  else match k.scaleBad.find? (hit true k.tileBuf (scaleBytes fmt 64)) with
    | some e => some (3, e.2.2.toNat)
    | none => (k.scaleBad.find? (hit false (k.moveBuf.getLsbD arr) n)).map fun e => (2, e.2.2.toNat)

/-- R136: a parity stop: ARRAY_ERR, a contained fault of the core array, ECC_UNCORRECTABLE. -/
def Die.arrayStop (d : Die) (c : CoreIx) (arr struct row : Nat) : Die :=
  let p := (d.core c).slicePart
  ((d.record (ARRAY_ERR_VALID c.val)
    [(ARRAY_ERR_ARRAY c.val, arr), (ARRAY_ERR_STRUCT c.val, struct), (ARRAY_ERR_ROW c.val, row), (ARRAY_ERR_TICK c.val, d.tick.now)]).raise
      0 .contained (detail c.val (0x20 + struct) p)).stopSlice c .eccUncorrectable

/-- Add an issued stream. -/
def Core.startStream (k : Core) (s : Stream) : Core := { k with streams := k.streams ++ [s] }

/-- R119, R114: LOADW moves the 64-row tile and its scales. A row read from an uncorrectable crib word is
written with bad parity, and the slice stops while the LOADW completes all its rows. -/
def opLoadw (c : CoreIx) (fmt : ArrFmt) (src : BitVec 22) (d : Die) : Die :=
  let sb := scaleBytes fmt 64
  d.issue c (.loadw fmt src)
    (fun k => (!k.streams.any fun s => s.kind == .pass || s.kind == .loadw) &&
      k.clear [{ dva := false, lo := src.toNat, hi := src.toNat + 8192 + sb, write := false }] true)
    fun d k =>
      let pc := k.pc
      let start := (k.startStream { kind := .loadw, arr := 0, accLo := 0, accHi := 0, lo := src.toNat, hi := src.toNat + 8192 + sb,
                                    fmt := BitVec.ofNat 4 fmt.code }).next
      let d := d.setCore c { start with storeBad := [] }
      let r := (List.range 64).foldl (fun (acc : Die × Bool) row =>
        let rd := acc.1.cribRead c (src.toNat + 128 * row) 128
        let raw := memRead (acc.1.core c).crib (src.toNat + 128 * row) 128
        let d := rd.2.onCore c fun k =>
          { k with
            store := (List.range 64).foldl (fun st col => tblPut k.cellDflt st (row * 64 + col) (BitVec.ofNat 16 (field raw (2 * col) 2))) k.store,
            storeBad := if rd.1.isNone then k.storeBad ++ [row] else k.storeBad }
        (d, acc.2 || rd.1.isNone)) (d, false)
      let (ok, d) := r.1.takeScales c pc true 0 (src.toNat + 8192) sb
      (if r.2 || !ok then d.cribStop c pc else d).lookAhead c

/-- Bytes of a moving row that a pass reads (R121). -/
def movingBytes (tr : Bool) (stFmt : ArrFmt) : Nat :=
  if tr then (match stFmt.perCell with | 1 => 128 | 2 => 64 | _ => 32) else 128

/-- One moving row that an error of the stream reaches in some of the lanes: they take free values. -/
def Die.wildRow (d : Die) (c : CoreIx) (tr : Bool) (lanes : Nat → Bool) (a : Nat) (rows : List Nat) : Die :=
  { d.onCore c fun k => k.wildRows tr lanes a rows d.freeCtr with freeCtr := d.freeCtr + 128 }

/-- The loop over the moving rows of a stream, which never pauses: an error stops the slice and the stream runs to its last row (R53, R90). A parity
error is reported once for the stream; `scaleErr`: its scales were read with an error. What the rows that an error reaches then hold is the
model's choice: free values (log entry 82). -/
def passLoop (c : CoreIx) (tr : Bool) (mvFmt stFmt : ArrFmt) (fold : Bool) (a acc src pc : Nat) (scales : List Byte) (scaleErr : Bool) :
    Nat → Nat → Bool → Die → Die
  | 0, _, _, d => d
  | n + 1, i, told, d =>
    let rows := passRows tr stFmt acc i
    let (row, d) := d.cribRead c (src + 128 * i) (movingBytes tr stFmt)
    let k := d.core c
    let q := passRow k tr mvFmt stFmt fold a acc i (row.getD []) scales
    let q := if fold then q else { q with accBad := q.accBad.filter fun e => !(rows.map (a * 256 + ·)).contains e }
    let d := d.setCore c q
    -- the lanes that an error reaches
    let accRow := if fold then rows.find? fun r => k.accBad.contains (a * 256 + r) else none
    let all := row.isNone || scaleErr || accRow.isSome || (!tr && k.storeBadRead.isSome)
    let d := if all || k.storeBadRead.isSome then d.wildRow c tr (fun r => all || k.storeBad.contains r) a rows else d
    let d := if row.isNone then d.cribStop c pc else d
    let (told, d) := if told then (told, d) else
      match k.storeBadRead, accRow with
      | some r, _ => (true, d.arrayStop c 0 0 r)
      | none, some r => (true, d.arrayStop c a 1 r)
      | none, none => (false, d)
    passLoop c tr mvFmt stFmt fold a acc src pc scales scaleErr n (i + 1) told d

/-- R120 to R128: PASS and PASST. -/
def pass (tr : Bool) (c : CoreIx) (fmt : ArrFmt) (fold : Bool) (arr : BitVec 2) (rowsM1 acc : BitVec 8) (src : BitVec 22) (d : Die) : Die :=
  let rows := rowsM1.toNat + 1
  let sb := scaleBytes fmt rows
  let hi := src.toNat + 128 * rows + sb
  d.issue c (.pass tr fmt fold arr rowsM1 acc src)
    (fun k =>
      let span := passSpan tr (arrFmtOf k.storeFmt.toNat) rows
      (!k.streams.any fun s =>
        s.kind == .loadw || (s.kind == .pass && s.arr == arr) ||
        (s.kind == .drain && s.arr == arr && decide (s.accLo < acc.toNat + span) && decide (acc.toNat < s.accHi))) &&
      k.clear [{ dva := false, lo := src.toNat, hi := hi, write := false }] true)
    fun d k =>
      let st := arrFmtOf k.storeFmt.toNat
      let d := d.setCore c (k.startStream { kind := .pass, arr := arr, accLo := acc.toNat, accHi := acc.toNat + passSpan tr st rows,
                                             lo := src.toNat, hi := hi, fmt := BitVec.ofNat 4 fmt.code }).next
      let d := d.countWrap (ARRAY_BUSY_CYCLES c.val arr.toNat) rows
      match d.takeScales c k.pc false arr.toNat (src.toNat + 128 * rows) sb with
      | (false, d) =>
        -- the scale read met an uncorrectable word before the stream: it does not start
        (d.onCore c fun q => { q with streams := k.streams }).cribStop c k.pc
      | (true, d) =>
        let q := d.core c
        let bad := q.badScale fmt arr.toNat sb
        let d := match bad with
          | some (struct, row) => d.arrayStop c (if struct == 3 then 0 else arr.toNat) struct row
          | none => d
        (passLoop c tr fmt st fold arr.toNat acc.toNat src.toNat k.pc (q.movingScales arr.toNat sb) bad.isSome rows 0 bad.isSome d).lookAhead c

/-- One converted element of a DRAIN: lane `j` of row `i` (R102, R168). -/
def drainElem (k : Core) (a row : Nat) (out : OutFmt) (rnd : Rounding) (index : W64) (j : Nat) : List Byte :=
  let w := if rnd == .sr then sinter k.srSeed (k.srTensor.truncate 32) index (k.srStep.truncate 32) else 0
  leBytes out.bytes (convert out rnd w (num32 (k.accGet a row j)))

/-- One drained row: lanes whose column bit is 0 write nothing (R132). -/
def drainRow (k : Core) (a row : Nat) (out : OutFmt) (rnd : Rounding) (base : W64) (dst : Nat) : Core :=
  ((List.range 64).filter fun j => k.colMask.getLsbD j).foldl
    (fun k' j => k'.cribWrite (dst + j * out.bytes) (drainElem k a row out rnd (base + BitVec.ofNat 64 j) j)) k

/-- A drained row read with a parity error: the manual gives no bytes, so they are free values (R136; log entry 82). -/
def Die.wildDrain (d : Die) (c : CoreIx) (out : OutFmt) (dst : Nat) : Die :=
  let (bs, d) := d.freshBytes (64 * out.bytes)
  d.onCore c fun k => ((List.range 64).filter fun j => k.colMask.getLsbD j).foldl
    (fun k' j => k'.cribWrite (dst + j * out.bytes) ((bs.drop (j * out.bytes)).take out.bytes)) k

/-- The loop over the drained rows, which never pauses (R53, R90); a parity error is reported once. -/
def drainLoop (c : CoreIx) (a acc dst : Nat) (out : OutFmt) (rnd : Rounding) (base stride : W64) : Nat → Nat → Bool → Die → Die
  | 0, _, _, d => d
  | n + 1, i, told, d =>
    let k := d.core c
    let at0 := dst + i * 64 * out.bytes
    if k.accBad.contains (a * 256 + (acc + i)) then
      let d := d.wildDrain c out at0
      drainLoop c a acc dst out rnd base stride n (i + 1) true (if told then d else d.arrayStop c a 1 (acc + i))
    else drainLoop c a acc dst out rnd base stride n (i + 1) told
      (d.setCore c (drainRow k a (acc + i) out rnd (base + BitVec.ofNat 64 i * stride) at0))

/-- R130: DRAIN converts accumulator rows and writes them to the crib. -/
def opDrain (c : CoreIx) (sa sb : Reg) (arr : BitVec 2) (rowsM1 acc : BitVec 8) (out : OutFmt) (rnd : Rounding) (dst : BitVec 22) (d : Die) : Die :=
  let rows := rowsM1.toNat + 1
  let hi := dst.toNat + rows * 64 * out.bytes
  d.issue c (.drain sa sb arr rowsM1 acc out rnd dst)
    (fun k => (!k.streams.any fun s => s.kind == .pass && s.arr == arr && decide (s.accLo < acc.toNat + rows) && decide (acc.toNat < s.accHi)) &&
      k.clear [{ dva := false, lo := dst.toNat, hi := hi, write := true }] true)
    fun d k =>
      let d := d.setCore c (k.startStream { kind := .drain, arr := arr, accLo := acc.toNat, accHi := acc.toNat + rows,
                                             lo := dst.toNat, hi := hi, fmt := 0 }).next
      drainLoop c arr.toNat acc.toNat dst.toNat out rnd (k.s sa) (k.s sb) rows 0 false d

/-- R133: MASK takes effect for instructions that issue after it. -/
def opMask (c : CoreIx) (sa sb : Reg) (d : Die) : Die :=
  d.issueCore c (.mask sa sb) fun k => { k with rowMask := k.s sa, colMask := k.s sb }

/-- R86: a stream's last row has moved: its crib slots, the store or its accumulator rows are free again. A LOADW
then becomes the last completed one (STORE_FMT). A stopping slice may end (R53, R114). -/
def opArrayStreamComplete (c : CoreIx) (n : Nat) (d : Die) : Die :=
  let k := d.core c
  match k.streams[n]? with
  | none => d
  | some s =>
    (d.setCore c { k with streams := k.streams.eraseIdx n,
                          storeFmt := if s.kind == .loadw then s.fmt else k.storeFmt }).settle c

end Sys2Proof.Machine
end

