-- ==== Sys2Proof/Machine/Xts.lean ====
section
/-! DEFINITION. AES-256 in XTS mode over 32-byte sectors (R353; FIPS 197 and IEEE 1619, log entry 92): bytes are lists, a block is its 16 bytes in
order. -/

namespace Sys2Proof.Machine

/-- Doubling in the field of AES. -/
def gfDouble (b : Byte) : Byte := (b <<< 1) ^^^ (if b.msb then 0x1B else 0)

/-- The product in the field of AES. -/
def gfMul (a b : Byte) : Byte :=
  ((List.range 8).foldl (fun (x : Byte × Byte) i => (if b.getLsbD i then x.1 ^^^ x.2 else x.1, gfDouble x.2)) (0, a)).1

/-- The inverse in the field, 0 for 0: the power 254. -/
def gfInv (a : Byte) : Byte :=
  let x := (List.range 6).foldl (fun x _ => gfMul (gfMul x x) a) a
  gfMul x x

def subByte (b : Byte) : Byte :=
  let x := gfInv b
  x ^^^ x.rotateLeft 1 ^^^ x.rotateLeft 2 ^^^ x.rotateLeft 3 ^^^ x.rotateLeft 4 ^^^ 0x63

def unsubByte (b : Byte) : Byte := gfInv (b.rotateLeft 1 ^^^ b.rotateLeft 3 ^^^ b.rotateLeft 6 ^^^ 0x05)

def xorBytes (a b : List Byte) : List Byte := List.zipWith (· ^^^ ·) a b

/-- Row `r` of the state, bytes r, r + 4, r + 8 and r + 12, turns by `k r` places. -/
def shiftRows (k : Nat → Nat) (s : List Byte) : List Byte := (List.range 16).map fun i => s.getD ((i + 4 * k (i % 4)) % 16) 0

/-- Each column is multiplied by the circulant matrix with first row `m`. -/
def mixColumns (m : List Byte) (s : List Byte) : List Byte :=
  (List.range 16).map fun i =>
    (List.range 4).foldl (fun x j => x ^^^ gfMul (m.getD ((j + 4 - i % 4) % 4) 0) (s.getD (4 * (i / 4) + j) 0)) 0

/-- The next word of the key schedule, from those before it. -/
def nextKeyWord (ws : List (List Byte)) : List (List Byte) :=
  let i := ws.length
  let t := ws.getD (i - 1) []
  let t := if i % 8 == 0 then xorBytes (((t.drop 1) ++ t.take 1).map subByte) [(1 : Byte) <<< (i / 8 - 1), 0, 0, 0]
    else if i % 8 == 4 then t.map subByte else t
  ws ++ [xorBytes (ws.getD (i - 8) []) t]

/-- The 15 round keys of a 256-bit key, whose byte 0 is bits [7:0]. -/
def roundKeys (k : BitVec 256) : List (List Byte) :=
  let bs := leBytes 32 k.toNat
  let ws := (List.range 52).foldl (fun ws _ => nextKeyWord ws) ((List.range 8).map fun i => (bs.drop (4 * i)).take 4)
  (List.range 15).map fun r => ((ws.drop (4 * r)).take 4).flatten

def aesEncrypt (ks : List (List Byte)) (b : List Byte) : List Byte :=
  let key (r : Nat) : List Byte := ks.getD r []
  let turn (s : List Byte) : List Byte := shiftRows id (s.map subByte)
  let s := (List.range 13).foldl (fun s r => xorBytes (mixColumns [2, 3, 1, 1] (turn s)) (key (r + 1))) (xorBytes b (key 0))
  xorBytes (turn s) (key 14)

def aesDecrypt (ks : List (List Byte)) (b : List Byte) : List Byte :=
  let key (r : Nat) : List Byte := ks.getD r []
  let turn (s : List Byte) : List Byte := (shiftRows (fun r => 4 - r) s).map unsubByte
  let s := (List.range 13).foldl (fun s r => mixColumns [14, 11, 13, 9] (xorBytes (turn s) (key (13 - r)))) (xorBytes b (key 14))
  xorBytes (turn s) (key 0)

/-- The tweak of the next block: times x, the 16 bytes taken as a little-endian number. -/
def xtsNext (t : BitVec 128) : BitVec 128 := (t <<< 1) ^^^ (if t.msb then 0x87 else 0)

/-- A sector under a pair of keys, by the block cipher `f` with the first key (R353): the tweak is the sector number under the second key. -/
def xts (f : List (List Byte) → List Byte → List Byte) (k1 k2 : BitVec 256) (sector : Nat) (bs : List Byte) : List Byte :=
  let t0 := BitVec.ofNat 128 (leNat (aesEncrypt (roundKeys k2) (leBytes 16 sector)))
  let ks := roundKeys k1
  let block (t : BitVec 128) (b : List Byte) : List Byte := let m := leBytes 16 t.toNat; xorBytes (f ks (xorBytes b m)) m
  block t0 (bs.take 16) ++ block (xtsNext t0) (bs.drop 16)

end Sys2Proof.Machine
end

