-- ==== Sys2Proof/Machine/Memory.lean ====
section
/-! DEFINITION. Device memory at its controllers (spec 11): sectors, keys, ECC outcomes, patrol scrub, and the token
buckets that meter accesses (spec 14, R471 to R475). -/

namespace Sys2Proof.Machine

/-- Add to what has left the die. -/
def Die.emit (d : Die) (o : Out) : Die := { d with out := d.out ++ [o] }

/-- Groom and the walker use key 0 and partition 0 (R354). -/
def hbmTop : Nat := 0x2400000000

/-- Exclusive or of successive groups of `w` bits. -/
def foldGroups (w : Nat) : Nat → Nat → Nat
  | 0, _ => 0
  | n + 1, v => (v % 2 ^ w).xor (foldGroups w n (v / 2 ^ w))

/-- Stack and pseudo-channel of a device physical address, 0 to 127 (the table before R348). -/
def chanOf (a : Nat) : Nat := (a / 128 % 128).xor (foldGroups 7 5 (a / 16384))

/-- Stack of an address. -/
def stackOf (a : Nat) : Nat := chanOf a / 32

/-! ### Token buckets (R471 to R475) -/

def tokens (bytes : Nat) : Nat := max 1 ((bytes + 127) / 128)

/-- The rate in force of a partition's resource: QOS_RATE as of the last boundary (R476). -/
def Die.rate (d : Die) (p r : Nat) : Nat := (tblGet (fun _ => 0xFFFFFFFF#32) d.parts.rates (5 * p + r)).toNat

def Die.unmetered (d : Die) (p r : Nat) : Bool := d.rate p r == 0xFFFFFFFF

/-- The level as a signed number. -/
def Die.level (d : Die) (p r : Nat) : Int := (BitVec.ofNat 32 (d.raw (QOS_LEVEL p r))).toInt

def Die.setLevel (d : Die) (p r : Nat) (v : Int) : Die := d.putRaw (QOS_LEVEL p r) (v % 0x100000000).toNat

/-- Charge a bucket; the level may become negative and saturates (R472, R473, R475). -/
def Die.charge (d : Die) (p r bytes : Nat) : Die :=
  if d.unmetered p r then d else d.setLevel p r (max (-0x80000000) (d.level p r - tokens bytes))

/-- An operation of the die's own may proceed (R473), or use spare capacity (R474). -/
def Die.mayUse (d : Die) (p r : Nat) : Bool :=
  d.unmetered p r || decide (1 ≤ d.level p r) || maskBit (BitVec.ofNat 5 (d.get QOS_CTRL_SPARE)) r

/-- Charge an operation of the die's own; spare use is not charged (R474). -/
def Die.useTokens (d : Die) (p r bytes : Nat) : Die :=
  if !d.unmetered p r && decide (d.level p r < 1) && maskBit (BitVec.ofNat 5 (d.get QOS_CTRL_SPARE)) r then d else d.charge p r bytes

/-! ### Sectors and their errors (R348 to R352) -/

/-- Record an outcome of a read other than a clean one and raise its event (R349, R497). -/
def Die.hbmOutcome (d : Die) (a cause : Nat) : Die :=
  (d.record HBM_ERR_VALID
    [(HBM_ERR_STACK, stackOf a), (HBM_ERR_CHAN, chanOf a % 32), (HBM_ERR_CAUSE, cause),
     (HBM_ERR_ADDR_LO_ADDR, a % 2 ^ 32), (HBM_ERR_ADDR_HI_ADDR, a / 2 ^ 32)]).raise 5
    (if cause == 1 then .corrected else .contained) (detail (chanOf a) cause (a / 2 ^ 22))

def Die.secTag (d : Die) (s : Nat) : SecTag := tblGet (fun _ => SecTag.zeroed) d.mem.tag s

def Die.setTag (d : Die) (s : Nat) (t : SecTag) : Die :=
  { d with mem := { d.mem with tag := tblPut (fun _ => SecTag.zeroed) d.mem.tag s t } }

def Die.keyGen (d : Die) (p : Nat) : Nat := tblGet (fun _ => 0) d.mem.keyGen p

/-- A stack is out of service (R352, R536). -/
def Die.offline (d : Die) (stack : Nat) : Bool := maskBit (BitVec.ofNat 4 (d.get HBM_CTRL_OFFLINE)) stack || d.underTest 5 stack

/-- Errors waiting in the words of sector `s`. -/
def Die.secErrs (d : Die) (s : Nat) : List (Nat × HbmUpset) := d.mem.err.filter fun e => e.1 / 4 == s

def Die.dropErrs (d : Die) (s : Nat) : Die := { d with mem := { d.mem with err := d.mem.err.filter fun e => e.1 / 4 != s } }

/-- What a word with an error holds after a further upset (R348): a second one is more than the code corrects. -/
def hbmAfter (x : HbmUpset) : Option HbmUpset → HbmUpset
  | none => x
  | some _ => .bad

/-- An upset of the word that holds an address (R348 to R350). -/
def Die.hbmUpset (d : Die) (a : Nat) (x : HbmUpset) : Die :=
  let w := a / 8
  { d with mem := { d.mem with err := (d.mem.err.filter fun e => e.1 != w) ++ [(w, hbmAfter x (assoc d.mem.err w))] } }

/-- Read the ECC of a sector (R349): none of its data is looked at. True when the data is good. A word with the poison syndrome makes its sector
a poisoned one (R350). -/
def Die.checkSector (d : Die) (s : Nat) : Bool × Die :=
  let a := 32 * s
  if d.offline (stackOf a) then (false, d.hbmOutcome a 4)
  else if d.secTag s == .poison || (d.secErrs s).any (fun e => e.2 == .poisonLike) then (false, d.hbmOutcome a 3)
  else
    let es := d.secErrs s
    let d := d.dropErrs s
    if es.any fun e => e.2 == .bad then (false, (d.setTag s .poison).hbmOutcome a 2)
    else (true, es.foldl (fun e _ => (e.hbmOutcome a 1).count (HBM_CORRECTED_COUNT (stackOf a)) 1) d)

/-- The pair of keys of a partition's generation (R353, R356). -/
def Die.pair (d : Die) (p g : Nat) : BitVec 256 × BitVec 256 :=
  match d.mem.keys.find? fun k => k.1 == (p, g) with
  | some k => k.2
  | none => (Config.strayKey p g false, Config.strayKey p g true)

/-- What a sector stores (R350, R353, R357): zeros, ciphertext, or the poison marking. -/
def Die.stored (d : Die) (s : Nat) : List Byte :=
  match d.secTag s with
  | .zeroed => List.replicate 32 0
  | .keyed p g => xts aesEncrypt (d.pair p g).1 (d.pair p g).2 s (memRead d.mem.hbm (32 * s) 32)
  | .poison => List.replicate 32 0xFF

/-- The check byte stored with word `w` of sector `s` (R348, R350, R357). -/
def Die.checkByte (d : Die) (s w : Nat) : Byte :=
  let c := Config.eccByte (le64 (((d.stored s).drop (8 * w)).take 8))
  match d.secTag s with
  | .zeroed => 0
  | .keyed _ _ => c
  | .poison => ~~~c

/-- The plaintext of a good sector under the key of partition `p` (R353, R357): what was written under that key, and what its ciphertext decrypts to
where it was written under another (log entry 92). -/
def Die.plain (d : Die) (p s : Nat) : List Byte :=
  match d.secTag s with
  | .zeroed => List.replicate 32 0
  | .keyed q g =>
    if q == p && g == d.keyGen p then memRead d.mem.hbm (32 * s) 32
    else xts aesDecrypt (d.pair p (d.keyGen p)).1 (d.pair p (d.keyGen p)).2 s (d.stored s)
  | .poison => d.stored s

/-- A controller reads one sector under the key of `p`. -/
def Die.readSector (d : Die) (p s : Nat) : Option (List Byte) × Die :=
  match d.checkSector s with
  | (false, d) => (none, d)
  | (true, d) =>
    (some (d.plain p s), d)

/-- A controller writes bytes at `off` of one sector (R350, R353): a part of a poisoned sector is not written. -/
def Die.writeSector (d : Die) (p s off : Nat) (bs : List Byte) : Bool × Die :=
  if bs.length == 32 then
    if d.offline (stackOf (32 * s)) then (false, d.hbmOutcome (32 * s) 4)
    else
      let d := (d.dropErrs s).setTag s (.keyed p (d.keyGen p))
      (true, { d with mem := { d.mem with hbm := memWrite d.mem.hbm (32 * s) bs } })
  else
    match d.checkSector s with
    | (false, d) => (false, d)
    | (true, d) =>
      let old := d.plain p s
      let new := old.take off ++ bs ++ old.drop (off + bs.length)
      let d := d.setTag s (.keyed p (d.keyGen p))
      (true, { d with mem := { d.mem with hbm := memWrite d.mem.hbm (32 * s) new } })

/-- Write a whole sector with the poison marking (R345, R350); a stack out of service takes none (R352). -/
def Die.poisonSector (d : Die) (s : Nat) : Die :=
  if d.offline (stackOf (32 * s)) then d.hbmOutcome (32 * s) 4 else (d.dropErrs s).setTag s .poison

/-- Sectors touched by [a, a + n). -/
def sectorsOf (a n : Nat) : List Nat := if n == 0 then [] else (List.range ((a + n - 1) / 32 - a / 32 + 1)).map (· + a / 32)

/-- Bytes [a, a + n) read at the controllers under the key of `p`, one access that is charged to it (R471); none when a sector answers an error. -/
def Die.hbmRead (d : Die) (p a n : Nat) : Option (List Byte) × Die :=
  let (r, d) := (sectorsOf a n).foldl (fun (acc : Option (List Byte) × Die) s =>
    let (v, e) := acc.2.readSector p s
    (match acc.1, v with | some x, some y => some (x ++ y) | _, _ => none, e)) (some [], d.charge p 0 n)
  (r.map fun bs => (bs.drop (a % 32)).take n, d)

/-- Bytes written at the controllers, sector by sector, in one access (R471); false when one was refused. -/
def Die.hbmWrite (d : Die) (p a : Nat) (bs : List Byte) : Bool × Die :=
  (sectorsOf a bs.length).foldl (fun (acc : Bool × Die) s =>
    let lo := max a (32 * s)
    let hi := min (a + bs.length) (32 * s + 32)
    let (ok, e) := acc.2.writeSector p s (lo - 32 * s) ((bs.drop (lo - a)).take (hi - lo))
    (acc.1 && ok, e)) (true, d.charge p 0 bs.length)

/-! ### Keys (R356) -/

/-- A partition's pair is a kept one no longer (R391). -/
def Die.unkeep (d : Die) (p : Nat) : Die :=
  d.put PRESERVE_STATUS_KEPT ((setMask (BitVec.ofNat 16 (d.get PRESERVE_STATUS_KEPT)) p false).toNat)

/-- The pair that a partition used is gone: what was written under it is not read back from now on (R356, R392). -/
def Die.loseKey (d : Die) (p : Nat) : Die :=
  { d with mem := { d.mem with keyGen := tblPut (fun _ => 0) d.mem.keyGen p (d.keyGen p + 1) } }

/-- A free 256-bit value. -/
def freeKey (i : Nat) : BitVec 256 := BitVec.ofNat 256 (Config.freeNat i)

/-- Draw a new key pair for a partition: its generation rises and its sweep starts (R341, R356). While a failed
random source holds draws (source 19, CAUSE 4), nothing is drawn. -/
def Die.drawKey (d : Die) (p : Nat) : Die :=
  let d := d.unkeep p
  if d.mem.keysHeld then d
  else
    let (i, d) := d.fresh
    let (j, d) := d.fresh
    let d := d.loseKey p
    let d := { d with mem := { d.mem with keys := d.mem.keys ++ [((p, d.keyGen p), freeKey i, freeKey j)] } }
    let d := d.countWrap (MEMKEY_GEN_GEN p) 1
    ({ d with cache := { d.cache with sweeps := (d.cache.sweeps.filter (· != p)) ++ [p] } }.putB DC_SWEEP_BUSY true).put
      DC_SWEEP_PARTITION p

/-- Key tag of a host access: the host key map's entry of the 2 MiB granule (R354, R355). -/
def Die.hostKey (d : Die) (a : Nat) : Nat := (tblGet (fun _ => 0#4) d.mem.hkm (a / 2 ^ 21)).toNat

/-! ### Scrub, offline (R351, R352) -/

/-- Lines of a stack: 32 pseudo-channels of 9,437,184 lines. -/
def linesPerStack : Nat := 32 * 9437184

/-- The line at place `i` of the patrol of a stack, in ascending place order (R351). -/
def patrolLine (stack i : Nat) : Nat :=
  let place := i / 32
  128 * (place * 128 + ((stack * 32 + i % 32).xor (foldGroups 7 5 place)))

/-- One patrol read: each of the line's sectors is checked without a key. -/
def opPatrolScrub (stack : StackIx) (d : Die) : Die :=
  if d.get HBM_SCRUB_HOURS == 0 || d.offline stack.val || d.bit HBM_STATUS_SELF_REFRESH then d
  else
    let i := tblGet (fun _ => 0) d.mem.scrub stack.val
    let a := patrolLine stack.val i
    let d := (List.range 4).foldl (fun e k => (e.checkSector (a / 32 + k)).2) d
    { d with mem := { d.mem with scrub := tblPut (fun _ => 0) d.mem.scrub stack.val ((i + 1) % linesPerStack) } }

/-- Zero every stack in service: data and check bits (R357, R358). -/
def Die.zeroHbm (d : Die) : Die := { d with mem := { d.mem with hbm := [], tag := [], err := [] } }

/-- Zero one stack (R537, block 5). -/
def Die.zeroStack (d : Die) (stack : Nat) : Die :=
  { d with mem := { d.mem with
      hbm := d.mem.hbm.filter fun c => stackOf c.1 != stack,
      tag := d.mem.tag.filter fun c => stackOf (32 * c.1) != stack,
      err := d.mem.err.filter fun c => stackOf (8 * c.1) != stack } }

end Sys2Proof.Machine
end

