-- ==== Sys2Proof/Machine/Cache.lean ====
section
/-! DEFINITION. The device cache: homes, sets, hayloft, tally, L1s, MSHRs and invalidations (spec 10). A request of a
core travels the ring and is accepted by a command; that of another requester is accepted as soon as it is sent, where its slice accepts it (R314). -/

namespace Sys2Proof.Machine

/-- Home slice of a line (R309): `w` is 38 for device and 52 for host addresses. -/
def homeSlice (host : Bool) (a : Nat) : SliceIx :=
  let w := if host then 52 else 38
  ⟨foldGroups 3 15 (a % 2 ^ w / 128) % 8, Nat.mod_lt _ (by decide)⟩

/-- Set of a line in its slice (R310). -/
def setOf (line : Nat) : Nat := line / 1024 % 4096

/-- Line (byte address) of an address. -/
def lineOf (a : Nat) : Nat := a / 128 * 128

/-- The pieces of [a, a + n) that lie in one line each: address and length. -/
def pieces : Nat → Nat → Nat → List (Nat × Nat)
  | 0, _, _ => []
  | fuel + 1, a, n =>
    if n == 0 then []
    else
      let k := min n (lineOf a + 128 - a)
      (a, k) :: pieces fuel (a + k) (n - k)

def linePieces (a n : Nat) : List (Nat × Nat) := pieces (n / 128 + 2) a n

def wayKey (slice : SliceIx) (set way : Nat) : Nat := (slice.val * 4096 + set) * 16 + way

/-- Mask of the sectors touched by bytes [off, off + n) of a line. -/
def sectorMask (off n : Nat) : BitVec 4 :=
  BitVec.ofNat 4 (((List.range 4).filter fun i => decide (off < 32 * i + 32) && decide (32 * i < off + n)).foldl (fun m i => m + 2 ^ i) 0)

/-- Bytes [off, off + n) of a line. -/
def lineBytes (l : LineData) (off n : Nat) : List Byte := leBytes n (l.toNat / 2 ^ (8 * off))

/-- Replace bytes of a line. -/
def lineWrite (l : LineData) (off : Nat) (bs : List Byte) : LineData :=
  let m := BitVec.ofNat 1024 ((2 ^ (8 * bs.length) - 1) * 2 ^ (8 * off))
  (l &&& ~~~m) ||| BitVec.ofNat 1024 (leNat bs * 2 ^ (8 * off))

/-! ### Tree pseudo-LRU (R326) -/

/-- The way the tree points to among the eligible ones: a bit of 1 points to the upper half. -/
def treePick (elig : Nat → Bool) (bits : Nat → Bool) : Nat → Nat → Nat → Nat
  | 0, _, base => base
  | n + 1, node, base =>
    let half := 2 ^ n
    let lo := (List.range half).any fun i => elig (base + i)
    let hi := (List.range half).any fun i => elig (base + half + i)
    if (if bits node then hi else !lo) then treePick elig bits n (2 * node + 2) (base + half)
    else treePick elig bits n (2 * node + 1) base

/-- Set the bits on a way's path to point away from it, or towards it. -/
def treeTouch {w : Nat} (towards : Bool) (way : Nat) : Nat → Nat → Nat → BitVec w → BitVec w
  | 0, _, _, t => t
  | n + 1, node, base, t =>
    let upper := decide (base + 2 ^ n ≤ way)
    treeTouch towards way n (if upper then 2 * node + 2 else 2 * node + 1) (if upper then base + 2 ^ n else base)
      (setMask t node (upper == towards))

/-! ### Tables of the unit -/

def Die.onCache (d : Die) (f : CacheUnit → CacheUnit) : Die := { d with cache := f d.cache }

def Die.cline (d : Die) (k : Nat) : Option CLine := assoc d.cache.lines k
def Die.setCline (d : Die) (k : Nat) (c : CLine) : Die := d.onCache fun u => { u with lines := assocPut u.lines k c }
def Die.dropCline (d : Die) (k : Nat) : Die := d.onCache fun u => { u with lines := u.lines.filter fun e => e.1 != k }

def Die.tree (d : Die) (slice : SliceIx) (set : Nat) : BitVec 15 := tblGet (fun _ => 0#15) d.cache.trees (slice.val * 4096 + set)

def Die.touch (d : Die) (slice : SliceIx) (set way : Nat) (towards : Bool) : Die :=
  d.onCache fun u => { u with trees := tblPut (fun _ => 0#15) u.trees (slice.val * 4096 + set) (treeTouch towards way 4 0 0 (d.tree slice set)) }

def Die.hay (d : Die) (slice : SliceIx) : List CLine := tblGet (fun _ => ([] : List CLine)) d.cache.hay slice.val
def Die.setHay (d : Die) (slice : SliceIx) (h : List CLine) : Die :=
  d.onCache fun u => { u with hay := tblPut (fun _ => ([] : List CLine)) u.hay slice.val h }

/-- A way that may be filled: neither locked nor disabled (R343, R346). -/
def Die.wayFree (d : Die) (slice : SliceIx) (way : Nat) : Bool :=
  !maskBit (BitVec.ofNat 16 (d.get (DC_WAYS_LOCKED slice.val))) way && !maskBit (BitVec.ofNat 16 (d.get (DC_WAYS_DISABLED slice.val))) way

def Die.findWay (d : Die) (slice : SliceIx) (line : Nat) (host : Bool) : Option Nat :=
  (List.range 16).find? fun w => match d.cline (wayKey slice (setOf line) w) with | some c => c.addr == line && c.host == host | none => false

/-! ### Error records of the cache (table before R345, R497) -/

def Die.dcRecord (d : Die) (slice : SliceIx) (way set cause : Nat) : Die :=
  d.record DC_ERR_VALID [(DC_ERR_SLICE, slice.val), (DC_ERR_WAY, way), (DC_ERR_SET, set), (DC_ERR_CAUSE, cause)]

def Die.dcError (d : Die) (slice : SliceIx) (way set cause : Nat) (cls : Cls) : Die :=
  (d.dcRecord slice way set cause).raise 4 cls (detail slice.val cause set)

/-! ### Eviction, write-back, fill (R326 to R329) -/

/-- Sectors of a mask. -/
def maskCount (m : BitVec 4) : Nat := ((List.range 4).filter m.getLsbD).length

/-- Write the dirty sectors of a line to memory in one access (R471), poison with the controller's marking (R345); the line becomes clean. -/
def Die.writeBack (d : Die) (c : CLine) : Die :=
  (List.range 4).foldl (fun e i =>
    if c.dirty.getLsbD i then
      (if c.poison.getLsbD i then e.poisonSector (c.addr / 32 + i)
       else (e.writeSector c.key (c.addr / 32 + i) 0 (lineBytes c.data (32 * i) 32)).2)
    else e) (if c.dirty == 0 then d else d.charge c.key 0 (32 * maskCount c.dirty))

/-- A clean host line has left the die's caches: the host is told (table before R409). -/
def Die.cleanGone (d : Die) (c : CLine) : Die :=
  if c.host && !(d.cache.tally.any fun t => t.2.addr == c.addr && t.2.host) then d.emit (.cleanEvict c.addr) else d

/-- An evicted line goes to the hayloft, over the oldest clean entry; with no clean entry its dirty sectors are
written directly and it is dropped (R327, R328). -/
def Die.evict (d : Die) (slice : SliceIx) (c : CLine) : Die :=
  let h := d.hay slice
  if h.length < 32 then d.setHay slice (h ++ [c])
  else
    match h.find? fun x => x.dirty == 0 with
    | some old => (d.setHay slice (h.erase old ++ [c])).cleanGone old
    | none => ((d.writeBack c).count (HAYLOFT_DIRECT slice.val) 1).cleanGone c

/-- A way of a set for a line: the lowest invalid one that is free, else the victim of the tree, which is evicted (R326); none where every way is locked
or disabled (R346). -/
def Die.takeWay (d : Die) (slice : SliceIx) (set : Nat) : Option Nat × Die :=
  match (List.range 16).find? fun w => d.wayFree slice w && (d.cline (wayKey slice set w)).isNone with
  | some w => (some w, d)
  | none =>
    if !((List.range 16).any fun w => d.wayFree slice w) then (none, d)
    else
      let w := treePick (d.wayFree slice) (fun i => (d.tree slice set).getLsbD i) 4 0 0
      match d.cline (wayKey slice set w) with
      | some c => (some w, (d.dropCline (wayKey slice set w)).evict slice c)
      | none => (some w, d)

/-- Holders of a line that a broadcast reaches: L1s with the line, with a fill on its way, or with a miss waiting. -/
def Die.holders (d : Die) (line : Nat) (host : Bool) : List (Fin 64) :=
  (List.range 64).filterMap fun i =>
    if h : i < 64 then
      let stop : Fin 64 := ⟨i, h⟩
      if (d.cache.l1.any fun e => e.1 / 512 == i && e.2.addr == line && e.2.host == host)
        || (d.cache.toL1.any fun m => m.stop == stop && m.line == line && m.host == host && (match m.kind with | .fill .. | .push .. => true | _ => false))
        || (d.cache.misses.any fun m => m.stop == stop && m.line == line && m.host == host)
      then some stop else none
    else none

def Die.tallyOf (d : Die) (line : Nat) (host : Bool) : Option (Nat × TallyEntry) :=
  d.cache.tally.find? fun e => e.2.addr == line && e.2.host == host

def Die.dropTally (d : Die) (k : Nat) : Die := d.onCache fun u => { u with tally := u.tally.filter fun e => e.1 != k }
def Die.setTally (d : Die) (k : Nat) (t : TallyEntry) : Die := d.onCache fun u => { u with tally := assocPut u.tally k t }

/-- Send a message to a caching agent (R308). -/
def Die.tellL1 (d : Die) (stop : Fin 64) (line : Nat) (host : Bool) (kind : L1Kind) : Die :=
  d.onCache fun u => { u with toL1 := u.toL1 ++ [{ stop := stop, slice := homeSlice host line, line := line, host := host, kind := kind }] }

/-- Broadcast an invalidation of a line (R308, R321): a message to each agent the copy can reach, and a record of the
acknowledgements to come. With no tally entry there is no broadcast and `false`. -/
def Die.broadcast (d : Die) (line : Nat) (host : Bool) (done : InvDone) : Bool × Die :=
  match d.tallyOf line host with
  | none => (false, d)
  | some _ =>
    let stops := d.holders line host
    let id := d.cache.nextInv
    let d := d.onCache fun u => { u with
      nextInv := id + 1,
      invs := u.invs ++ [{ id := id, slice := homeSlice host line, line := line, host := host, left := stops.length, done := done }] }
    (true, stops.foldl (fun e s => e.tellL1 s line host (.inval id)) d)

/-- An invalidation of the line is still under way. -/
def Die.invPending (d : Die) (line : Nat) (host : Bool) : Bool := d.cache.invs.any fun v => v.line == line && v.host == host

/-- Revoke the owner of a line in E, once (R331). -/
def Die.revokeLine (d : Die) (line : Nat) (host : Bool) : Die :=
  match d.tallyOf line host with
  | some (k, t) => if t.excl && !t.revoked then (d.setTally k { t with revoked := true }).tellL1 t.owner line host .revoke else d
  | none => d

def Die.mshrOf (d : Die) (line : Nat) (host : Bool) : Option Mshr := d.cache.mshrs.find? fun m => m.line == line && m.host == host

def Die.onMshr (d : Die) (line : Nat) (host : Bool) (f : Mshr → Mshr) : Die :=
  d.onCache fun u => { u with mshrs := listUpd (fun m => m.line == line && m.host == host) f u.mshrs }

def Die.dropMshr (d : Die) (line : Nat) (host : Bool) : Die :=
  d.onCache fun u => { u with mshrs := u.mshrs.filter fun m => !(m.line == line && m.host == host) }

def Die.excl (d : Die) (line : Nat) (host : Bool) : Bool :=
  match d.tallyOf line host with | some (_, t) => t.excl | none => false

/-- Find a line, bringing it back from the hayloft (R327); a device line under another key tag is written back and
dropped with its L1 copies (R340). -/
def Die.locate (d : Die) (slice : SliceIx) (line : Nat) (host : Bool) (key : Nat) : Option Nat × Die :=
  let set := setOf line
  match d.findWay slice line host with
  | some w =>
    (match d.cline (wayKey slice set w) with
     | some c =>
       if host || c.key == key then (some w, d)
       else (none, ((d.writeBack c).dropCline (wayKey slice set w)).broadcast line host .none |>.2)
     | none => (none, d))
  | none =>
    match (d.hay slice).find? fun c => c.addr == line && c.host == host with
    | none => (none, d)
    | some c =>
      let d := d.setHay slice ((d.hay slice).erase c)
      if host || c.key == key then
        (match d.takeWay slice set with
         | (some w, d) => (some w, (d.setCline (wayKey slice set w) c).touch slice set w false)
         | (none, d) => (none, d.writeBack c))
      else (none, (d.writeBack c).broadcast line host .none |>.2)

/-- Fetch the missing sectors of a way from memory under the line's key, in one access (R471); false when a sector answers an error (R349). -/
def Die.fetchSectors (d : Die) (slice : SliceIx) (line way : Nat) (mask : BitVec 4) : Bool × Die :=
  let k := wayKey slice (setOf line) way
  (List.range 4).foldl (fun acc i =>
    match acc.2.cline k with
    | none => (false, acc.2)
    | some c =>
      if mask.getLsbD i && !c.valid.getLsbD i then
        match acc.2.readSector c.key (line / 32 + i) with
        | (some bs, e) => (acc.1, e.setCline k { c with valid := setMask c.valid i true, data := lineWrite c.data (32 * i) bs })
        | (none, e) => (false, e)
      else acc) (true, match d.cline k with
    | some c => if mask &&& ~~~c.valid == 0 then d else d.charge c.key 0 (32 * maskCount (mask &&& ~~~c.valid))
    | none => d)

/-- Allocate an empty line in a way of its set, if one can be taken. -/
def Die.allocLine (d : Die) (slice : SliceIx) (line : Nat) (host : Bool) (key : Nat) (once : Bool) : Option Nat × Die :=
  match d.takeWay slice (setOf line) with
  | (none, d) => (none, d)
  | (some w, d) =>
    let c : CLine := { addr := line, host := host, key := key, valid := 0, dirty := 0, poison := 0, data := 0 }
    (some w, (d.setCline (wayKey slice (setOf line) w) c).touch slice (setOf line) w once)

/-- A next-line prefetch leaves for the home of the following line, inside the same 64 KiB block (R325). -/
def Die.sendPrefetch (d : Die) (line key : Nat) (once : Bool) : Die :=
  if d.bit DC_CTRL_PREFETCH_EN && (line + 128) / 65536 == line / 65536 then
    d.onCache fun u => { u with prefetches := u.prefetches ++ [{ slice := homeSlice false (line + 128), line := line + 128, key := key, once := once }] }
  else d

/-- Where the sectors of a line stand: in a way, nowhere since memory answered an error, or nowhere since its set has no way to fill. -/
inductive Sectors where
  | way (w : Nat) | bad | noWay

/-- Make sectors of a device line valid in its slice: a hit, or a miss that allocates (R326). `demand` reads send
a prefetch. -/
def Die.haveSectors (d : Die) (line key : Nat) (mask : BitVec 4) (once demand : Bool) : Sectors × Die :=
  let slice := homeSlice false line
  match d.locate slice line false key with
  | (some w, d) =>
    (match d.cline (wayKey slice (setOf line) w) with
     | some c =>
       if c.valid &&& mask == mask then (.way w, (d.countWrap (DC_HITS_HITS slice.val) 1).touch slice (setOf line) w false)
       else
         let (ok, d) := (d.countWrap (DC_MISSES_MISSES slice.val) 1).fetchSectors slice line w mask
         (if ok then .way w else .bad, d.touch slice (setOf line) w once)
     | none => (.bad, d))
  | (none, d) =>
    match (d.countWrap (DC_MISSES_MISSES slice.val) 1).allocLine slice line false key once with
    | (none, d) => (.noWay, d)
    | (some w, d) =>
      let (ok, d) := d.fetchSectors slice line w mask
      (if ok then .way w else .bad, if demand then d.sendPrefetch line key once else d)

/-- Read bytes of a device line at its home under a key tag (R312, R340): none when a sector is poisoned or memory
answers an error (R345). -/
def Die.homeRead (d : Die) (a n key : Nat) (once : Bool) : Option (List Byte) × Die :=
  let line := lineOf a
  let slice := homeSlice false line
  let mask := sectorMask (a - line) n
  match d.haveSectors line key mask once true with
  | (.bad, d) => (none, d)
  | (.noWay, d) => d.hbmRead key a n
  | (.way w, d) =>
    match d.cline (wayKey slice (setOf line) w) with
    | none => (none, d)
    | some c =>
      if c.poison &&& mask != 0 then (none, d.dcError slice w (setOf line) 8 .contained)
      else (some (lineBytes c.data (a - line) n), d)

/-- The whole of a device line at its home, for a fill (R316). -/
def Die.homeLine (d : Die) (line key : Nat) (once demand : Bool) : Option LineData × Die :=
  let slice := homeSlice false line
  match d.haveSectors line key 15 once demand with
  | (.bad, d) => (none, d)
  | (.noWay, d) => (match d.hbmRead key line 128 with | (some bs, d) => (some (BitVec.ofNat 1024 (leNat bs)), d) | (none, d) => (none, d))
  | (.way w, d) =>
    match d.cline (wayKey slice (setOf line) w) with
    | none => (none, d)
    | some c => if c.poison != 0 then (none, d.dcError slice w (setOf line) 8 .contained) else (some c.data, d)

/-- Count of consecutive full-line writes of a stop at a slice (R324). -/
def Die.runOf (d : Die) (slice : SliceIx) (stop : Nat) : Nat := tblGet (fun _ => 0) d.cache.runs (slice.val * 64 + stop)
def Die.setRun (d : Die) (slice : SliceIx) (stop n : Nat) : Die :=
  d.onCache fun u => { u with runs := tblPut (fun _ => 0) u.runs (slice.val * 64 + stop) (min n 31) }

/-- Merge bytes into one sector of a way: a whole sector replaces it and clears poison; a part needs the sector and
is not performed on a poisoned one (R345, R350). -/
def Die.mergeSector (d : Die) (slice : SliceIx) (line way i off : Nat) (bs : List Byte) : Bool × Die :=
  let k := wayKey slice (setOf line) way
  let put (e : Die) (c : CLine) : Die := e.setCline k { c with
    valid := setMask c.valid i true, dirty := setMask c.dirty i true,
    poison := setMask c.poison i false, data := lineWrite c.data off bs }
  if bs.length == 32 then
    match d.cline k with
    | some c => (true, put d c)
    | none => (false, d)
  else
    match d.fetchSectors slice line way (BitVec.ofNat 4 (2 ^ i)) with
    | (false, d) => (false, d)
    | (true, d) =>
      match d.cline k with
      | some c => if c.poison.getLsbD i then (false, d.dcError slice way (setOf line) 8 .contained) else (true, put d c)
      | none => (false, d)

/-- What a write finds of its line's place: whether it may allocate, and whether a slice hint keeps the line (R336). -/
inductive Alloc where
  | usual | keep | never
deriving DecidableEq, Repr

/-- Perform a write to a device line at its home (R312, R324 to R326): the line's sectors, or memory itself under the
streaming rule unless a slice hint keeps the line (R336). -/
def Die.homePerformWrite (d : Die) (stop a key : Nat) (bs : List Byte) (once : Bool) (how : Alloc) : Bool × Die :=
  let line := lineOf a
  let slice := homeSlice false line
  let streams := bs.length == 128 && d.bit DC_CTRL_STREAM_EN && decide (d.get DC_CTRL_STREAM_LIMIT ≤ d.runOf slice stop)
  let pieces (e : Die) (w : Nat) : Bool × Die :=
    (List.range 4).foldl (fun acc i =>
      let lo := max a (line + 32 * i)
      let hi := min (a + bs.length) (line + 32 * i + 32)
      if lo < hi then
        let (ok, e) := acc.2.mergeSector slice line w i (lo - line) ((bs.drop (lo - a)).take (hi - lo))
        (acc.1 && ok, e)
      else acc) (true, e)
  match d.locate slice line false key with
  | (some w, d) => pieces ((d.countWrap (DC_HITS_HITS slice.val) 1).touch slice (setOf line) w false) w
  | (none, d) =>
    let d := d.countWrap (DC_MISSES_MISSES slice.val) 1
    if how == .never || (streams && how == .usual) then d.hbmWrite key a bs
    else
      match d.allocLine slice line false key (once && how != .keep) with
      | (some w, d) => pieces d w
      | (none, d) => d.hbmWrite key a bs

/-- The line, when all four of its sectors are valid in its way and none is poisoned. -/
def Die.wholeLine (d : Die) (line : Nat) (host : Bool) : Option LineData :=
  let slice := homeSlice host line
  match d.findWay slice line host with
  | some w =>
    (match d.cline (wayKey slice (setOf line) w) with
     | some c => if c.valid == 15 && c.poison == 0 then some c.data else none
     | none => none)
  | none => none

/-- A host line in the array or the hayloft, with its way (R327). -/
def Die.hostLine (d : Die) (line : Nat) : Option (Nat × LineData) × Die :=
  let slice := homeSlice true line
  match d.locate slice line true 0 with
  | (some w, d) =>
    (match d.cline (wayKey slice (setOf line) w) with
     | some c => (if c.valid == 15 then some (w, c.data) else none, d)
     | none => (none, d))
  | (none, d) => (none, d)

/-! ### The tally (R320 to R322) -/

def tallySet (line : Nat) : Nat := line / 1024 % 512
def tallyKey (slice : SliceIx) (set way : Nat) : Nat := (slice.val * 512 + set) * 16 + way

def Die.tallyTree (d : Die) (slice : SliceIx) (set : Nat) : BitVec 15 := tblGet (fun _ => 0#15) d.cache.tallyTrees (slice.val * 512 + set)

/-- Choose a victim of a full tally set by its tree and begin to remove it (R322): an entry in S, or one in E whose hold time has run out, which is a
free value; while a victim of the set is on its way out no other is chosen. -/
def Die.forceTally (d : Die) (slice : SliceIx) (set : Nat) : Die :=
  let cell (w : Nat) : Option TallyEntry := assoc d.cache.tally (tallyKey slice set w)
  if (List.range 16).any fun w => match cell w with | some t => t.forced | none => false then d
  else
    let (i, d) := d.fresh
    let may (w : Nat) : Bool := match cell w with | some t => !t.excl || (Config.freeNat i).testBit w | none => false
    if !((List.range 16).any may) then d
    else
      let w := treePick may (fun i => (d.tallyTree slice set).getLsbD i) 4 0 0
      match cell w with
      | none => d
      | some t =>
        let d := (d.countWrap TALLY_FORCED_FORCED 1).setTally (tallyKey slice set w) { t with forced := true }
        if t.excl then d.revokeLine t.addr t.host else if d.invPending t.addr t.host then d else (d.broadcast t.addr t.host .none).2

/-- Count one more holder of a line, or grant it in E (R316, R320). False when its tally set is full: a victim is on its way out and the request
waits (R322). -/
def Die.addHolder (d : Die) (line : Nat) (host excl : Bool) (key : Nat) (stop : Fin 64) : Bool × Die :=
  let slice := homeSlice host line
  let set := tallySet line
  match d.tallyOf line host with
  | some (k, t) => (true, d.setTally k (if excl then { t with excl := true, count := 1, owner := stop, revoked := false } else { t with count := t.count + 1 }))
  | none =>
    match (List.range 16).find? fun w => (assoc d.cache.tally (tallyKey slice set w)).isNone with
    | some w =>
      let d := d.setTally (tallyKey slice set w) { addr := line, host := host, key := key, excl := excl, count := 1, owner := stop, revoked := false }
      (true, d.onCache fun u => { u with tallyTrees := tblPut (fun _ => 0#15) u.tallyTrees (slice.val * 512 + set) (treeTouch false w 4 0 0 (d.tallyTree slice set)) })
    | none => (false, d.forceTally slice set)

/-- One holder of a line fewer; the entry goes with the last. -/
def Die.dropHolder (d : Die) (line : Nat) (host : Bool) : Die :=
  match d.tallyOf line host with
  | none => d
  | some (k, t) => if t.count ≤ 1 then d.dropTally k else d.setTally k { t with count := t.count - 1 }

/-- The last copy of a clean host line has gone from the die: the host is told (table before R409), unless the line is on its way to or from it. -/
def Die.hostGone (d : Die) (line : Nat) : Die :=
  let slice := homeSlice true line
  if (d.tallyOf line true).isSome || (d.findWay slice line true).isSome || ((d.hay slice).any fun c => c.addr == line && c.host)
    || (d.mshrOf line true).isSome then d
  else d.emit (.cleanEvict line)

/-- The tally's entry of a line is of another key (R340). -/
def Die.otherKey (d : Die) (line key : Nat) : Bool :=
  match d.tallyOf line false with | some (_, t) => t.key != key | none => false

/-- Send a line to the L1 that a core hint names, when the slice holds all of it (R335, R337); true when there is nothing to wait for: the push has been
sent, or there is none to send. -/
def Die.pushTo (d : Die) (p : PushReq) : Bool × Die :=
  let stop : Fin 64 := ⟨p.core.val, by omega⟩
  if d.invPending p.line p.host then (false, d)
  else
    match d.wholeLine p.line p.host with
    | none => (true, d)
    | some data =>
      if d.excl p.line p.host || (!p.host && d.otherKey p.line p.key) || (d.holders p.line p.host).contains stop then (true, d)
      else
        match d.addHolder p.line p.host false p.key stop with
        | (false, d) => (false, d)
        | (true, d) => (true, d.tellL1 stop p.line p.host (.push data))

/-- A hinted write has been accepted (R335): its push leaves, or waits for its line's invalidation or for a tally entry. -/
def Die.hintPush (d : Die) (p : PushReq) : Die :=
  match d.pushTo p with
  | (true, d) => d
  | (false, d) => d.onCache fun u => { u with pushes := u.pushes ++ [p] }

/-- The pushes that wait try again. -/
def Die.retryPushes (d : Die) : Die :=
  d.cache.pushes.foldl (fun e p => e.hintPush p) (d.onCache fun u => { u with pushes := [] })

/-! ### L1s (R315 to R319) -/

def l1Key (stop : Fin 64) (set way : Nat) : Nat := stop.val * 512 + set * 4 + way
def l1Set (line : Nat) : Nat := line / 128 % 128

def Die.l1Find (d : Die) (stop : Fin 64) (line : Nat) (host : Bool) : Option (Nat × L1Line) :=
  d.cache.l1.find? fun e => e.1 / 512 == stop.val && e.2.addr == line && e.2.host == host

def Die.l1Drop (d : Die) (k : Nat) : Die := d.onCache fun u => { u with l1 := u.l1.filter fun e => e.1 != k }
def Die.l1Put (d : Die) (k : Nat) (l : L1Line) : Die := d.onCache fun u => { u with l1 := assocPut u.l1 k l }

def Die.l1Tree (d : Die) (stop : Fin 64) (set : Nat) : BitVec 3 := tblGet (fun _ => 0#3) d.cache.l1Trees (stop.val * 128 + set)
def Die.l1Touch (d : Die) (k : Nat) : Die :=
  let set := k / 4
  d.onCache fun u => { u with l1Trees := tblPut (fun _ => 0#3) u.l1Trees set (treeTouch false (k % 4) 2 0 0 (tblGet (fun _ => 0#3) u.l1Trees set)) }

/-- A home has accepted a write of the agent itself: its shared copy takes the bytes (R315). -/
def Die.updateOwn (d : Die) (stop : Fin 64) (line : Nat) (host : Bool) (a : Nat) (bs : List Byte) : Die :=
  match d.l1Find stop line host with
  | some (k, l) => if l.excl then d else d.l1Put k { l with data := lineWrite l.data (a - line) bs }
  | none => d

/-- Put a request on the ring towards the line's home (R311). -/
def Die.sendHome (d : Die) (r : HomeReq) : Die := d.onCache fun u => { u with ring := u.ring ++ [r] }

/-- A message of an L1 about a line it held: an eviction notice (R316) or a release (R330). -/
def Die.l1Note (d : Die) (stop : Fin 64) (line : Nat) (host : Bool) (op : HomeOp) : Die :=
  d.sendHome { stop := stop, slice := homeSlice host line, line := line, space := if host then .host else .dev, key := 0,
               once := false, op := op, who := { req := .reg, id := 0 } }

/-- An eviction notice of a clean line (R316). -/
def Die.sendEvict (d : Die) (stop : Fin 64) (line : Nat) (host : Bool) : Die := d.l1Note stop line host .evict

/-- Place a line in an L1: an invalid way, else the tree's victim among the ways not held in E, which is dropped with
its eviction notice (R316). No way free of E: the line is not installed, and its home is told so. -/
def Die.l1Install (d : Die) (stop : Fin 64) (l : L1Line) : Die :=
  let set := l1Set l.addr
  let cell (w : Nat) := assoc d.cache.l1 (l1Key stop set w)
  match (List.range 4).find? fun w => (cell w).isNone with
  | some w => (d.l1Put (l1Key stop set w) l).l1Touch (l1Key stop set w)
  | none =>
    let ok (w : Nat) : Bool := match cell w with | some x => !x.excl | none => true
    let w := treePick ok (fun i => (d.l1Tree stop set).getLsbD i) 2 0 0
    match cell w with
    | some x =>
      if x.excl then (if l.excl then d else d.sendEvict stop l.addr l.host)
      else ((d.sendEvict stop x.addr x.host).l1Put (l1Key stop set w) l).l1Touch (l1Key stop set w)
    | none => d

/-- Empty the L1 of a stop and take it out of the tally entries that count it (R319): its shared lines, and the fills and pushes on their way to it. A
line in E, held or on its way, stays until R330 lets it go: it is revoked. -/
def Die.l1Empty (d : Die) (stop : Fin 64) : Die :=
  let mine (m : L1Msg) : Bool := m.stop == stop && (match m.kind with | .fill false _ | .push _ => true | _ => false)
  let held := d.cache.l1.filter fun e => e.1 / 512 == stop.val && !e.2.excl
  let flying := d.cache.toL1.filter mine
  let owned := d.cache.tally.filter fun t => t.2.excl && t.2.owner == stop
  let d := held.foldl (fun e x => e.dropHolder x.2.addr x.2.host) d
  let d := flying.foldl (fun e m => e.dropHolder m.line m.host) d
  let d := owned.foldl (fun e t => e.revokeLine t.2.addr t.2.host) d
  d.onCache fun u => { u with
    l1 := u.l1.filter fun e => e.1 / 512 != stop.val || e.2.excl,
    toL1 := u.toL1.filter fun m => !mine m && !(m.stop == stop && (match m.kind with | .bad _ | .reply .. => true | _ => false)),
    misses := u.misses.filter fun m => m.stop != stop,
    ring := u.ring.filter fun r => !(r.stop == stop && r.op == .fill) }

/-! ### Sweeps and whole-cache actions (R341, R342) -/

/-- Requests tagged `key` wait while its sweep is pending (R341). -/
def Die.sweeping (d : Die) (key : Nat) : Bool := d.cache.sweeps.contains key

/-- Drop every device line with the key tag, also in locked ways, without write-back, and invalidate its L1 copies. -/
def Die.sweepKey (d : Die) (key : Nat) : Die :=
  let mine (c : CLine) : Bool := !c.host && c.key == key
  let lines := (d.cache.tally.filter fun t => !t.2.host && t.2.key == key).map (·.2.addr)
  let d := lines.foldl (fun e a => if e.invPending a false then e else (e.broadcast a false .none).2) d
  d.onCache fun u => { u with
    lines := u.lines.filter fun e => !mine e.2,
    hay := (u.hay.map fun e => (e.1, e.2.filter fun c => !mine c)).filter fun e => !e.2.isEmpty }

/-- Write back every dirty sector of the arrays and haylofts, including locked ways (R342). -/
def Die.writeBackAll (d : Die) : Die :=
  let d := d.cache.lines.foldl (fun e x => e.writeBack x.2) d
  let d := d.cache.hay.foldl (fun e x => x.2.foldl (fun e c => e.writeBack c) e) d
  d.onCache fun u => { u with
    lines := u.lines.map fun e => (e.1, { e.2 with dirty := 0 }),
    hay := u.hay.map fun e => (e.1, e.2.map fun c => { c with dirty := 0 }) }

/-- The cache as die reset leaves it: empty (R319, R334, R492). -/
def Die.cacheReset (d : Die) : Die := { d with cache := { sweeps := d.cache.sweeps, nextInv := d.cache.nextInv } }

end Sys2Proof.Machine
end

