-- ==== Sys2Proof/Machine/Routes.lean ====
section
/-! DEFINITION. Messages that leave the die (spec 13): routes, port authority, credits, and the start of an operation at another die. -/

namespace Sys2Proof.Machine

/-- This die's place (R26, R546). -/
def Die.here (d : Die) : Place := { pkg := d.pkgId.getD 0, die := d.dieId.getD 0 }

def Die.epoch (d : Die) : W16 := BitVec.ofNat 16 (d.get TICK_EPOCH_EPOCH)

def Die.onPorts (d : Die) (f : PortUnit → PortUnit) : Die := { d with ports := f d.ports }

/-! ### Port state -/

def Die.portUp (d : Die) : LinkPort → Bool
  | .peer n => d.get (PEER_STATE_STATE n.val) == 2
  | .opt n => d.get (OPT_STATE_STATE n.val) == 4

def Die.credits (d : Die) : LinkPort → Credits
  | .peer n => (tblGet (fun _ => ({} : PeerPort)) d.ports.peer n.val).credits
  | .opt n => (tblGet (fun _ => ({} : OptPort)) d.ports.opt n.val).credits

def Die.peerPort (d : Die) (n : PortIx) : PeerPort := tblGet (fun _ => ({} : PeerPort)) d.ports.peer n.val
def Die.setPeer (d : Die) (n : PortIx) (p : PeerPort) : Die := d.onPorts fun u => { u with peer := tblPut (fun _ => ({} : PeerPort)) u.peer n.val p }
def Die.optPort (d : Die) (n : OptIx) : OptPort := tblGet (fun _ => ({} : OptPort)) d.ports.opt n.val
def Die.setOpt (d : Die) (n : OptIx) (p : OptPort) : Die := d.onPorts fun u => { u with opt := tblPut (fun _ => ({} : OptPort)) u.opt n.val p }

def Die.setCredits (d : Die) (c : Credits) : LinkPort → Die
  | .peer n => d.setPeer n { d.peerPort n with credits := c }
  | .opt n => d.setOpt n { d.optPort n with credits := c }

/-- Number of a port in the error registers: 1 to 4 peer, 5 and 6 optical. -/
def portNo : LinkPort → Nat
  | .peer n => 1 + n.val
  | .opt n => 5 + n.val

/-- Source index of SIGNAL messages from a port (table before R255). -/
def portSource : LinkPort → Nat
  | .peer n => 50 + n.val
  | .opt n => 54 + n.val

/-! ### Routes (R429, R447) -/

/-- First hop towards another die of the package. -/
def Die.route (d : Die) (die : DieIx) : Option PortIx :=
  let e := sub (d.get PEER_ROUTE_ROUTE) (3 * die.val) 3
  if sub e 2 1 == 1 then some ⟨e % 4, Nat.mod_lt _ (by decide)⟩ else none

/-- Port by which a message to another place leaves, if there is one. -/
def Die.portFor (d : Die) (dst : Place) : Option LinkPort :=
  if dst.pkg == d.here.pkg then (d.route dst.die).map .peer
  else
    let up0 := d.get (OPT_STATE_STATE 0) == 4
    let up1 := d.get (OPT_STATE_STATE 1) == 4
    let want := (dst.pkg.val + dst.die.val) % 2
    -- the port towards a destination changes only while nothing towards it is outstanding
    match d.ports.ops.find? fun o => o.dst == dst && o.reply.isNone && (match o.port with | .opt _ => d.portUp o.port | _ => false) with
    | some o => some o.port
    | none =>
      if up0 && up1 then some (.opt ⟨want, by omega⟩)
      else if up0 then some (.opt 0) else if up1 then some (.opt 1) else none

/-! ### Authority (R434 to R437) -/

def Die.authClass (d : Die) (c : Nat) : LinkPort → Bool
  | .peer n => maskBit (BitVec.ofNat 16 (d.get (PEER_AUTH_CLASS_CLASS n.val))) c
  | .opt n => maskBit (BitVec.ofNat 16 (d.get (OPT_AUTH_CLASS_CLASS n.val))) c && decide (c < 8)

def Die.authPart (d : Die) (p : Nat) : LinkPort → Bool
  | .peer n => maskBit (BitVec.ofNat 16 (d.get (PEER_AUTH_PART_PART n.val))) p
  | .opt n => maskBit (BitVec.ofNat 16 (d.get (OPT_AUTH_PART_PART n.val))) p

def Die.authGroup (d : Die) (w : Nat) : LinkPort → Bool
  | .peer n => maskBit (BitVec.ofNat 32 (d.get (PEER_AUTH_WGROUP_WGROUP n.val))) (w / 32)
  | .opt n => maskBit (BitVec.ofNat 32 (d.get (OPT_AUTH_WGROUP_WGROUP n.val))) (w / 32)

/-- A message dropped without an answer is counted (R431, R436, R451); drops in a tick can quarantine the port. -/
def Die.gateDrop (d : Die) (port : LinkPort) (cls : Nat) : Die :=
  let d := d.count (GATE_DROP_COUNT (cls % 16)) 1
  match port with
  | .opt n => d.setOpt n { d.optPort n with drops := (d.optPort n).drops + 1 }
  | .peer _ => d

/-! ### Sending (R449, R450) -/

/-- Length of a message in bytes, header included (tables of R450 and R553). -/
def msgBytes : FabMsg → Nat
  | .tick .. | .ack .. | .barrier .. => 44
  | .winWrite m => 24 + m.data.length
  | .winRead _ => 24
  | .response m => 24 + m.data.length
  | .signal _ => 32
  | .partial_ m => 32 + 4 * m.vals.length
  | .error _ => 28
  | .mgmt m => (match m.body with | .modeForward _ recs _ => 48 + 16 * recs.length | .hdmMirror _ => 64 | _ => 24)
  | .tier .. => 24
  | .undef .. => 64

def units (bytes : Nat) : Nat := (bytes + 63) / 64

/-- The data of a message is outside the bounds of its header (R451): 1 to 128 bytes of window data, at most 128 of a
response, 1 to 112 elements. -/
def badLength : FabMsg → Bool
  | .winWrite m => m.data.isEmpty || decide (128 < m.data.length)
  | .winRead m => m.n == 0 || decide (128 < m.n)
  | .response m => decide (128 < m.data.length)
  | .partial_ m => m.vals.isEmpty || decide (112 < m.vals.length)
  | _ => false

/-- A header with what R451 says of the message's length. -/
def judged (h : MsgHead) (m : FabMsg) : MsgHead := { h with bad := h.bad || badLength m }

/-- Tag of a message that starts an operation. -/
def msgTag : FabMsg → Option W32
  | .winWrite x => some x.head.tag
  | .winRead x => some x.head.tag
  | .signal x => some x.head.tag
  | .partial_ x => some x.head.tag
  | .tier h _ => some h.tag
  | .mgmt x => some x.head.tag
  | _ => none

/-- The partition under which the model keeps messages that another die originated: none of this die's (R471). -/
def otherPart : Nat := 16

/-- A message with the sender's epoch of the moment (R79). -/
def stamped (e : W16) : FabMsg → FabMsg
  | .tick dst _ m => .tick dst e m
  | .ack dst a => .ack dst { a with epoch := e }
  | .barrier m => .barrier { m with head := { m.head with epoch := e } }
  | .winWrite m => .winWrite { m with head := { m.head with epoch := e } }
  | .winRead m => .winRead { m with head := { m.head with epoch := e } }
  | .response m => .response { m with head := { m.head with epoch := e } }
  | .signal m => .signal { m with head := { m.head with epoch := e } }
  | .partial_ m => .partial_ { m with head := { m.head with epoch := e } }
  | .error m => .error { m with head := { m.head with epoch := e } }
  | .mgmt m => .mgmt { m with head := { m.head with epoch := e } }
  | .tier h a => .tier { h with epoch := e } a
  | .undef dst c => .undef dst c

/-- The class whose freed units the next flit returns: in ascending class code, in turn (R450). -/
def nextReturn (c : Credits) (turn : Nat) : Option Nat := ((List.range 8).map fun i => (turn + i) % 8).find? fun k => c.freed.getD k 0 != 0

/-- A flit of a secured Nivik link leaves (R445, R450, R454): its sequence number, a credit return and the phase of its key. -/
def Die.flit (n : OptIx) (d : Die) : Die :=
  let p := d.optPort n
  match p.session with
  | none => d
  | some s =>
    let k := nextReturn p.credits p.turn
    let credit := k.map fun i => (i, min (p.credits.freed.getD i 0) 4095)
    let c := match credit with
      | some (i, u) => { p.credits with freed := p.credits.freed.set i (p.credits.freed.getD i 0 - u) }
      | none => p.credits
    (d.setOpt n { p with session := some { s with txSeq := s.txSeq + 1 }, credits := c, turn := match k with | some i => i + 1 | none => p.turn }).emit
      (.flit n (s.txSeq % 2 ^ 32) credit s.txPhase)

/-- A LINK_MANAGEMENT message leaves on a port. -/
def Die.sayOn (d : Die) (port : LinkPort) (o : Out) : Die := (match port with | .opt n => d.flit n | .peer _ => d).emit o

/-- A message leaves on a port: its units are spent, and it is metered (resources 3 and 4, classes 2 to 6, R471). A message of this die's own
carries the epoch in force when it leaves (R79). -/
def Die.leave (d : Die) (port : LinkPort) (part : Nat) (m : FabMsg) : Die :=
  let m := if part == otherPart then m else stamped d.epoch m
  let c := d.credits port
  let n := units (msgBytes m)
  let d := d.setCredits { c with held := c.held.set m.cls ((c.held.getD m.cls 0) - n) } port
  let d := if 2 ≤ m.cls && m.cls ≤ 6 then d.useTokens part (match port with | .peer _ => 3 | .opt _ => 4) (msgBytes m) else d
  let d := match (if part == otherPart then none else msgTag m) with
    | some t => d.onPorts fun u => { u with ops := u.ops.map fun (o : RemoteOp) => if o.tag == t && o.port == port && o.reply.isNone then { o with sentTick := d.tick.count } else o }
    | none => d
  d.sayOn port (.msg port m)

/-- Plan offset of a partition. -/
def Die.slip (d : Die) (p : Nat) : Nat := d.get (PLAN_OFFSET_OFFSET p)

/-- Plan tick of a partition at a wall tick (R45). -/
def Die.planNow (d : Die) (p : Nat) : Nat := d.tick.now - d.slip p

/-- Partials cross ports only in the window ticks of their partition (R187). -/
def Die.reduceWindow (d : Die) (p : Nat) : Bool :=
  let period := d.get (REDUCE_WIN_PERIOD p)
  period == 0 || decide ((((d.planNow p : Int) - d.get (REDUCE_WIN_PHASE p)) % period).toNat < d.get (REDUCE_WIN_LENGTH p))

/-- The message may leave now: enough units of its class, its bucket allows it, the tick runs for classes 2 to 6, no hold
tick and no reset of the partition keeps it back (R39, R72, R450, R473, R483). -/
def Die.mayLeave (d : Die) (port : LinkPort) (part : Nat) (m : FabMsg) : Bool :=
  let data := decide (2 ≤ m.cls) && decide (m.cls ≤ 6)
  d.portUp port && decide (units (msgBytes m) ≤ (d.credits port).held.getD m.cls 0)
    && (!data || d.bit TICK_CTRL_RUN) && (m.cls == 4 || decide (m.cls < 2) || !d.tick.holdTick && (m.cls == 7 || m.cls == 8 || part == otherPart || !d.bit (PART_CTRL_RESETTING part)))
    && (m.cls != 6 || part == otherPart || d.reduceWindow part) && (decide (m.cls < 2) || decide (6 < m.cls) || d.mayUse part (match port with | .peer _ => 3 | .opt _ => 4))

/-- Send a message, or keep it behind earlier ones of its port, partition and class until it may leave. -/
def Die.post (d : Die) (port : LinkPort) (part : Nat) (m : FabMsg) : Die :=
  let behind := d.ports.outq.any fun q => q.1 == port && q.2.1 == part && q.2.2.cls == m.cls
  if !behind && d.mayLeave port part m then d.leave port part m
  else d.onPorts fun u => { u with outq := u.outq ++ [(port, part, m)] }

/-- Let waiting messages leave in order. -/
def Die.pump (d : Die) : Die :=
  d.ports.outq.foldl (fun e q => e.post q.1 q.2.1 q.2.2) (d.onPorts fun u => { u with outq := [] })

/-! ### Operations at other dies (R444) -/

/-- The die has been removed from its tick domain (R67, R68). -/
def Die.removed (d : Die) (x : Place) : Bool :=
  if x.pkg == d.here.pkg then maskBit d.tick.removedMask x.die.val else d.tick.removedPkgs.contains x.pkg

/-- Start an operation at another die: LINK_LOST without a route or towards a removed die (R68, R444), NO_AUTHORITY when the port's mask forbids it (R437). -/
def Die.remote (d : Die) (who : Asker) (part : Nat) (dst : Place) (window : Option WinIx) (read : Option (Nat × Nat)) (aperture : Bool)
    (mk : MsgHead → FabMsg) : Option Status × Die :=
  match (if d.removed dst then none else d.portFor dst) with
  | none => (some .linkLost, d)
  | some port =>
    let tag := BitVec.ofNat 32 d.ports.nextTag
    let head : MsgHead := { port := port, src := d.here, dst := dst, epoch := d.epoch, part := ⟨part % 16, Nat.mod_lt _ (by decide)⟩, tag := tag, window := window }
    let m := mk head
    if !d.authClass m.cls port || !d.authPart part port then (some .noAuthority, d)
    else
      let op : RemoteOp := { tag := tag, req := who.req, id := who.id, part := part, dst := dst, port := port, sentTick := d.tick.count, read := read, aperture := aperture, reply := none }
      (none, (d.onPorts fun u => { u with nextTag := u.nextTag + 1, ops := u.ops ++ [op] }).post port part m)

end Sys2Proof.Machine
end

