-- ==== Sys2Proof/Machine/Homes.lean ====
section
/-! DEFINITION. Requests at their home slices (R311 to R334): acceptance, MSHRs, near and far atomics, replies, and what the L1s do with fills,
invalidations and revokes. -/

namespace Sys2Proof.Machine

/-- Result of an atomic on the old value of its word (table of scalar instructions). -/
def amoNew (op : AmoOp) (w : Nat) (old cmp new : Nat) : Nat :=
  match op with
  | .add => (old + new) % 2 ^ (8 * w)
  | .swap => new % 2 ^ (8 * w)
  | .cas => if old == cmp % 2 ^ (8 * w) then new % 2 ^ (8 * w) else old

/-! ### Answers -/

def Die.onOp (d : Die) (c : CoreIx) (id : Nat) (f : CoreOpEntry → CoreOpEntry) : Die :=
  d.onCore c fun k => { k with ops := listUpd (fun o => o.id == id) f k.ops }

/-- The status with which a core's access ends its slice: a denial is also recorded as CORE_FAULT.CAUSE 12 (R94, R579). -/
def Die.coreAccessFails (d : Die) (c : CoreIx) (pc : Nat) (st : Status) : Die :=
  if !(d.core c).going then d else if st == .translationDenied then d.coreFault c 12 pc st else d.stopSlice c st

/-- Offset of the instruction that the first outstanding access of a kind belongs to. -/
def Core.pcOf (k : Core) (p : CoreOpEntry → Bool) : Nat := match k.ops.find? p with | some o => o.pc | none => k.pc

/-- The core stands at a SIGNAL whose entry is one of these (R257). -/
def Core.signals (k : Core) (p : CoreOpEntry → Bool) : Bool :=
  match k.wait with
  | some (.signal id) => k.ops.any fun o => o.id == id && p o
  | _ => false

/-- Forget outstanding accesses of a core and stop its slice; a SIGNAL refused by its object's owner check is CORE_FAULT.CAUSE 13 (R107, R257,
R579). -/
def Die.coreDrops (d : Die) (c : CoreIx) (p : CoreOpEntry → Bool) (st : Status) : Die :=
  let k := d.core c
  let e := d.onCore c fun k => { k with ops := k.ops.filter fun o => !p o }
  (if k.signals p && st == .noAuthority && k.going then e.coreFault c 13 (k.pcOf p) st else e.coreAccessFails c (k.pcOf p) st).settle c

/-- A read's bytes or an atomic's old value reach a core. -/
def Die.answer (d : Die) (who : Asker) (bs : List Byte) : Die :=
  match who.req with
  | .core c => d.onOp c who.id fun o => { o with value := some bs }
  | _ => d

/-- A core's write is acknowledged (R273). -/
def Die.ackAsker (d : Die) (who : Asker) : Die :=
  match who.req with
  | .core c => d.onOp c who.id fun o => { o with acked := true }
  | _ => d

def HomeReq.host (r : HomeReq) : Bool := r.space == .host

/-- The bytes a request is about, and whether it writes them. -/
def HomeReq.span (r : HomeReq) : Nat × Nat × Bool :=
  match r.op with
  | .read a n => (a, n, false)
  | .write a bs | .result a bs => (a, bs.length, true)
  | .amo _ a n _ _ _ => (a, n, true)
  | .fill | .evict | .release | .prefetch => (r.line, 0, false)

/-- A slice answers a request: to a core by a message on the ring, behind what the slice has sent to that stop before (R307); another requester finds the
answer of a read at its next try, and a write's failure with its errors. -/
def Die.reply (d : Die) (r : HomeReq) (st : Status) (data : List Byte) : Die :=
  let (a, n, w) := r.span
  let keep (d : Die) : Die := d.onCache fun u => { u with replies := u.replies ++ [{ who := r.who, addr := a, n := n, write := w, st := st, data := data }] }
  match r.who.req with
  | .core c => if (d.core c).ops.any fun o => o.id == r.who.id then d.tellL1 r.stop r.line r.host (.reply r.who st (if w && data.isEmpty then none else some data)) else d
  | .reg => d
  | .win _ | .bar _ => keep d
  | _ =>
    if !w then keep d
    else if st == .ok then d.noteReady
    else (d.onCache fun u => { u with lost := u.lost ++ [(r.who, r.line, st)] }).noteReady

/-- A request ends with an error: an L1's miss by a message of its own. -/
def Die.fails (d : Die) (r : HomeReq) (st : Status) : Die :=
  match r.op with
  | .fill | .amo _ _ _ _ _ (some true) => d.tellL1 r.stop r.line r.host (.bad st)
  | _ => d.reply r st []

/-- A request that is not a core's ends with an error outside its slice (R410): the requester finds the status at its next try. -/
def Die.failAsker (d : Die) (who : Asker) (line : Nat) (st : Status) : Die :=
  match who.req with
  | .core c => d.coreDrops c (fun o => o.id == who.id) st
  | _ => d.onCache fun u => { u with lost := u.lost ++ [(who, line, st)] }

/-! ### Requests to the host (R399, R408 table) -/

/-- A CXL.cache request (R399, R409): for an MSHR, or for another die that reads a tier line (R385). -/
def Die.sendCxlFor (d : Die) (mshr : Bool) (tier : Option MsgHead) (kind : CxlKind) (addr : Nat) (data : List Byte) (r : HomeReq) : Die :=
  let tag := d.host.nextTag
  let op : CxlOp := { tag := tag, kind := kind, addr := addr, slice := homeSlice true addr, mshr := mshr, who := r.who, part := r.part, dva := r.dva, tier := tier }
  let d := { d with host := { d.host with nextTag := tag + 1, cxl := d.host.cxl ++ [op] } }
  d.emit (.cxl tag kind addr data)

/-- A CXL.cache request for a request at a home, whose MSHR waits. -/
def Die.sendCxl (d : Die) (kind : CxlKind) (addr : Nat) (data : List Byte) (r : HomeReq) : Die := d.sendCxlFor true none kind addr data r

/-- Drop the slice's own copy of a line. -/
def Die.dropCopy (d : Die) (line : Nat) (host : Bool) : Die :=
  let slice := homeSlice host line
  let d := match d.findWay slice line host with | some w => d.dropCline (wayKey slice (setOf line) w) | none => d
  d.setHay slice ((d.hay slice).filter fun c => !(c.addr == line && c.host == host))

/-- Start the read of a host line that its home slice does not hold: by the own host port, or by that of the die of a tier window (R385, R386). -/
def Die.askHost (d : Die) (r : HomeReq) : Option Status × Die :=
  match r.tier with
  | none => (none, d.sendCxl .rdShared r.line [] r)
  | some die =>
    if die == d.here.die then (if d.host.trained then (none, d.sendCxl .rdCurr r.line [] r) else (some .linkLost, d))
    else
      let tag := BitVec.ofNat 32 d.ports.nextTag
      match d.remote { req := .reg, id := 0 } r.part { pkg := d.here.pkg, die := die } none (some (r.line, 128)) false fun h => .tier h r.line with
      | (none, d) => (none, d.onPorts fun u => { u with tierReads := u.tierReads ++ [(tag, r.who, r.line)] })
      | (some st, d) => (some st, d)

/-! ### Serving a request -/

/-- What came of a request: served, not acceptable now, or waiting in an MSHR. -/
inductive Perf where
  | done (d : Die)
  | stall (d : Die)
  | park (d : Die) (why : MshrWait)

/-- All needed sectors of a device line are valid here. -/
def Die.hasSectors (d : Die) (line key : Nat) (mask : BitVec 4) : Bool :=
  let slice := homeSlice false line
  match d.findWay slice line false with
  | some w => (match d.cline (wayKey slice (setOf line) w) with | some c => c.key == key && c.valid &&& mask == mask | none => false)
  | none => (d.hay slice).any fun c => c.addr == line && !c.host && c.key == key && c.valid &&& mask == mask

/-- Some sectors that a write at `a` of `n` bytes covers only in part. -/
def partMask (line a n : Nat) : BitVec 4 :=
  BitVec.ofNat 4 (((List.range 4).filter fun i =>
    let lo := max a (line + 32 * i)
    let hi := min (a + n) (line + 32 * i + 32)
    decide (lo < hi) && decide (hi - lo < 32)).foldl (fun m i => m + 2 ^ i) 0)

/-- Page of a device address is in shared bias (R362). -/
def Die.sharedBias (d : Die) (a : Nat) : Bool := tblGet (fun _ => false) d.mem.shared (a / 65536)

/-- Host physical address of a line of this die's device memory: the inverse of R402 over the committed decoders. -/
def Die.hostAddrOf (d : Die) (a : Nat) : Nat :=
  let die := match d.dieId with | some x => x.val | none => 0
  let hits := d.host.hdm.filter fun h => h.committed && h.ig != 0
  match hits with
  | [] => a
  | h :: t =>
    let pick := if die < h.iw || t.isEmpty then h else t.headD h
    let first := if die < h.iw || t.isEmpty then die else die - h.iw
    pick.base + ((a / pick.ig) * pick.iw + first) * pick.ig + a % pick.ig

/-- What the slice asks the host before it serves a request for a device line in shared bias that the die does not own: ownership for a write, the data for
a read that misses (R364). -/
def Die.biasAsk (d : Die) (r : HomeReq) : Option CxlKind :=
  if d.sharedBias r.line && !d.cache.owned.contains r.line then
    if r.span.2.2 then some .rdOwnNoData
    else if r.space == .dev && d.hasSectors r.line r.key (match r.op with | .read a n => sectorMask (a - r.line) n | _ => 15) then none else some .rdShared
  else none

/-- The line leaves the slice for the controller's atomic unit, its dirty sectors written back (R332). -/
def Die.giveUpLine (d : Die) (r : HomeReq) : Die :=
  match d.locate r.slice r.line false r.key with
  | (some w, d) =>
    (match d.cline (wayKey r.slice (setOf r.line) w) with
     | some c => (d.writeBack c).dropCline (wayKey r.slice (setOf r.line) w)
     | none => d)
  | (none, d) => d

/-- Perform a request to an SHR line at the controller, in acceptance order (table before R323). -/
def Die.performShr (d : Die) (r : HomeReq) (filled : Bool) : Perf :=
  if d.sweeping r.key then .stall d
  else match (if filled then none else d.biasAsk r) with
  | some kind => .park (d.sendCxl kind (d.hostAddrOf r.line) [] r) .host
  | none =>
    let d := d.giveUpLine r
    match r.op with
    | .read a n =>
      (match d.hbmRead r.key a n with
       | (some bs, d) => .done (d.reply r .ok bs)
       | (none, d) => .done (d.fails r .eccUncorrectable))
    | .write a bs =>
      (match d.hbmWrite r.key a bs with
       | (true, d) => .done (d.reply r .ok [])
       | (false, d) => .done (d.fails r .eccUncorrectable))
    | .amo .. => .park (d.count AMO_COUNT_FAR 1) .far
    | _ => .done d

/-- Give a host line to its requester (R316); `hit` is what a hit does to the slice. -/
def Die.giveHost (d : Die) (r : HomeReq) (data : LineData) (hit : Die → Die) : Perf :=
  match r.op with
  | .fill =>
    if d.invPending r.line true then .park d .inval
    else
      (match d.addHolder r.line true false 0 r.stop with
       | (true, d) => .done ((hit d).tellL1 r.stop r.line true (.fill false data))
       | (false, d) => .stall d)
  | .read a n => .done ((hit d).reply r .ok (lineBytes data (a - r.line) n))
  | _ => .done (d.reply r .ok [])

/-- A far atomic of the host's memory is at work in a slice (R333). -/
def Die.unitBusy (d : Die) (slice : SliceIx) : Bool :=
  d.cache.mshrs.any fun m => m.slice == slice && (match m.why with | .hostAtomic | .hostWriteback _ => true | _ => false)

/-- Perform a request to a host line (R316, R323, R333); `filled` says that the line has just come for it. A write or an atomic first drops every copy on
the die, then goes to the host: no other request for the line is served until the host has completed it. -/
def Die.performHost (d : Die) (r : HomeReq) (filled : Bool) : Perf :=
  match r.op with
  | .fill | .read .. | .prefetch =>
    (match d.hostLine r.line with
     | (some (w, data), d) =>
       d.giveHost r data fun e => if filled then e else (e.countWrap (DC_HITS_HITS r.slice.val) 1).touch r.slice (setOf r.line) w false
     | (none, d) =>
       match (d.countWrap (DC_MISSES_MISSES r.slice.val) 1).askHost r with
       | (none, d) => .park d .host
       | (some st, d) => .done (d.fails r st))
  | .write a bs =>
    let d := (d.updateOwn r.stop r.line true a bs).dropCopy r.line true
    if (d.tallyOf r.line true).isSome then .park (if d.invPending r.line true then d else (d.broadcast r.line true .none).2) .inval
    else .park (d.sendCxl .wrInv a bs r) .host
  | .amo .. =>
    let d := d.dropCopy r.line true
    if (d.tallyOf r.line true).isSome then .park (if d.invPending r.line true then d else (d.broadcast r.line true .none).2) .inval
    else if d.unitBusy r.slice then .park d .unit
    else .park ((d.count AMO_COUNT_FAR 1).sendCxl .rdOwn r.line [] r) .hostAtomic
  | _ => .done d

/-- A requester that waits in an MSHR for memory until MEMORY_FILL_RETURN: a core. For the others memory answers at once. -/
def HomeReq.slow (r : HomeReq) : Bool := match r.who.req with | .core _ => true | _ => false

/-- A copy of the line may be given out in the tally under the request's key: no invalidation of it is under way, and its entry is of that key (R321,
R340). -/
def Die.mayHold (d : Die) (r : HomeReq) : Bool × Die :=
  if d.invPending r.line false then (false, d)
  else if d.otherKey r.line r.key then (false, (d.broadcast r.line false .none).2)
  else (true, d)

/-- Perform a write to a device line: acknowledged once every copy elsewhere is gone (R273, R321); a core hint sends the line on (R335). -/
def Die.devWrite (d : Die) (r : HomeReq) (a : Nat) (bs : List Byte) : Die :=
  let how : Alloc := if r.keep then .keep else match r.who.req with | .bar _ => .never | _ => .usual
  match d.homePerformWrite r.stop.val a r.key bs r.once how with
  | (false, d) => d.fails r .eccUncorrectable
  | (true, d) =>
    let d := d.updateOwn r.stop r.line false a bs
    let d := match d.broadcast r.line false (.ack r) with
      | (true, d) => d
      | (false, d) => d.reply r .ok []
    match r.push with
    | some c => d.hintPush { line := r.line, host := false, key := r.key, core := c }
    | none => d

/-- Read a device line for a requester: BAR4 takes memory's bytes without allocating (log entry 90). -/
def Die.devRead (d : Die) (r : HomeReq) (a n : Nat) : Option (List Byte) × Die :=
  match r.who.req with
  | .bar _ =>
    (match d.locate r.slice r.line false r.key with
     | (some _, d) => d.homeRead a n r.key false
     | (none, d) => d.hbmRead r.key a n)
  | _ => d.homeRead a n r.key r.once

/-- Grant a line in E (R330): every copy has been invalidated. -/
def Die.grant (d : Die) (r : HomeReq) (filled : Bool) : Perf :=
  if !filled && !d.hasSectors r.line r.key 15 then .park d .memory
  else
    match d.addHolder r.line false true r.key r.stop with
    | (false, d) => .stall d
    | (true, d) =>
      match d.homeLine r.line r.key r.once false with
      | (none, d) => .done ((d.dropHolder r.line false).fails r .eccUncorrectable)
      | (some data, d) => .done ((d.count AMO_COUNT_NEAR 1).tellL1 r.stop r.line false (.fill true data))

/-- Perform a request to a device line; `filled` says that memory or the host has just answered for it. -/
def Die.performDev (d : Die) (r : HomeReq) (filled : Bool) : Perf :=
  if d.sweeping r.key then .stall d
  else
    let ready := filled || !r.slow
    match (if filled then none else d.biasAsk r) with
    | some kind => .park (d.sendCxl kind (d.hostAddrOf r.line) [] r) .host
    | none =>
      match r.op with
      | .fill =>
        if !ready && !d.hasSectors r.line r.key 15 then .park d .memory
        else
          (match d.mayHold r with
           | (false, d) => .park d .inval
           | (true, d) =>
             match d.addHolder r.line false false r.key r.stop with
             | (false, d) => .stall d
             | (true, d) =>
               match d.homeLine r.line r.key r.once true with
               | (none, d) => .done ((d.dropHolder r.line false).fails r .eccUncorrectable)
               | (some data, d) => .done (d.tellL1 r.stop r.line false (.fill false data)))
      | .read a n =>
        if !ready && !d.hasSectors r.line r.key (sectorMask (a - r.line) n) then .park d .memory
        else
          (match d.devRead r a n with
           | (some bs, d) => .done (d.reply r .ok bs)
           | (none, d) => .done (d.fails r .eccUncorrectable))
      | .write a bs =>
        let need := partMask r.line a bs.length
        if need != 0 && !ready && !d.hasSectors r.line r.key need then .park d .memory else .done (d.devWrite r a bs)
      | .amo _ _ _ _ _ near =>
        if (d.tallyOf r.line false).isSome then .park (if d.invPending r.line false then d else (d.broadcast r.line false .none).2) .inval
        else if near == some true then d.grant r ready
        else .park ((d.giveUpLine r).count AMO_COUNT_FAR 1) .far
      | .prefetch =>
        if d.hasSectors r.line r.key 15 then .done (d.reply r .ok [])
        else
          (match d.haveSectors r.line r.key 15 r.once false with
           | (.bad, d) => .done (d.fails r .eccUncorrectable)
           | (_, d) => .done (d.reply r .ok []))
      | _ => .done d

def Die.perform (d : Die) (r : HomeReq) (filled : Bool) : Perf :=
  match r.space with
  | .dev => d.performDev r filled
  | .shr => d.performShr r filled
  | .host => d.performHost r filled

def Die.addMshr (d : Die) (m : Mshr) : Die := d.onCache fun u => { u with mshrs := u.mshrs ++ [m] }

/-- An MSHR of a slice for these requests to one line. -/
def Die.parkIn (d : Die) (r : HomeReq) (rs : List HomeReq) (why : MshrWait) : Die :=
  d.addMshr { slice := r.slice, line := r.line, host := r.host, why := why, reqs := r :: rs }

/-- Serve an MSHR's requests in order (R313, R331): the first that must wait again keeps the rest behind it; a line
granted in E with requests behind it is revoked with the grant. -/
def Die.serve (filled : Bool) : List HomeReq → Die → Die
  | [], d => d
  | r :: rs, d =>
    match d.perform r filled with
    | .done d =>
      (match rs with
       | [] => d
       | q :: qs => if d.excl r.line r.host then (d.revokeLine r.line r.host).parkIn q qs .revoke else Die.serve (filled && !r.host) rs d)
    | .stall d => d.parkIn r rs .tally
    | .park d why => d.parkIn r rs why

/-- The requests of an MSHR are served. -/
def Die.serveMshr (d : Die) (filled : Bool) (m : Mshr) : Die := Die.serve filled m.reqs (d.dropMshr m.line m.host)

/-- Put a whole line into its slice; false where its set has no way to fill. -/
def Die.placeLine (d : Die) (m : Mshr) (key : Nat) (once dirty : Bool) (data : LineData) : Bool × Die :=
  let (w, d) := match d.locate m.slice m.line m.host key with
    | (some w, d) => (some w, d)
    | (none, d) => d.allocLine m.slice m.line m.host key once
  match w with
  | none => (false, d)
  | some w =>
    let k := wayKey m.slice (setOf m.line) w
    match d.cline k with
    | some c => (true, d.setCline k { c with valid := 15, dirty := if dirty then 15 else c.dirty, poison := 0, data := data })
    | none => (false, d)

/-- Serve reads of a host line straight from its data, which no way could take (R346). -/
def Die.serveFrom (data : LineData) : List HomeReq → Die → Die
  | [], d => d
  | r :: rs, d =>
    if r.span.2.2 then Die.serve false (r :: rs) d
    else match d.giveHost r data id with
      | .done d => Die.serveFrom data rs d
      | .stall d => d.parkIn r rs .tally
      | .park d why => d.parkIn r rs why

/-- A host line has come for an MSHR. -/
def Die.hostLineCame (d : Die) (m : Mshr) (once : Bool) (data : LineData) : Die :=
  match (d.dropMshr m.line m.host).placeLine m 0 once false data with
  | (true, d) => Die.serve true m.reqs d
  | (false, d) => Die.serveFrom data m.reqs d

/-- The answer for an MSHR does not come (R386, R410): its first request fails, with the reads of the same line behind it; the others are served. -/
def Die.failReads (st : Status) : List HomeReq → Die → Die
  | [], d => d
  | r :: rs, d => if r.span.2.2 then Die.serve false (r :: rs) d else Die.failReads st rs (d.fails r st)

def Die.failMshr (d : Die) (m : Mshr) (st : Status) : Die :=
  let d := d.dropMshr m.line m.host
  match m.reqs with
  | [] => d
  | r :: rs => if r.span.2.2 then Die.serve false rs (d.fails r st) else Die.failReads st (r :: rs) d

/-! ### What waits for a line or for the tally -/

/-- An invalidation has ended (R321, R338). -/
def Die.finishInv (d : Die) (v : InvPend) : Die :=
  match v.done with
  | .none => if v.host then d.hostGone v.line else d
  | .ack r => d.reply r .ok []
  | .snoop line held => d.emit (.snoopResponse line held)

/-- The invalidations of a line that have ended, in order: every acknowledgement has come, and the line's tally entry is gone (R321). -/
def Die.endInvs (line : Nat) (host : Bool) : Nat → Die → Die
  | 0, d => d
  | n + 1, d =>
    match d.cache.invs.find? fun v => v.line == line && v.host == host with
    | none => d
    | some v =>
      if v.left == 0 && (d.tallyOf line host).isNone then
        Die.endInvs line host n ((d.onCache fun u => { u with invs := u.invs.erase v }).finishInv v)
      else d

/-- The MSHR of a line goes on where it waited for an invalidation or a release that has come. -/
def Die.wakeLine (d : Die) (line : Nat) (host : Bool) : Die :=
  match d.mshrOf line host with
  | none => d
  | some m =>
    match m.why with
    | .inval => if d.invPending line host then d else d.serveMshr false m
    | .revoke => if d.excl line host then d else d.serveMshr false m
    | _ => d

/-- The MSHRs that wait for a tally entry, or for a sweep to end, try again. -/
def Die.retryTally (d : Die) : Die :=
  (d.cache.mshrs.filter fun m => m.why == .tally).foldl (fun e m => if e.cache.mshrs.contains m then e.serveMshr false m else e) d

/-- What an acknowledgement, a notice or a release of a line lets go on. -/
def Die.settleLine (d : Die) (line : Nat) (host : Bool) : Die :=
  ((Die.endInvs line host (d.cache.invs.length + 1) d).wakeLine line host).retryTally.retryPushes

/-! ### Placement of atomics (R334) -/

def predIndex (line : Nat) : Nat := (line / 128 % 1024).xor (line / 131072 % 1024)

def Die.predOf (d : Die) (slice : SliceIx) (line : Nat) : BitVec 2 := tblGet (fun _ => 0#2) d.cache.pred (slice.val * 1024 + predIndex line)

/-- A request brings a copy of its line to its stop's L1. -/
def HomeReq.takesCopy (r : HomeReq) : Bool := match r.op with | .fill | .amo _ _ _ _ _ (some true) => true | _ => false

/-- Decide near or far for an atomic to a device line, and update its counter (R334). -/
def Die.place (d : Die) (r : HomeReq) : HomeReq × Die :=
  match r.op with
  | .amo op a n cmp new none =>
    if r.space != .dev then ({ r with op := .amo op a n cmp new (some false) }, d)
    else
      let v := d.predOf r.slice r.line
      let near := d.bit DC_CTRL_PRED_EN && decide (v.toNat < 2)
      let queued := match d.mshrOf r.line false with | some m => m.reqs | none => []
      let other := (match d.tallyOf r.line false with
        | some (_, t) => if t.excl then t.owner != r.stop else ((d.holders r.line false).any fun s => s != r.stop)
        | none => false) || queued.any fun q => q.takesCopy && q.stop != r.stop
      let far := queued.any fun q => match q.op with | .amo _ _ _ _ _ (some false) => true | _ => false
      let up := if near then other else far
      let v := if up then (if v == 3 then v else v + 1) else (if v == 0 then v else v - 1)
      ({ r with op := .amo op a n cmp new (some near) },
       d.onCache fun u => { u with pred := tblPut (fun _ => 0#2) u.pred (r.slice.val * 1024 + predIndex r.line) v })
  | _ => (r, d)

/-! ### Acceptance (R311 to R314) -/

/-- A message about a copy that its L1 holds: it is taken whatever the slice waits for (R314, R331). -/
def HomeReq.isNote (r : HomeReq) : Bool := match r.op with | .evict | .result .. | .release => true | _ => false

/-- The oldest request of a stop to a slice. -/
def Die.frontReq (d : Die) (slice : SliceIx) (stop : Fin 64) : Option HomeReq :=
  d.cache.ring.find? fun r => r.slice == slice && r.stop == stop

def Die.popReq (d : Die) (r : HomeReq) : Die := d.onCache fun u => { u with ring := u.ring.erase r }

/-- The stop whose request the slice waits to accept (R314). -/
def Die.blockedBy (d : Die) (slice : SliceIx) : Option (Fin 64) :=
  match d.cache.blocked.find? fun b => b.1 == slice.val with
  | some b => (match d.frontReq slice b.2 with | some r => if r.isNote then none else some b.2 | none => none)
  | none => none

def Die.unblock (d : Die) (slice : SliceIx) : Die := d.onCache fun u => { u with blocked := u.blocked.filter fun b => b.1 != slice.val }

/-- The slice accepts nothing until the front request of a stop can be accepted. -/
def Die.block (d : Die) (slice : SliceIx) (stop : Fin 64) : Die :=
  (d.unblock slice).onCache fun u => { u with blocked := u.blocked ++ [(slice.val, stop)] }

/-- MSHRs of a slice in use, of 64. -/
def Die.mshrsUsed (d : Die) (slice : SliceIx) : Nat := (d.cache.mshrs.filter fun m => m.slice == slice).length

/-- The run of full-line writes of a request's stop, with this request (R324). -/
def Die.noteRun (d : Die) (r : HomeReq) : Die :=
  d.setRun r.slice r.stop.val (match r.op with | .write _ bs => if bs.length == 128 then d.runOf r.slice r.stop.val + 1 else 0 | _ => 0)

/-- Accept a request at its slice: served, or into its line's MSHR. False: it can be accepted neither at once nor into an MSHR, and the slice stops for it
(R313, R314). -/
def Die.takeIn (d : Die) (r : HomeReq) : Bool × Die :=
  let (r', e) := (d.noteRun r).place r
  let room := decide (d.mshrsUsed r.slice < 64)
  match d.mshrOf r.line r.host with
  | some m => if m.reqs.length < 9 then (true, e.onMshr r.line r.host fun m => { m with reqs := m.reqs ++ [r'] }) else (false, d)
  | none =>
    if d.excl r.line r.host then (if room then (true, (e.revokeLine r.line r.host).parkIn r' [] .revoke) else (false, d))
    else
      match e.perform r' false with
      | .done e => (true, e)
      | .park e why => if room then (true, e.parkIn r' [] why) else (false, d)
      | .stall _ => (match d.perform r' false with | .stall e => (false, e) | _ => (false, d))

/-- Accept the front request of a stop, unless the slice waits for another stop's. -/
def Die.acceptReq (d : Die) (r : HomeReq) : Bool × Die :=
  if (match d.blockedBy r.slice with | some s => s != r.stop | none => false) then (false, d)
  else
    match (d.popReq r).takeIn r with
    | (true, e) => (true, e.unblock r.slice)
    | (false, _) => (false, ((d.takeIn r).2).block r.slice r.stop)

/-- Take an eviction notice or a result (R316, R331); a release waits for its own command, and a result under a key that is being swept for the sweep
(R341). -/
def Die.takeNote (d : Die) (r : HomeReq) : Die :=
  match r.op with
  | .evict =>
    if d.excl r.line r.host then (d.popReq r).settleLine r.line r.host
    else
      let held := (d.tallyOf r.line r.host).isSome
      let d := (d.popReq r).dropHolder r.line r.host
      (if r.host && held && !d.invPending r.line true then d.hostGone r.line else d).settleLine r.line r.host
  | .result a bs =>
    if d.sweeping r.key then d
    else
      (match ((d.popReq r).noteRun r).homePerformWrite r.stop.val a r.key bs false .usual with
       | (true, d) => d.reply r .ok []
       | (false, d) => d.reply r .eccUncorrectable [])
  | _ => d

/-- The first message about a held copy that a stop has sent to a slice which waits for some request. -/
def Die.frontNote (d : Die) (slice : SliceIx) (stop : Fin 64) : Option HomeReq :=
  if (d.blockedBy slice).isSome then d.cache.ring.find? fun r => r.slice == slice && r.stop == stop && r.isNote else none

/-- HOME_REQUEST_ACCEPT (R311 to R314): the oldest request of a stop is accepted, or stays where it is and the slice waits for it; what the stop's L1 says of
its copies is taken all the same. -/
def opHomeRequestAccept (slice : SliceIx) (stop : Fin 64) (d : Die) : Die :=
  match d.frontReq slice stop with
  | none => d
  | some r =>
    if r.isNote then d.takeNote r
    else
      match d.acceptReq r with
      | (true, e) => e
      | (false, e) => (match e.frontNote slice stop with | some n => e.takeNote n | none => e)

/-- Send a request that is not a core's; it is accepted at once where its slice accepts it (R311, R314). -/
def Die.askHome (d : Die) (r : HomeReq) : Die :=
  let d := d.sendHome r
  if d.frontReq r.slice r.stop == some r then (d.acceptReq r).2 else d

/-- The requester's request for these bytes is still on the ring; it tries again when it is in front. -/
def Die.pushOn (d : Die) (who : Asker) (a n : Nat) (write : Bool) : Option Die :=
  match d.cache.ring.find? fun r => r.who == who && r.span == (a, n, write) with
  | none => none
  | some r => some (if d.frontReq r.slice r.stop == some r then (d.acceptReq r).2 else d)

/-- The requester's request for these bytes waits in an MSHR. -/
def Die.inMshr (d : Die) (who : Asker) (a n : Nat) (write : Bool) : Bool :=
  d.cache.mshrs.any fun m => m.reqs.any fun r => r.who == who && r.span == (a, n, write)

/-- Take a reply to a requester that is no core. -/
def Die.takeReplyTo (d : Die) (who : Asker) (a n : Nat) (write : Bool) : Option Reply × Die :=
  match d.cache.replies.find? fun x => x.who == who && x.addr == a && x.n == n && x.write == write with
  | some x => (some x, d.onCache fun u => { u with replies := u.replies.erase x })
  | none => (none, d)

/-- Requests of a requester that is gone are nobody's from now on: they take their course, and their answers are dropped. -/
def Die.forget (d : Die) (gone : HomeReq → Bool) : Die :=
  let f (r : HomeReq) : HomeReq := if gone r then { r with who := { req := .reg, id := 0 } } else r
  d.onCache fun u => { u with
    ring := u.ring.map f,
    mshrs := u.mshrs.map fun m => { m with reqs := m.reqs.map f },
    invs := u.invs.map fun v => match v.done with | .ack r => if gone r then { v with done := .none } else v | _ => v }

/-- Whether a request is one of these requesters', for `forget`. -/
def ofReq (p : Req → Bool) (r : HomeReq) : Bool := p r.who.req

/-! ### Commands of the homes -/

/-- MEMORY_FILL_RETURN (R313): memory has answered for a line; its requests are served in order. -/
def opMemoryFillReturn (line : Nat) (d : Die) : Die :=
  match d.mshrOf line false with
  | some m => if m.why == .memory then d.serveMshr true m else d
  | none => d

/-- RELEASE_RECEIVE (R331): the line's exclusive entry goes and its waiting requests are served. -/
def opReleaseReceive (slice : SliceIx) (stop : Fin 64) (d : Die) : Die :=
  let front : Option HomeReq := match d.frontReq slice stop with
    | some r => if r.isNote then some r else d.frontNote slice stop
    | none => none
  match front with
  | some r =>
    if r.op == .release then
      let d := d.popReq r
      let d := match d.tallyOf r.line r.host with
        | some (k, t) => if t.excl && t.owner == stop then d.dropTally k else d
        | none => d
      d.settleLine r.line r.host
    else d
  | none => d

/-- FAR_ATOMIC_RETURN (R332): the controller has performed the atomic; the old value returns and the line's other
requests are served in order. -/
def opFarAtomicReturn (line : Nat) (d : Die) : Die :=
  match d.mshrOf line false with
  | none => d
  | some m =>
    match m.why, m.reqs with
    | .far, r :: rs =>
      let d := d.dropMshr line false
      let d := match r.op with
        | .amo op a n cmp new _ =>
          (match d.hbmRead r.key a n with
           | (none, d) => d.fails r .eccUncorrectable
           | (some old, d) =>
             match d.hbmWrite r.key a (leBytes n (amoNew op n (leNat old) cmp.toNat new.toNat)) with
             | (true, d) => d.reply r .ok old
             | (false, d) => d.fails r .eccUncorrectable)
        | _ => d
      Die.serve false rs d
    | _, _ => d

/-! ### Commands of the L1s -/

def L1Kind.isReply : L1Kind → Bool
  | .reply .. => true
  | _ => false

/-- The oldest message to an L1, replies to its core's own requests apart. -/
def Die.frontL1 (d : Die) (stop : Fin 64) : Option L1Msg := d.cache.toL1.find? fun m => m.stop == stop && !m.kind.isReply
def Die.popL1 (d : Die) (m : L1Msg) : Die := d.onCache fun u => { u with toL1 := u.toL1.erase m }

/-- The reply to an access of a core that has reached it: no earlier message of its slice to the L1 is still on its way (R307, R308). -/
def Die.arrived (d : Die) (c : CoreIx) (id : Nat) : Option (L1Msg × Status × Option (List Byte)) :=
  let hit (m : L1Msg) : Option (L1Msg × Status × Option (List Byte)) :=
    match m.kind with
    | .reply who st data => if who == { req := .core c, id := id } then some (m, st, data) else none
    | _ => none
  match d.cache.toL1.findSome? hit with
  | none => none
  | some x =>
    if (d.cache.toL1.takeWhile fun m => m != x.1).any fun m => m.stop == x.1.stop && m.slice == x.1.slice && !m.kind.isReply then none else some x

/-- One acknowledgement of an invalidation. -/
def Die.ackInv (d : Die) (id : Nat) : Die :=
  match d.cache.invs.find? fun v => v.id == id with
  | none => d
  | some v => (d.onCache fun u => { u with invs := listUpd (fun x => x.id == id) (fun x => { x with left := x.left - 1 }) u.invs }).settleLine v.line v.host

/-- L1_INVALIDATION (R318): the copy is dropped at once and the invalidation acknowledged; a miss that waits for its
fill will use the fill and not install it. -/
def Die.l1Invalidation (d : Die) (stop : Fin 64) : Die :=
  match d.frontL1 stop with
  | some m =>
    (match m.kind with
     | .inval id =>
       let d := d.popL1 m
       let d := match d.l1Find stop m.line m.host with
         | some (k, _) => (d.l1Drop k).dropHolder m.line m.host
         | none => d
       let d := d.onCache fun u => { u with misses := u.misses.map fun x => if x.stop == stop && x.line == m.line && x.host == m.host then { x with killed := true } else x }
       d.ackInv id
     | _ => d)
  | none => d

def stopCore (stop : Fin 64) : Option CoreIx := if h : stop.val < 48 then some ⟨stop.val, h⟩ else none

/-- A near atomic on a line held in E: old value to the core, result to the home, whose acceptance acknowledges it (R330). -/
def Die.nearAmo (d : Die) (stop : Fin 64) (key : Nat) (k : Nat) (l : L1Line) (c : CoreIx) (o : CoreOpEntry) (pa : Nat) : L1Line × Die :=
  match o.acc with
  | .amo op cmp new =>
    let off := pa - l.addr
    let old := lineBytes l.data off o.bytes
    let new := leBytes o.bytes (amoNew op o.bytes (leNat old) cmp.toNat new.toNat)
    let l := { l with data := lineWrite l.data off new }
    let d := (d.l1Put k l).onOp c o.id fun o => { o with value := some old }
    (l, d.sendHome { stop := stop, slice := homeSlice l.host l.addr, line := l.addr, space := .dev, key := key, once := false,
                     op := .result pa new, who := { req := .core c, id := o.id } })
  | _ => (l, d)

/-- Loads of a core that wait for a line take their bytes from it. -/
def Die.serveLoads (d : Die) (c : CoreIx) (line : Nat) (host : Bool) (data : LineData) : Die :=
  d.onCore c fun k => { k with ops := k.ops.map fun o =>
    match o.line, o.acc with
    | some (h, pa), .read =>
      if h == host && lineOf pa == line && o.sent && !o.vol && o.value.isNone then { o with value := some (lineBytes data (pa - line) o.bytes) } else o
    | _, _ => o }

/-- The atomics of a core that wait for a line in E are performed on it (R330). -/
def Die.nearAmos (d : Die) (stop : Fin 64) (c : CoreIx) (k : Nat) (l : L1Line) : L1Line × Die :=
  (d.core c).ops.foldl (fun acc o =>
    match o.line, o.acc with
    | some (false, pa), .amo .. =>
      if lineOf pa == l.addr && o.sent && o.value.isNone then acc.2.nearAmo stop (d.core c).slicePart k acc.1 c o pa else acc
    | _, _ => acc) (l, d)

/-- L1_FILL (R316, R318): a fill or a push arrives at an L1. One that the L1 has no use for any more, or a second copy, is given back by a notice; a line in E
that finds no way is released behind the results of the atomics performed on it. -/
def opL1Fill (stop : Fin 64) (d : Die) : Die :=
  match d.frontL1 stop, stopCore stop with
  | some m, some c =>
    let miss := d.cache.misses.find? fun x => x.stop == stop && x.line == m.line && x.host == m.host
    let clear (e : Die) : Die := (e.popL1 m).onCache fun u => { u with misses := u.misses.filter fun x => !(x.stop == stop && x.line == m.line && x.host == m.host) }
    let keep (e : Die) (data : LineData) : Die := e.l1Install stop { addr := m.line, host := m.host, excl := false, revoked := false, data := data }
    (match m.kind with
     | .fill false data =>
       let d := (clear d).serveLoads c m.line m.host data
       if (match miss with | some x => x.killed | none => true) || (d.l1Find stop m.line m.host).isSome then d.sendEvict stop m.line m.host else keep d data
     | .fill true data =>
       let d := (clear d).serveLoads c m.line m.host data
       let d := match d.l1Find stop m.line m.host with | some (k, _) => d.l1Drop k | none => d
       let d := d.l1Install stop { addr := m.line, host := m.host, excl := true, revoked := false, data := data }
       (match d.l1Find stop m.line m.host with
        | some (k, l) => (d.nearAmos stop c k l).2
        | none =>
          -- performed on the line as it passes: its place in the table is the model's, and is emptied at once
          let k := l1Key 63 128 stop.val
          let l : L1Line := { addr := m.line, host := m.host, excl := true, revoked := true, data := data }
          (((d.nearAmos stop c k l).2).l1Drop k).l1Note stop m.line m.host .release)
     | .push data => if (d.l1Find stop m.line m.host).isSome then (d.popL1 m).sendEvict stop m.line m.host else keep (d.popL1 m) data
     | .bad st =>
       let d := clear d
       let hit (o : CoreOpEntry) : Bool := match o.line with | some (h, pa) => h == m.host && lineOf pa == m.line && o.sent && o.value.isNone && (match o.acc with | .write _ => false | _ => true) | none => false
       if (d.core c).ops.any hit then d.coreDrops c hit st else d
     | _ => d)
  | _, _ => d

/-- REVOKE (R330): the L1 marks its line; one that no longer holds it has released it already. -/
def opRevoke (stop : Fin 64) (d : Die) : Die :=
  match d.frontL1 stop with
  | some m =>
    (match m.kind with
     | .revoke =>
       let d := d.popL1 m
       (match d.l1Find stop m.line m.host with
        | some (k, l) => if l.excl then d.l1Put k { l with revoked := true } else d
        | none => d)
     | _ => d)
  | none => d

/-- EXCLUSIVE_RELEASE (R330): HOLD_MIN has passed (the command says so) and the home has accepted every result. -/
def opExclusiveRelease (stop : Fin 64) (line : Nat) (d : Die) : Die :=
  match d.l1Find stop line false with
  | some (k, l) =>
    let waiting := d.cache.ring.any fun r => r.stop == stop && r.line == line && (match r.op with | .result .. => true | _ => false)
    if l.excl && l.revoked && !waiting then (d.l1Drop k).l1Note stop line false .release else d
  | none => d

/-! ### Prefetch, hayloft, sweeps -/

/-- The request of a next-line prefetch, from the stop of its slice. -/
def Prefetch.req (p : Prefetch) : HomeReq :=
  { stop := ⟨49 + p.slice.val, by omega⟩, slice := p.slice, line := p.line, space := .dev, key := p.key, once := p.once, op := .prefetch, who := { req := .reg, id := 0 } }

/-- NEXT_LINE_PREFETCH (R325): a slice takes the prefetch in like a read of the whole line, or drops it: it holds the line, or has more than 48 MSHRs in use.
One that cannot be accepted waits (R314, R341). -/
def opNextLinePrefetch (slice : SliceIx) (d : Die) : Die :=
  match d.cache.prefetches.find? fun p => p.slice == slice with
  | none => d
  | some p =>
    let gone := d.onCache fun u => { u with prefetches := u.prefetches.erase p }
    if (d.findWay slice p.line false).isSome || ((d.hay slice).any fun c => c.addr == p.line && !c.host) || decide (48 < d.mshrsUsed slice) then gone
    else if (d.blockedBy slice).isSome then d
    else match gone.takeIn p.req with
      | (true, e) => e
      | (false, _) => d

/-- HAYLOFT_WRITEBACK (R327): the oldest dirty entry is written back and becomes clean. -/
def opHayloftWriteback (slice : SliceIx) (d : Die) : Die :=
  match (d.hay slice).find? fun c => c.dirty != 0 with
  | none => d
  | some c => (d.writeBack c).setHay slice (listUpd (fun x => x == c) (fun x => { x with dirty := 0 }) (d.hay slice))

/-- KEY_SWEEP (R341): every slice drops the partition's lines without write-back. -/
def opKeySweep (p : PartIx) (d : Die) : Die := if d.sweeping p.val then d.sweepKey p.val else d

/-- KEY_SWEEP_COMPLETE (R341): the oldest sweep ends once no L1 holds a line of its key; requests under the key go on. -/
def opKeySweepComplete (d : Die) : Die :=
  match d.cache.sweeps with
  | [] => d
  | p :: rest =>
    let d := d.sweepKey p
    if d.cache.tally.any fun t => !t.2.host && t.2.key == p then d
    else (((d.onCache fun u => { u with sweeps := rest }).countWrap DC_SWEEP_COUNT 1).putB DC_SWEEP_BUSY (!rest.isEmpty)).retryTally

end Sys2Proof.Machine
end

