-- ==== Sys2Proof/Machine/Translation.lean ====
section
/-! DEFINITION. Translation (spec 11, R347 and R360 to R386): table walks, TLBs, the address translation cache, page
faults and their groups, invalidations, and Groom's work on the tables. -/

namespace Sys2Proof.Machine

/-! ### Units -/

def coreStop (c : CoreIx) : Fin 64 := ⟨c.val, by omega⟩
def tlbCore (c : CoreIx) : Nat := c.val
def tlbEng (c : CoreIx) (e : EngIx) : Nat := 64 + 4 * c.val + e.val
def tlbCopy (e : Nat) : Nat := 300 + e
def tlbRu : Nat := 320
def tlbCp : Nat := 321

def Die.onTr (d : Die) (f : TransUnit → TransUnit) : Die := { d with tr := f d.tr }

/-! ### Entries (R367) -/

def leafOf (e : Nat) : Leaf :=
  { attr := sub e 1 3, r := sub e 4 1 == 1, w := sub e 5 1 == 1, migrated := sub e 7 1 == 1, prefHost := sub e 8 1 == 1,
    once := sub e 9 1 == 1, target := e / 2 ^ 16 * 2 ^ 16 }

def b2n (b : Bool) : Nat := if b then 1 else 0

def Leaf.entry (l : Leaf) : Nat :=
  1 + 2 * l.attr + 16 * b2n l.r + 32 * b2n l.w + 64 + 128 * b2n l.migrated + 256 * b2n l.prefHost + 512 * b2n l.once + l.target / 2 ^ 16 * 2 ^ 16

/-- Address of the next table in a table entry: bits [37:8]. -/
def nextTable (e : Nat) : Nat := sub e 8 30 * 256

def levelIndex (level dva : Nat) : Nat :=
  match level with
  | 0 => sub dva 39 13
  | 1 => sub dva 30 9
  | 2 => sub dva 21 9
  | _ => sub dva 16 5

/-- Bits of the page of a leaf at a level. -/
def levelBits (level : Nat) : Nat :=
  match level with
  | 0 => 39
  | 1 => 30
  | 2 => 21
  | _ => 16

/-- Root of a partition's tree, when it has one (R367, R486): Groom places no table in the first 64 KiB of device
memory, so that PT_ROOT 0 is a partition without a tree (log entry 11). -/
def Die.root (d : Die) (p : Nat) : Option Nat :=
  let r := d.get (PT_ROOT_ROOT p)
  if r == 0 then none else some (r * 65536)

/-- A table entry as it has been read: an uncorrectable error, or not yet there. -/
inductive Entry where
  | val (e : Nat) | ecc | wait

/-- Read bytes of a table at the point of coherence with key tag 0; table reads are never charged (R368, R471). -/
def Die.tableRead (d : Die) (a : Nat) : Entry × Die :=
  let lvl := d.raw (QOS_LEVEL 0 0)
  match d.homeRead a 8 0 false with
  | (some bs, e) => (.val (leNat bs), e.putRaw (QOS_LEVEL 0 0) lvl)
  | (none, e) => (.ecc, e.putRaw (QOS_LEVEL 0 0) lvl)

/-- A read of a table entry by the translation walker (R368). A line in shared bias that misses is asked of the host first (R364): the walk waits for it. -/
def Die.readEntry (d : Die) (a : Nat) : Entry × Die :=
  let line := lineOf a
  let r : HomeReq := { stop := 63, slice := homeSlice false line, line := line, space := .dev, key := 0, once := false, op := .prefetch, who := { req := .reg, id := 0 } }
  if (d.biasAsk r).isSome then (.wait, if (d.mshrOf line false).isSome || (d.cache.ring.contains r) then d else d.askHome r) else d.tableRead a

/-- Outcome of a walk: a leaf with its page's bits, an invalid entry, a table read with an uncorrectable error, or one that waits. -/
inductive Walk where
  | leaf (l : Leaf) (bits : Nat) | invalid | ecc | wait

/-- Entry of one level through the walk cache of levels 0 to 2 (R369). -/
def Die.levelEntry (d : Die) (p level table dva : Nat) : Entry × Die :=
  let idx := dva / 2 ^ levelBits level
  match d.tr.walk.find? fun w => w.part == p && w.level == level && w.index == idx with
  | some w => (.val w.entry, d)
  | none =>
    match d.readEntry (table + 8 * levelIndex level dva) with
    | (.val e, d) =>
      if e % 2 == 1 && level < 3 then
        (.val e, d.onTr fun t => { t with walk := (t.walk ++ [({ part := p, level := level, index := idx, entry := e } : WalkEntry)]).drop (t.walk.length + 1 - 1024) })
      else (.val e, d)
    | r => r

/-- The walk from a table at a level downward (R367). -/
def Die.walkFrom (p dva : Nat) : Nat → Nat → Nat → Die → Walk × Die
  | 0, _, _, d => (.invalid, d)
  | n + 1, level, table, d =>
    match d.levelEntry p level table dva with
    | (.ecc, d) => (.ecc, d)
    | (.wait, d) => (.wait, d)
    | (.val e, d) =>
      if e % 2 == 0 then (.invalid, d)
      else if sub e 6 1 == 1 then (if level == 0 then (.invalid, d) else (.leaf (leafOf e) (levelBits level), d))
      else if level == 3 then (.invalid, d)
      else Die.walkFrom p dva n (level + 1) (nextTable e) d

def Die.walk (d : Die) (p dva : Nat) : Walk × Die :=
  match d.root p with
  | some root => if dva < 2 ^ 52 then Die.walkFrom p dva 4 0 root d else (.invalid, d)
  | none => (.invalid, d)

/-- Leaf of an address for a unit: from its TLB, else by a walk that fills the TLB (R369). -/
def Die.leaf (d : Die) (s : Src) (dva : Nat) : Walk × Die :=
  match d.tr.tlb.find? fun t => t.unit == s.tlb && t.part == s.part && dva / 2 ^ t.bits * 2 ^ t.bits == t.base with
  | some t => (.leaf t.leaf t.bits, d)
  | none =>
    match d.walk s.part dva with
    | (.leaf l bits, d) =>
      let mine := d.tr.tlb.filter fun t => t.unit == s.tlb
      let t0 := if mine.length < 64 then d.tr.tlb else match mine with | old :: _ => d.tr.tlb.erase old | [] => d.tr.tlb
      (.leaf l bits, d.onTr fun t => { t with tlb := t0 ++ [{ unit := s.tlb, part := s.part, base := dva / 2 ^ bits * 2 ^ bits, bits := bits, leaf := l }] })
    | r => r

/-! ### Faults (R371 to R375) -/

/-- Record a failed access in TRANS_FAULT (after R375). -/
def Die.transFault (d : Die) (cause part stop dva : Nat) : Die :=
  d.record TRANS_FAULT_VALID
    [(TRANS_FAULT_CAUSE, cause), (TRANS_FAULT_PARTITION, part), (TRANS_FAULT_STOP, stop),
     (TRANS_FAULT_ADDR_LO_ADDR, dva % 2 ^ 32), (TRANS_FAULT_ADDR_HI_ADDR, dva / 2 ^ 32)]

/-- Result of a translation. -/
inductive TRes where
  | ok (attr addr : Nat) (once : Bool) | fail (st : Status) | wait

def Die.fn (d : Die) (p : Nat) : FnCfg := tblGet (fun _ => ({} : FnCfg)) d.host.fns p
def Die.setFn (d : Die) (p : Nat) (f : FnCfg) : Die :=
  { d with host := { d.host with fns := tblPut (fun _ => ({} : FnCfg)) d.host.fns p f } }

/-- Page requests of a partition's function cannot be sent (R374). -/
def Die.noPri (d : Die) (p : Nat) : Bool := !(d.fn p).priEnable || d.tr.prOff.contains p

/-- Entries of the fault queue (R372). -/
def TransUnit.queued (t : TransUnit) : Nat := (t.faults.filter fun f => f.state == .queued).length

def sameFault (req : Req) (part : Nat) (host : Bool) (page : Nat) (f : PageFault) : Bool :=
  f.req == req && f.part == part && f.host == host && f.page == page

/-- An access faults on a page (R371 to R375): it waits for a page request, or fails. An atomic needs both rights (R372). -/
def Die.faultOn (d : Die) (s : Src) (host : Bool) (page dva : Nat) (write : Bool) : TRes × Die :=
  let read := s.amo || !write
  let same := sameFault s.req s.part host page
  let drop (e : Die) : Die := e.onTr fun t => { t with faults := t.faults.filter fun f => !same f }
  match d.tr.faults.find? same with
  | none =>
    if d.noPri s.part then (.fail .pageFaultUnresolved, d.transFault 5 s.part s.stop dva)
    else if d.tr.queued < 256 then
      (.wait, d.onTr fun t => { t with faults := t.faults ++ [{ req := s.req, part := s.part, host := host, page := page, dva := dva, read := read, write := write, tries := 0, state := .queued }] })
    else (.wait, d)
  | some f =>
    if orOne (d.get PR_TIMEOUT_RETRIES) ≤ f.tries then (.fail .pageFaultUnresolved, (drop d).transFault 4 s.part s.stop dva)
    else if d.noPri s.part then (.fail .pageFaultUnresolved, (drop d).transFault 5 s.part s.stop dva)
    else if d.tr.queued < 256 then (.wait, d.onTr fun t => { t with faults := listUpd same (fun f => { f with state := .queued, read := read, write := write }) t.faults })
    else (.wait, d)

/-- Tier window of a partition that holds an address: its stripe mask (R384). -/
def Die.tier (d : Die) (p dva : Nat) : Option Nat :=
  ((List.range 4).find? fun k =>
    let base := d.get (TIER_BASE_GIB p k) * 2 ^ 30
    let size := d.get (TIER_SIZE_GIB p k) * 2 ^ 30
    decide (base ≤ dva) && decide (dva < base + size)).map fun k => d.get (TIER_SIZE_STRIPE_DIES p k)

/-- The page of an address is under migration (R383). -/
def Die.moving (d : Die) (p dva : Nat) : Bool := d.tr.moves.any fun m => m.part == p && m.dva == dva / 65536 * 65536

/-- Forget the faults of a requester on the page of an access that now translates. -/
def Die.faultDone (d : Die) (s : Src) (host : Bool) (page : Nat) : Die :=
  d.onTr fun t => { t with faults := t.faults.filter fun f => !sameFault s.req s.part host page f }

/-- No new upstream request of the partition leaves a source while it is reset (R483); the records of the packets that
a reset without FLR ends are written all the same (R488). -/
def Die.upstreamHeld (d : Die) (s : Src) : Bool :=
  d.bit (PART_CTRL_RESETTING s.part) && (d.bit (PART_CTRL_FLR s.part) || (match s.req with | .ring _ => false | _ => true))

/-- Translation requests whose completions will be discarded (R379, R413). -/
def atsDrop (gone : AtsReq → Bool) (l : List AtsReq) : List AtsReq := l.map fun q => if gone q then { q with dead := true } else q

/-- A host leaf's translation through the address translation cache (R370). -/
def Die.ats (d : Die) (s : Src) (iova dva : Nat) (write : Bool) : TRes × Die :=
  let page := iova / 4096
  match d.tr.atc.find? fun a => a.part == s.part && a.page == page with
  | some a =>
    if (if write then a.w && (!s.amo || a.r) else a.r) then (.ok 2 (a.hpa + iova % 4096) false, d.faultDone s true page)
    else d.faultOn s true page dva write
  | none =>
    if d.tr.atsBad.contains (s.part, page) then
      (.fail .pageFaultUnresolved, d.onTr fun t => { t with atsBad := t.atsBad.erase (s.part, page) })
    else if d.tr.ats.any fun q => !q.dead && q.part == s.part && q.page == page then (.wait, d)
    else if d.upstreamHeld s then (.wait, d)
    else
      let id := d.tr.nextAts
      let d := d.onTr fun t => { t with nextAts := id + 1, ats := t.ats ++ [{ id := id, part := s.part, page := page }] }
      (.wait, d.emit (.atsRequest id s.part (d.get (TRANS_PASID_HOST_PASID s.part)) page))

/-- The fault on which this access of a requester waits: the access translates again only once the response has
arrived (R374, R379), and fails with the group's cause when the response was no success. -/
def heldFault (s : Src) (dva : Nat) (f : PageFault) : Bool :=
  f.req == s.req && f.part == s.part && (if f.host then f.dva / 4096 == dva / 4096 else f.dva / 65536 == dva / 65536)
    && f.state != .retry

/-- Translate an address anew (R367 to R371, R383, R384). `noFault` is an access that never faults (R228). -/
def Die.translateNow (d : Die) (s : Src) (dva : Nat) (write noFault : Bool) : TRes × Die :=
  match d.leaf s dva with
  | (.ecc, d) => (.fail .eccUncorrectable, d.raise 6 .contained (detail s.stop 2 s.part))
  | (.wait, d) => (.wait, d)
  | (.invalid, d) =>
    if noFault then (.fail .translationDenied, d)
    else if d.bit (TRANS_CTRL_FAULT_MODE s.part) then (.fail .translationDenied, d.transFault 7 s.part s.stop dva)
    else d.faultOn s false (dva / 65536) dva write
  | (.leaf l bits, d) =>
    let addr := l.target / 2 ^ bits * 2 ^ bits + dva % 2 ^ bits
    let bad := match d.tier s.part dva with | some _ => write || l.attr != 2 | none => false
    if bad then (.fail .translationDenied, d.transFault 8 s.part s.stop dva)
    else if !(if write then l.w && (!s.amo || l.r) else l.r) then (.fail .translationDenied, d.transFault 6 s.part s.stop dva)
    else if d.moving s.part dva then (.wait, d)
    else
      let d := d.faultDone s false (dva / 65536)
      let advised (r : TRes × Die) : TRes × Die := (match r.1 with | .ok a x _ => .ok a x l.once | y => y, r.2)
      if l.attr == 2 then
        advised (if noFault then
          (match d.tr.atc.find? fun a => a.part == s.part && a.page == addr / 4096 with
           | some a => if a.r then (.ok 2 (a.hpa + addr % 4096) false, d) else (.fail .translationDenied, d)
           | none => d.ats s addr dva write)
         else d.ats s addr dva write)
      else (.ok l.attr addr l.once, d)

/-- Translate an address for an access, unless it waits on a page request (R372 to R374, R379). -/
def Die.translate (d : Die) (s : Src) (dva : Nat) (write noFault : Bool) : TRes × Die :=
  match d.tr.faults.find? (heldFault s dva) with
  | none => d.translateNow s dva write noFault
  | some f =>
    match f.state with
    | .failed cause =>
      (.fail .pageFaultUnresolved, (d.onTr fun t => { t with faults := t.faults.erase f }).transFault cause s.part s.stop dva)
    | _ => (.wait, d)

/-! ### Commands of translation -/

/-- A PRI index of the function that is neither outstanding nor held by an abandoned group (R380). -/
def Die.freeIndex (d : Die) (p : Nat) : Option Nat :=
  (List.range 512).find? fun i => !(d.tr.groups.any fun g => g.part == p && g.index == i) && !(d.tr.abandoned.any fun a => a.1 == p && a.2.1 == i && decide (d.tick.count < a.2.2 + orOne (d.get PR_TIMEOUT_TICKS)))

/-- The group that a fault may join. -/
def Die.groupOf (d : Die) (f : PageFault) : Option PrGroup := d.tr.groups.find? fun g => g.part == f.part && g.host == f.host && g.page == f.page

/-- A queued fault may leave the queue now: into a group of its page, or with a page request within its function's allocation (R372). -/
def Die.maySend (d : Die) (f : PageFault) : Bool :=
  f.state == .queued && !d.bit (PART_CTRL_RESETTING f.part) && !d.noPri f.part
    && ((d.groupOf f).isSome || (decide ((d.tr.groups.filter fun g => g.part == f.part).length < min 512 (d.fn f.part).priAlloc) && (d.freeIndex f.part).isSome))

/-- PAGE_REQUEST_SEND (R372): the oldest queued fault that may leave the queue, and with it every queued fault on its page, joins the group of the page or
sends a page request, which shows the access that they need. -/
def opPageRequestSend (d : Die) : Die :=
  match d.tr.faults.find? d.maySend with
  | none => d
  | some f =>
    let mine (x : PageFault) : Bool := x.state == .queued && x.part == f.part && x.host == f.host && x.page == f.page
    let set (e : Die) (i : Nat) : Die := e.onTr fun t => { t with faults := t.faults.map fun x => if mine x then { x with state := .group i } else x }
    match d.groupOf f, d.freeIndex f.part with
    | some g, _ => set d g.index
    | none, none => d
    | none, some i =>
      let all := d.tr.faults.filter mine
      let pasid := if f.host then d.get (TRANS_PASID_HOST_PASID f.part) else d.get (TRANS_PASID_DEV_PASID f.part)
      let d := (set d i).onTr fun t => { t with groups := t.groups ++ [{ index := i, part := f.part, host := f.host, page := f.page, sentTick := d.tick.count }] }
      d.emit (.pageRequest i f.part pasid f.page (all.any (·.read)) (all.any (·.write)))

/-- The slices that waited on a group had a page request complete in this tick (R54). -/
def Die.pageServed (d : Die) (fs : List PageFault) : Die :=
  fs.foldl (fun e f =>
    match f.req with
    | .core c | .eng c _ => e.onCore c fun k => { k with run := k.run.map fun r => { r with pageDone := true } }
    | _ => e) d

/-- PRG_RESPONSE (R374): stalled accesses try again, or fail; a failure also disables page requests. -/
def opPrgResponse (fn : PartIx) (index : Nat) (code : PrgCode) (d : Die) : Die :=
  match d.tr.groups.find? fun g => g.part == fn.val && g.index == index with
  | none => d.onTr fun t => { t with abandoned := t.abandoned.filter fun a => !(a.1 == fn.val && a.2.1 == index) }
  | some g =>
    let mine (f : PageFault) : Bool := f.state == .group index && f.part == fn.val
    let fs := d.tr.faults.filter mine
    let d := d.onTr fun t => { t with groups := t.groups.erase g }
    -- the translation is asked for again: drop what the cache holds of the page
    let d := if g.host then d.onTr fun t => { t with atc := t.atc.filter fun a => !(a.part == g.part && a.page == g.page) } else d
    let next : PageFault → PageFault := match code with
      | .success => fun f => { f with state := .retry, tries := f.tries + 1 }
      | .invalidRequest => fun f => { f with state := .failed 2 }
      | .failure => fun f => { f with state := .failed 3 }
    let d := (d.onTr fun t => { t with faults := t.faults.map fun f => if mine f then next f else f }).pageServed fs
    -- with page requests disabled, what still waits to be sent fails too
    if code == .failure then
      d.onTr fun t => { t with
        prOff := (t.prOff.filter (· != fn.val)) ++ [fn.val],
        faults := t.faults.map fun f => if f.part == fn.val && f.state == .queued then { f with state := .failed 5 } else f }
    else d

/-- PAGE_REQUEST_TIMEOUT (R375): a group unanswered for PR_TIMEOUT.TICKS ticks fails its accesses. -/
def opPageRequestTimeout (fn : PartIx) (index : Nat) (d : Die) : Die :=
  match d.tr.groups.find? fun g => g.part == fn.val && g.index == index with
  | none => d
  | some g =>
    if g.sentTick + orOne (d.get PR_TIMEOUT_TICKS) ≤ d.tick.count then
      let mine (f : PageFault) : Bool := f.state == .group index && f.part == fn.val
      let d := d.pageServed (d.tr.faults.filter mine)
      d.onTr fun t => { t with groups := t.groups.erase g, abandoned := t.abandoned ++ [(fn.val, index, d.tick.count)],
                               faults := t.faults.map fun f => if mine f then { f with state := .failed 1 } else f }
    else d

/-- PRI_ENABLE (R374): the host clears and sets PRI Enable of the function. -/
def opPriEnable (fn : PartIx) (d : Die) : Die :=
  (d.setFn fn.val { d.fn fn.val with priEnable := true }).onTr fun t => { t with prOff := t.prOff.filter (· != fn.val) }

/-- ATS_COMPLETION (R370): the answer of the host to a translation request fills the cache. -/
def opAtsCompletion (id : Nat) (hpa : Nat) (r w : Bool) (d : Die) : Die :=
  match d.tr.ats.find? fun q => q.id == id with
  | none => d
  | some q =>
    if q.dead then d.onTr fun t => { t with ats := t.ats.erase q }
    else
    let e : AtcEntry := { part := q.part, page := q.page, hpa := hpa / 4096 * 4096, r := r, w := w }
    let rest : List AtcEntry := d.tr.atc.filter fun a => !(a.part == q.part && a.page == q.page)
    d.onTr fun t => { t with ats := t.ats.erase q, atc := (rest ++ [e]).drop (rest.length + 1 - 4096) }

/-- The requests of the sources that are at their home slices or on the way there. -/
def Die.requests (d : Die) : List HomeReq := (d.cache.ring ++ d.cache.mshrs.flatMap fun m => m.reqs).filter fun r => !r.isNote

/-- Some access of the partition to host memory or to a peer device is under way. -/
def Die.hostBusy (d : Die) (p : Nat) : Bool :=
  (d.requests.any fun r => r.host && r.part == p) || (d.host.p2p.any fun o => o.part == p)

/-- Some access that may have used an old translation of a range has not completed, or a copy that it left is still being invalidated (R376, R377). -/
def Die.rangeBusy (d : Die) (p lo hi : Nat) : Bool :=
  (d.cores.any fun kc => kc.2.slicePart == p && kc.2.ops.any fun o => o.sent && !(o.value.isSome || o.acked) && decide (o.addr < hi) && decide (lo < o.addr + o.bytes))
  || (d.requests.any fun r => (match r.who.req with | .core _ => false | _ => true) && r.part == p)
  || (d.ports.ops.any fun o => o.part == p && o.reply.isNone && (match o.req with | .core _ | .reg => false | _ => true))
  || (d.host.p2p.any fun o => o.part == p && (match o.req with | .core _ => false | _ => true))
  || (d.cache.invs.any fun v => v.host || (match v.done with | .ack r => d.reqPart r.who.req == some p | _ => false))

/-- ATS_INVALIDATION (R378, R379): matching translations go; translations in progress are discarded and repeated. -/
def opAtsInvalidation (fn : PartIx) (tag : Nat) (lo hi : Nat) (d : Die) : Die :=
  let p := fn.val
  let hit (a n : Nat) : Bool := decide (a < hi) && decide (lo < a + n)
  d.onTr fun t => { t with
    atc := t.atc.filter fun a => !(a.part == p && hit (a.page * 4096) 4096),
    tlb := t.tlb.filter fun e => !(e.part == p && e.leaf.attr == 2 && hit (e.leaf.target / 2 ^ e.bits * 2 ^ e.bits) (2 ^ e.bits)),
    ats := atsDrop (fun q => q.part == p && hit (q.page * 4096) 4096) t.ats,
    invals := t.invals ++ [{ tag := tag, part := p, lo := lo, hi := hi }] }

/-- ATS_INVALIDATION_COMPLETE (R378): sent once every access that used the translations has completed. -/
def opAtsInvalidationComplete (tag : Nat) (d : Die) : Die :=
  match d.tr.invals.find? fun i => i.tag == tag with
  | none => d
  | some i =>
    if d.hostBusy i.part then d
    else (d.onTr fun t => { t with invals := t.invals.erase i }).emit (.invalidationCompletion tag)

/-- A range of a partition loses its translations in every TLB and walk cache, and in the address translation cache
for the I/O addresses of its host leaves, which the caller gives: those translations that are in progress are discarded (R376, R379). -/
def Die.invalidate (d : Die) (p lo hi : Nat) (ls : List (Nat × Nat × Leaf)) : Die :=
  let hit (a n : Nat) : Bool := decide (a < hi) && decide (lo < a + n)
  let io := (ls.filter fun l => l.2.2.attr == 2 && hit l.1 (2 ^ l.2.1)).map fun l => (l.2.2.target / 2 ^ l.2.1 * 2 ^ l.2.1, 2 ^ l.2.1)
  let inIo (page : Nat) : Bool := io.any fun r => decide (r.1 ≤ page * 4096) && decide (page * 4096 < r.1 + r.2)
  d.onTr fun t => { t with
    tlb := t.tlb.filter fun e => !(e.part == p && hit e.base (2 ^ e.bits)),
    walk := t.walk.filter fun w => !(w.part == p && hit (w.index * 2 ^ levelBits w.level) (2 ^ levelBits w.level)),
    atc := t.atc.filter fun a => !(a.part == p && inIo a.page),
    ats := atsDrop (fun q => q.part == p && inIo q.page) t.ats }

/-- Forget everything translated for a partition (R486). -/
def Die.forgetPart (d : Die) (p : Nat) : Die :=
  d.onTr fun t => { t with
    tlb := t.tlb.filter fun e => e.part != p, walk := t.walk.filter fun w => w.part != p,
    atc := t.atc.filter fun a => a.part != p, ats := atsDrop (fun q => q.part == p) t.ats,
    faults := t.faults.filter fun f => f.part != p }

/-! ### Groom's work on the tables (R361, R367, R368) -/

/-- Groom's data cache gives up its copy of a line that Groom writes, and the home drops it from the tally (R315, R321). -/
def Die.groomDrop (d : Die) (line : Nat) : Die :=
  match d.l1Find 48 line false with
  | some (k, _) => (d.l1Drop k).dropHolder line false
  | none => d

/-- Groom writes bytes of a table at their home: the line is mapped nowhere else (R368). -/
def Die.groomWrite (d : Die) (a : Nat) (bs : List Byte) : Die := (((d.groomDrop (lineOf a)).noteRun
  { stop := 48, slice := homeSlice false (lineOf a), line := lineOf a, space := .dev, key := 0, once := false, op := .write a bs, who := { req := .groom, id := 0 } }).homePerformWrite 48 a 0 bs false .keep).2

def Die.writeEntry (d : Die) (a v : Nat) : Die := d.groomWrite a (leBytes 8 v)

/-- Groom reads a table entry through its data cache (R315, R316): a miss takes the whole line in, where the tally has room for it. -/
def Die.groomEntry (d : Die) (a : Nat) : Option Nat × Die :=
  let line := lineOf a
  match d.l1Find 48 line false with
  | some (k, l) => (some (leNat (lineBytes l.data (a - line) 8)), d.l1Touch k)
  | none =>
    match d.homeLine line 0 false true with
    | (none, d) => (none, d)
    | (some data, d) =>
      let v := leNat (lineBytes data (a - line) 8)
      if d.invPending line false || d.otherKey line 0 || d.excl line false then (some v, d)
      else match d.addHolder line false false 0 48 with
        | (true, d) => (some v, d.l1Install 48 { addr := line, host := false, excl := false, revoked := false, data := data })
        | (false, d) => (some v, d)

/-- Align upward. -/
def alignUp (a n : Nat) : Nat := (a + n - 1) / n * n

/-- Lowest free place of a table in the pool, by at most as many tries as there are tables. -/
def placeTable (tables : List (Nat × Nat × Nat)) (size : Nat) : Nat → Nat → Nat
  | 0, a => a
  | n + 1, a =>
    match tables.find? fun t => decide (t.2.1 < a + size) && decide (a < t.2.1 + t.2.2) with
    | some t => placeTable tables size n (alignUp (t.2.1 + t.2.2) size)
    | none => a

def tableSize (level : Nat) : Nat :=
  match level with
  | 0 => 65536
  | 1 | 2 => 4096
  | _ => 256

/-- Take a table from the pool and zero what is not zero of it; none when the pool is full. -/
def Die.newTable (d : Die) (p level : Nat) : Option (Nat × Die) :=
  let base := d.get PT_POOL_BASE_BASE * 65536
  let top := base + d.get PT_POOL_SIZE_SIZE * 65536
  let size := tableSize level
  let a := placeTable d.tr.tables size (d.tr.tables.length + 1) (alignUp (max base 65536) size)
  if a + size ≤ top then
    let d := d.onTr fun t => { t with tables := t.tables ++ [(p, a, size)] }
    let dirty := (sectorsOf a size).filter fun s => d.secTag s != .zeroed || (d.cache.lines.any fun c => c.2.addr == lineOf (32 * s) && !c.2.host)
      || (d.cache.hay.any fun h => h.2.any fun c => c.addr == lineOf (32 * s) && !c.host)
    some (a, dirty.foldl (fun e s => e.groomWrite (32 * s) (List.replicate 32 0)) d)
  else none

/-- The table of the next level under an entry, taken from the pool when the entry is invalid. -/
def Die.childTable (d : Die) (p level table dva : Nat) : Option (Nat × Die) :=
  match d.groomEntry (table + 8 * levelIndex level dva) with
  | (some e, d) =>
    if e % 2 == 1 then some (nextTable e, d)
    else
      match d.newTable p (level + 1) with
      | some (a, d) => some (a, d.writeEntry (table + 8 * levelIndex level dva) (a + 1))
      | none => none
  | (none, _) => none

def Die.setLeafFrom (p dva target : Nat) (v : Nat) : Nat → Nat → Nat → Die → Option Die
  | 0, _, _, _ => none
  | n + 1, level, table, d =>
    if level == target then some (d.writeEntry (table + 8 * levelIndex level dva) v)
    else
      match d.childTable p level table dva with
      | some (t, d) => Die.setLeafFrom p dva target v n (level + 1) t d
      | none => none

/-- Root of a partition's tree, made when it has none. -/
def Die.needRoot (d : Die) (p : Nat) : Option (Nat × Die) :=
  match d.root p with
  | some r => some (r, d)
  | none =>
    match d.newTable p 0 with
    | some (a, d) => some (a, d.put (PT_ROOT_ROOT p) (a / 65536))
    | none => none

/-- Write a leaf at its level, taking the tables it needs; none when the pool cannot hold them (R361). -/
def Die.setLeaf (d : Die) (p dva level : Nat) (v : Nat) : Option Die :=
  match d.needRoot p with
  | some (r, d) => Die.setLeafFrom p dva level v 4 0 r d
  | none => none

def bitsLevel (bits : Nat) : Nat := if bits == 30 then 1 else if bits == 21 then 2 else 3

/-- Rewrite the leaf that maps an address, at its own level. -/
def Die.putLeaf (d : Die) (p dva bits : Nat) (l : Leaf) : Die := (d.setLeaf p dva (bitsLevel bits) l.entry).getD d

/-- Clear the leaf that maps an address. -/
def Die.clearLeaf (d : Die) (p dva bits : Nat) : Die := (d.setLeaf p dva (bitsLevel bits) 0).getD d

/-- The mapped leaves of a range, in ascending address: steps over the levels that hold nothing. -/
def Die.leavesIn (p hi : Nat) : Nat → Nat → Die → List (Nat × Nat × Leaf)
  | 0, _, _ => []
  | n + 1, a, d =>
    if a < hi then
      match (d.walk p a).1 with
      | .leaf l bits => (a / 2 ^ bits * 2 ^ bits, bits, l) :: Die.leavesIn p hi n (a / 2 ^ bits * 2 ^ bits + 2 ^ bits) d
      | _ => Die.leavesIn p hi n (a + 65536) d
    else []

def Die.leaves (d : Die) (p lo hi : Nat) : List (Nat × Nat × Leaf) := Die.leavesIn p hi ((hi - lo) / 65536 + 1) lo d

/-- A frame of a migration pool that holds no page (R381). -/
def Die.freeFrame (d : Die) (p : Nat) : Option Nat :=
  ((List.range (d.get (MIG_POOL_FRAMES_FRAMES p))).find? fun i =>
    !(d.tr.frames.any fun f => f.part == p && f.frame == (d.get (MIG_POOL_BASE_BASE p) + i) * 65536)).map fun i => (d.get (MIG_POOL_BASE_BASE p) + i) * 65536

end Sys2Proof.Machine
end

