-- ==== Sys2Proof/Machine/Ports.lean ====
section
/-! DEFINITION. Messages between dies (spec 13): the ends of operations at other dies, epoch fencing, admission, and windows. -/

namespace Sys2Proof.Machine

/-! ### Operations at other dies (R444) -/

def Die.pkt? (d : Die) (pid : Nat) : Option Pkt := d.pkts.find? fun p => p.pid == pid
def Die.onPkt (d : Die) (pid : Nat) (f : Pkt → Pkt) : Die := { d with pkts := listUpd (fun p => p.pid == pid) f d.pkts }

/-- A packet meets its first error. -/
def Die.pktError (d : Die) (pid : Nat) (st : Status) : Die :=
  d.onPkt pid fun p => if p.status == .ok then { p with status := st } else p

/-- A packet meets an error at a place in the order of its bytes: the earliest place counts (R242). -/
def Die.pktErrorAt (d : Die) (pid pos : Nat) (st : Status) : Die :=
  d.onPkt pid fun p => if p.status == .ok || (match p.errAt with | some e => decide (pos < e) | none => false) then { p with status := st, errAt := some pos } else p

/-- A packet's status is decided; it completes at once, or once its writes have been acknowledged (R220). -/
def Die.finish (d : Die) (pid : Nat) (st : Status) (result : W64) (det : W32) : Die :=
  let d := d.onPkt pid fun p => if p.phase == .finished then p
    else { p with phase := .finished, status := if p.status == .ok then st else p.status, result := result, detail := det }
  match d.pkt? pid with
  | some q => if d.completes q then { d with cp := { d.cp with ready := d.cp.ready ++ [pid] } } else d
  | none => d

/-- A failed access of a fetch/stow engine ends its operation and stops its slice. -/
def Die.engineFails (d : Die) (c : CoreIx) (e : EngIx) (st : Status) : Die :=
  let d := d.forget (ofReq (· == .eng c e))
  let pc := match assoc (d.core c).engines e.val with | some x => x.pc | none => (d.core c).pc
  ((d.onCore c fun k => { k with engines := k.engines.filter fun x => x.1 != e.val }).coreAccessFails c pc st).settle c

/-- The line of a tier read has come, or will not come (R385): it is allocated as a read-once line and the requests that
wait for it are served. -/
def Die.tierEnd (d : Die) (line : Nat) (st : Status) (data : List Byte) : Die :=
  match d.mshrOf line true with
  | none => d
  | some m => if st == .ok then d.hostLineCame m true (BitVec.ofNat 1024 (leNat data)) else d.failMshr m st

/-- A copy of the HDM decoders has been confirmed by a die, or was lost (R400): die 0 reports Committed once every copy is
confirmed; after a lost one the decoders stay uncommitted. -/
def Die.mirrorEnd (d : Die) (st : Status) : Die :=
  if st != .ok then { d with host := { d.host with hdm := [] } }
  else if d.ports.ops.any fun o => o.req == .reg && o.id == 1 then d
  else { d with host := { d.host with hdm := d.host.hdm.map fun (h : Hdm) => { h with committed := true } } }

/-- An operation at another die ends with a status and perhaps data (R440, R444). A bulk read keeps its reply until
its source takes it. -/
def Die.remoteEnd (d : Die) (o : RemoteOp) (st : Status) (data : List Byte) : Die :=
  let gone := d.onPorts fun u => { u with ops := u.ops.filter fun x => !(x.tag == o.tag) }
  match d.ports.tierReads.find? fun t => t.1 == o.tag with
  | some t => (gone.onPorts fun u => { u with tierReads := u.tierReads.erase t }).tierEnd t.2.2 st data
  | none =>
  match o.req with
  | .core c =>
    if st == .ok then (if o.read.isSome then gone.answer { req := o.req, id := o.id } data else gone.ackAsker { req := o.req, id := o.id })
    else gone.coreDrops c (fun x => x.id == o.id) st
  | .eng c e =>
    if st == .ok then (if o.read.isSome then d.onPorts fun u => { u with ops := listUpd (fun x => x.tag == o.tag) (fun x => { x with reply := some (st, data) }) u.ops } else gone)
    else gone.engineFails c e st
  | _ =>
    if o.read.isSome then d.onPorts fun u => { u with ops := listUpd (fun x => x.tag == o.tag) (fun x => { x with reply := some (st, data) }) u.ops }
    else match o.req with
      | .pkt pid =>
        -- a MODE_CHANGE whose forward is lost ends here: its packet has no other operation
        if st == .ok then gone.noteReady
        else if (match d.pkt? pid with | some q => q.opcode == 0x88 | none => false) then gone.finish pid st 0 0
        else (gone.pktErrorAt pid o.id st).noteReady
      | .reg => if o.id == 1 then gone.mirrorEnd st else gone
      | _ => gone

/-- Every operation that satisfies `p` completes with LINK_LOST. -/
def Die.loseOps (d : Die) (p : RemoteOp → Bool) : Die :=
  (d.ports.ops.filter fun o => o.reply.isNone && p o).foldl (fun e o => e.remoteEnd o .linkLost []) d

/-- Answer a message: a READ_RESPONSE on the port it came by (R436, R440), metered to a partition (R471). -/
def Die.respondAs (d : Die) (part : Nat) (h : MsgHead) (st : Status) (data : List Byte) : Die :=
  let head : MsgHead := { port := h.port, src := d.here, dst := h.src, epoch := d.epoch, part := h.part, tag := h.tag, window := h.window }
  d.post h.port part (.response { head := head, st := st, data := data })

def Die.respond (d : Die) (h : MsgHead) (st : Status) (data : List Byte) : Die := d.respondAs h.part.val h st data

/-- The answers to the pieces of an access, once all have come. -/
def Die.allReplies (d : Die) (req : Req) (ps : List (Nat × Nat)) : Option (List Reply) :=
  ps.foldr (fun p acc =>
    match acc, d.cache.replies.find? fun (x : Reply) => x.who.req == req && x.addr == p.1 && x.n == p.2 with
    | some xs, some x => some (x :: xs)
    | _, _ => none) (some [])

/-- The answers to an access have been taken. -/
def Die.dropReplies (d : Die) (req : Req) : Die := d.onCache fun u => { u with replies := u.replies.filter fun x => x.who.req != req }

/-- A window access whose pieces have all been performed, and whose invalidations have been acknowledged, is answered (R273, R440). -/
def Die.answerWindow (d : Die) (o : WinOp) : Die :=
  match d.allReplies (.win o.id) o.pieces with
  | none => d
  | some xs =>
    let d := (d.onPorts fun u => { u with winOps := u.winOps.erase o }).dropReplies (.win o.id)
    match xs.find? fun (x : Reply) => x.st != .ok with
    | some x => d.respondAs o.part o.head x.st []
    | none => d.respondAs o.part o.head .ok (if o.write then [] else xs.flatMap (·.data))

def Die.answerWindows (d : Die) : Die := d.ports.winOps.foldl (fun e o => e.answerWindow o) d

/-! ### Epoch fencing (R79) -/

inductive Fence where
  | same | newer | older
deriving DecidableEq, Repr

def Die.fenceOf (d : Die) (e : W16) : Fence :=
  if e == d.epoch then .same else if (e - d.epoch).toNat < 32768 then .newer else .older

/-- A message of an older epoch is refused and counted (R79). -/
def Die.rejectOld (d : Die) (h : MsgHead) (answer : Bool) : Die :=
  let d := (d.count TICK_STATUS_REJECT_COUNT 1).putB TICK_STATUS_EPOCH_REJECT true
  if answer then d.respond h .epochMismatch [] else d

/-! ### Admission of a received message (R431, R435, R436, R448, R451) -/

/-- The partition a message is judged by: its stamp on a peer port, the window's on an optical port. -/
def Die.window? (d : Die) (w : WinIx) : Option Window := tblGet (fun _ => none) d.ports.wins w.val

def Die.setWindow (d : Die) (w : WinIx) (x : Option Window) : Die :=
  d.onPorts fun u => { u with wins := tblPut (fun _ => none) u.wins w.val x }

/-- Whether a received message passes its port, and what happens when it does not. -/
inductive Admit where
  | pass | drop | refuse (st : Status)
deriving DecidableEq, Repr

/-- Port checks of a message with a header: rsvd bits (R451), the fabric gate (R431), authority (R435). A response names no window of this die. -/
def Die.portCheck (d : Die) (h : MsgHead) (cls : Nat) (slotPart : Option Nat) : Admit :=
  match h.port with
  | .peer _ =>
    if h.bad then .refuse .reservedValue
    else if !d.authClass cls h.port || !d.authPart h.part.val h.port then .refuse .noAuthority else .pass
  | .opt n =>
    if h.bad then .drop
    else if cls > 7 || !d.authClass cls h.port then .drop
    else if cls != 0 && d.get (OPT_STATE_STATE n.val) != 4 then .drop
    else if cls == 4 then .pass
    else
      match h.window with
      | some w =>
        let part := match slotPart with | some p => some p | none => (d.window? w).map (·.part)
        if (match part with | some p => d.authPart p h.port | none => true) && d.authGroup w.val h.port then .pass else .drop
      | none => (match slotPart with | some p => if d.authPart p h.port then .pass else .drop | none => .pass)

/-- A message of class 1 that its port's authority forbids: dropped, or refused on a peer port (R436). -/
def Die.refuseTick (d : Die) (port : LinkPort) (src : Place) : Die :=
  match port with
  | .opt _ => d.gateDrop port 1
  | .peer _ => d.respond { port := port, src := src, dst := d.here, epoch := d.epoch, part := 0, tag := 0, window := none } .noAuthority []

/-- Space of a received message is free again: its units are to be returned (R450). -/
def Die.freeUnits (d : Die) (port : LinkPort) (cls bytes : Nat) : Die :=
  let c := d.credits port
  let f := if c.freed.length < 10 then List.replicate 10 0 else c.freed
  d.setCredits { c with freed := f.set cls (f.getD cls 0 + units bytes) } port

/-- Record a refused window message (R440). -/
def Die.winErr (d : Die) (h : MsgHead) (check : Nat) : Die :=
  d.record WIN_ERR_VALID
    [(WIN_ERR_WINDOW, match h.window with | some w => w.val | none => 0), (WIN_ERR_CHECK, check),
     (WIN_ERR_SRC_PACKAGE, h.src.pkg.val), (WIN_ERR_SRC_DIE, h.src.die.val), (WIN_ERR_SRC_PORT, portNo h.port)]

/-- The record of a message that fails check 1 or 2 of R440, where it names a window (log entry 93). -/
def Die.winRefused (d : Die) (h : MsgHead) (cls check : Nat) : Die :=
  if h.window.isSome && (cls == 2 || cls == 3 || cls == 5) then d.winErr h check else d

/-- A message that its port does not let pass: counted and dropped, or refused (R436, R451). -/
def Die.notPassed (d : Die) (h : MsgHead) (cls : Nat) : Admit → Die
  | .pass => d
  | .drop => (if h.bad then d else d.winRefused h cls 1).gateDrop h.port cls
  | .refuse st => (if h.bad then d.count (GATE_DROP_COUNT (cls % 16)) 1 else d.winRefused h cls 1).respond h st []

/-- Apply the admission of a message: on a pass go on, else drop or refuse. A message that `go` holds (it answers none)
stays at its port with its credit withheld (R79). -/
def Die.admitted (d : Die) (h : MsgHead) (cls bytes : Nat) (slotPart : Option Nat) (go : Die → Option Die) : Die :=
  match d.portCheck h cls slotPart with
  | .pass => (match go d with | some e => e.freeUnits h.port cls bytes | none => d)
  | x => (d.notPassed h cls x).freeUnits h.port cls bytes

/-! ### Windows (R438 to R443) -/

/-- The bits of WFLAGS (OPEN_WINDOW): 0 read, 1 write, 2 PAIR_ATOMIC, 3 SIGNAL, 4 REDUCE. -/
def Window.right (w : Window) (i : Nat) : Bool := w.flags.getLsbD i

/-- Checks 3 and 4 of R440: the window is open and admits the sender. -/
def Die.winOpen (d : Die) (h : MsgHead) : Except Nat Window :=
  match h.window with
  | none => .error 3
  | some w =>
    match d.window? w with
    | none => .error 3
    | some x => if h.src.pkg == x.srcPkg && maskBit x.srcDies h.src.die.val then .ok x else .error 4

end Sys2Proof.Machine
end

