-- ==== Sys2Proof/Machine/Sync.lean ====
section
/-! DEFINITION. The sync unit (spec 08): objects, slotted signals, waiters, and its registers. -/

namespace Sys2Proof.Machine

def Die.onSync (d : Die) (f : SyncUnit → SyncUnit) : Die := { d with sync := f d.sync }

def Die.obj (d : Die) (n : ObjIx) : SyncObj := tblGet (fun _ => ({} : SyncObj)) d.sync.objs n.val
def Die.setObj (d : Die) (n : ObjIx) (o : SyncObj) : Die := d.onSync fun u => { u with objs := tblPut (fun _ => ({} : SyncObj)) u.objs n.val o }

/-- Bank of an object (R263). -/
def bankOf (n : ObjIx) : Nat := n.val % 8

/-- Record a refusal of the sync unit; refused signals are counted (R266). -/
def Die.syncErr (d : Die) (n : ObjIx) (cause source : Nat) (src : Place) (part : Nat) (signal : Bool) : Die :=
  let d := d.record SYNC_ERR_VALID
    [(SYNC_ERR_OBJ, n.val), (SYNC_ERR_CAUSE, cause), (SYNC_ERR_SOURCE, source), (SYNC_ERR_SRC_PACKAGE, src.pkg.val),
     (SYNC_ERR_SRC_DIE, src.die.val), (SYNC_ERR_SRC_PARTITION, part)]
  if signal then d.count SYNC_DROP_COUNT 1 else d

/-- Slot a signal at its source (R263); none while the source's slot is occupied (R264). -/
def Die.slotSignal (d : Die) (source : Nat) (x : SlotSignal) : Option Die :=
  match assoc d.sync.slots source with
  | some _ => none
  | none => some (d.onSync fun u => { u with slots := assocPut u.slots source x })

/-- A value meets a waiter's condition (R258). -/
def meets (equal : Bool) (thr value : W64) : Bool := if equal then value == thr else !value.ult thr

/-- A core's WAIT is satisfied: the instruction issues (R106). -/
def Core.waitDone (k : Core) : Core := { k with wait := none, pc := k.pc + 8 }

/-- Test every waiter of an object against its new value (R258, R259). -/
def Die.testWaiters (d : Die) (n : ObjIx) : Die :=
  let v := (d.obj n).value
  let hit (w : PktWaiter) : Bool := w.obj == n && meets w.equal w.thr v
  let done := d.sync.waiters.filter hit
  let d := d.onSync fun u => { u with waiters := u.waiters.filter fun w => !hit w }
  let d := done.foldl (fun e w => e.finish w.pid .ok v 0) d
  { d with cores := d.cores.map fun kc => (kc.1, match kc.2.wait with
      | some (.object m eq thr) => if m == n && meets eq thr v then kc.2.waitDone else kc.2
      | _ => kc.2) }

/-- End every waiter of an object: packets with a status, cores by `stop`. -/
def Die.endWaiters (d : Die) (n : ObjIx) (st : Status) (stop : Die → CoreIx → Die) : Die :=
  let done := d.sync.waiters.filter fun w => w.obj == n
  let v := (d.obj n).value
  let d := d.onSync fun u => { u with waiters := u.waiters.filter fun w => w.obj != n }
  let d := done.foldl (fun e w => e.finish w.pid st v 0) d
  (List.range 48).foldl (fun e i =>
    if h : i < 48 then
      match (e.core ⟨i, h⟩).wait with
      | some (.object m _ _) => if m == n then stop e ⟨i, h⟩ else e
      | _ => e
    else e) d

/-- Register writes of a core's access still wait for their effect. -/
def Die.effectsOf (d : Die) (src : Req × Nat) : Bool :=
  (d.sync.slots.any fun x => x.2.who == some src) || d.sync.clears.any fun x => x.who == some src

/-- An effect of a core's access has come; the last one acknowledges it (R296). -/
def Die.effectEnd (d : Die) (c : CoreIx) (id : Nat) : Die :=
  if d.effectsOf (.core c, id) || !((d.core c).ops.any fun o => o.id == id && o.sent) then d else d.ackAsker { req := .core c, id := id }

/-- The acknowledgement, or the failure, of a slotted signal reaches its source (R265, R270). -/
def Die.signalEnd (d : Die) (source : Nat) (x : SlotSignal) (st : Status) : Die :=
  let d := d.onSync fun u => { u with slots := u.slots.filter fun e => e.1 != source }
  let d := match x.head with
    | some h => d.respond h st []
    | none => d
  match x.who with
  | some (.core c, id) => if st == .ok || x.posted then d.effectEnd c id else d.coreDrops c (fun o => o.id == id) st
  | some (.pkt pid, _) => (if st == .ok || x.posted then d else d.pktError pid st).noteReady
  | _ => d

/-- The register write of a CLEAR has had its effect (R268, R296). -/
def Die.clearEnd (d : Die) (x : ClearReq) : Die :=
  match x.who with
  | some (.core c, id) => d.effectEnd c id
  | some (.pkt _, _) => d.noteReady
  | _ => d

/-- One update of an object: the slotted signals to it are added as one add, after a CLEAR when one is due (R263, R265, R268). -/
def Die.updateObj (d : Die) (n : ObjIx) : Die :=
  let due := d.sync.clears.filter fun x => x.obj == n
  let clear := !due.isEmpty
  let d := if clear then due.foldl Die.clearEnd ((d.setObj n { d.obj n with value := 0, poison := false }).onSync fun u => { u with clears := u.clears.filter fun x => x.obj != n }) else d
  let sigs := d.sync.slots.filter fun e => e.2.obj == n
  if (d.obj n).poison then
    sigs.foldl (fun e s => (e.signalEnd s.1 s.2 .eccUncorrectable).syncErr n 3 s.1
      (match s.2.head with | some h => h.src | none => e.here) s.2.part true) d
  else
    let o := d.obj n
    let d := d.setObj n { o with value := sigs.foldl (fun v s => v + s.2.inc) o.value }
    let d := if clear || !sigs.isEmpty then d.testWaiters n else d
    sigs.foldl (fun e s => e.signalEnd s.1 s.2 .ok) d

/-- The object a bank serves in this cycle: a CLEAR first, else that of the lowest-indexed source (R264, R268). -/
def Die.bankObject (d : Die) (bank : Nat) : Option ObjIx :=
  match d.sync.clears.find? fun x => bankOf x.obj == bank with
  | some x => some x.obj
  | none =>
    let sigs := d.sync.slots.filter fun e => bankOf e.2.obj == bank
    match sigs.foldl (fun (m : Option (Nat × ObjIx)) e => match m with | some x => if x.1 ≤ e.1 then some x else some (e.1, e.2.obj) | none => some (e.1, e.2.obj)) none with
    | some x => some x.2
    | none => none

/-- SYNC_BANK_UPDATE (R263 to R265). -/
def opSyncBankUpdate (bank : Fin 8) (d : Die) : Die :=
  match d.bankObject bank.val with
  | some n => d.updateObj n
  | none => d

/-- WAIT_TIMEOUT (R261): unsatisfied at B(s + TIMEOUT). -/
def opWaitTimeout (pid : Nat) (d : Die) : Die :=
  match d.sync.waiters.find? fun w => w.pid == pid with
  | some w =>
    (match w.deadline with
     | some t =>
       if t ≤ d.tick.count then (d.onSync fun u => { u with waiters := u.waiters.filter fun x => x.pid != pid }).finish pid .aborted (d.obj w.obj).value 0
       else d
     | none => d)
  | none => d

/-- A SIGNAL message of the package, without a window: its owner must equal the stamp (R256). None while its source's
slot is occupied. -/
def Die.peerSignal (d : Die) (m : SignalMsg) : Option Die :=
  if (d.obj m.obj).owner.toNat == m.head.part.val then
    d.slotSignal (portSource m.head.port) { obj := m.obj, inc := m.inc, part := m.head.part.val, who := none, head := some m.head }
  else some ((d.respond m.head .noAuthority []).syncErr m.obj 1 (portSource m.head.port) m.head.src m.head.part.val true)

/-- A SIGNAL message through a window (R256, R438, R440). -/
def Die.windowSignal (d : Die) (m : SignalMsg) : Option Die :=
  let refuse (check cause part : Nat) : Option Die :=
    some (((d.winErr m.head check).respond m.head .outOfWindow []).syncErr m.obj cause (portSource m.head.port) m.head.src part true)
  match d.winOpen m.head with
  | .error check => refuse check 2 m.head.part.val
  | .ok w =>
    if !w.right 3 then refuse 5 2 w.part
    else if (d.obj m.obj).owner.toNat != w.part then refuse 8 1 w.part
    else d.slotSignal (portSource m.head.port) { obj := m.obj, inc := m.inc, part := w.part, who := none, head := some m.head }

/-- A SIGNAL message of this package without a window, on a peer port: it is judged by its stamp. Every other one needs a window with the SIGNAL right (R256,
R435, R438). -/
def Die.byStamp (d : Die) (h : MsgHead) : Bool :=
  h.window.isNone && h.src.pkg == d.here.pkg && match h.port with | .peer _ => true | .opt _ => false

/-- SIGNAL_MSG_RECEIVE (R79, R255, R256): a message of a newer epoch is held at its port, and so is one whose source
slot is occupied; one of an older epoch is recorded too. -/
def opSignalMsgReceive (m : SignalMsg) (d : Die) : Die :=
  d.admitted m.head 5 32 none fun d =>
    match d.fenceOf m.head.epoch with
    | .newer => none
    | .older => some (((d.winRefused m.head 5 2).rejectOld m.head true).syncErr m.obj 4 (portSource m.head.port) m.head.src m.head.part.val false)
    | .same => if d.byStamp m.head then d.peerSignal m else d.windowSignal m

/-- A response to an operation of this die: discarded when none waits for it (R444, R485). -/
def Die.response (d : Die) (tag : W32) (st : Status) (data : List Byte) : Die :=
  match d.ports.ops.find? fun o => o.tag == tag && o.reply.isNone with
  | some o => d.remoteEnd o st data
  | none => d

/-! ### Registers of the objects -/

/-- The object is within the rights of the access: the PF's, or owned by the VF's partition (R266, R550). -/
def Die.mayObj (d : Die) (who : Who) (n : ObjIx) : Bool := who.part.val == 0 || (d.obj n).owner.toNat == who.part.val

/-- SYNC_ADD (R254, R266): source 49; a non-owner's write is dropped, counted and recorded. -/
def opSyncAdd (who : Who) (n : ObjIx) (v : W32) (d : Die) : Die :=
  if d.mayObj who n then
    (d.slotSignal 49 { obj := n, inc := v.setWidth 64, part := who.part.val, who := none, head := none, posted := true, fn := some who.latch }).getD d
  else d.syncErr n 5 49 d.here who.part.val true

/-- A write of SYNC_CTRL: OWNER by the PF only (R267), CLEAR by the PF or the owner's function (R268). -/
def Die.writeSyncCtrl (d : Die) (who : Who) (n : ObjIx) (v : W32) : Die :=
  let owner : BitVec 4 := v.setWidth 4
  let may := d.mayObj who n
  let d :=
    if who.part.val == 0 && owner != (d.obj n).owner then
      let d := d.endWaiters n .aborted fun e c => e.coreFault c 13 (e.core c).pc .noAuthority
      d.setObj n { value := 0, owner := owner, poison := false }
    else d
  if v.getLsbD 4 && may then d.onSync fun u => { u with clears := u.clears ++ [{ obj := n, fn := some who.latch }] } else d

/-- A write of a sync object's register by this accessor has not had its effect yet (R295, R297). -/
def Die.effectDue (d : Die) (who : Who) : Bool :=
  (d.sync.slots.any fun x => x.2.fn == some who.latch) || d.sync.clears.any fun x => x.fn == some who.latch

/-- A requester's register writes that wait for their effect are its own from now on: it is acknowledged then (R296). -/
def Die.ownEffects (d : Die) (who : Who) (src : Req × Nat) : Die :=
  d.onSync fun u => { u with
    slots := u.slots.map fun x => (x.1, if x.2.fn == some who.latch && x.2.who.isNone && x.2.posted then { x.2 with who := some src } else x.2),
    clears := u.clears.map fun x => if x.fn == some who.latch && x.who.isNone then { x with who := some src } else x }

/-- SYNC_OWNER_WRITE (R267). -/
def opSyncOwnerWrite (who : Who) (n : ObjIx) (v : W32) (d : Die) : Die := d.writeSyncCtrl who n v

/-- CLEAR (R268): a write of SYNC_CTRL with CLEAR set and OWNER as it stands. -/
def opClear (who : Who) (n : ObjIx) (d : Die) : Die := d.writeSyncCtrl who n ((d.obj n).owner.setWidth 32 ||| 16)

/-- A read of SYNC_VALUE_LO: the value's low half, with the high half latched for the reader (R543). -/
def Die.readValueLo (d : Die) (who : Who) (n : ObjIx) : W32 × Die :=
  if d.mayObj who n then
    let v := (d.obj n).value
    (v.setWidth 32, d.onSync fun u => { u with hiLatch := assocPut u.hiLatch (who.latch * 8192 + n.val) ((v >>> 32).setWidth 32) })
  else (0, d)

def Die.readValueHi (d : Die) (who : Who) (n : ObjIx) : W32 :=
  if d.mayObj who n then (assoc d.sync.hiLatch (who.latch * 8192 + n.val)).getD 0 else 0

/-- BAR0 offset of an object's registers. -/
def objBase (n : ObjIx) : Nat := 0x2000000 + 16 * n.val

/-- SYNC_VALUE_LO_READ. -/
def opSyncValueLoRead (who : Who) (n : ObjIx) (d : Die) : Die :=
  let (v, d) := d.readValueLo who n
  d.emit (.regData who (objBase n) v)

/-- A read of TICK_NOW_LO latches the high half for the reader (R543). -/
def Die.readTickLo (d : Die) (who : Who) : W32 × Die :=
  (BitVec.ofNat 32 d.tick.now,
   { d with tick := { d.tick with hiLatch := assocPut d.tick.hiLatch who.latch (BitVec.ofNat 32 (d.tick.now / 2 ^ 32)) } })

def Die.readTickHi (d : Die) (who : Who) : W32 := (assoc d.tick.hiLatch who.latch).getD 0

/-- TICK_NOW_LO_READ. -/
def opTickNowLoRead (who : Who) (d : Die) : Die :=
  let (v, d) := d.readTickLo who
  d.emit (.regData who TICK_NOW_LO v)

end Sys2Proof.Machine
end

