-- ==== Sys2Proof/Machine/Interrupts.lean ====
section
/-! DEFINITION. MSI-X vectors, AER messages and their owners (spec 14, R478 to R481; spec 12, R423). -/

namespace Sys2Proof.Machine

def Die.onHost (d : Die) (f : HostUnit → HostUnit) : Die := { d with host := f d.host }

/-- A die vector lies in the allocation of a function. -/
def Die.inAlloc (d : Die) (f dv : Nat) : Bool :=
  decide (d.get (MSIX_ALLOC_BASE f) ≤ dv) && decide (dv < d.get (MSIX_ALLOC_BASE f) + d.get (MSIX_ALLOC_COUNT f))

/-- The die vector of vector `v` of function `f`; a die vector of two allocations belongs to the lower function (R478). -/
def Die.dieVector (d : Die) (f v : Nat) : Option Nat :=
  let dv := d.get (MSIX_ALLOC_BASE f) + v
  if v < d.get (MSIX_ALLOC_COUNT f) && dv < 2048 && !((List.range f).any fun g => d.inAlloc g dv) then some dv else none

def Die.vec (d : Die) (dv : Nat) : MsixVec := tblGet (fun _ => ({} : MsixVec)) d.host.msix dv
def Die.setVec (d : Die) (dv : Nat) (x : MsixVec) : Die := d.onHost fun h => { h with msix := tblPut (fun _ => ({} : MsixVec)) h.msix dv x }

/-- A message of the function's vector is held back (R480, R483). -/
def Die.vecHeld (d : Die) (f dv : Nat) : Bool :=
  let c := d.fn f
  (d.vec dv).masked || c.funcMask || c.d3 || !c.busMaster || d.bit (PART_CTRL_RESETTING f)

/-- Send, or hold as pending, the message of a vector (R223, R479, R480). -/
def Die.interrupt (d : Die) (f v : Nat) : Die :=
  match d.dieVector f v with
  | none => d.count MSIX_DROP_COUNT 1
  | some dv =>
    if d.vecHeld f dv then d.setVec dv { d.vec dv with pending := true }
    else d.emit (.msix f (d.vec dv).addr (d.vec dv).data)

/-- Vectors of a function, as die vectors. -/
def Die.vectorsOf (d : Die) (f : Nat) : List Nat := (List.range (d.get (MSIX_ALLOC_COUNT f))).filterMap (d.dieVector f)

/-- At a boundary, every pending message that nothing holds back any more is sent once (R480). -/
def Die.sendPending (d : Die) : Die :=
  (List.range 16).foldl (fun e f =>
    ((e.host.msix.filter fun x => x.2.pending).map (·.1)).foldl (fun e dv =>
      if (e.vectorsOf f).contains dv && !e.vecHeld f dv then
        (e.setVec dv { e.vec dv with pending := false }).emit (.msix f (e.vec dv).addr (e.vec dv).data)
      else e) e) d

/-- A function-level reset of a function masks its vectors and clears their pending bits (R481). -/
def Die.maskVectors (d : Die) (f : Nat) : Die :=
  (d.vectorsOf f).foldl (fun e dv => e.setVec dv { e.vec dv with masked := true, pending := false }) d

end Sys2Proof.Machine
end

