-- ==== Sys2Proof/Machine/Resets.lean ====
section
/-! DEFINITION. Resets (spec 14, R470, R482 to R492; spec 12, R413 to R417): core, Groom, block, partition and die
reset, and the function-level resets. -/

namespace Sys2Proof.Machine

/-! ### Packets that end early -/

def Pkt.managed (p : Pkt) : Bool := decide (0x80 ≤ p.opcode.toNat)

/-- Bytes a copy has completed (R242). -/
def Die.copied (d : Die) (pid : Nat) : Nat :=
  match d.cp.engines.findSome? fun e => e.2.jobs.find? fun j => j.pid == pid with
  | some j => j.written
  | none => 0

/-- Give a piece of device memory free bytes, by a write that is nobody's. -/
def Die.spoilPiece (part : Nat) (d : Die) (x : Nat × Nat) : Die :=
  let (bs, d) := d.freshBytes x.2
  let write (space : Space) (a : Nat) (once : Bool) : HomeReq :=
    { stop := 59, slice := homeSlice false (lineOf a), line := lineOf a, space := space, key := part, once := once, op := .write a bs,
      who := { req := .reg, id := 0 } }
  match d.translate { req := .reg, stop := 59, tlb := tlbRu, part := part } x.1 true true with
  | (.ok 0 a once, d) => d.askHome (write .dev a once)
  | (.ok 1 a _, d) => d.askHome (write .shr a false)
  | (_, d) => d

/-- The SCRATCH of a packet whose slot ends is unpredictable from then on (R180). Bytes that cannot be reached at that moment keep what they hold
(log entry 85). -/
def Die.spoilScratch (d : Die) (pid : Nat) : Die :=
  match d.ru.slots.find? fun s => s.2.pid == pid, d.pkt? pid with
  | some s, some q => (linePieces (field q.body 72 8) (4 * s.2.inputs * s.2.elements)).foldl (Die.spoilPiece q.part.val) d
  | _, _ => d

def Die.engine (d : Die) (e : Nat) : CopyEngine := tblGet (fun _ => ({} : CopyEngine)) d.cp.engines e

/-- The ring of a job. -/
def Die.jobRing (d : Die) (j : CopyJob) : Nat := match d.pkt? j.pid with | some q => q.ring.val | none => 0

/-- The job whose chunk comes next: the one that waits, else the first of the next ring that has work (R237). -/
def Die.nextJob (d : Die) (e : Nat) : Option CopyJob :=
  let x := d.engine e
  match x.jobs.find? fun j => j.stalled with
  | some j => some j
  | none =>
    let least (js : List CopyJob) : Option CopyJob := js.foldl (fun m j => match m with | some y => if d.jobRing j < d.jobRing y then some j else m | none => some j) none
    match least (x.jobs.filter fun j => match x.served with | some r => decide (r < d.jobRing j) | none => true) with
    | some j => some j
    | none => least x.jobs

/-- Forget what units hold for a packet: waiters, engines, reduction slots, Groom's queue, batches, migrations. -/
def Die.dropWork (d : Die) (pid : Nat) : Die :=
  let d := (d.spoilScratch pid).forget fun r => r.who.req == .pkt pid && !r.writes
  let d := d.onCache fun u => { u with replies := u.replies.filter fun x => x.who.req != .pkt pid }
  { d with
    sync := { d.sync with waiters := d.sync.waiters.filter fun w => w.pid != pid },
    ru := { d.ru with slots := d.ru.slots.filter fun s => s.2.pid != pid, waiting := d.ru.waiting.filter (· != pid),
                      steps := d.ru.steps.filter fun x => x.pid != pid },
    tr := { d.tr with moves := d.tr.moves.filter fun m => m.pid != pid, reads := d.tr.reads.filter fun r => r.req != .pkt pid,
                      writes := d.tr.writes.filter fun w => w.req != .pkt pid },
    cp := { d.cp with
      engines := d.cp.engines.map fun e => (e.1, { e.2 with jobs := e.2.jobs.filter fun j => j.pid != pid }),
      groom := { d.cp.groom with queue := d.cp.groom.queue.filter (· != pid) },
      batches := d.cp.batches.map fun b => { b with reqs := b.reqs.filter fun r => r.pid != pid } } }

/-- A LOAD_PROGRAM packet no longer writes any bank (R112). -/
def Die.endLoad (d : Die) (pid : Nat) : Die :=
  (List.finRange 48).foldl (fun e c => e.onCore c fun k => { k with loading := k.loading.filter (· != pid) }) d

/-- Batch number of the class and row of a request that has joined a batch (table after R222). -/
def Die.batchPlace (d : Die) (pid : Nat) : Option (W64 × W32) :=
  d.cp.batches.findSome? fun b => (b.reqs.find? fun r => r.pid == pid).map fun r => (BitVec.ofNat 64 b.number, BitVec.ofNat 32 r.row)

/-- End a started packet with ABORTED (R484, R250): WAIT answers its object's value, a copy its bytes, a request its place. -/
def Die.abortPkt (d : Die) (pid : Nat) : Die :=
  let v : W64 × W32 := match d.sync.waiters.find? fun w => w.pid == pid with
    | some w => ((d.obj w.obj).value, 0)
    | none => (d.batchPlace pid).getD (BitVec.ofNat 64 (d.copied pid), 0)
  ((d.dropWork pid).endLoad pid).finish pid .aborted v.1 v.2

/-- A packet of the tick unit's: the record of a mode change that the lead has accepted (R246). -/
def Die.ownedByTick (d : Die) (pid : Nat) : Bool := d.tick.asked.any fun a => a.1 == pid

/-- A mode change that is on its way to its lead, which may have accepted it (R246). -/
def Die.atLead (d : Die) (q : Pkt) : Bool := q.opcode == 0x88 && d.ports.ops.any fun o => o.req == .pkt q.pid && o.reply.isNone

/-- A reset meets a packet: it ends, unless it is the tick unit's; one on its way to the lead ends when the lead has not accepted it. -/
def Die.cutPkt (d : Die) (q : Pkt) : Die :=
  if d.ownedByTick q.pid then d else if d.atLead q then d.pktError q.pid .aborted else d.abortPkt q.pid

/-! ### Core reset and core clearing -/

/-- Free values that a core reset may need: 65,536 accumulator elements and 4,096 cells. -/
def wildSpan : Nat := 69632

/-- Core reset (R492, R115): registers cleared, a LOADW abandoned, outstanding operations ended, the store and the
accumulators unpredictable, a pending switch applied. `st` is the slice's status. Parity errors stay until what R136 names clears them. That a
pending switch is applied although a load of the core has not ended, and that the tile-scale buffers keep their contents, is the model's choice
(log entry 78). -/
def Die.coreReset (d : Die) (c : CoreIx) (st : Status) : Die :=
  let d := (d.stopSlice c st).l1Empty (coreStop c)
  let k := d.core c
  let d := d.onPorts fun u => { u with ops := u.ops.filter fun o => match o.req with | .core x | .eng x _ => x != c | _ => true }
  let other (r : Req) : Bool := match r with | .core x | .eng x _ => x != c | _ => true
  let d := (d.forget (ofReq fun r => !other r)).onCache fun u => { u with
    replies := u.replies.filter fun x => other x.who.req, lost := u.lost.filter fun l => other l.1.req }
  let d := d.onTr fun t => { t with
    faults := t.faults.filter fun f => other f.req, reads := t.reads.filter fun r => other r.req, writes := t.writes.filter fun w => other w.req }
  let act := k.switch.isSome && !k.switched
  let d := if act then d.countWrap (PROG_BANK_SWITCH_COUNT c.val) 1 else d
  { d.setCore c { k with
      run := none, wait := none, held := [], inReset := true, sreg := [], vreg := [], mask := [],
      streams := [], engines := [], ops := [], store := [], acc := [], storeFmt := 0,
      wild := some d.freeCtr, active := if act then !k.active else k.active, switched := k.switched || act } with
    freeCtr := d.freeCtr + wildSpan }

/-- A pending SWITCH_PROGRAM ends with ABORTED and its core keeps no switch (R470). -/
def Die.dropSwitch (d : Die) (c : CoreIx) : Die :=
  let k := d.core c
  match k.switch with
  | none => d
  | some pid => (d.setCore c { k with switch := none, switched := false }).finish pid .aborted 0 0

/-- What an assignment does to a core (R470, R319, R359, R131): L1, crib, store, scales, accumulators and both
program banks are cleared, and a pending switch is aborted. It starts no slice in the current tick. -/
def Die.clearCore (d : Die) (c : CoreIx) : Die :=
  let d := (d.dropSwitch c).l1Empty (coreStop c)
  let d := d.onCore c fun k => { k with
    crib := [], cribErr := [], store := [], tileScale := [], tileBuf := false, acc := [], storeBad := [], accBad := [], scaleBad := [],
    storeFmt := 0, wild := none, prog := [], progBad := [], active := false, loading := [], notBefore := d.tick.count + 1 }
  d.put (CRIB_ECC_CORRECTED c.val) 0

/-! ### Groom reset -/

/-- Groom reset (R250, R251, R492): its packets end with ABORTED, its data cache is emptied, a self-test stops; it
restarts from the verified image. -/
def Die.groomReset (d : Die) : Die :=
  let d := (ringOrder (d.pkts.filter fun p => p.managed && p.phase != .finished)).foldl Die.cutPkt d
  let d := (d.l1Empty 48).put GROOM_STATUS_STATE 2
  -- a test that waits is gone; one that runs ends at the next boundary
  let d := match d.boot.test with
    | some t => if t.start.isSome then { d with boot := { d.boot with test := some { t with stopped := true } } }
      else { d.putB ST_STATUS_PENDING false with boot := { d.boot with test := none } }
    | none => d
  { d with cp := { d.cp with restarting := true, groom := { d.cp.groom with queue := [], wdog := 0 } } }

/-! ### Block reset -/

/-- Slices of the cores that satisfy `p` stop with ABORTED and their outstanding accesses end. -/
def Die.stopCores (d : Die) (p : Core → Bool) (drop : CoreOpEntry → Bool) : Die :=
  (List.finRange 48).foldl (fun e c =>
    if p (e.core c) then ((e.stopSlice c .aborted).onCore c fun k => { k with ops := k.ops.filter fun o => !drop o }).settle c else e) d

/-- The started packets whose opcode satisfies `p` end with ABORTED. -/
def Die.abortOpcodes (d : Die) (p : Nat → Bool) : Die :=
  (ringOrder (d.pkts.filter fun q => p q.opcode.toNat && q.phase != .finished)).foldl (fun e q => e.abortPkt q.pid) d

/-- A block reset of one source (R506, R492; log entry 17): its operations in flight end with ABORTED and its queues
empty; registers, error records, counters and memory stay. -/
def Die.blockReset (d : Die) (src : Fin 20) (unit : Nat) : Die :=
  match src.val with
  | 0 | 1 => if h : unit < 48 then
      (d.coreReset ⟨unit, h⟩ .aborted).raise 0 .contained (detail unit 0x30 (d.core ⟨unit, h⟩).slicePart) else d
  | 2 => d.stopCores (fun k => match k.wait with | some (.barrier s _ _) => s == .yard | _ => false) fun _ => false
  | 3 =>
    let busy (k : Core) : Bool := k.ops.any fun o => o.sent && !o.acked && o.value.isNone
    let rs := d.cache.ring.filter fun r => !r.isNote
    let d := (d.stopCores busy fun o => o.sent).onCache fun u => { u with ring := u.ring.filter (·.isNote), blocked := [] }
    rs.foldl (fun e r => e.fails r .aborted) d
  | 4 =>
    let ms := d.cache.mshrs
    let d := d.onCache fun u => { u with mshrs := [], prefetches := [], pushes := [], blocked := [] }
    ms.foldl (fun e m => m.reqs.foldl (fun e r => e.fails r .aborted) e) d
  | 5 =>
    let hit (m : Mshr) : Bool := m.why == .memory || m.why == .far
    let ms := d.cache.mshrs.filter hit
    let d := d.onCache fun u => { u with mshrs := u.mshrs.filter fun m => !hit m }
    ms.foldl (fun e m => m.reqs.foldl (fun e r => e.fails r .aborted) e) d
  | 6 => d.onTr fun t => { t with
      ats := atsDrop (fun _ => true) t.ats, groups := [], abandoned := t.abandoned ++ t.groups.map (fun g => (g.part, g.index, d.tick.count)),
      faults := t.faults.map fun f => { f with state := .failed 3 } }
  | 8 | 9 =>
    let mine (p : LinkPort) : Bool := match p with | .peer _ => src == 8 | .opt _ => src == 9
    let ops := d.ports.ops.filter fun o => mine o.port && o.reply.isNone
    let d := d.onPorts fun u => { u with outq := u.outq.filter (fun q => !mine q.1), held := u.held.filter fun x => !mine x.1 }
    ops.foldl (fun e o => e.remoteEnd o .aborted []) d
  | 10 => d.abortOpcodes fun o => o == 0x10 || o == 0x11 || o == 0x12 || o == 0x13 || o == 0x14 || o == 0x15
  | 11 =>
    let d := d.abortOpcodes fun o => o == 0x20 || o == 0x21 || o == 0x22
    { d with ru := {} }
  | 12 => d.abortOpcodes fun o => decide (o ≤ 0x03) || (decide (0x40 ≤ o) && decide (o ≤ 0x44))
  | 13 =>
    let slots := d.sync.slots
    let d := slots.foldl (fun e s => e.signalEnd s.1 s.2 .aborted) d
    let d := d.abortOpcodes fun o => o == 0x41
    (d.stopCores (fun k => match k.wait with | some (.object ..) => true | _ => false) fun _ => false)
  | 14 => d.groomReset
  | _ => d

/-! ### Partition reset -/

/-- Start the reset of a partition (R482, R483): a request while one is in progress is ignored (R415). -/
def Die.startPartReset (d : Die) (p : Nat) (flr disable : Bool) : Die :=
  if d.bit (PART_CTRL_RESETTING p) then d
  else
    let d := (d.putB (PART_CTRL_RESETTING p) true).putB (PART_CTRL_FLR p) flr
    let d := if disable then d.putB (PART_CTRL_ENABLE p) false else d
    let d := if flr then (d.maskVectors p).setFn p { d.fn p with inFlr := true } else d
    { d with parts := { d.parts with resets := d.parts.resets ++ [{ part := p, flr := flr, disable := disable, past := false }] } }

/-- The reset boundary of a partition (R484), after its slices have stopped and its launches ended
(`Die.resetLaunches`): packets end with ABORTED, windows and slots go, page requests and waiting upstream accesses are
abandoned. -/
def Die.partBoundary (d : Die) (p : Nat) : Die :=
  let mine := ringOrder (d.pkts.filter fun q => q.part.val == p && q.phase != .finished && !d.ownedByTick q.pid)
  let kept (r : Req) : Bool := mine.any fun q => d.atLead q && r == .pkt q.pid
  let d := mine.foldl Die.cutPkt d
  let markers := [d.get (TRANS_PASID_DEV_PASID p), d.get (TRANS_PASID_HOST_PASID p)]
  let d := markers.foldl (fun e x => e.emit (.stopMarker p x)) d
  let d := d.onTr fun t => { t with
    groups := t.groups.filter fun g => g.part != p, abandoned := t.abandoned ++ (t.groups.filter fun g => g.part == p).map (fun g => (g.part, g.index, d.tick.count)),
    faults := t.faults.filter fun f => f.part != p, ats := atsDrop (fun q => q.part == p) t.ats }
  let d := d.onPorts fun u => { u with
    wins := u.wins.filter fun w => match w.2 with | some x => x.part != p | none => true,
    ops := u.ops.filter fun o => o.part != p || kept o.req, outq := u.outq.filter fun q => q.2.1 != p || q.2.2.cls == 4 }
  let d := (d.forget (ofReq fun r => d.reqPart r == some p)).onCache fun u => { u with replies := u.replies.filter fun x => d.reqPart x.who.req != some p }
  let d := d.onHost fun h => { h with p2p := h.p2p.map fun o => if o.part == p then { o with req := .reg } else o }
  let d := { d with
    ru := { d.ru with slots := d.ru.slots.filter fun s => s.2.part.val != p },
    cp := { d.cp with batches := d.cp.batches.filter fun b => b.part.val != p },
    parts := { d.parts with resets := d.parts.resets.map fun r => if r.part == p then { r with past := true } else r } }
  (List.finRange 48).foldl (fun e c =>
    if (e.core c).slicePart == p then (e.onCore c fun k => { k with engines := [], ops := k.ops.filter fun o => o.sent && o.line.isSome }).settle c else e) d

/-- Every reset in progress meets its boundary (R484, R490). -/
def Die.resetBoundary (d : Die) : Die := (d.parts.resets.filter fun r => !r.past).foldl (fun e r => e.partBoundary r.part) d

/-- An operation of the partition is still in flight on the die (R486). -/
def Die.partBusy (d : Die) (p : Nat) : Bool :=
  (d.cores.any fun k => k.2.slicePart == p && k.2.run.isSome)
  || (d.pkts.any fun q => q.part.val == p && !d.ownedByTick q.pid)
  || (d.cp.rings.any fun r => r.2.part.toNat == p && !r.2.halted && !r.2.kept.isEmpty)
  || (d.requests.any fun r => r.part == p || (!r.host && r.key == p))
  || d.cache.invs.any fun v => match v.done with | .ack r => d.reqPart r.who.req == some p | _ => false

/-- A QoS level at its burst (R486): the level is a signed number. -/
def Die.fillBucket (d : Die) (p r : Nat) : Die := d.putRaw (QOS_LEVEL p r) (min (d.raw (QOS_BURST p r)) 0x7FFFFFFF)

/-- PARTITION_CLEAR (R486, R487): once nothing of the partition is in flight, it is cleared and its reset ends. -/
def opPartitionClear (p : PartIx) (d : Die) : Die :=
  match d.parts.resets.find? fun r => r.part == p.val && r.past with
  | none => d
  | some r =>
    if d.partBusy p.val then d
    else
      let d := (d.forgetPart p.val).onTr fun t => { t with
        tables := t.tables.filter fun x => x.1 != p.val, frames := t.frames.filter fun f => f.part != p.val, moves := t.moves.filter fun m => m.part != p.val }
      let d := (d.put (PT_ROOT_ROOT p.val) 0).drawKey p.val
      let d := (List.finRange 48).foldl (fun e c =>
        if e.bit (CORE_ASSIGN_ASSIGNED c.val) && e.get (CORE_ASSIGN_PARTITION c.val) == p.val then e.clearCore c else e) d
      let d := d.onSync fun u => { u with
        objs := u.objs.filterMap fun o => if o.2.owner.toNat == p.val then
          (if o.2.owner == 0 then none else some (o.1, { o.2 with value := 0, poison := false })) else some o }
      let d := d.cp.rings.foldl (fun e x =>
        let g : Ring := { x.2 with enable := false, disabling := false, reserved := 0, kept := [] }
        if x.2.part.toNat == p.val then { e with cp := { e.cp with rings := tblPut (fun _ => ({} : Ring)) e.cp.rings x.1 g } } else e) d
      let d := [PLAN_OFFSET p.val, SLIP_COUNT p.val, COALESCE_STAT p.val, RU_SLOTS p.val, REDUCE_WIN p.val].foldl (fun e o => e.putRaw o (regReset o)) d
      let d := (List.range 5).foldl (fun e i => e.fillBucket p.val i) d
      let d := if r.flr then ((d.maskVectors p.val).setFn p.val (if p.val == 0 then { d.fn 0 with inFlr := false, priEnable := false } else {})).onTr fun t => { t with
          prOff := t.prOff.filter (· != p.val) }
        else d
      let d := { d with parts := { d.parts with resets := d.parts.resets.filter fun x => x.part != p.val } }
      (d.putB (PART_CTRL_RESETTING p.val) false).count PQ_STATUS_RESETS 1

/-! ### Function-level resets -/

/-- FLR_VF (R413 to R415). Partition 0 has no VF: nothing happens. -/
def opFlrVf (p : PartIx) (d : Die) : Die := if p.val == 0 then d else d.startPartReset p.val true false

/-- FLR_PF (R416): every partition of the die, and VF Enable. -/
def opFlrPf (d : Die) : Die :=
  ((List.range 16).foldl (fun e p => e.startPartReset p true false) d).onHost fun h => { h with vfEnable := false }

/-! ### Die reset -/

/-- Registers that a die reset leaves as they are: those of the always-on domains (R33, R492), but for what a boot sets
again and the ramp registers, which belong to the yards. -/
def keptByReset (off : Nat) : Bool :=
  (decide (FAULT_STATUS ≤ off) && decide (off < 0x40000) && off != PWR_STATUS && off != ST_STATUS && !inArr off (YARD_RAMP 0) 6 4) || off == SEC_ERR

/-- Boot begins (R26, R546, R564, R547): the straps are sampled, and cores disabled by fuse are assigned to no partition. -/
def Die.beginBoot (d : Die) : Die :=
  let d := { d with boot := { d.boot with phase := .boot },
                    dieId := if d.pins.lead then some 0 else d.dieId, pkgId := if d.pins.lead then some d.pins.pkgStrap else d.pkgId }
  (List.range 48).foldl (fun e c => if sub e.fuses.arrays.toNat (4 * c) 4 == 0 then e.putRaw (CORE_ASSIGN c) 0 else e) d

/-- What a die reset leaves before new keys are drawn (R33, R492): the always-on domains with the events they have not taken, the fuses, the
cells of memory and HBM_STATUS.ZEROED stay. -/
def Die.bare (d : Die) : Die :=
  let e : Die := {
    fuses := d.fuses, freeCtr := d.freeCtr, clk := d.clk, out := d.out,
    regs := d.regs.filter fun r => keptByReset r.1,
    cache := { nextInv := d.cache.nextInv },
    mem := { hbm := d.mem.hbm, tag := d.mem.tag, err := d.mem.err, keyGen := d.mem.keyGen, keys := d.mem.keys, keysHeld := d.mem.keysHeld, recordGen := d.mem.recordGen },
    fault := { d.fault with irqDue := false },
    power := { d.power with move := none, service := false },
    pins := { d.pins with idFrames := [], idSending := false, vid := 0x3C },
    boot := { phase := .off, cold := false, i3cAddr := d.boot.i3cAddr, jtag := d.boot.jtag } }
  (List.range 32).foldl (fun x i => x.put (THERM_SENSOR_PEAK i) 0) (e.putB HBM_STATUS_ZEROED (d.bit HBM_STATUS_ZEROED))

/-- Die reset (R492, R356, R358, R392, R507): every key pair is lost, and new ones are drawn for all partitions; boot starts again. -/
def Die.dieReset (d : Die) : Die :=
  let e := (List.range 16).foldl (fun x p => (x.loseKey p).drawKey p) d.bare
  if d.pins.pwrGood && d.pins.resetN then e.beginBoot else e

end Sys2Proof.Machine
end

