-- ==== Sys2Proof/Machine/Collector.lean ====
section
/-! DEFINITION. The fault collector (spec 15): taking events, the history, reactions, ERR_N, and the dormant state; and
what the physical upsets of the units do (R88, R136, R270, R344, R349, R497). -/

namespace Sys2Proof.Machine

def Die.onFault (d : Die) (f : FaultUnit → FaultUnit) : Die := { d with fault := f d.fault }

/-! ### Class words and ERR_N -/

def classWord : Cls → Nat
  | .corrected => FAULT_CORRECTED
  | .contained => FAULT_CONTAINED
  | .fatal => FAULT_FATAL

/-- FAULT_STATUS: the or of the three class words (R496). -/
def Die.faultStatus (d : Die) : Nat := (d.raw FAULT_CORRECTED).lor ((d.raw FAULT_CONTAINED).lor (d.raw FAULT_FATAL))

/-- The die drives ERR_N low (R509). -/
def Die.errDrive (d : Die) : Bool := d.raw FAULT_PIN_HOLD != 0 || d.boot.phase == .dormant

/-- A write of 1s to a class word; a hold bit goes once its bit is clear in all three words (R509, R515). -/
def Die.clearClass (d : Die) (c : Cls) (v : Nat) : Die :=
  let old := d.raw (classWord c)
  let d := d.putRaw (classWord c) (old - old.land (v % 2 ^ 20))
  d.putRaw FAULT_PIN_HOLD ((d.raw FAULT_PIN_HOLD).land d.faultStatus)

/-- Raise Groom's trap, or leave it held (R505). -/
def Die.trap (d : Die) : Die := d.putB FAULT_IRQ_NMI_HELD true

/-! ### History (R498 to R502) -/

def clsCode : Cls → Nat
  | .corrected => 1 | .contained => 2 | .fatal => 3

def Die.histAt (d : Die) (i : Nat) : HistEntry := tblGet (fun _ => ({} : HistEntry)) d.fault.hist i
def Die.setHist (d : Die) (i : Nat) (h : HistEntry) : Die := d.onFault fun u => { u with hist := tblPut (fun _ => ({} : HistEntry)) u.hist i h }

/-- Time stamp of an event: the wall tick, or reference clocks since power good with NO_TICK. -/
def Die.faultTime (d : Die) : Nat × Bool := if d.tick.runs then (d.tick.now, false) else (d.clk, true)

/-- Two stamps fall in the same tick (R500). -/
def sameTick (a b : Nat × Bool) : Bool := a.2 == b.2 && (if a.2 then a.1 / 1000 == b.1 / 1000 else a.1 == b.1)

/-- The newest of the history entries that satisfy `p`, or the oldest. -/
def Die.pickHist (d : Die) (newest : Bool) (p : HistEntry → Bool) : Option Nat :=
  (d.fault.hist.filter fun h => p h.2).foldl (fun (m : Option (Nat × Nat)) h =>
    match m with
    | none => some (h.1, h.2.order)
    | some x => if (if newest then decide (x.2 < h.2.order) else decide (h.2.order < x.2)) then some (h.1, h.2.order) else m) none |>.map (·.1)

/-- Write an event into the history. -/
def Die.writeHist (d : Die) (e : Event) : Die :=
  let t := d.faultTime
  let same (h : HistEntry) : Bool := h.valid && h.src == e.src && h.cls == clsCode e.cls
  match (d.pickHist true same).filter fun i => sameTick ((d.histAt i).tick, (d.histAt i).noTick) t with
  | some i => d.setHist i { d.histAt i with repeat_ := min 15 ((d.histAt i).repeat_ + 1) }
  | none =>
    let count := d.get FAULT_HIST_CTRL_COUNT
    let first := !d.bit FAULT_HIST_CTRL_FIRST_VALID
    let (i, d) := if count < 16 then (d.get FAULT_HIST_CTRL_NEXT, d.put FAULT_HIST_CTRL_COUNT (count + 1))
      else ((d.pickHist false fun h => !h.first).getD 0, d.count FAULT_HIST_CTRL_LOST 1)
    let h : HistEntry := { tick := t.1, src := e.src, cls := clsCode e.cls, first := first, forced := e.forced, noTick := t.2,
                           valid := true, repeat_ := 0, detail := e.detail, order := d.fault.order + 1 }
    let d := ((d.setHist i h).onFault fun u => { u with order := u.order + 1 }).put FAULT_HIST_CTRL_NEXT (i + 1)
    if first then (d.put FAULT_HIST_CTRL_FIRST i).putB FAULT_HIST_CTRL_FIRST_VALID true else d

/-- R516: VALID and FIRST go in every entry; the entries' other fields stay. -/
def Die.clearHist (d : Die) : Die :=
  let d := d.onFault fun u => { u with hist := u.hist.map fun h => (h.1, { h.2 with valid := false, first := false }) }
  (((d.put FAULT_HIST_CTRL_COUNT 0).put FAULT_HIST_CTRL_FIRST 0).putB FAULT_HIST_CTRL_FIRST_VALID false).put FAULT_HIST_CTRL_LOST 0

/-! ### Taking events (R495, R496, R503 to R508) -/

/-- The reaction set of a source and class: [0] IRQ, [1] NMI, [2] BLOCK_RESET, [3] DIE_RESET, [4] ERR_PIN. -/
def Die.reaction (d : Die) (s : Fin 20) : Cls → BitVec 5
  | .corrected => BitVec.ofNat 5 (d.get (FAULT_REACT_CORR s.val))
  | .contained => BitVec.ofNat 5 (d.get (FAULT_REACT_CONT s.val))
  | .fatal => BitVec.ofNat 5 (d.get (FAULT_REACT_FATAL s.val))

/-- Take one event: status bit, history, interrupt, trap, pin and, from a die whose host port runs, AER. -/
def Die.take (d : Die) (e : Event) : Die :=
  let w := classWord e.cls
  let d := d.putRaw w ((d.raw w).lor (2 ^ e.src.val))
  let d := if e.cls == .corrected && !d.bit FAULT_HIST_CTRL_CORR_EN then d else d.writeHist e
  let r := d.reaction e.src e.cls
  let d := if r.getLsbD 0 then d.onFault fun u => { u with irqDue := true } else d
  let d := if r.getLsbD 1 then d.trap else d
  let d := if r.getLsbD 4 then d.putRaw FAULT_PIN_HOLD ((d.raw FAULT_PIN_HOLD).lor (2 ^ e.src.val)) else d
  if e.cls == .fatal && d.running then d.emit (.aer 0 .internalFatal) else d

/-- The interrupt of the IRQ reaction (R504). -/
def Die.faultIrq (d : Die) : Die :=
  if d.fault.irqDue then (d.onFault fun u => { u with irqDue := false }).interrupt 0 (d.get FAULT_IRQ_VECTOR) else d

/-- The events of one collector cycle: the first of each source, in ascending source index (R495). -/
def cycleOf (es : List Event) : List Event := (List.finRange 20).filterMap fun s => es.find? fun e => e.src == s

/-- One collector cycle: take, then block resets, then a die reset (R506, R507). In reset and in the dormant state events are only
recorded (R33, R519; log entry 73). -/
def Die.collect (d : Die) (es : List Event) : Die :=
  let rs := es.map fun e => (e, d.reaction e.src e.cls)
  let d := es.foldl Die.take d
  if !d.running then d
  else if rs.any fun r => r.2.getLsbD 3 then d.dieReset
  else
    let d := rs.foldl (fun x r => if r.2.getLsbD 2 then x.blockReset r.1.src (r.1.detail.toNat % 256) else x) d
    if d.tick.runs then d else d.faultIrq

def Die.collectAll : Nat → List Event → Die → Die
  | 0, _, d => d
  | _, [], d => d
  | n + 1, es, d =>
    let now := cycleOf es
    Die.collectAll n (now.foldl (fun l e => l.erase e) es) (d.collect now)

/-! ### Physical upsets -/

/-- An event of source 19 with its record (R528 table after R531). -/
def Die.secEvent (d : Die) (cause : Nat) (cls : Cls) : Die :=
  (d.record SEC_ERR_VALID [(SEC_ERR_CAUSE, cause), (SEC_ERR_STAGE, d.get BOOT_STATUS_STAGE)]).raise 19 cls
    (detail (d.get BOOT_STATUS_STAGE) cause 0)

/-- An event of source 18 with its record. -/
def Die.pwrEvent (d : Die) (cause unit extra : Nat) (cls : Cls) : Die :=
  (d.record PWR_ERR_VALID [(PWR_ERR_CAUSE, cause), (PWR_ERR_UNIT, unit)]).raise 18 cls (detail unit cause extra)

/-- Ways of a slice that are neither locked nor disabled; a slice with fewer than 4 unlocks its lowest (R346). -/
def Die.unlockWays (d : Die) (slice : SliceIx) : Die :=
  (List.range 16).foldl (fun e w =>
    if ((List.range 16).filter fun x => e.wayFree slice x).length < 4 && maskBit (BitVec.ofNat 16 (e.get (DC_WAYS_LOCKED slice.val))) w
    then e.put (DC_WAYS_LOCKED slice.val) ((setMask (BitVec.ofNat 16 (e.get (DC_WAYS_LOCKED slice.val))) w false).toNat) else e) d

/-- An uncorrectable word in a sector of a slice's array (table before R345). -/
def Die.sectorUpset (d : Die) (slice : SliceIx) (set way : Nat) (sector : Fin 4) : Die :=
  match d.cline (wayKey slice set way) with
  | none => d
  | some c =>
    if c.dirty.getLsbD sector.val then
      (d.setCline (wayKey slice set way) { c with poison := setMask c.poison sector.val true }).dcError slice way set 2 .contained
    else if c.valid.getLsbD sector.val then
      ((d.setCline (wayKey slice set way) { c with valid := setMask c.valid sector.val false }).count DC_CORRECTED_PARITY 1).dcError slice way set 1 .corrected
    else d

def Die.hayUpset (d : Die) (slice : SliceIx) (entry : Nat) (sector : Fin 4) : Die :=
  match (d.hay slice)[entry]? with
  | none => d
  | some c =>
    let put (x : CLine) : Die := d.setHay slice ((d.hay slice).set entry x)
    if c.dirty.getLsbD sector.val then (put { c with poison := setMask c.poison sector.val true }).dcError slice (entry % 16) (setOf c.addr) 3 .contained
    else if c.valid.getLsbD sector.val then
      ((put { c with valid := setMask c.valid sector.val false }).count DC_CORRECTED_PARITY 1).dcError slice (entry % 16) (setOf c.addr) 1 .corrected
    else d

/-- Tag parity of a way: it is disabled and its line is gone (table before R345). -/
def Die.tagUpset (d : Die) (slice : SliceIx) (set way : Nat) : Die :=
  let dirty := match d.cline (wayKey slice set way) with | some c => c.dirty != 0 | none => false
  let d := (d.dropCline (wayKey slice set way)).put (DC_WAYS_DISABLED slice.val)
    ((setMask (BitVec.ofNat 16 (d.get (DC_WAYS_DISABLED slice.val))) way true).toNat)
  (if dirty then d.dcError slice way set 5 .fatal else d.dcError slice way set 4 .contained).unlockWays slice

/-- Parity in an L1 or in Groom's cache: the line is invalidated (table before R345; R497). -/
def Die.l1Upset (d : Die) (stop : Fin 49) (addr : Nat) : Die :=
  let st : Fin 64 := ⟨stop.val, by omega⟩
  match d.cache.l1.find? fun e => e.1 / 512 == stop.val && e.2.addr == lineOf addr with
  | none => d
  | some (k, l) =>
    let d := (d.l1Drop k).l1Note st l.addr l.host (if l.excl then .release else .evict)
    let d := (d.count DC_CORRECTED_PARITY 1).dcRecord (homeSlice l.host l.addr) 0 stop.val 7
    if h : stop.val < 48 then d.raise 0 .corrected (detail stop.val 0x32 (d.core ⟨stop.val, h⟩).slicePart)
    else d.raise 14 .corrected (detail 0 2 0)

/-- Parity in a tally (table before R345): every caching agent is emptied and the entries go; a line in E, and its entry, goes with its release (R319,
R330). -/
def Die.tallyUpset (d : Die) : Die :=
  let d := (List.finRange 49).foldl (fun e i => e.l1Empty ⟨i.val, by omega⟩) d
  let d := d.onCache fun u => { u with tally := u.tally.filter fun t => t.2.excl }
  (d.cache.invs.foldl (fun e v => e.settleLine v.line v.host) d).retryTally.retryPushes

/-- A yard's error (YARD_ERR): what stops is the slice of the named core, or every core of the yard at a barrier. -/
def Die.yardUpset (d : Die) (yard : Fin 6) (cause : Nat) (core : CoreIx) : Die :=
  let d := (d.record YARD_ERR_VALID [(YARD_ERR_YARD, yard.val), (YARD_ERR_CAUSE, cause)]).raise 2
    (if cause == 1 then .corrected else .contained) (detail yard.val cause 0)
  match cause with
  | 2 => d.stopSlice core .eccUncorrectable
  | 3 => (List.finRange 48).foldl (fun e c =>
      if c.val / 8 == yard.val && (match (e.core c).wait with | some (.barrier ..) => true | _ => false) then e.stopSlice c .eccUncorrectable else e) d
  | _ => d

/-- An uncorrectable VALUE: the object is poisoned and its waiters fail (R270). -/
def Die.poisonObj (d : Die) (n : ObjIx) : Die :=
  let d := d.endWaiters n .eccUncorrectable fun e c => e.stopSlice c .eccUncorrectable
  (d.setObj n { d.obj n with poison := true }).raise 13 .contained (detail (bankOf n) 2 n.val)

/-- A crib word after another upset: a second wrong bit of a word cannot be corrected (R88; log entry 81). -/
def cribErrMore (old : Option CribErr) (bad : Bool) : CribErr := if bad || old.isSome then .bad else .single

/-- What one physical upset does in its unit. -/
def Die.upset (d : Die) : Upset → Die
  | .cribWord c w bad => d.onCore c fun k => { k with cribErr := assocPut k.cribErr w (cribErrMore (assoc k.cribErr w) bad) }
  | .storeRow c r => d.onCore c fun k => { k with storeBad := (k.storeBad.filter (· != r.val)) ++ [r.val] }
  | .accRow c a r => d.onCore c fun k => { k with accBad := (k.accBad.filter (· != a.toNat * 256 + r.toNat)) ++ [a.toNat * 256 + r.toNat] }
  | .scaleBuf c t a r => d.onCore c fun k => { k with scaleBad := (k.scaleBad.filter (· != (t, a, r))) ++ [(t, a, r)] }
  | .progWord c b i => d.onCore c fun k =>
      let j := (if b then 16384 else 0) + i % 16384
      { k with progBad := (k.progBad.filter (· != j)) ++ [j] }
  | .syncObj n bad => if bad then d.poisonObj n else d.raise 13 .corrected (detail (bankOf n) 1 n.val)
  | .hbm a x => d.hbmUpset a x
  | .cacheWord s set w sec bad =>
      if bad then d.sectorUpset s set w.val sec
      else (d.count DC_CORRECTED_DATA 1).raise 4 .corrected (detail s.val 0 set)
  | .hayWord s e sec => d.hayUpset s e sec
  | .cacheTag s set w => d.tagUpset s set w.val
  | .tally s =>
      (d.tallyUpset.count DC_CORRECTED_PARITY 1).dcError s 0 0 6 .corrected
  | .l1Line st a => d.l1Upset st a
  | .tlb st p => (d.onTr fun t => { t with tlb := t.tlb.filter fun e => e.part != p.val }).raise 6 .corrected (detail st.val 1 p.val)
  | .faultQueue st p => d.raise 6 .fatal (detail st.val 3 p.val)
  | .copyBuffer e =>
      (match d.nextJob e.val with
       | some j => ((d.dropWork j.pid).finish j.pid .eccUncorrectable (BitVec.ofNat 64 j.written) 0).raise 10 .contained (detail e.val 1 (d.jobRing j))
       | none => d.raise 10 .contained (detail e.val 1 (d.engine e.val).lastRing))
  | .bucket p r => (d.fillBucket p.val r.val).raise 16 .corrected (detail p.val 1 r.val)
  | .msixTable f v =>
      let d := match d.dieVector f.val v with | some dv => d.setVec dv { d.vec dv with masked := true } | none => d
      d.raise 16 .contained (detail f.val 2 v)
  | .ring st dir cause =>
      (d.record RING_ERR_VALID [(RING_ERR_STOP, st.val), (RING_ERR_DIR, if dir then 1 else 0), (RING_ERR_CAUSE, cause.val + 1)]).raise 3
        (if cause.val < 2 then .corrected else .fatal) (detail st.val (cause.val + 1) 0)
  | .yard y cause c => d.yardUpset y (cause.val + 1) c
  | .keyStore => d.secEvent 5 .fatal
  | .fuseRead => d.secEvent 6 .fatal
  | .hostProtocol => d.raise 7 .fatal (detail 0 0 0)
  | .randomSource => ({ d with mem := { d.mem with keysHeld := true } }).secEvent 4 .contained
  | .collectorReg w => d.onFault fun u => { u with check := some { word := w, injected := false, mismatch := false } }
  | .collectorMismatch w => d.onFault fun u => { u with check := some { word := w, injected := false, mismatch := true } }

/-- The upset is found in an always-on domain (R33). -/
def alwaysOn : Upset → Bool
  | .collectorReg _ | .collectorMismatch _ | .keyStore | .fuseRead | .randomSource => true
  | _ => false

/-- FAULT_EVENT (R495): upsets found by the units whose clocks run, then the collector takes what is slotted. -/
def opFaultEvent (us : List Upset) (d : Die) : Die :=
  let d := (us.filter fun u => d.running || alwaysOn u).foldl Die.upset d
  let es := d.fault.slots
  Die.collectAll es.length es (d.onFault fun u => { u with slots := [] })

/-! ### Registers and pins of the collector -/

/-- NMI_ACK (R505, R582): Groom, serving, releases its trap and reads the history again. -/
def opNmiAck (d : Die) : Die :=
  if d.bit FAULT_IRQ_NMI_HELD && !d.cp.restarting && d.running then
    (d.putB FAULT_IRQ_NMI_HELD false).onFault fun u => { u with readOrder := u.order }
  else d

/-- Slot forced events of a class (R513). -/
def Die.force (d : Die) (c : Cls) (v : Nat) : Die :=
  d.onFault fun u => { u with slots := u.slots ++ (((List.finRange 20).filter fun s => maskBit (BitVec.ofNat 32 v) s.val).map fun s =>
    ({ src := s, cls := c, detail := 0, forced := true } : Event)) }

/-- ERR_N_SENSE_FALL (R512). -/
def opErrNSenseFall (d : Die) : Die :=
  if d.errDrive then d
  else
    let d := ({ d with pins := { d.pins with errSense := false } }).putB FAULT_PIN_SENSE_FELL true
    if d.bit FAULT_PIN_SENSE_NMI then d.trap else d

/-! ### The dormant state (R517 to R519) -/

/-- Every port goes down with the die (R518, R430): its operations are lost. -/
def Die.portsOff (d : Die) : Die :=
  let d := d.loseOps fun _ => true
  let d := (List.range 4).foldl (fun e n => e.put (PEER_STATE_STATE n) 0) d
  let d := (List.range 2).foldl (fun e n => e.put (OPT_STATE_STATE n) 0) d
  d.onPorts fun u => { u with outq := [], held := [], peer := [], opt := [] }

/-- DORMANT_CAUSE of a failed check (R518, R520). -/
def Die.dormantCause (d : Die) (c : SelfCheck) : Die :=
  ((((d.putB DORMANT_CAUSE_DORMANT true).putB DORMANT_CAUSE_INJECTED c.injected).putB DORMANT_CAUSE_PARITY (!c.mismatch)).putB DORMANT_CAUSE_MISMATCH
    c.mismatch).put DORMANT_CAUSE_REG c.word

/-- Entry to the dormant state: DORMANT_CAUSE, ports held in reset, one AER message, HBM in self-refresh. -/
def Die.enterDormant (d : Die) (c : SelfCheck) : Die :=
  let d := ((d.dormantCause c).portsOff).emit (.aer 0 .internalFatal)
  let d := d.putB HBM_STATUS_SELF_REFRESH true
  { d with boot := { d.boot with phase := .dormant }, fault := { d.fault with check := none } }

/-- Leaving by RESET_N (R519): a die reset that also returns every collector register to its reset value, except
DORMANT_CAUSE, which keeps its fields, with DORMANT clear and WAS_DORMANT set. -/
def Die.leaveDormant (d : Die) : Die :=
  let cause := d.raw DORMANT_CAUSE
  let d := d.dieReset
  let d := { d with regs := d.regs.filter fun r => !(decide (FAULT_STATUS ≤ r.1) && decide (r.1 < 0x30000)), fault := { slots := d.fault.slots } }
  ((d.putRaw DORMANT_CAUSE cause).putB DORMANT_CAUSE_DORMANT false).putB DORMANT_CAUSE_WAS_DORMANT true

/-- DORMANT_ENTRY (R518): the check of the next collector cycle has found an error. A die that is dormant stays as it is; one whose
RESET_N is low leaves the state at once (R519). -/
def opDormantEntry (d : Die) : Die :=
  match d.fault.check with
  | none => d
  | some c => if d.running then d.enterDormant c else if d.boot.phase == .dormant then d else (d.dormantCause c).leaveDormant

end Sys2Proof.Machine
end

