-- ==== Sys2Proof/Machine/Power.lean ====
section
/-! DEFINITION. Power, clocks and temperature (spec 16, R521 to R531, R583; R44). -/

namespace Sys2Proof.Machine

def Die.onPower (d : Die) (f : PowerUnit → PowerUnit) : Die := { d with power := f d.power }

/-- Core clock of a point in MHz; 7 is the boot point (R521). -/
def pointMHz : Nat → Nat
  | 0 => 1100 | 1 => 1000 | 2 => 900 | 3 => 800 | 4 => 700 | 5 => 600 | _ => 999

/-- Nominal power of a point in watts (R521). -/
def pointWatts : Nat → Nat
  | 0 => 1069 | 1 => 900 | 2 => 769 | 3 => 654 | 4 => 554 | _ => 477

/-- VID of a point: 0.500 V + 5 mV × VID (R556). -/
def pointVid : Nat → Byte
  | 0 => 0x46 | 1 => 0x3C | 2 => 0x34 | 3 => 0x2C | 4 => 0x24 | 5 => 0x1E | _ => 0x3C

/-- The floor of a cap: point and duty (R527). -/
def capFloor (cap : Nat) : Nat × Nat :=
  match (List.range 6).find? fun p => decide (pointWatts p ≤ cap) && decide (478 ≤ cap) with
  | some p => (p, 16)
  | none => (5, (10 * cap - 2515) * 16 / 2258)

/-- Guard length in reference clocks (R41). -/
def Die.guardClocks (d : Die) : Nat := d.get TICK_PERIOD_PERIOD * d.get TICK_GUARD_GUARD_PCT / 100

/-- CYCLE_BUDGET (R44). -/
def Die.setBudget (d : Die) : Die :=
  d.put CYCLE_BUDGET_BUDGET ((d.get TICK_PERIOD_PERIOD - d.guardClocks) * pointMHz (d.get PWR_STATUS_POINT) / 100)

/-- The duty in force: 0 in a thermal halt, 8 at the junction limit, FAST_K during a fast limit (R526, R528, R530). -/
def Die.setDuty (d : Die) : Die :=
  d.put PWR_STATUS_K
    (if d.power.haltDue || d.bit PWR_CTRL_THERMAL_HALT then 0
     else if d.power.hot then 8
     else if d.power.fast then d.get PWR_CTRL_FAST_K
     else d.power.k)

def Die.setVid (d : Die) (p : Nat) : Die := { d with pins := { d.pins with vid := pointVid p } }
def Die.setPoint (d : Die) (p : Nat) : Die := d.put PWR_STATUS_POINT p

/-- The guard: compare the measured power with the cap and decide a move of one point (R522, R524). `scaled` is the
nominal power of the next point up, scaled by the measured load. -/
def Die.powerGuard (d : Die) (watts scaled : Nat) : Die :=
  let d := d.onPower fun u => { u with watts := watts }
  let cap := d.get PWR_CAP_WATTS
  let p := d.get PWR_STATUS_POINT
  if !d.power.service || d.bit PWR_CTRL_THERMAL_HALT || d.power.move.isSome then d
  else if cap < watts then (if p < 5 then d.onPower fun u => { u with move := some (.fall (d.tick.count + 1)) } else d)
  else if watts * 10 < cap * 9 && decide (d.get PWR_CTRL_MAX_POINT < p) && decide (scaled ≤ cap) && !d.power.throttled then
    d.onPower fun u => { u with move := some (.rise (d.tick.count + 2)) }
  else d

/-- The duty limit at a boundary (R526): down by 2 at P5 above the cap, up by 2 below 90 % of it. -/
def Die.dutyStep (d : Die) : Die :=
  let cap := d.get PWR_CAP_WATTS
  let w := d.power.watts
  d.onPower fun u => { u with
    fast := false
    k := if d.get PWR_STATUS_POINT == 5 && decide (cap < w) then u.k - 2
    else if w * 10 < cap * 9 then min 16 (u.k + 2) else u.k }

/-- A decided move takes effect (R521, R522): voltage first when it rises. -/
def Die.movePoint (d : Die) : Die :=
  let p := d.get PWR_STATUS_POINT
  match d.power.move with
  | some (.fall t) => if t ≤ d.tick.count then ((d.setPoint (min 5 (p + 1))).setVid (min 5 (p + 1))).onPower fun u => { u with move := none } else d
  | some (.rise t) =>
    if t ≤ d.tick.count then (d.setPoint (p - 1)).onPower fun u => { u with move := none }
    else if t ≤ d.tick.count + 1 then d.setVid (p - 1) else d
  | none => d

/-- Thermal throttling takes one point at each boundary, down to P5 (R528). -/
def Die.throttleStep (d : Die) : Die :=
  let p := d.get PWR_STATUS_POINT
  if d.power.throttled then
    let d := if p < 5 then (d.setPoint (p + 1)).setVid (p + 1) else d
    d.onPower fun u => { u with move := none }
  else d

/-- A thermal halt begins at a boundary (R530). -/
def Die.thermalHalt (d : Die) : Die :=
  let d := (List.finRange 48).foldl (fun e c => if (e.core c).run.isSome then e.stopSlice c .aborted else e) d
  let d := ((d.putB PWR_CTRL_THERMAL_HALT true).setPoint 5).setVid 5
  (d.putB HBM_STATUS_SELF_REFRESH true).onPower fun u => { u with haltDue := false, move := none }

/-- The controller's work at a boundary. `tick` is false at a beat before RUN, where only K and the halt act (R583). -/
def Die.powerBoundary (d : Die) (tick : Bool) : Die :=
  let d := d.put PWR_STATUS_WATTS d.power.watts
  let d := d.dutyStep
  let d := if d.power.haltDue then d.thermalHalt else d
  let d :=
    if !tick || d.bit PWR_CTRL_THERMAL_HALT then d
    else if d.power.service then d.movePoint.throttleStep
    else
      let p := max (d.get PWR_FLOOR_POINT) (d.get PWR_CTRL_MAX_POINT)
      ((d.setPoint p).setVid p).onPower fun u => { u with service := true }
  (if d.power.service then d.setBudget else d).setDuty

/-! ### Sensors (R528 to R531) -/

/-- A reading as the register holds it. -/
def tempByte (t : Int) : Nat := (t % 256).toNat
def byteTemp (n : Nat) : Int := if n < 128 then n else n - 256

/-- One sensor's sample: its register, its peak, its exclusion. -/
def Die.sensor (d : Die) (i : Nat) (t : Option Int) : Die :=
  let missing := match assoc d.power.absent i with | some n => n | none => 0
  let bad := match t with
    | some x => decide (x < -40) || decide (150 < x)
    | none => decide (10 ≤ missing + 1)
  let was := d.bit (THERM_SENSOR_EXCLUDED i)
  let d := d.onPower fun u => { u with absent := match t with | some _ => u.absent.filter (·.1 != i) | none => assocPut u.absent i (missing + 1) }
  let d := match t with
    | some x =>
      let d := d.put (THERM_SENSOR_TEMP i) (tempByte x)
      if !bad && decide (byteTemp (d.get (THERM_SENSOR_PEAK i)) < x) then d.put (THERM_SENSOR_PEAK i) (tempByte x) else d
    | none => d
  let ex := match t with | some _ => bad | none => bad || was
  let d := (d.putB (THERM_SENSOR_EXCLUDED i) ex).put THERM_EXCLUDED_EXCLUDED
    ((setMask (BitVec.ofNat 32 (d.get THERM_EXCLUDED_EXCLUDED)) i ex).toNat)
  if ex && !was then d.pwrEvent 5 i (match t with | some x => (x % 65536).toNat | none => 0) .contained else d

/-- Sensors in use, with their readings. -/
def Die.readings (d : Die) : List (Nat × Int) :=
  ((List.range 32).filter fun i => !d.bit (THERM_SENSOR_EXCLUDED i)).map fun i => (i, byteTemp (d.get (THERM_SENSOR_TEMP i)))

/-- The hottest sensor in use; the lowest-numbered of equals. -/
def hottest : List (Nat × Int) → Nat × Int
  | [] => (0, 0)
  | x :: xs => xs.foldl (fun m y => if m.2 < y.2 then y else m) x

/-- Actions on the hottest sensor (R528, R529, R531). -/
def Die.thermal (d : Die) : Die :=
  let rs := d.readings
  let (s, t) := hottest rs
  let d := (d.put THERM_MAX_TEMP (tempByte t)).put THERM_MAX_SENSOR s
  let extra := (t % 65536).toNat
  let warn : Int := d.get THERM_LIMITS_WARN
  let thr : Int := d.get THERM_LIMITS_THROTTLE
  let many := decide (4 < 32 - rs.length)
  let warm := decide (warn ≤ t)
  let d := (if warm && !d.power.warned then d.pwrEvent 1 s extra .corrected else d).onPower fun u => { u with warned := warm }
  let tooHot := decide (thr ≤ t) || many
  let cool := rs.all fun r => decide (r.2 < thr - 3)
  let d := if tooHot && !d.power.throttled then (d.pwrEvent 2 s extra .corrected).onPower fun u => { u with throttled := true }
    else if !tooHot && cool then d.onPower fun u => { u with throttled := false } else d
  let d := d.putB THERM_MAX_THROTTLING d.power.throttled
  let hot := decide (105 ≤ t)
  let d := (if hot then d.pwrEvent 3 s extra .contained else d).onPower fun u => { u with hot := hot }
  let d := if 110 ≤ t && !d.power.haltDue && !d.bit PWR_CTRL_THERMAL_HALT then
      (d.pwrEvent 4 s extra .fatal).onPower fun u => { u with haltDue := true } else d
  d.setDuty

/-- THERMAL_SAMPLE (R528, R531): one reading of every sensor, none where a sensor reports nothing. -/
def opThermalSample (temps : List (Option Int)) (d : Die) : Die :=
  ((List.range 32).foldl (fun e i => e.sensor i ((temps[i]?).getD none)) d).thermal

/-- FAST_LIMIT (R526). -/
def opFastLimit (d : Die) : Die := (d.onPower fun u => { u with fast := true }).setDuty

/-- A write of RESUME by the PF while every sensor reads below WARN ends a thermal halt at P5 (R530). -/
def Die.resume (d : Die) : Die :=
  if d.bit PWR_CTRL_THERMAL_HALT && (d.readings.all fun r => decide (r.2 < (d.get THERM_LIMITS_WARN : Int))) then
    ((((d.putB PWR_CTRL_THERMAL_HALT false).setPoint 5).setVid 5).putB HBM_STATUS_SELF_REFRESH false).setDuty
  else d

/-- THERMTRIP (R566): the pin goes low and stays low until power good falls. -/
def opThermtrip (d : Die) : Die := if d.pins.pwrGood then { d with pins := { d.pins with thermtrip := true } } else d

/-- SUPPLY_FAULT (R554): source 18, CAUSE 6. -/
def opSupplyFault (rail : Fin 10) (d : Die) : Die := d.pwrEvent 6 rail.val 0 .fatal

/-- PLL_LOCK_LOSS (R521): PLL 0 is the core PLL and PLL 1 the ring PLL. -/
def opPllLockLoss (pll : Fin 2) (d : Die) : Die := d.pwrEvent 7 pll.val 0 .fatal

/-- REFCLK_LOSS (R561). -/
def opRefclkLoss (d : Die) : Die := d.pwrEvent 8 0 0 .fatal

/-- A write of PWR_CAP: WATTS is held between 400 and BOARD_MAX, and PWR_FLOOR follows (R523, R527). -/
def Die.writeCap (d : Die) (v : Nat) : Die :=
  let w := v % 1024
  let cap := if d.get PWR_CAP_BOARD_MAX < w then d.get PWR_CAP_BOARD_MAX else if w < 400 then 400 else w
  let f := capFloor cap
  ((d.put PWR_CAP_WATTS cap).put PWR_FLOOR_POINT f.1).put PWR_FLOOR_K f.2

end Sys2Proof.Machine
end

