-- ==== Sys2Proof/Machine/Links.lean ====
section
/-! DEFINITION. The links of the ports (spec 13): training, hellos, routes, credits, the Nivik link, security states,
cages and what taking a port down does. -/

namespace Sys2Proof.Machine

/-! ### Peer ports (R426 to R430) -/

/-- An event of the peer ports (R497): EXTRA is the partner die. -/
def Die.peerEvent (d : Die) (n : PortIx) (cause : Nat) (cls : Cls) : Die :=
  d.raise 8 cls (detail n.val cause (d.get (PEER_STATE_PARTNER_DIE n.val)))

/-- This die's own links as its link list gives them. -/
def Die.ownLinks (d : Die) : List (DieIx × PortIx × Bool) :=
  (List.finRange 4).map fun n =>
    (⟨d.get (PEER_STATE_PARTNER_DIE n.val) % 8, Nat.mod_lt _ (by decide)⟩, ⟨d.get (PEER_STATE_PARTNER_PORT n.val) % 4, Nat.mod_lt _ (by decide)⟩,
     d.portUp (.peer n))

/-- Partners of a die as its link list gave them. -/
def Die.partnersOf (d : Die) (die : Nat) : List DieIx :=
  if die == d.here.die.val then (d.ownLinks.filter fun l => l.2.2).map (·.1)
  else tblGet (fun _ => ([] : List DieIx)) d.ports.lists die

/-- Dies within `k` hops of a die. -/
def Die.ball (d : Die) (from_ : DieIx) : Nat → List DieIx
  | 0 => [from_]
  | k + 1 => let b := d.ball from_ k; (List.finRange 8).filter fun x => b.contains x || b.any fun y => (d.partnersOf y.val).contains x

/-- Hops from a die to another, 8 when there is no path. -/
def Die.hops (d : Die) (a b : DieIx) : Nat := ((List.range 8).find? fun k => (d.ball a k).contains b).getD 8

/-- The better first hop of two (hops, partner die, port): fewest hops, then lowest partner, then lowest port (R429). -/
def better (a b : Nat × Nat × Nat) : Bool :=
  decide (a.1 < b.1) || (a.1 == b.1 && (decide (a.2.1 < b.2.1) || (a.2.1 == b.2.1 && decide (a.2.2 < b.2.2))))

/-- Route entry of a destination die: port, with bit 2 when valid. -/
def Die.routeEntry (d : Die) (dst : DieIx) : Nat :=
  let cands := (List.finRange 4).filterMap fun n =>
    if d.portUp (.peer n) then
      let p : DieIx := ⟨d.get (PEER_STATE_PARTNER_DIE n.val) % 8, Nat.mod_lt _ (by decide)⟩
      let h := d.hops p dst
      if h < 8 then some (h, p.val, n.val) else none
    else none
  match cands with
  | [] => 0
  | c :: cs => 4 + (cs.foldl (fun m x => if better x m then x else m) c).2.2

/-- Fill PEER_ROUTE (R429, R430). -/
def Die.fillRoutes (d : Die) : Die :=
  let v := (List.finRange 8).foldl (fun r x => if x == d.here.die then r else r + d.routeEntry x * 2 ^ (3 * x.val)) 0
  (d.put PEER_ROUTE_ROUTE v).onPorts fun u => { u with newRoute := false }

/-- At a boundary the routes are computed again, once nothing is outstanding on a lost link (R430). -/
def Die.routeBoundary (d : Die) : Die :=
  if d.ports.newRoute && !(d.ports.ops.any fun o => o.reply.isNone && (match o.port with | .peer _ => !d.portUp o.port | .opt _ => false))
  then d.fillRoutes else d

/-- Send the die's link list on every peer port that is up. -/
def Die.sendLists (d : Die) (die : DieIx) (links : List (DieIx × PortIx × Bool)) (skip : Option PortIx) : Die :=
  (List.finRange 4).foldl (fun e n => if e.portUp (.peer n) && some n != skip then e.emit (.linkList (.peer n) e.epoch die links) else e) d

/-- Advertised receive pools, classes 0 to 9. -/
def pools : List Nat := (List.range 10).map Config.poolUnits

/-- The die does not join its package (R27): a fatal fault, once, and every peer port is held in reset until a die reset. -/
def Die.chainFails (n : PortIx) (d : Die) : Die :=
  if d.boot.chainBad then d
  else
    let d := d.loseOps fun o => match o.port with | .peer _ => true | .opt _ => false
    let d := (List.range 4).foldl (fun e i => (e.put (PEER_STATE_STATE i) 0).put (PEER_STATE_MODULES_UP i) 0) d
    let d := d.onPorts fun u => { u with peer := [], outq := u.outq.filter (fun q => match q.1 with | .peer _ => false | .opt _ => true),
                                         held := u.held.filter fun x => match x.1 with | .peer _ => false | .opt _ => true }
    { d with boot := { d.boot with chainBad := true } }.raise 8 .fatal (detail n.val 4 0)

/-- A peer link goes down (R430). DEDUCED: the die sends its link list again, since the others must route around the
lost link too (log entry 42). -/
def Die.peerDown (d : Die) (n : PortIx) : Die :=
  let d := (d.peerEvent n 3 .contained).loseOps fun o => o.port == .peer n
  let d := ((d.put (PEER_STATE_STATE n.val) 0).put (PEER_STATE_MODULES_UP n.val) 0).setPeer n {}
  let d := d.onPorts fun u => { u with newRoute := true, outq := u.outq.filter (fun q => q.1 != .peer n), held := u.held.filter fun x => x.1 != .peer n }
  d.sendLists d.here.die d.ownLinks none

/-- PEER_LINK_TRAIN (R427, R428): the modules that trained; the port sends its hello. A die that has no ID when training begins does not
join (R27). A link that was up went down first (R430). -/
def opPeerLinkTrain (port : PortIx) (modules : BitVec 4) (d : Die) : Die :=
  let n := port.val
  if d.boot.chainBad || d.dieId.isNone then d.chainFails port
  else
  let d := if d.portUp (.peer port) then d.peerDown port else d
  if modules == 0 then (d.put (PEER_STATE_STATE n) 0).put (PEER_STATE_MODULES_UP n) 0
  else
    let d := (d.put (PEER_STATE_STATE n) 1).put (PEER_STATE_MODULES_UP n) modules.toNat
    let d := if modules == 15 then d else d.peerEvent port 2 .corrected
    d.emit (.hello (.peer port) d.epoch d.here pools)

/-- The hello of a peer port's partner decides whether the link comes up (R427, R450). -/
def Die.peerHello (d : Die) (n : PortIx) (h : Hello) : Die :=
  if d.get (PEER_STATE_STATE n.val) != 1 then d
  else
    let d := (d.put (PEER_STATE_PARTNER_DIE n.val) h.place.die.val).put (PEER_STATE_PARTNER_PORT n.val) h.port.val
    let twice := (List.finRange 4).any fun m => m != n && d.portUp (.peer m) && d.get (PEER_STATE_PARTNER_DIE m.val) == h.place.die.val
    if h.place.pkg != d.here.pkg || h.place.die == d.here.die || twice then
      (d.put (PEER_STATE_STATE n.val) 3).peerEvent n 1 .contained
    else
      let p : PeerPort := { hello := some h, credits := { held := h.pools, pool := h.pools, freed := List.replicate 10 0 } }
      let d := ((d.put (PEER_STATE_STATE n.val) 2).setPeer n p).fillRoutes
      d.sendLists d.here.die d.ownLinks none

/-- LINK_LIST_RECEIVE (R429, R430): another die's list; new knowledge travels on, and the routes are filled, at the next
boundary while the tick runs. -/
def opLinkListReceive (port : PortIx) (die : DieIx) (links : List (DieIx × PortIx × Bool)) (d : Die) : Die :=
  let new := (links.filter fun l => l.2.2).map (·.1)
  if die == d.here.die || d.partnersOf die.val == new then d
  else
    let d := d.onPorts fun u => { u with lists := tblPut (fun _ => ([] : List DieIx)) u.lists die.val new }
    let d := if d.tick.runs then d.onPorts fun u => { u with newRoute := true } else d.fillRoutes
    d.sendLists die links (some port)

/-- PEER_LINK_DOWN. -/
def opPeerLinkDown (port : PortIx) (d : Die) : Die := if d.portUp (.peer port) then d.peerDown port else d

/-- PEER_MODULE_LOSS (R428). -/
def opPeerModuleLoss (port : PortIx) (module : Fin 4) (d : Die) : Die :=
  let m := BitVec.ofNat 4 (d.get (PEER_STATE_MODULES_UP port.val))
  if maskBit m module.val then
    let m := setMask m module.val false
    let d := (d.put (PEER_STATE_MODULES_UP port.val) m.toNat).peerEvent port 2 .corrected
    if m == 0 && d.portUp (.peer port) then d.peerDown port else d
  else d

/-- A retry on a port delays the slices with an operation outstanding over it (overrun cause LINK_RETRY, table after R55). -/
def Die.markRetry (d : Die) (port : LinkPort) : Die :=
  (d.ports.ops.filter fun o => o.port == port && o.reply.isNone).foldl (fun e o =>
    match o.req with
    | .core c | .eng c _ => e.onCore c fun k => { k with run := k.run.map fun r => { r with linkRetry := true } }
    | _ => e) d

/-- LINK_LEVEL_RETRY (R426, R428; table of spec 12): a flit replay, or a lane repaired, on the host port (`none`) or a
peer port. -/
def opLinkLevelRetry (port : Option PortIx) (kind : RetryKind) (d : Die) : Die :=
  match port with
  | none => (d.raise 7 .corrected (detail 0 10 0)).emit (.aer 0 .correctable)
  | some n =>
    let d := if kind == .replay then d.count (PEER_STATE_RETRIES n.val) 1 else d
    (d.markRetry (.peer n)).peerEvent n 0 .corrected

/-! ### Optical ports (R445 to R458) -/

/-- An event of the optical fabric: EXTRA is the partner package. -/
def Die.optEvent (d : Die) (n : OptIx) (cause : Nat) (cls : Cls) : Die :=
  d.raise 9 cls (detail n.val cause (d.get (OPT_PEER_PACKAGE n.val)))

def Die.optErr (d : Die) (n : OptIx) (cause : Nat) : Die := d.record (OPT_ERR_VALID n.val) [(OPT_ERR_CAUSE n.val, cause)]

def Die.optState (d : Die) (n : OptIx) : Nat := d.get (OPT_STATE_STATE n.val)

/-- Training may begin: the port is enabled, its cable seated, its laser and the fabric rails on (R459, R433), and ENABLE has been written to 0 since the port
was quarantined (R455). -/
def Die.optMayTrain (d : Die) (n : OptIx) : Bool :=
  d.bit (OPT_CTRL_ENABLE n.val) && d.bit (CAGE_PRESENT n.val) && d.bit (CAGE_LASER_EN n.val) && d.pins.fabricRails && !(d.optPort n).barred
    && !d.underTest 9 n.val

/-- A port in state 0 that may train goes to state 1. -/
def Die.optStart (d : Die) (n : OptIx) : Die := if d.optState n == 0 && d.optMayTrain n then d.put (OPT_STATE_STATE n.val) 1 else d

/-- A port leaves the states above 0 (or is quarantined, state 5): its operations are lost, its session ends (R455,
R462). `cause` is recorded in OPT_ERR when the manual gives one. -/
def Die.optDown (d : Die) (n : OptIx) (state : Nat) (cause : Option Nat) : Die :=
  let d := match cause with | some c => d.optErr n c | none => d
  let d := (d.optEvent n (cause.getD 0) .contained).loseOps fun o => o.port == .opt n
  let d := (d.put (OPT_STATE_STATE n.val) state).putB (OPT_STATE_HALF n.val) false
  (d.setOpt n { barred := (d.optPort n).barred || state == 5 }).onPorts fun u => { u with outq := u.outq.filter (fun q => q.1 != .opt n), held := u.held.filter fun x => x.1 != .opt n }

/-- A port in state 3 is admitted when ADMIT is set and the partner's package lies in OPT_SRC (R456). -/
def Die.tryAdmit (d : Die) (n : OptIx) : Die :=
  if d.optState n == 3 && d.bit (OPT_CTRL_ADMIT n.val) then
    let p := d.get (OPT_PEER_PACKAGE n.val)
    if d.get (OPT_SRC_LO n.val) ≤ p && p ≤ d.get (OPT_SRC_HI n.val) then (d.put (OPT_STATE_STATE n.val) 4).pump
    else d.optErr n 4
  else d

/-- A write of OPT_CTRL (R455 to R457). -/
def Die.writeOptCtrl (d : Die) (n : OptIx) (v : Nat) : Die :=
  let en := sub v 0 1 == 1
  let ad := sub v 1 1 == 1
  let src := sub v 2 1 == 1
  let other := d.bit (OPT_CTRL_TICK_SRC (1 - n.val))
  let was := d.bit (OPT_CTRL_ADMIT n.val)
  let d := (((d.putB (OPT_CTRL_ENABLE n.val) en).putB (OPT_CTRL_ADMIT n.val) ad).put (OPT_CTRL_QUARANTINE_DROPS n.val) (sub v 8 8)).put
    (OPT_CTRL_RETRY_LIMIT n.val) (sub v 16 4)
  let d := if src && other then d else d.putB (OPT_CTRL_TICK_SRC n.val) src
  if !en then
    let d := if d.optState n == 0 then d else if d.optState n == 5 then d.put (OPT_STATE_STATE n.val) 0 else d.optDown n 0 none
    d.setOpt n { d.optPort n with barred := false }
  else
    let d := d.optStart n
    if was && !ad && d.optState n == 4 then (d.loseOps fun o => o.port == .opt n).put (OPT_STATE_STATE n.val) 3
    else if ad then d.tryAdmit n else d

/-- OPTICAL_LINK_TRAIN (R452, R446): a port that may train trains, and the lanes that locked; a whole half suffices. -/
def opOpticalLinkTrain (n : OptIx) (lanes : BitVec 16) (d : Die) : Die :=
  if d.optState n ≤ 1 && d.optMayTrain n then
    let whole := lanes == BitVec.allOnes 16
    let half := lanes &&& 0xFF == 0xFF || lanes &&& 0xFF00 == 0xFF00
    if whole || half then
      let d := ((d.put (OPT_STATE_STATE n.val) 2).putB (OPT_STATE_HALF n.val) (!whole)).setOpt n { lanes := lanes }
      let d := if whole then d else d.optEvent n 0x24 .corrected
      (d.emit (.hello (.opt n) d.epoch d.here pools)).emit (.spdmRecord n d.epoch)
    else d.put (OPT_STATE_STATE n.val) 1
  else d

/-- LINK_HELLO_RECEIVE (R427, R450): a partner starts us with its advertised units. -/
def opLinkHelloReceive (port : LinkPort) (h : Hello) (d : Die) : Die :=
  match port with
  | .peer n => d.peerHello n h
  | .opt n =>
    if d.optState n == 0 || d.optState n == 5 then d
    else d.setOpt n { d.optPort n with hello := some h, credits := { held := h.pools, pool := h.pools, freed := List.replicate 10 0 } }

/-- A session is refused: the port returns to state 0 (R453). -/
def Die.refuse (d : Die) (n : OptIx) (cause : Nat) : Die := d.optDown n 0 (some cause)

/-- SPDM_RECORD_RECEIVE (R453): a record of the session arrives in state 2. -/
def opSpdmRecordReceive (n : OptIx) (r : SessionResult) (d : Die) : Die :=
  if d.optState n == 2 then
    match r with
    | .continues => d.sayOn (.opt n) (.spdmRecord n d.epoch)
    | .certRefused => d.refuse n 2
    | .established partner =>
      if partner.pkg == d.here.pkg then d.refuse n 3
      else
        let d := ((d.put (OPT_PEER_PACKAGE n.val) partner.pkg.val).put (OPT_PEER_DIE n.val) partner.die.val).put (OPT_STATE_STATE n.val) 3
        (d.setOpt n { d.optPort n with session := some { partner := partner } }).tryAdmit n
  else d

/-- SESSION_TIMEOUT (R453): 100 ms have passed since training. -/
def opSessionTimeout (n : OptIx) (d : Die) : Die := if d.optState n == 2 then d.refuse n 1 else d

/-- Units come back; a return above the pool's size is ignored and counted (R450). -/
def Die.giveUnits (d : Die) (port : LinkPort) (cls n : Nat) : Die :=
  let c := d.credits port
  if c.held.getD cls 0 + n ≤ c.pool.getD cls 0 then d.setCredits { c with held := c.held.set cls (c.held.getD cls 0 + n) } port
  else d.count (GATE_DROP_COUNT 0) 1

/-- CREDIT_RECEIVE (R450). -/
def opCreditReceive (port : LinkPort) (units : List Nat) (d : Die) : Die :=
  ((List.range 10).foldl (fun e i => if units.getD i 0 == 0 then e else e.giveUnits port i (units.getD i 0)) d).pump

/-- CREDIT_RETURN_TIMER (R450): units free for 1 µs go back in a credit message. -/
def opCreditReturnTimer (port : LinkPort) (d : Die) : Die :=
  let c := d.credits port
  if c.freed.all (· == 0) then d
  else (d.setCredits { c with freed := List.replicate 10 0 } port).sayOn port (.credit port d.epoch c.freed)

/-- NIVIK_FLIT_RECEIVE (R446, R454, R455): CRC, then tag, then sequence number; a good flit may return credit and
acknowledge ours. -/
def opNivikFlitReceive (n : OptIx) (crcOk tagOk : Bool) (seq : Nat) (phase ack : Bool) (credit : Option (Fin 8 × Nat)) (d : Die) : Die :=
  let p := d.optPort n
  if d.optState n < 2 || d.optState n == 5 then d
  else if !crcOk then d.sayOn (.opt n) (.replayRequest n)
  else
  match p.session with
  | none => d
  | some s =>
    if !tagOk then d.optDown n 5 (some 5)
    else if seq != s.rxSeq % 2 ^ 32 then d.optDown n 5 (some 6)
    else
      let d := d.setOpt n { p with session := some { s with rxSeq := s.rxSeq + 1, rxPhase := phase }, replays := if ack then 0 else p.replays }
      match credit with
      | some (c, k) => (d.giveUnits (.opt n) c.val k).pump
      | none => d

/-- FLIT_REPLAY (R446): a flit replayed more than RETRY_LIMIT times in a row takes the port down. -/
def opFlitReplay (n : OptIx) (d : Die) : Die :=
  if d.optState n < 2 || d.optState n == 5 then d
  else
    let r := (d.optPort n).replays + 1
    if orOne (d.get (OPT_CTRL_RETRY_LIMIT n.val)) < r then d.optDown n 0 (some 7)
    else ((d.setOpt n { d.optPort n with replays := r }).markRetry (.opt n)).emit (.replay n)

/-- OPTICAL_LANE_LOSS (R446). -/
def opOpticalLaneLoss (n : OptIx) (lane : Fin 16) (d : Die) : Die :=
  let p := d.optPort n
  if d.optState n == 0 || d.optState n == 5 || !maskBit p.lanes lane.val then d
  else
    let lanes := setMask p.lanes lane.val false
    if lanes &&& 0xFF == 0xFF || lanes &&& 0xFF00 == 0xFF00 then
      let d := d.setOpt n { p with lanes := lanes }
      if d.bit (OPT_STATE_HALF n.val) then d else (d.putB (OPT_STATE_HALF n.val) true).optEvent n 0x24 .corrected
    else d.optDown n 0 none

/-- KEY_UPDATE (R454): due each time the sequence number passes a multiple of 2^32; KEY_PHASE marks the new key. -/
def opKeyUpdate (n : OptIx) (d : Die) : Die :=
  let p := d.optPort n
  match p.session with
  | some s => if s.txPhase != (s.txSeq / 2 ^ 32 % 2 == 1) then (d.setOpt n { p with session := some { s with txPhase := !s.txPhase } }).sayOn (.opt n) (.keyUpdate n d.epoch) else d
  | none => d

/-- Messages of the port wait for units that it does not hold. -/
def Die.starved (d : Die) (n : OptIx) : Bool :=
  d.portUp (.opt n) && d.ports.outq.any fun q => q.1 == .opt n && decide ((d.credits (.opt n)).held.getD q.2.2.cls 0 < units (msgBytes q.2.2))

/-- At a boundary: ticks without credit are counted, and drops of the tick may quarantine a port (table after R458). -/
def Die.optBoundary (d : Die) (n : OptIx) : Die :=
  let p := d.optPort n
  let q := d.get (OPT_CTRL_QUARANTINE_DROPS n.val)
  let stall := if d.starved n then p.stall + 1 else 0
  if q != 0 && q < p.drops && d.optState n != 0 && d.optState n != 5 then d.optDown n 5 (some 10)
  else d.setOpt n { p with stall := stall, drops := 0 }

/-- CREDIT_STALL (table after R458): no credit for STALL_TICKS ticks. -/
def opCreditStall (n : OptIx) (d : Die) : Die :=
  if d.starved n && orOne (d.get FAB_TIMEOUT_STALL_TICKS) ≤ (d.optPort n).stall then d.optDown n 0 (some 8) else d

/-! ### Fabric supply and cages (R433, R459 to R462) -/

/-- The laser of a port is lit: enabled, cable seated, rails on (R459). -/
def Die.setLaserGood (d : Die) (n : OptIx) : Die := d.putB (CAGE_LASER_GOOD n.val) (d.bit (CAGE_LASER_EN n.val) && d.bit (CAGE_PRESENT n.val) && d.pins.fabricRails)

/-- A port not in state 0 is removed (R462). -/
def Die.removal (d : Die) (n : OptIx) (cause : Nat) : Die := if d.optState n == 0 then d else d.optDown n 0 (some cause)

/-- FABRIC_SUPPLY_LOSS (R433): both optical ports go down, cause 13; the fault is raised also where both were down. -/
def opFabricSupplyLoss (d : Die) : Die :=
  let d := if d.awake && d.pins.fabricRails && d.optState 0 == 0 && d.optState 1 == 0 then d.optEvent 0 13 .contained else d
  let d := { d with pins := { d.pins with fabricRails := false } }
  (List.finRange 2).foldl (fun e n => (if e.optState n == 0 then e else e.optDown n 0 (some 13)).setLaserGood n) d

/-- FABRIC_RAILS_APPLIED (R559): ports can train again. -/
def opFabricRailsApplied (d : Die) : Die :=
  let d := { d with pins := { d.pins with fabricRails := true } }
  (List.finRange 2).foldl (fun e n => (e.setLaserGood n).optStart n) d

/-- PRESENCE_CHANGE (R460, R462, R573). -/
def opPresenceChange (n : OptIx) (present : Bool) (d : Die) : Die :=
  if d.bit (CAGE_PRESENT n.val) == present then d
  else
    let d := ((d.putB (CAGE_PRESENT n.val) present).putB (CAGE_PRESENCE_CHANGED n.val) true).optEvent n 0x21 .corrected
    if present then d else ((d.putB (CAGE_LASER_EN n.val) false).setLaserGood n).removal n 11

/-- BUTTON (R460, R573). -/
def opButton (n : OptIx) (d : Die) : Die := (d.putB (CAGE_BUTTON n.val) true).optEvent n 0x22 .corrected

/-- LASER_POWER_FAULT (R460, R462). -/
def opLaserPowerFault (n : OptIx) (d : Die) : Die :=
  let d := ((d.putB (CAGE_POWER_FAULT n.val) true).putB (CAGE_LASER_EN n.val) false).putB (CAGE_LASER_GOOD n.val) false
  (d.optEvent n 12 .corrected).removal n 12

/-- A write of CAGE (R459 to R462): latches clear, LASER_EN, indicators. -/
def Die.writeCage (d : Die) (n : OptIx) (v : Nat) : Die :=
  let clr (f : Fld) (i : Nat) (e : Die) : Die := if sub v i 1 == 1 then e.putB f false else e
  let d := clr (CAGE_POWER_FAULT n.val) 5 (clr (CAGE_BUTTON n.val) 2 (clr (CAGE_PRESENCE_CHANGED n.val) 1 d))
  let d := if sub v 6 2 == 3 then d else d.put (CAGE_PWR_IND n.val) (sub v 6 2)
  let d := if sub v 8 2 == 3 then d else d.put (CAGE_ATTN_IND n.val) (sub v 8 2)
  let on := sub v 3 1 == 1
  if on then (if d.bit (CAGE_PRESENT n.val) then ((d.putB (CAGE_LASER_EN n.val) true).setLaserGood n).optStart n else d)
  else
    let was := d.bit (CAGE_LASER_EN n.val)
    let d := (d.putB (CAGE_LASER_EN n.val) false).setLaserGood n
    if was then d.removal n 14 else d

end Sys2Proof.Machine
end

