-- ==== Sys2Proof/Machine/Views.lean ====
section
/-! DEFINITION. What a read of a register of BAR0 or of a doorbell page returns (spec 17 and the register tables of
the other chapters): stored fields, and the fields that show other state. -/

namespace Sys2Proof.Machine

def bitN (b : Bool) (i : Nat) : Nat := if b then 2 ^ i else 0

/-- The mask of the indices below `n` that satisfy `p`. -/
def bitsWhere (n : Nat) (p : Nat → Bool) : Nat := (List.range n).foldl (fun m i => m + bitN (p i) i) 0

/-- Replace bits [lo, lo + w) of a word. -/
def setBits (v lo w x : Nat) : Nat := v - sub v lo w * 2 ^ lo + x % 2 ^ w * 2 ^ lo

def coreIx (c : Nat) : CoreIx := ⟨c % 48, Nat.mod_lt _ (by decide)⟩
def objIx (n : Nat) : ObjIx := ⟨n % 8192, Nat.mod_lt _ (by decide)⟩

/-- Fused good arrays of a core (R547). -/
def Die.arraysGood (d : Die) (c : Nat) : Nat := sub d.fuses.arrays.toNat (4 * c) 4

/-- The core is enabled by fuse (R85, R547). -/
def Die.coreGood (d : Die) (c : Nat) : Bool := d.arraysGood c != 0

def Die.coresEnabled (d : Die) : Nat := bitsWhere 48 d.coreGood

/-! ### Views -/

/-- CORE_STATUS (table of spec 03). -/
def Die.coreStatus (d : Die) (c : Nat) : Nat :=
  let k := d.core (coreIx c)
  let st := if !d.coreGood c then 0 else if k.inReset then 1
    else match k.run with | none => 2 | some r => if r.stopping.isSome then 4 else 3
  let part := if d.bit (CORE_ASSIGN_ASSIGNED c) then d.get (CORE_ASSIGN_PARTITION c) else 0
  st + bitN (k.streams.any fun s => s.kind == .loadw) 3 + d.arraysGood c * 16 + part * 256

/-- PROG_BANK. -/
def Die.progBank (d : Die) (c : Nat) : Nat :=
  let k := d.core (coreIx c)
  setBits (setBits (setBits (d.raw (PROG_BANK c)) 0 1 (b2n k.active)) 1 1 (b2n (k.switch.isSome && !k.switched))) 2 1 (b2n (!k.loading.isEmpty))

/-- ARRAY_STATE. -/
def Die.arrayState (d : Die) (c : Nat) : Nat :=
  let k := d.core (coreIx c)
  bitsWhere 4 (fun a => k.streams.any fun s => s.kind == .pass && s.arr.toNat == a)
    + 16 * bitsWhere 4 (fun a => k.streams.any fun s => s.kind == .drain && s.arr.toNat == a)
    + bitN (k.streams.any fun s => s.kind == .loadw) 8 + k.storeFmt.toNat * 512

def Die.ring (d : Die) (i : Nat) : Ring := tblGet (fun _ => ({} : Ring)) d.cp.rings i

/-- CE_STATE: an engine is busy while it has work, also where its chunk waits (log entry 19); RING is the ring of that chunk, else of the last. -/
def Die.ceState (d : Die) (e : Nat) : Nat :=
  let u := d.engine e
  let r := match d.nextJob e with | some j => d.jobRing j | none => u.lastRing
  bitN (!u.jobs.isEmpty) 0 + bitN (u.jobs.any fun j => j.stalled) 1 + r * 8

/-- WAITERS of SYNC_CTRL: core and packet waiters of an object. -/
def Die.waitersOf (d : Die) (n : Nat) : Nat :=
  (d.sync.waiters.filter fun w => w.obj.val == n).length
    + (d.cores.filter fun k => match k.2.wait with | some (.object m _ _) => m.val == n | _ => false).length

def Die.syncCtrl (d : Die) (n : Nat) : Nat :=
  let o := d.obj (objIx n)
  o.owner.toNat + bitN o.poison 5 + d.waitersOf n * 65536

/-- SYNC_STATUS (R260). -/
def Die.syncStatus (d : Die) : Nat :=
  d.sync.waiters.length + 65536 * (d.cores.filter fun k => match k.2.wait with | some (.object ..) => true | _ => false).length

/-- TRANS_STATUS (R372); walks take no time in the model. -/
def Die.transStatus (d : Die) : Nat := d.tr.groups.length + d.tr.queued * 2 ^ 21

/-- Bytes held in the early-arrival buffer of 256 KiB (R185). -/
def Die.earlyBytes (d : Die) : Nat := d.ru.early.foldl (fun n e => n + msgBytes (.partial_ e.msg)) 0

/-- The buffer has no room for a further REDUCE_SEGMENT message of the greatest length. -/
def Die.earlyFull (d : Die) : Bool := decide (262144 < d.earlyBytes + 480)

/-- RU_STATUS. -/
def Die.ruStatus (d : Die) : Nat :=
  bitN (d.pkts.any fun q => q.phase == .running && decide (0x20 ≤ q.opcode.toNat) && decide (q.opcode.toNat ≤ 0x22)) 0
    + bitN d.earlyFull 1 + d.ru.slots.length * 65536

/-- Lines held in the locked ways of a slice (R343). -/
def Die.lockedLines (d : Die) (slice : Nat) : Nat :=
  (d.cache.lines.filter fun e => e.1 / 65536 == slice && maskBit (BitVec.ofNat 16 (d.get (DC_WAYS_LOCKED slice))) (e.1 % 16)).length

def Die.hayDirty (d : Die) (slice : Nat) : Nat :=
  ((tblGet (fun _ => ([] : List CLine)) d.cache.hay slice).filter fun c => c.dirty != 0).length

/-- SYSBAR_EXPECT.ARRIVED: dies arrived at the oldest unreleased instance (R288). -/
def Die.sysArrived (d : Die) (p : Nat) : Nat :=
  match d.cp.sysbars.find? fun s => s.part.val == p with
  | some s => s.dies.length
  | none => 0

/-- A word of the history queue (table before R499). -/
def Die.histWord (d : Die) (i w : Nat) : Nat :=
  let h := d.histAt i
  match w with
  | 0 => h.tick % 2 ^ 32
  | 1 => h.tick / 2 ^ 32 % 2 ^ 32
  | 2 => h.src.val + h.cls * 32 + bitN h.first 8 + bitN h.forced 9 + bitN h.noTick 10 + bitN h.valid 11 + h.repeat_ * 4096
  | _ => h.detail.toNat

/-- The value of a register that shows other state; none for a register whose stored value is what it reads as. -/
def Die.derived (d : Die) (off : Nat) : Option Nat :=
  if off == ID then some (0x4C34 + d.fuses.stepping.toNat * 65536 + d.fuses.grade.toNat * 2 ^ 20)
  else if off == PLACE then some d.placeWord
  else if inArr off (FUSE_ARRAYS 0) 6 4 then some (sub d.fuses.arrays.toNat (32 * ((off - FUSE_ARRAYS 0) / 4)) 32)
  else if off == CORES_ENABLED_LO then some (d.coresEnabled % 2 ^ 32)
  else if off == CORES_ENABLED_HI then some (d.coresEnabled / 2 ^ 32)
  else if off == GOOD_COUNT then
    some ((((List.range 192).filter fun i => d.fuses.arrays.getLsbD i).length) + 256 * ((List.range 48).filter d.coreGood).length)
  else if off == SERIAL_LO then some (d.fuses.serial.toNat % 2 ^ 32)
  else if off == SERIAL_HI then some (d.fuses.serial.toNat / 2 ^ 32)
  else if off == FUSE_SEC then some (d.fuses.svn.toNat + bitN d.fuses.ownerKey.isSome 16)
  else if off == TICK_CTRL then some (setBits (d.raw off) 3 1 (b2n d.pins.lead))
  else if off == TICK_NOW_LO then some (d.tick.now % 2 ^ 32)
  else if off == FAULT_STATUS then some d.faultStatus
  else if off == FAULT_PIN then some (setBits (setBits (d.raw off) 0 1 (b2n d.errDrive)) 1 1 (b2n (!d.errDrive && d.pins.errSense)))
  else if decide (0x20100 ≤ off) && decide (off < 0x20200) then some (d.histWord ((off - 0x20100) / 16) ((off - 0x20100) % 16 / 4))
  else if inArr off (PART_CTRL 0) 16 4 then some ((d.raw off).lor (2 ^ (16 + d.here.die.val)))
  else if inArr off (SYSBAR_EXPECT 0) 16 4 then some (setBits (d.raw off) 16 16 (d.sysArrived ((off - SYSBAR_EXPECT 0) / 4)))
  else if inArr off (CP_HALTED 0) 256 4 then
    some (bitsWhere 32 fun b => (d.ring (32 * ((off - CP_HALTED 0) / 4) + b)).halted)
  else if off == SYNC_STATUS then some d.syncStatus
  else if off == TRANS_STATUS then some d.transStatus
  else if inArr off (DC_LOCKED_LINES 0) 8 4 then some (d.lockedLines ((off - DC_LOCKED_LINES 0) / 4))
  else if inArr off (HAYLOFT 0) 8 4 then some (setBits (d.raw off) 0 6 (d.hayDirty ((off - HAYLOFT 0) / 4)))
  else if off == HBM_STATUS then
    some (setBits (d.raw off) 0 4 (bitsWhere 4 fun s => maskBit (BitVec.ofNat 4 (d.get HBM_STATUS_ONLINE)) s && !d.offline s))
  else if off == HKM_DATA then some (tblGet (fun _ => 0#4) d.mem.hkm (d.get HKM_INDEX_GRANULE)).toNat
  else if off == BIAS_FLIP then some (setBits (d.raw off) 23 1 (b2n d.mem.flip.isSome))
  else if off == RU_STATUS then some d.ruStatus
  else if inArr off (CE_STATE 0) 16 4 then some (d.ceState ((off - CE_STATE 0) / 4))
  else if inArr off (OPT_STATE 0) 2 0x80 then
    let n := (off - OPT_STATE 0) / 0x80
    some (setBits (d.raw off) 16 16 (d.ports.ops.filter fun o => o.reply.isNone && (match o.port with | .opt m => m.val == n | .peer _ => false)).length)
  else if inArr off (WIN_OPEN 0) 32 4 then
    some (bitsWhere 32 fun b => (tblGet (fun _ => (none : Option Window)) d.ports.wins (32 * ((off - WIN_OPEN 0) / 4) + b)).isSome)
  else if off == GROOM_STATUS then some (setBits (d.raw off) 16 9 d.cp.groom.queue.length)
  else if inArr off (CORE_STATUS 0) 48 0x10000 then some (d.coreStatus ((off - CORE_STATUS 0) / 0x10000))
  else if inArr off (PROG_BANK 0) 48 0x10000 then some (d.progBank ((off - PROG_BANK 0) / 0x10000))
  else if inArr off (ARRAY_STATE 0) 48 0x10000 then some (d.arrayState ((off - ARRAY_STATE 0) / 0x10000))
  else if decide (0x2000000 ≤ off) && decide (off < 0x2020000) then
    let n := (off - 0x2000000) / 16
    match (off - 0x2000000) % 16 with
    | 0 => some ((d.obj (objIx n)).value.toNat % 2 ^ 32)
    | 12 => some (d.syncCtrl n)
    | _ => some 0
  else none

/-- Write-only fields read as zero; their bits are never stored. -/
def Die.view (d : Die) (off : Nat) : Nat := (d.derived off).getD (d.raw off)

/-- The offset holds a register (R541). -/
def isReg (off : Nat) : Bool :=
  (findRow off).isSome || (decide (0x20100 ≤ off) && decide (off < 0x20200) && off % 4 == 0)

/-! ### The MSI-X table of a function (R478, R480) -/

/-- A word of an MSI-X table entry; none past the function's vectors. -/
def Die.msixWord (d : Die) (f off : Nat) : Option Nat :=
  match d.dieVector f (off / 16) with
  | none => none
  | some dv =>
    let x := d.vec dv
    match off % 16 with
    | 0 => some (x.addr.toNat % 2 ^ 32)
    | 4 => some (x.addr.toNat / 2 ^ 32)
    | 8 => some x.data.toNat
    | 12 => some (b2n x.masked)
    | _ => none

def Die.setMsixWord (d : Die) (f off v : Nat) : Option Die :=
  match d.dieVector f (off / 16) with
  | none => none
  | some dv =>
    let x := d.vec dv
    match off % 16 with
    | 0 => some (d.setVec dv { x with addr := BitVec.ofNat 64 (x.addr.toNat / 2 ^ 32 * 2 ^ 32 + v) })
    | 4 => some (d.setVec dv { x with addr := BitVec.ofNat 64 (x.addr.toNat % 2 ^ 32 + v * 2 ^ 32) })
    | 8 => some (d.setVec dv { x with data := BitVec.ofNat 32 v })
    | 12 => some (d.setVec dv { x with masked := v % 2 == 1 })
    | _ => none

/-- A word of the pending-bit array. -/
def Die.pbaWord (d : Die) (f off : Nat) : Option Nat :=
  if off / 4 * 32 < d.get (MSIX_ALLOC_COUNT f) then
    some (bitsWhere 32 fun b => match d.dieVector f (8 * off + b) with | some dv => (d.vec dv).pending | none => false)
  else none

/-! ### The VF layout (R549 to R551) -/

/-- What an offset of VF BAR0 names: a register at its BAR0 offset (and whether the VF may write it), a register of
the VF's own, a register of a core or object that the partition does not own, or nothing. -/
inductive VfReg where
  | reg (off : Nat) (rw : Bool)
  | own (off : Nat)
  | part
  | msix (off : Nat)
  | pba (off : Nat)
  | object (n : ObjIx) (sub : Nat)
  | zero
  | none
deriving DecidableEq, Repr

def Die.vfReg (d : Die) (p off : Nat) : VfReg :=
  if off % 4 != 0 then .none
  else if off == ID || off == PLACE || off == GOOD_COUNT then .reg off false
  else if off == RSVD_BAR0 || off == RSVD_BAR2 || off == RSVD_LAST then .own off
  else if off == 0x50 then .part
  else if decide (0x1004 ≤ off) && decide (off ≤ 0x1028) then .reg (0x10000 + (off - 0x1000)) false
  else if off == 0x1100 then .reg (SLIP_CTRL p) false
  else if off == 0x1104 then .reg (PLAN_OFFSET p) false
  else if off == 0x1108 then .reg (SLIP_COUNT p) false
  else if off == 0x2000 then .reg (COALESCE_CTRL p) true
  else if off == 0x2004 then .reg (COALESCE_STAT p) true
  else if off == 0x2008 then .reg (COALESCE_TABLE_LO p) true
  else if off == 0x200C then .reg (COALESCE_TABLE_HI p) true
  else if inArr off 0x3000 5 4 then .reg (QOS_LEVEL p ((off - 0x3000) / 4)) false
  else if inArr off 0x3040 5 8 then .reg (QOS_RATE p ((off - 0x3040) / 8)) false
  else if inArr off 0x3044 5 8 then .reg (QOS_BURST p ((off - 0x3044) / 8)) false
  else if decide (0x4000 ≤ off) && decide (off < 0x7000) then
    let c := (off - 0x4000) / 0x100
    let o := CORE_STATUS c + (off - 0x4000) % 0x100
    if (off - 0x4000) % 0x100 < 0x40 && isReg o then
      (if d.bit (CORE_ASSIGN_ASSIGNED c) && d.get (CORE_ASSIGN_PARTITION c) == p then .reg o true else .zero)
    else .none
  else if decide (0x8000 ≤ off) && decide (off < 0xC000) then .msix (off - 0x8000)
  else if decide (0xC000 ≤ off) && decide (off < 0x10000) then .pba (off - 0xC000)
  else if decide (0x10000 ≤ off) && decide (off < 0x30000) then
    let n := objIx ((off - 0x10000) / 16)
    let s := (off - 0x10000) % 16
    if (d.obj n).owner.toNat == p || s == 8 then .object n s else .zero
  else .none

/-- Where the model keeps a VF's own registers (RSVD_VF0, RSVD_VF2, RSVD_LAST). -/
def vfOwn (p off : Nat) : Nat := 0x10000000 + p * 0x100000 + off

/-- Count a reserved access (R545): `bar2` names the BAR, `size` an access that is not an aligned word. -/
def Die.reserved (d : Die) (who : Who) (bar2 write size : Bool) (off : Nat) : Die :=
  let dev := match who with | .dev .. => true | .fn .. => false
  let at_ (o : Nat) : Nat := if dev || who.part.val == 0 then o else vfOwn who.part.val o
  let c : Fld := { off := at_ (if bar2 then RSVD_BAR2 else RSVD_BAR0), lo := 0, w := 32 }
  let d := d.count c 1
  if sub (d.raw (at_ RSVD_LAST)) 31 1 == 1 then d
  else d.putRaw (at_ RSVD_LAST) (off % 2 ^ 26 + bitN bar2 26 + bitN write 27 + bitN dev 28 + bitN size 29 + 2 ^ 31)

/-! ### Doorbell pages (R198 to R203, R405) -/

/-- RING_CONFIG as it reads. -/
def Ring.config (r : Ring) (vf : Bool) : Nat :=
  let own := b2n (r.enable || r.disabling) + 4 * b2n r.stopOnError + r.irqMode.toNat * 2 ^ 17 + r.vector.toNat * 2 ^ 19
  if vf then own else own + 2 * b2n r.completion + r.sizeLog2.toNat * 16 + r.part.toNat * 2 ^ 9 + r.engine.toNat * 2 ^ 13

def Ring.status (r : Ring) : Nat :=
  b2n (r.enable || r.disabling) + 2 * b2n r.halted + 4 * b2n r.disabling + 8 * b2n r.dbError + r.lastStatus.toNat * 256

/-- A read of a doorbell page; none is a reserved access. -/
def Die.readPage (d : Die) (who : Who) (off : Nat) : Option Nat :=
  let r := d.ring (off / 4096)
  let vf := who.part.val != 0
  if decide (8192 ≤ off / 4096) || (vf && r.part.toNat != who.part.val) then none
  else
    match off % 4096 with
    | 0 | 4 => some 0
    | 8 => some r.head.toNat
    | 0xC => some r.tail.toNat
    | 0x10 => some r.status
    | 0x20 => if vf then none else some (r.base.toNat % 2 ^ 32)
    | 0x24 => if vf then none else some (r.base.toNat / 2 ^ 32)
    | 0x28 => some (r.config vf)
    | _ => none

/-! ### Reads -/

/-- A read in the PF's layout, with what it does to latches and indices. -/
def Die.readPf (d : Die) (who : Who) (off : Nat) : Option (W32 × Die) :=
  if off == TICK_NOW_LO then some (d.readTickLo who)
  else if off == TICK_NOW_HI then some (d.readTickHi who, d)
  else if off == HKM_DATA then
    some (BitVec.ofNat 32 (d.view off), d.put HKM_INDEX_GRANULE ((d.get HKM_INDEX_GRANULE + 1) % 73728))
  else if decide (0x2000000 ≤ off) && decide (off < 0x2020000) && off % 16 == 0 then some (d.readValueLo who (objIx ((off - 0x2000000) / 16)))
  else if decide (0x2000000 ≤ off) && decide (off < 0x2020000) && off % 16 == 4 then some (d.readValueHi who (objIx ((off - 0x2000000) / 16)), d)
  else if isReg off then some (BitVec.ofNat 32 (d.view off), d)
  else none

/-- A read of one aligned word of BAR0 or VF BAR0 (R541 to R551); a reserved offset reads zero and is counted. -/
def Die.readBar0 (d : Die) (who : Who) (off : Nat) : W32 × Die :=
  let host := match who with | .fn .. => true | .dev .. => false
  let p := who.part.val
  let none_ : W32 × Die := (0, d.reserved who false false false off)
  let word (x : Option Nat) : W32 × Die := match x with | some v => (BitVec.ofNat 32 v, d) | none => none_
  if p == 0 then
    if off % 4 != 0 then none_
    else if decide (0x3000000 ≤ off) && decide (off < 0x3008000) then (if host then word (d.msixWord 0 (off - 0x3000000)) else none_)
    else if decide (0x3008000 ≤ off) && decide (off < 0x3008100) then (if host then word (d.pbaWord 0 (off - 0x3008000)) else none_)
    else (d.readPf who off).getD none_
  else
    match d.vfReg p off with
    | .reg o _ => (d.readPf who o).getD none_
    | .own o => (BitVec.ofNat 32 (d.raw (vfOwn p o)), d)
    | .part => (BitVec.ofNat 32 (p + 256 * (d.view (PART_CTRL p) / 65536 % 256)), d)
    | .msix o => if host then word (d.msixWord p o) else none_
    | .pba o => if host then word (d.pbaWord p o) else none_
    | .object n s => if s == 8 then (0, d) else (d.readPf who (objBase n + s)).getD none_
    | .zero => (0, d)
    | .none => none_

end Sys2Proof.Machine
end

