-- ==== Sys2Proof/Machine/Assign.lean ====
section
/-! DEFINITION. The lives of partitions (spec 14, R464 to R470), the start of the tick (R37 to R39), and preservation
(spec 11, R387 to R392). -/

namespace Sys2Proof.Machine

/-! ### CRC (R81) -/

def crcPoly : W64 := 0x42F0E1EBA9EA3693#64

/-- One bit of the CRC. -/
def crcBit (c : W64) : W64 := if c.msb then (c <<< 1) ^^^ crcPoly else c <<< 1

def crcByte (c : W64) (b : Byte) : W64 :=
  (List.range 8).foldl (fun x _ => crcBit x) (c ^^^ (b.setWidth 64 <<< 56))

/-- CRC-64 with the ECMA-182 polynomial, initial value 0. -/
def crc64 (bs : List Byte) : W64 := bs.foldl crcByte 0

/-! ### Device memory at the point of coherence, by Groom -/

/-- Bytes of device memory through the homes under a key tag; none when a sector answers an error. -/
def Die.readDev (d : Die) (a n key : Nat) : Option (List Byte) × Die :=
  (linePieces a n).foldl (fun (acc : Option (List Byte) × Die) p =>
    let (v, e) := acc.2.homeRead p.1 p.2 key false
    (match acc.1, v with | some x, some y => some (x ++ y) | _, _ => none, e)) (some [], d)

/-- Write bytes of device memory through the homes under a key tag, invalidating L1 copies; `req` has the writes acknowledged (R273). -/
def Die.writeDev (d : Die) (req : Req) (stop : Fin 64) (a key : Nat) (bs : List Byte) : Bool × Die :=
  (linePieces a bs.length).foldl (fun (acc : Bool × Die) p =>
    let part := (bs.drop (p.1 - a)).take p.2
    let r : HomeReq := { stop := stop, slice := homeSlice false (lineOf p.1), line := lineOf p.1, space := .dev, key := key, once := false, op := .write p.1 part,
                         who := { req := req, id := 0 } }
    let (ok, e) := (acc.2.noteRun r).homePerformWrite stop.val p.1 key part false .usual
    (acc.1 && ok, (e.broadcast (lineOf p.1) false (.ack r)).2)) (true, d)

/-! ### Partitions -/

/-- A partition starts nothing while it is not enabled or is resetting (R465, R483). -/
def Die.partOn (d : Die) (p : Nat) : Bool := (p == 0 || d.bit (PART_CTRL_ENABLE p)) && !d.bit (PART_CTRL_RESETTING p)

/-- Bit of PRESERVE_STATUS.KEPT (R391). -/
def Die.kept (d : Die) (p : Nat) : Bool := maskBit (BitVec.ofNat 16 (d.get PRESERVE_STATUS_KEPT)) p

/-- ENABLE changes from 0 to 1: an assignment, at which the plan offset starts at 0, and which draws a key pair unless the kept pair is used
(R464, R391; spec 02, Plan ticks). -/
def Die.enablePart (d : Die) (p : Nat) : Die :=
  let d := (d.putB (PART_CTRL_ENABLE p) true).putRaw (PLAN_OFFSET p) 0
  if d.kept p then d.unkeep p else d.drawKey p

/-- A write of PART_CTRL (R464, R466, R482). -/
def Die.writePart (d : Die) (p v : Nat) : Die :=
  let d := d.put (PART_CTRL_SPAN p) (sub v 16 8)
  let on := sub v 0 1 == 1
  let was := p == 0 || d.bit (PART_CTRL_ENABLE p)
  let d := if p != 0 && on && !was then d.enablePart p else d
  if p != 0 && !on && was then d.startPartReset p false true
  else if sub v 1 1 == 1 then d.startPartReset p false false
  else d

/-- CORE_ASSIGN of a core becomes a new value: a change clears the core (R468, R470). -/
def Die.assignCore (d : Die) (c : CoreIx) (v : Nat) : Die :=
  let old := d.raw (CORE_ASSIGN c.val) % 32
  let new := v % 32
  if old == new then d else (d.putRaw (CORE_ASSIGN c.val) new).clearCore c

/-! ### The tick starts -/

/-- The die takes time from no other: the system lead, or a package lead without a tick source (R37, R61). -/
def Die.ownTick (d : Die) : Bool :=
  d.pins.lead && (d.bit TICK_CTRL_SYSTEM_LEAD || !(d.bit (OPT_CTRL_TICK_SRC 0) || d.bit (OPT_CTRL_TICK_SRC 1)))

/-- A write of 1 to TICK_CTRL.RUN (R37 to R39): a lead begins at tick 0 and expects its own acknowledgement (log
entry 29); any other die begins to listen. -/
def Die.tickRun (d : Die) : Die :=
  if d.bit TICK_CTRL_RUN then d
  else
    let d := d.putB TICK_CTRL_RUN true
    if d.ownTick then
      let d := { d with tick := { d.tick with runs := true, now := 0, inGuard := false }, clkInTick := 0 }
      (d.putB TICK_STATUS_LOCKED true).put MEMBERSHIP_MEMBER (2 ^ d.here.die.val)
    else d

/-! ### The preservation record (table after R389) -/

def recordBytes : Nat := 37128

/-- The host key map, two entries per byte. -/
def Die.hkmBytes (d : Die) : List Byte :=
  (List.range 36864).map fun i =>
    ((tblGet (fun _ => 0#4) d.mem.hkm (2 * i)).setWidth 8) ||| ((tblGet (fun _ => 0#4) d.mem.hkm (2 * i + 1)).setWidth 8 <<< 4)

/-- The record of an entry into the orphaned state. -/
def Die.preservationRecord (d : Die) (cause : Nat) : List Byte :=
  let body := leBytes 4 0x4C5A5052 ++ leBytes 2 1 ++ leBytes 2 (d.placeWord % 32768) ++ leBytes 8 d.tick.now
    ++ leBytes 2 (d.get TICK_EPOCH_EPOCH) ++ leBytes 2 cause ++ leBytes 4 d.mem.recordGen
    ++ leBytes 4 (d.raw PT_POOL_BASE) ++ leBytes 4 (d.raw PT_POOL_SIZE)
    ++ ((List.range 16).flatMap fun p => leBytes 4 (d.raw (PT_ROOT p)))
    ++ ((List.range 16).flatMap fun p => leBytes 4 (d.raw (MIG_POOL_BASE p)) ++ leBytes 4 (d.raw (MIG_POOL_FRAMES p)))
    ++ List.replicate 32 0 ++ d.hkmBytes
  body ++ leBytes 8 (crc64 body).toNat

/-- A table entry in memory as Groom reads it. -/
def Die.entryAt (d : Die) (a : Nat) : Nat :=
  match d.secTag (a / 32) with
  | .keyed 0 g => if g == d.keyGen 0 then leNat (memRead d.mem.hbm a 8) else 0
  | _ => 0

def tableEntries (level : Nat) : Nat :=
  match level with
  | 0 => 8192
  | 1 | 2 => 512
  | _ => 32

/-- The tables of a partition's tree from a table downward. -/
def Die.tablesUnder (d : Die) (p : Nat) : Nat → Nat → Nat → List (Nat × Nat × Nat)
  | 0, _, _ => []
  | n + 1, level, table =>
    (p, table, tableSize level) ::
      (if level < 3 then
        (List.range (tableEntries level)).flatMap fun i =>
          let e := d.entryAt (table + 8 * i)
          if e % 2 == 1 && sub e 6 1 == 0 then d.tablesUnder p n (level + 1) (nextTable e) else []
       else [])

/-- Groom restores the pool, the roots, the migration pools and the host key map from a good record (R390). -/
def Die.restore (d : Die) (r : List Byte) : Die :=
  let d := (d.putRaw PT_POOL_BASE (field r 24 4)).putRaw PT_POOL_SIZE (field r 28 4)
  let d := (List.range 16).foldl (fun e p =>
    ((e.putRaw (PT_ROOT p) (field r (32 + 4 * p) 4)).putRaw (MIG_POOL_BASE p) (field r (96 + 8 * p) 4)).putRaw (MIG_POOL_FRAMES p) (field r (100 + 8 * p) 4)) d
  let hkm := (List.range 73728).foldl (fun (t : List (Nat × BitVec 4)) g =>
    let b := (r[256 + g / 2]?).getD 0
    let x : BitVec 4 := BitVec.ofNat 4 (if g % 2 == 0 then b.toNat % 16 else b.toNat / 16)
    if x == 0 then t else t ++ [(g, x)]) []
  let d := { d with mem := { d.mem with hkm := hkm } }
  let tables := (List.range 16).flatMap fun p => match d.root p with | some a => d.tablesUnder p 4 0 a | none => []
  d.onTr fun t => { t with tables := tables }

/-- Either action of PRESERVE_CTRL ends the orphaned boot and disarms preservation (R390). -/
def Die.endOrphaned (d : Die) : Die := (d.putB PRESERVE_STATUS_ORPHANED false).putB PRESERVE_STATUS_ARMED false

/-- DISCARD (R390, R391): new keys for all 16 partitions, which clears every KEPT bit; after an orphaned boot no migrated frame is left. -/
def Die.discard (d : Die) : Die :=
  let e := ((List.range 16).foldl (fun e p => e.drawKey p) d).endOrphaned
  if d.bit PRESERVE_STATUS_ORPHANED then e.onTr fun t => { t with frames := [] } else e

/-- REATTACH (R390, R391): restores from the record when its CRC matches, else acts as DISCARD. A die that is not orphaned has no record (log
entry 25). -/
def Die.reattach (d : Die) : Die :=
  if d.bit PRESERVE_STATUS_ORPHANED then
    match d.readDev d.mem.record recordBytes 0 with
    | (some r, d) =>
      if (crc64 (r.take (recordBytes - 8))).toNat == field r (recordBytes - 8) 8 then
        (d.restore r).endOrphaned.put PRESERVE_STATUS_KEPT 0xFFFE
      else (d.putB PRESERVE_STATUS_BAD_RECORD true).discard
    | (none, d) => (d.putB PRESERVE_STATUS_BAD_RECORD true).discard
  else d

/-- A write of PRESERVE_CTRL: with both bits written as 1, DISCARD is ignored (register table after R392). -/
def Die.writePreserve (d : Die) (v : Nat) : Die :=
  if sub v 0 1 == 1 then d.reattach else if sub v 1 1 == 1 then d.discard else d

/-! ### Bias (R362 to R366) -/

/-- A write of BIAS_FLIP starts a flip; while one is in progress it is ignored and recorded (R365). -/
def Die.writeBias (d : Die) (v : Nat) : Die :=
  let d := if sub v 24 1 == 1 then d.putB BIAS_FLIP_DROPPED false else d
  if d.mem.flip.isSome then d.putB BIAS_FLIP_DROPPED true
  else
    let page := sub v 0 22
    let shared := sub v 22 1 == 1
    if 2359296 ≤ page then d
    else
      let d := (d.put BIAS_FLIP_PAGE page).putB BIAS_FLIP_SHARED shared
      { d with mem := { d.mem with flip := some { page := page, shared := shared } } }

/-! ### The host key map (R355) -/

/-- An access to HKM_DATA advances the index, wrapping at the last granule. -/
def Die.hkmStep (d : Die) : Die := d.put HKM_INDEX_GRANULE ((d.get HKM_INDEX_GRANULE + 1) % 73728)

def Die.writeHkm (d : Die) (v : Nat) : Die :=
  ({ d with mem := { d.mem with hkm := tblPut (fun _ => 0#4) d.mem.hkm (d.get HKM_INDEX_GRANULE) (BitVec.ofNat 4 (v % 16)) } }).hkmStep

end Sys2Proof.Machine
end

