-- ==== Sys2Proof/Machine/Access.lean ====
section
/-! DEFINITION. Writes of registers (spec 17, R541 to R551, and the register tables of the other chapters): what each
field stores, what a write starts, and the commands that are one such write. -/

namespace Sys2Proof.Machine

/-! ### Values -/

/-- The written word with every field whose value lies outside its range put back to what it holds (log entry 30). -/
def Die.inRange (d : Die) (off v : Nat) : Nat :=
  let keep (lo w : Nat) (v : Nat) : Nat := setBits v lo w (sub (d.raw off) lo w)
  let f (lo w min_ max_ : Nat) (v : Nat) : Nat := if decide (min_ ≤ sub v lo w) && decide (sub v lo w ≤ max_) then v else keep lo w v
  if off == TICK_PERIOD then f 0 17 200 102400 v
  else if off == TICK_GUARD then f 0 5 1 25 v
  else if off == REG_ORDER then v - v.land 0x4004
  else if off == BAR4_BASE then f 0 17 0 73727 v
  else if off == PWR_CTRL then f 0 3 0 5 (f 4 5 0 16 v)
  else if off == THERM_LIMITS then
    (if decide (sub v 0 8 ≤ 104) && decide (sub v 8 8 ≤ 104) && decide (sub v 0 8 ≤ sub v 8 8) then v else d.raw off)
  else if inArr off (YARD_RAMP 0) 6 4 then f 0 4 1 8 v
  else if off == DC_CTRL then f 2 5 4 31 (f 8 8 32 255 v)
  else if off == HKM_INDEX then f 0 17 0 73727 v
  else if off == GROOM_BUDGET then f 0 8 16 255 v
  else if inArr off (GROOM_SHARE 0) 16 4 then f 0 9 1 256 v
  else if inArr off (FAULT_REACT 0) 20 4 then
    let s := (off - FAULT_REACT 0) / 4
    (if s == 7 || decide (15 ≤ s) then v - v.land 0x040404 else v)
  else v

/-- A direct write would store a value into an RW field (R70). -/
def Die.wouldStore (d : Die) (r : RegRow) (off v : Nat) : Bool :=
  r.rw != 0 && !(off == TICK_PERIOD && d.inRange off v % 2 ^ 17 != v % 2 ^ 17)
    && !(off == TICK_GUARD && d.inRange off v % 32 != v % 32)

/-- Store a word by the access codes of its bits: RW, RW1C; other bits keep their values (R16, R544). -/
def Die.store (d : Die) (r : RegRow) (off v : Nat) : Die :=
  let old := d.raw off
  let n := (old - old.land r.rw) + (d.inRange off v).land r.rw
  d.putRaw off (n - n.land (v.land r.w1c))

/-! ### Writes that do more than store -/

/-- A write of MSIX_ALLOC (R478). -/
def Die.writeAlloc (d : Die) (r : RegRow) (f off v : Nat) : Die :=
  let n := sub v 12 12
  if (d.fn f).msixEnable || (f != 0 && d.host.vfEnable) || n == 0 || decide (2048 < n) then d else d.store r off v

/-- A write of FAULT_PIN: SENSE_FELL clears, and the net counts as risen again (log entry 18). -/
def Die.writePin (d : Die) (r : RegRow) (v : Nat) : Die :=
  let d := d.store r FAULT_PIN v
  if sub v 3 1 == 1 then { d with pins := { d.pins with errSense := true } } else d

/-- R520. -/
def Die.inject (d : Die) : Die := d.onFault fun u => { u with check := some { word := 0, injected := true, mismatch := false } }

/-- A write of 1 to GROOM_WDOG.KICK (R250). -/
def Die.kick (d : Die) : Die := { d with cp := { d.cp with groom := { d.cp.groom with wdog := 0 } } }

/-- A write of MEMKEY_CTRL (R356). -/
def Die.writeKeyCtrl (d : Die) (r : RegRow) (v : Nat) : Die :=
  let d := d.store r MEMKEY_CTRL v
  if sub v 4 1 == 1 then d.drawKey (v % 16) else d

def optIx (n : Nat) : OptIx := ⟨n % 2, Nat.mod_lt _ (by decide)⟩

/-- The effect of a write of one register with the rights of the PF. -/
def Die.effect (d : Die) (who : Who) (r : RegRow) (off v : Nat) : Die :=
  if off == TICK_CTRL then (let d := d.store r off v; if v % 2 == 1 then d.tickRun else d)
  else if inArr off (CORE_ASSIGN 0) 48 4 then d.assignCore (coreIx ((off - CORE_ASSIGN 0) / 4)) v
  else if off == FAULT_CORRECTED then d.clearClass .corrected v
  else if off == FAULT_CONTAINED then d.clearClass .contained v
  else if off == FAULT_FATAL then d.clearClass .fatal v
  else if off == FAULT_PIN then d.writePin r v
  else if off == FAULT_HIST_CTRL then (let d := d.store r off v; if sub v 15 1 == 1 then d.clearHist else d)
  else if off == FAULT_FORCE_CORR then d.force .corrected v
  else if off == FAULT_FORCE_CONT then d.force .contained v
  else if off == FAULT_FORCE_FATAL then d.force .fatal v
  else if off == FAULT_CHECK then (if v % 2 == 1 then d.inject else d)
  else if off == PWR_CAP then d.writeCap v
  else if off == PWR_CTRL then (let d := d.store r off v; if sub v 9 1 == 1 then d.resume else d)
  else if inArr off (PART_CTRL 0) 16 4 then d.writePart ((off - PART_CTRL 0) / 4) v
  else if inArr off (MSIX_ALLOC 0) 16 4 then d.writeAlloc r ((off - MSIX_ALLOC 0) / 4) off v
  else if off == HKM_DATA then d.writeHkm v
  else if off == BIAS_FLIP then d.writeBias v
  else if off == MEMKEY_CTRL then d.writeKeyCtrl r v
  else if off == PRESERVE_CTRL then d.writePreserve v
  else if inArr off (OPT_CTRL 0) 2 0x80 then
    let d := d.writeOptCtrl (optIx ((off - OPT_CTRL 0) / 0x80)) v
    -- a tick source is named again (R61)
    if d.bit (OPT_CTRL_TICK_SRC 0) || d.bit (OPT_CTRL_TICK_SRC 1) then d.putB TICK_STATUS_NO_SOURCE false else d
  else if inArr off (OPT_SRC 0) 2 0x80 then (d.store r off v).tryAdmit (optIx ((off - OPT_SRC 0) / 0x80))
  else if inArr off (CAGE 0) 2 4 then d.writeCage (optIx ((off - CAGE 0) / 4)) v
  else if off == GROOM_WDOG then (if v % 2 == 1 then d.kick else d)
  else if decide (0x2000000 ≤ off) && decide (off < 0x2020000) then
    let n := objIx ((off - 0x2000000) / 16)
    match (off - 0x2000000) % 16 with
    | 8 => opSyncAdd who n (BitVec.ofNat 32 v) d
    | 12 => d.writeSyncCtrl who n (BitVec.ofNat 32 v)
    | _ => d
  else d.store r off v

/-- A write in the PF's layout: digested registers and CORE_ASSIGN are held by the tick (R70, R468). -/
def Die.writePf (d : Die) (who : Who) (off v : Nat) : Die :=
  match findRow off with
  | none => if isReg off then d else d.reserved who false true false off
  | some r =>
    if d.bit TICK_CTRL_RUN && r.digested then (if d.wouldStore r off v then d.putB TICK_STATUS_DIGEST_WRITE_DROP true else d)
    else if d.bit TICK_CTRL_RUN && r.modeOnly then d.putB PQ_STATUS_ASSIGN_DROP true
    else d.effect who r off v

/-- A write of one aligned word of BAR0 or VF BAR0 (R541 to R551). -/
def Die.writeBar0 (d : Die) (who : Who) (off v : Nat) : Die :=
  let host := match who with | .fn .. => true | .dev .. => false
  let p := who.part.val
  let reserved := d.reserved who false true false off
  let table (x : Option Die) : Die := if host then x.getD reserved else reserved
  if off % 4 != 0 then d.reserved who false true true off
  else if p == 0 then
    if decide (0x3000000 ≤ off) && decide (off < 0x3008000) then table (d.setMsixWord 0 (off - 0x3000000) v)
    else if decide (0x3008000 ≤ off) && decide (off < 0x3008100) then table ((d.pbaWord 0 (off - 0x3008000)).map fun _ => d)
    else d.writePf who off v
  else
    match d.vfReg p off with
    | .reg o rw => if rw then d.writePf who o v else d
    | .own o => if o == RSVD_LAST && sub v 31 1 == 1 then d.putRaw (vfOwn p o) (d.raw (vfOwn p o) % 2 ^ 31) else d
    | .part => d
    | .msix o => table (d.setMsixWord p o v)
    | .pba o => table ((d.pbaWord p o).map fun _ => d)
    | .object n s =>
      let e := d.effect who { base := 0, n1 := 1, s1 := 4, n2 := 1, s2 := 4, rw := 0, w1c := 0, w1s := 0, digested := false, modeOnly := false } (objBase n + s) v
      if s == 12 && v % 16 != (d.obj n).owner.toNat then e.reserved who false true false off else e
    | .zero | .none => reserved

/-! ### Commands that are one register write -/

def opTickRun (who : Who) (v : W32) (d : Die) : Die := d.writeBar0 who TICK_CTRL v.toNat
def opHbmOffline (who : Who) (v : W32) (d : Die) : Die := d.writeBar0 who HBM_CTRL v.toNat

/-- HKM_DATA_ACCESS (R355): a write, or a read whose value goes to the reader. -/
def opHkmDataAccess (who : Who) (v : Option W32) (d : Die) : Die :=
  match v with
  | some x => d.writeBar0 who HKM_DATA x.toNat
  | none =>
    let (x, d) := d.readBar0 who HKM_DATA
    d.emit (.regData who HKM_DATA x)

def opBiasFlip (who : Who) (v : W32) (d : Die) : Die := d.writeBar0 who BIAS_FLIP v.toNat
def opRotate (who : Who) (v : W32) (d : Die) : Die := d.writeBar0 who MEMKEY_CTRL v.toNat
def opReattach (who : Who) (d : Die) : Die := d.writeBar0 who PRESERVE_CTRL 1
def opDiscard (who : Who) (d : Die) : Die := d.writeBar0 who PRESERVE_CTRL 2
def opOptEnable (who : Who) (n : OptIx) (v : W32) (d : Die) : Die := d.writeBar0 who (OPT_CTRL n.val) v.toNat
def opAdmit (who : Who) (n : OptIx) (v : W32) (d : Die) : Die := d.writeBar0 who (OPT_CTRL n.val) v.toNat
def opTickSrc (who : Who) (n : OptIx) (v : W32) (d : Die) : Die := d.writeBar0 who (OPT_CTRL n.val) v.toNat
def opLaserEn (who : Who) (n : OptIx) (v : W32) (d : Die) : Die := d.writeBar0 who (CAGE n.val) v.toNat
def opPartitionEnable (who : Who) (p : PartIx) (v : W32) (d : Die) : Die := d.writeBar0 who (PART_CTRL p.val) v.toNat
def opPartitionResetRequest (who : Who) (p : PartIx) (v : W32) (d : Die) : Die := d.writeBar0 who (PART_CTRL p.val) v.toNat

/-- The force register of a class (R513). -/
def forceReg : Cls → Nat
  | .corrected => FAULT_FORCE_CORR
  | .contained => FAULT_FORCE_CONT
  | .fatal => FAULT_FORCE_FATAL

/-- FAULT_FORCE (R513). -/
def opFaultForce (who : Who) (cls : Cls) (v : W32) (d : Die) : Die := d.writeBar0 who (forceReg cls) v.toNat

/-- FAULT_HIST_CLEAR (R516): CLEAR is written with CORR_EN as it stands. -/
def opFaultHistClear (who : Who) (d : Die) : Die :=
  d.writeBar0 who FAULT_HIST_CTRL (0x8000 + (if d.bit FAULT_HIST_CTRL_CORR_EN then 0x4000 else 0))

def opInject (who : Who) (d : Die) : Die := d.writeBar0 who FAULT_CHECK 1
def opThermalResume (who : Who) (v : W32) (d : Die) : Die := d.writeBar0 who PWR_CTRL v.toNat
def opGroomKick (who : Who) (d : Die) : Die := d.writeBar0 who GROOM_WDOG 1

end Sys2Proof.Machine
end

