-- ==== Sys2Proof/Machine/Dva.lean ====
section
/-! DEFINITION. Accesses to DVA space (spec 11, R354 to R384; spec 12, R418 and R419; spec 13, R438): one piece within a
line at its point of coherence, and whole ranges read and written by the bulk requesters, which take up again where
they had to wait. -/

namespace Sys2Proof.Machine

/-! ### Requesters -/

def srcCore (d : Die) (c : CoreIx) : Src := { req := .core c, stop := c.val, tlb := tlbCore c, part := (d.core c).slicePart }
def srcEng (c : CoreIx) (e : EngIx) (part : Nat) : Src := { req := .eng c e, stop := c.val, tlb := tlbEng c e, part := part }
def srcCopy (e : Nat) (pid part : Nat) : Src := { req := .pkt pid, stop := 57, tlb := tlbCopy e, part := part }
def srcRu (pid part : Nat) : Src := { req := .pkt pid, stop := 59, tlb := tlbRu, part := part }
def srcCp (req : Req) (part : Nat) : Src := { req := req, stop := 58, tlb := tlbCp, part := part }

/-- Result of an access: its bytes, a failure, or not yet. -/
inductive DRes where
  | ok (bs : List Byte) | fail (st : Status) | wait
deriving DecidableEq, Repr

/-- How a write is hinted (R335, R336), whether it may fault (R228), and where it stands in its packet's order (R242). -/
structure Hint where
  slice : Option SliceIx := none
  pos : Nat := 0
  push : Option CoreIx := none
  noFault : Bool := false
deriving DecidableEq, Repr

/-! ### Window addresses (spec 13) -/

def winPlace (a : Nat) : Place := { pkg := ⟨sub a 51 12 % 4096, Nat.mod_lt _ (by decide)⟩, die := ⟨sub a 48 3 % 8, Nat.mod_lt _ (by decide)⟩ }
def winIx (a : Nat) : WinIx := ⟨sub a 38 10 % 1024, Nat.mod_lt _ (by decide)⟩

/-- Write bytes at a window address: a WINDOW_WRITE, or a SIGNAL through the aperture (R438). -/
def Die.winWrite (d : Die) (who : Asker) (part a : Nat) (bs : List Byte) : Option Status × Die :=
  let off := sub a 0 38
  if sub a 63 1 == 1 then
    let form := (bs.length == 4 || bs.length == 8) && off % bs.length == 0 && sub off 0 3 == 0 && off / 65536 == 0
    if form then
      d.remote who part (winPlace a) (some (winIx a)) none true fun h =>
        .signal { head := h, obj := objIx (off / 8), inc := le64 bs }
    else (some .translationDenied, d)
  else
    d.remote who part (winPlace a) (some (winIx a)) none false fun h =>
      .winWrite { head := h, aperture := false, offset := off, data := bs }

/-! ### Peer-to-peer ranges (R418 to R420) -/

/-- The range that holds a host physical address. -/
def Die.p2pRange (d : Die) (hpa : Nat) : Option Nat :=
  (List.range 8).find? fun k =>
    let base := (d.raw (P2P_BASE_HI k) * 2 ^ 32 + d.raw (P2P_BASE_LO k)) / 65536 * 65536
    decide (base ≤ hpa) && decide (hpa < base + d.raw (P2P_SIZE k) * 65536)

/-- Record an error of the host endpoint (table after R423). -/
def Die.hostErr (d : Die) (cause fn addr : Nat) : Die :=
  (d.record HOST_ERR_VALID
    [(HOST_ERR_CAUSE, cause), (HOST_ERR_FUNCTION, fn), (HOST_ERR_ADDR_LO_ADDR, addr % 2 ^ 32), (HOST_ERR_ADDR_HI_ADDR, addr / 2 ^ 32)]).count HOST_ERR_COUNT 1

def Die.p2pMay (d : Die) (k part : Nat) (write : Bool) : Bool :=
  maskBit (BitVec.ofNat 16 (d.get (P2P_GRANT_PARTITIONS k))) part && (if write then d.bit (P2P_GRANT_WRITE k) else d.bit (P2P_GRANT_READ k))

/-- Send a peer-to-peer read of `n` bytes, or the zero-length read that acknowledges a write (R419). -/
def Die.p2pAsk (d : Die) (req : Req) (id part hpa n : Nat) : Die :=
  let tag := d.host.nextTag
  let d := d.onHost fun h => { h with nextTag := tag + 1, p2p := h.p2p ++ [{ tag := tag, req := req, id := id, part := part, addr := hpa, n := n, data := none }] }
  d.emit (.p2p tag part hpa n none)

/-- A peer-to-peer write and the read behind it. -/
def Die.p2pWrite (d : Die) (req : Req) (id part hpa : Nat) (bs : List Byte) : Die :=
  (d.emit (.p2p d.host.nextTag part hpa bs.length (some bs))).p2pAsk req id part hpa 0

/-! ### Tier windows (R384 to R386) -/

/-- The die whose host port reads a line of a tier window. -/
def Die.tierDie (d : Die) (mask dva : Nat) : DieIx :=
  let bits := (List.finRange 8).filter fun i => maskBit (BitVec.ofNat 8 mask) i.val
  match bits[(dva / 65536) % (max 1 bits.length)]? with
  | some x => x
  | none => d.here.die

/-! ### One piece -/

/-- What is kept for a requester about a line: an error. -/
def Die.takeLost (d : Die) (who : Asker) (line : Nat) : Option Status × Die :=
  match d.cache.lost.find? fun l => l.1 == who && l.2.1 == line with
  | some l => (some l.2.2, d.onCache fun u => { u with lost := u.lost.erase l })
  | none => (none, d)

/-- The answer to a read that has come, if it has. -/
def Die.tookReply (d : Die) (who : Asker) (a n : Nat) : DRes × Die :=
  match d.takeReplyTo who a n false with
  | (some x, d) => (if x.st == .ok then .ok x.data else .fail x.st, d)
  | (none, d) => (.wait, d)

/-- Read at a home slice (R311): the request is sent once, when `ready`, and its answer taken when it comes; `charge` meters it. -/
def Die.fetch (d : Die) (r : HomeReq) (ready : Bool) (charge : Die → Die) : DRes × Die :=
  let (a, n, _) := r.span
  match d.tookReply r.who a n with
  | (.wait, d) =>
    if d.inMshr r.who a n false then (.wait, d)
    else
      (match d.pushOn r.who a n false with
       | some d => d.tookReply r.who a n
       | none => if ready then ((charge d).askHome r).tookReply r.who a n else (.wait, d))
  | x => x

/-- Write at a home slice: the request leaves when `ready`, and is the requester's to be acknowledged (R273); a failure at once is known at once. -/
def Die.store_ (d : Die) (r : HomeReq) (ready : Bool) (charge : Die → Die) : DRes × Die :=
  if !ready then (.wait, d)
  else
    match ((charge d).askHome r).takeLost r.who r.line with
    | (some st, d) => (.fail st, d)
    | (none, d) => (.ok [], d)

/-- An earlier SHR write of a source to the controller that holds a line is still on its way through another slice: the later one stays behind it (R272,
R277). `mine` says which requests are the source's. -/
def Die.shrHeld (d : Die) (mine : HomeReq → Bool) (r : HomeReq) : Bool :=
  d.cache.ring.any fun q => mine q && q.space == .shr && q.writes && q.slice != r.slice && stackOf q.line == stackOf r.line

/-- The request of a source for a piece. -/
def Src.request (s : Src) (id dva : Nat) (space : Space) (a : Nat) (once : Bool) (op : HomeOp) : HomeReq :=
  { stop := ⟨s.stop % 64, Nat.mod_lt _ (by decide)⟩, slice := homeSlice (space == .host) (lineOf a), line := lineOf a, space := space,
    key := if space == .host then 0 else s.part, once := once, op := op, who := { req := s.req, id := id }, part := s.part, dva := some dva }

/-- A read of host physical addresses: of a peer device's memory, or of host memory at its home (R316, R385, R418). -/
def Die.hostSideRead (d : Die) (s : Src) (id dva hpa n : Nat) (once : Bool) : DRes × Die :=
  match d.p2pRange hpa with
  | some k =>
    if !d.p2pMay k s.part false then (.fail .translationDenied, d.hostErr 6 s.part hpa)
    else
      match d.takeLost { req := s.req, id := id } (lineOf hpa) with
      | (some st, d) => (.fail st, d)
      | (none, d) =>
      match d.host.p2p.find? fun o => o.req == s.req && o.id == id && o.addr == hpa && o.n == n with
      | some o =>
        (match o.data with
         | some bs => (.ok bs, d.onHost fun h => { h with p2p := h.p2p.erase o })
         | none => (.wait, d))
      | none => if d.upstreamHeld s then (.wait, d) else (.wait, d.p2pAsk s.req id s.part hpa n)
  | none =>
    let tier := (d.tier s.part dva).map fun m => d.tierDie m dva
    d.fetch { s.request id dva .host hpa (once || tier.isSome) (.read hpa n) with tier := tier } (!d.upstreamHeld s && d.mayUse s.part 1) fun e => e.useTokens s.part 1 n

/-- A write of host physical addresses (R323, R419). -/
def Die.hostSideWrite (d : Die) (s : Src) (id dva hpa : Nat) (bs : List Byte) : DRes × Die :=
  let n := bs.length
  let ready := !d.upstreamHeld s && d.mayUse s.part 1
  match d.p2pRange hpa with
  | some k =>
    if !ready then (.wait, d)
    else if !d.p2pMay k s.part true then (.fail .translationDenied, d.hostErr 6 s.part hpa)
    else (.ok [], (d.p2pWrite s.req id s.part hpa bs).useTokens s.part 1 n)
  | none => d.store_ (s.request id dva .host hpa false (.write hpa bs)) ready fun e => e.useTokens s.part 1 n

/-! ### Register space (R295, R296) -/

/-- A device-side source as the registers see it. -/
def Src.who (s : Src) : Who := .dev ⟨s.part % 16, Nat.mod_lt _ (by decide)⟩ s.tlb

/-- Words of register space. -/
def Die.regRead (d : Die) (s : Src) (a n : Nat) : List Byte × Die :=
  let (bs, d) := (List.range ((a + n + 3) / 4 - a / 4)).foldl (fun (acc : List Byte × Die) i =>
    let (w, e) := acc.2.readBar0 s.who (4 * (a / 4 + i))
    (acc.1 ++ leBytes 4 w.toNat, e)) ([], d)
  ((bs.drop (a % 4)).take n, d)

/-- The register at an offset adds to a sync object, and source 49 has its slot occupied: the write is withheld (R264). -/
def Die.addHeld (d : Die) (p off : Nat) : Bool :=
  let field : Option Nat := if p == 0 then (if decide (0x2000000 ≤ off) && decide (off < 0x2020000) then some ((off - 0x2000000) % 16) else none)
    else match d.vfReg p off with | .object _ s => some s | _ => none
  field == some 8 && (assoc d.sync.slots 49).isSome

/-- One word of a write to register space: an aligned whole word is written; other bytes are ignored and counted (R542). Whoever made it is acknowledged once it
has its effect, or at once where REG_ORDER lets its region do so (R296): of all regions only the sync objects take effects later. -/
def Die.regWord (d : Die) (s : Src) (id w : Nat) (v : Option Nat) : Die :=
  match v with
  | none => d.reserved s.who false true true w
  | some v =>
    let d := d.writeBar0 s.who w v
    if maskBit (BitVec.ofNat 18 (d.get REG_ORDER_EARLY_ACK)) 17 then d else d.ownEffects s.who (s.req, id)

/-- Write words from an offset on, up to one that is withheld; the bytes written. -/
def Die.regWords (s : Src) (id a : Nat) (bs : List Byte) : Nat → Nat → Die → Nat × Die
  | 0, done, d => (done, d)
  | n + 1, done, d =>
    if bs.length ≤ done then (bs.length, d)
    else
      let w := (a + done) / 4 * 4
      let whole := decide (a + done = w) && decide (done + 4 ≤ bs.length)
      if whole && d.addHeld (s.part % 16) w then (done, d)
      else Die.regWords s id a bs n (w + 4 - a) (d.regWord s id w (if whole then some (field bs done 4) else none))

/-! ### Pieces -/

/-- Device memory can be reached: not in self-refresh, tokens at hand (R473, R530). -/
def Die.memReady (d : Die) (s : Src) : Bool := !d.bit HBM_STATUS_SELF_REFRESH && d.mayUse s.part 0 && d.mayUse s.part 1

/-- Read a piece inside one line. -/
def Die.pieceRead (d : Die) (s : Src) (id dva n : Nat) (noFault : Bool) : DRes × Die :=
  let pay (e : Die) : Die := e.useTokens s.part 1 n
  match d.translate s dva false noFault with
  | (.fail st, d) => (.fail st, d)
  | (.wait, d) => (.wait, d)
  | (.ok 0 a once, d) => d.fetch (s.request id dva .dev a once (.read a n)) (d.memReady s) pay
  | (.ok 1 a _, d) => d.fetch (s.request id dva .shr a false (.read a n)) (d.memReady s) pay
  | (.ok 2 hpa once, d) => d.hostSideRead s id dva hpa n once
  | (.ok 3 a _, d) =>
    if sub a 63 1 == 1 then (.fail .translationDenied, d)
    else
      (match d.ports.ops.find? fun o => o.req == s.req && o.id == id && o.read == some (a, n) with
       | some o =>
         (match o.reply with
          | some (st, bs) =>
            let d := d.onPorts fun u => { u with ops := u.ops.erase o }
            (if st == .ok then .ok bs else .fail st, d)
          | none => (.wait, d))
       | none =>
         if !d.mayUse s.part 1 then (.wait, d)
         else
           match d.remote { req := s.req, id := id } s.part (winPlace a) (some (winIx a)) (some (a, n)) false fun h =>
             .winRead { head := h, aperture := false, offset := sub a 0 38, n := n } with
           | (some st, d) => (.fail st, d)
           | (none, d) => (.wait, d))
  | (.ok _ a _, d) => if d.effectDue s.who then (.wait, d) else let (bs, d) := d.regRead s a n; (.ok bs, d)

/-- Write a piece inside one line: sent, or not at all. Only in register space a part of it may be written, of so many bytes. -/
def Die.pieceWrite (d : Die) (s : Src) (id dva : Nat) (bs : List Byte) (h : Hint) : DRes × Nat × Die :=
  let whole (x : DRes × Die) : DRes × Nat × Die := (x.1, 0, x.2)
  let n := bs.length
  let who : Asker := { req := s.req, id := id }
  let pay (e : Die) : Die := e.useTokens s.part 1 n
  match d.translate s dva true h.noFault with
  | (.fail st, d) => (.fail st, 0, d)
  | (.wait, d) => (.wait, 0, d)
  | (.ok 0 a once, d) =>
    let r := s.request id dva .dev a once (.write a bs)
    whole (d.store_ { r with keep := h.slice == some r.slice, push := h.push } (d.memReady s) pay)
  | (.ok 1 a _, d) =>
    let r := s.request id dva .shr a false (.write a bs)
    whole (d.store_ r (d.memReady s && !d.shrHeld (fun q => d.sourceKey q.who.req == d.sourceKey s.req) r) pay)
  | (.ok 2 hpa _, d) => whole (d.hostSideWrite s id dva hpa bs)
  | (.ok 3 a _, d) =>
    if sub a 63 1 == 1 && d.sourceOpen s.req then (.wait, 0, d)
    else if !d.mayUse s.part 1 then (.wait, 0, d)
    else
      (match d.winWrite who s.part a bs with
      | (some st, d) => (.fail st, 0, d)
      | (none, d) => (.ok [], 0, pay d))
  | (.ok _ a _, d) =>
    match Die.regWords s id a bs (n + 1) 0 d with
    | (k, d) => (if n ≤ k then .ok [] else .wait, k, d)

/-! ### Whole ranges -/

/-- The pieces of a DVA range: within lines, modulo the 64-bit address space. -/
def dvaPieces (a n : Nat) : List (Nat × Nat) := linePieces a n

def Die.setRead (d : Die) (r : DvaRead) : Die :=
  d.onTr fun t => { t with reads := (t.reads.filter fun x => !(x.req == r.req && x.addr == r.addr && x.n == r.n)) ++ [r] }

/-- Read on from what has been got; a piece that must wait ends the attempt. -/
def Die.readOn (s : Src) (noFault : Bool) : List (Nat × Nat) → List Byte → Die → DRes × List Byte × Die
  | [], got, d => (.ok got, got, d)
  | (a, n) :: rest, got, d =>
    match d.pieceRead s s.id a n noFault with
    | (.ok bs, d) => Die.readOn s noFault rest (got ++ bs) d
    | (.fail st, d) => (.fail st, got, d)
    | (_, d) => (.wait, got, d)

/-- Read a range for a command of a bulk requester; what has been read is kept until the command is done with it. -/
def Die.readAll (d : Die) (s : Src) (a n : Nat) (noFault : Bool) : DRes × Die :=
  let old := match d.tr.reads.find? fun x => x.req == s.req && x.addr == a && x.n == n with | some x => x.got | none => []
  if n ≤ old.length then (.ok old, d)
  else
    let (r, got, d) := Die.readOn s noFault (dvaPieces (a + old.length) (n - old.length)) old d
    (r, if n ≤ 0 then d else d.setRead { req := s.req, addr := a, n := n, got := got })

def Die.setWrite (d : Die) (w : DvaWrite) : Die :=
  d.onTr fun t => { t with writes := (t.writes.filter fun x => !(x.req == w.req && x.addr == w.addr && x.n == w.n)) ++ [w] }

/-- Write on from the pieces already written. -/
def Die.writeOn (s : Src) (h : Hint) (base : Nat) (bs : List Byte) : List (Nat × Nat) → Nat → Die → DRes × Nat × Die
  | [], done, d => (.ok [], done, d)
  | (a, n) :: rest, done, d =>
    match d.pieceWrite s (h.pos + done) a ((bs.drop (a - base)).take n) h with
    | (.ok _, _, d) => Die.writeOn s h base bs rest (done + n) d
    | (.fail st, _, d) => (.fail st, done, d)
    | (.wait, k, d) => (.wait, done + k, d)

/-- Bytes of a range that a requester's command has written so far. -/
def Die.written (d : Die) (req : Req) (a n : Nat) : Nat :=
  match d.tr.writes.find? fun x => x.req == req && x.addr == a && x.n == n with | some x => x.done | none => 0

/-- Write a range for a command of a bulk requester. -/
def Die.writeAll (d : Die) (s : Src) (a : Nat) (bs : List Byte) (h : Hint) : DRes × Die :=
  let done := d.written s.req a bs.length
  let (r, done, d) := Die.writeOn s h a bs (dvaPieces (a + done) (bs.length - done)) done d
  (r, d.setWrite { req := s.req, addr := a, n := bs.length, done := done })

/-- A command is done with its reads and writes: what is still to come for its reads is nobody's. -/
def Die.doneWith (d : Die) (req : Req) : Die :=
  ((d.onTr fun t => { t with reads := t.reads.filter fun x => x.req != req, writes := t.writes.filter fun x => x.req != req }).forget
    fun r => r.who.req == req && !r.writes).onCache fun u => { u with replies := u.replies.filter fun x => x.who.req != req }

end Sys2Proof.Machine
end

