-- ==== Sys2Proof/Machine/CoreMem.lean ====
section
/-! DEFINITION. Core accesses to DVA space: loads, stores, atomics, vector loads and stores, and the fetch/stow engines
(spec 03, R89 to R99; spec 09, R271 to R295; spec 10, R315 to R333). A load, store or atomic is an outstanding
operation from its issue until LOAD_RETURN or WRITE_ACKNOWLEDGE; a fetch or stow until FETCH_COMPLETE. -/

namespace Sys2Proof.Machine

/-! ### Sending an access -/

def Die.opOf (d : Die) (c : CoreIx) (id : Nat) : Option CoreOpEntry := (d.core c).ops.find? fun o => o.id == id

def CoreOpEntry.writes (o : CoreOpEntry) : Bool := match o.acc with | .read => false | _ => true

/-- The access has left the core, for a place in host memory or elsewhere. -/
def Die.markSent (d : Die) (c : CoreIx) (id : Nat) (host : Bool) (pa : Nat) : Die :=
  d.onOp c id fun o => { o with sent := true, line := some (host, pa) }

/-- A request of a core to a home slice for an access. -/
def coreReq (c : CoreIx) (o : CoreOpEntry) (space : Space) (pa part : Nat) (once : Bool) (op : HomeOp) : HomeReq :=
  { stop := coreStop c, slice := homeSlice (space == .host) (lineOf pa), line := lineOf pa, space := space,
    key := if space == .host then 0 else part, once := once, op := op, who := { req := .core c, id := o.id }, part := part, dva := some o.addr }

/-- Send a request and charge the die ring. -/
def Die.sendCore (d : Die) (c : CoreIx) (o : CoreOpEntry) (r : HomeReq) (pa part : Nat) : Die :=
  ((d.sendHome r).markSent c o.id (r.space == .host) pa).useTokens part 1 o.bytes

/-- Give up the L1's copy of a line (R317). A line in E stays until R330 lets it go: the home revokes it for the read (R331). -/
def Die.dropOwnLine (d : Die) (c : CoreIx) (line : Nat) (host : Bool) : Die :=
  match d.l1Find (coreStop c) line host with
  | none => d
  | some (k, l) => if l.excl then d else (d.l1Drop k).sendEvict (coreStop c) line host

/-- A write or an atomic of the core on a line it holds in E may be performed: its earlier writes have reached their place in that slice (R277). -/
def Die.mayOwn (d : Die) (c : CoreIx) (line : Nat) : Bool :=
  !d.cache.ring.any fun q => q.stop == coreStop c && q.slice == homeSlice false line && q.writes && !q.isNote

/-- A plain load of a DEV or HOST line (R316): a hit in the L1, a miss that joins one under way, or a new miss. -/
def Die.loadLine (d : Die) (c : CoreIx) (o : CoreOpEntry) (host : Bool) (pa : Nat) (ready : Bool) (ask : Die → Die) : Die :=
  let line := lineOf pa
  match d.l1Find (coreStop c) line host with
  | some (k, l) =>
    ((d.l1Touch k).markSent c o.id host pa).answer { req := .core c, id := o.id } (lineBytes l.data (pa - line) o.bytes)
  | none =>
    match d.cache.misses.find? fun x => x.stop == coreStop c && x.line == line && x.host == host with
    | some x => if x.killed then d else d.markSent c o.id host pa
    | none =>
      if !ready then d
      else (ask d).onCache fun u => { u with misses := u.misses ++ [{ stop := coreStop c, line := line, host := host, killed := false }] }

/-- An access to a DEV page. -/
def Die.sendDev (d : Die) (c : CoreIx) (o : CoreOpEntry) (s : Src) (pa : Nat) (once : Bool) : Die :=
  let req (op : HomeOp) : HomeReq := coreReq c o .dev pa s.part once op
  match o.acc with
  | .read =>
    if o.vol then
      if d.memReady s then (d.dropOwnLine c (lineOf pa) false).sendCore c o (req (.read pa o.bytes)) pa s.part else d
    else d.loadLine c o false pa (d.memReady s) fun d => d.sendCore c o (req .fill) pa s.part
  | .write bs =>
    if !d.memReady s then d
    else
      (match d.l1Find (coreStop c) (lineOf pa) false with
       | some (k, l) =>
         if l.excl then
           (if d.mayOwn c l.addr then
              ((d.l1Touch k).l1Put k { l with data := lineWrite l.data (pa - l.addr) bs }).sendCore c o (req (.result pa bs)) pa s.part
            else d)
         else (d.l1Touch k).sendCore c o (req (.write pa bs)) pa s.part
       | none => d.sendCore c o (req (.write pa bs)) pa s.part)
  | .amo op cmp new =>
    if !d.memReady s then d
    else
      (match d.l1Find (coreStop c) (lineOf pa) false with
       | some (k, l) =>
         if l.excl && !d.mayOwn c l.addr then d
         else if l.excl then ((((d.l1Touch k).markSent c o.id false pa).useTokens s.part 1 o.bytes).nearAmo (coreStop c) s.part k l c o pa).2
         else d.sendCore c o (req (.amo op pa o.bytes cmp new none)) pa s.part
       | none => d.sendCore c o (req (.amo op pa o.bytes cmp new none)) pa s.part)

/-- An access to a SHR page: performed at the controller, never cached (R275); a write behind the earlier ones to that controller (R272, R277). -/
def Die.sendShr (d : Die) (c : CoreIx) (o : CoreOpEntry) (s : Src) (pa : Nat) : Die :=
  let r := coreReq c o .shr pa s.part false (match o.acc with
    | .read => .read pa o.bytes
    | .write bs => .write pa bs
    | .amo op cmp new => .amo op pa o.bytes cmp new none)
  if !d.memReady s || (r.writes && d.shrHeld (fun q => q.who.req == .core c) r) then d else d.sendCore c o r pa s.part

/-- An access to a peer device's memory (R418, R419). -/
def Die.sendP2p (d : Die) (c : CoreIx) (o : CoreOpEntry) (s : Src) (k hpa : Nat) : Die :=
  let bad (e : Die) : Die := e.coreDrops c (fun x => x.id == o.id) .translationDenied
  if !d.p2pMay k s.part o.writes then bad (d.hostErr 6 s.part hpa)
  else if d.upstreamHeld s || !d.mayUse s.part 1 then d
  else
    match o.acc with
    | .read => ((d.p2pAsk s.req o.id s.part hpa o.bytes).markSent c o.id true hpa).useTokens s.part 1 o.bytes
    | .write bs => ((d.p2pWrite s.req o.id s.part hpa bs).markSent c o.id true hpa).useTokens s.part 1 o.bytes
    | .amo .. => bad d

/-- An access to a HOST page; `tier` is the die of a tier window (R384, R385), which its request carries to the home. -/
def Die.sendHost (d : Die) (c : CoreIx) (o : CoreOpEntry) (s : Src) (hpa : Nat) (once : Bool) (tier : Option DieIx) : Die :=
  match d.p2pRange hpa with
  | some k => d.sendP2p c o s k hpa
  | none =>
    let line := lineOf hpa
    let ready := !d.upstreamHeld s && d.mayUse s.part 1
    let ask (op : HomeOp) (d : Die) : Die :=
      d.sendCore c o { coreReq c o .host hpa s.part (once || tier.isSome) op with tier := if o.writes then none else tier } hpa s.part
    match o.acc with
    | .read =>
      if o.vol then (if ready then ask (.read hpa o.bytes) (d.dropOwnLine c line true) else d)
      else d.loadLine c o true hpa ready (ask .fill)
    | .write bs => if ready then ask (.write hpa bs) d else d
    | .amo op cmp new => if ready then ask (.amo op hpa o.bytes cmp new none) d else d

/-- An access to a WIN page (R438); an atomic is refused (R293). -/
def Die.sendWin (d : Die) (c : CoreIx) (o : CoreOpEntry) (s : Src) (a : Nat) : Die :=
  let bad (e : Die) (st : Status) : Die := e.coreDrops c (fun x => x.id == o.id) st
  let who : Asker := { req := .core c, id := o.id }
  let sent (r : Option Status × Die) : Die :=
    match r.1 with
    | some st => bad r.2 st
    | none => (r.2.markSent c o.id false a).useTokens s.part 1 o.bytes
  if !d.mayUse s.part 1 then d
  else
    match o.acc with
    | .amo .. => bad d .translationDenied
    | .read =>
      if sub a 63 1 == 1 then bad d .translationDenied
      else sent (d.remote who s.part (winPlace a) (some (winIx a)) (some (a, o.bytes)) false fun h =>
        .winRead { head := h, aperture := false, offset := sub a 0 38, n := o.bytes })
    | .write bs => sent (d.winWrite who s.part a bs)

/-- An access to a REG page (R295, R296), in order with every other; an atomic is refused (R293). A read waits until what the core wrote before has its
effect; of a write the words that are not withheld are written, and the rest stays to be written. -/
def Die.sendReg (d : Die) (c : CoreIx) (o : CoreOpEntry) (s : Src) (a : Nat) : Die :=
  if (d.core c).ops.any fun x => decide (x.id < o.id) && !x.sent then d
  else
    match o.acc with
    | .amo .. => d.coreDrops c (fun x => x.id == o.id) .translationDenied
    | .read =>
      if d.effectDue s.who then d
      else let (bs, d) := d.regRead s a o.bytes; (d.markSent c o.id false a).answer { req := .core c, id := o.id } bs
    | .write bs =>
      match Die.regWords s o.id a bs (o.bytes + 1) 0 d with
      | (n, d) =>
        if o.bytes ≤ n then (d.markSent c o.id false a).effectEnd c o.id
        else d.onOp c o.id fun x => { x with addr := x.addr + n, bytes := x.bytes - n, acc := .write (bs.drop n) }

/-- Two accesses have bytes in common. -/
def CoreOpEntry.meets (x o : CoreOpEntry) : Bool := decide (x.addr < o.addr + o.bytes) && decide (o.addr < x.addr + x.bytes)

/-- Earlier accesses of the core keep this one at home: a write stays behind every earlier write that has not left (R277), any access behind an earlier
one of the same bytes that has not (R92), and a plain load behind an earlier volatile one of the same bytes until it is answered (R276). -/
def Core.keptBack (k : Core) (o : CoreOpEntry) : Bool :=
  k.ops.any fun x => decide (x.id < o.id) &&
    ((!x.sent && ((o.writes && x.writes) || x.meets o)) || (!o.vol && !o.writes && x.vol && x.value.isNone && x.meets o))

/-- An earlier write of the core is not acknowledged (R105). -/
def Core.writesOpen (k : Core) (id : Nat) : Bool :=
  (k.ops.any fun x => decide (x.id < id) && x.writes && !x.acked) || (k.engines.any fun e => e.2.stow) || k.streams.any fun s => s.kind == .drain

/-- The resources that an access uses (R471), by the kind of its page: device memory and the die ring, or the ring. -/
def resourcesOf (kind : Nat) : List Nat := match kind with | 0 | 1 => [0, 1] | 2 | 3 => [1] | _ => []

/-- An earlier access of the core waits for a bucket that this one needs (R473). -/
def Core.bucketBehind (k : Core) (id : Nat) (rs : List Nat) : Bool :=
  k.ops.any fun x => decide (x.id < id) && !x.sent && x.starved.any rs.contains

/-- A plain load that its L1 serves. -/
def Die.l1Serves (d : Die) (c : CoreIx) (o : CoreOpEntry) (kind a : Nat) : Bool :=
  !o.writes && !o.vol && (kind == 0 || kind == 2) && (d.l1Find (coreStop c) (lineOf a) (kind == 2)).isSome

/-- Try to send an access that has not left its core: translated, then sent to where its page lies, in the order of the accesses that use one bucket (R473). -/
def Die.sendOp (d : Die) (c : CoreIx) (id : Nat) : Die :=
  match d.opOf c id with
  | none => d
  | some o =>
    let s := srcCore d c
    if o.sent || (d.core c).keptBack o then d
    else
      match d.translate { s with amo := match o.acc with | .amo .. => true | _ => false } o.addr o.writes false with
      | (.wait, d) => d
      | (.fail st, d) => d.coreDrops c (fun x => x.id == id) st
      | (.ok kind a once, d) =>
        let short := if d.l1Serves c o kind a then [] else (resourcesOf kind).filter fun r => !d.mayUse s.part r
        if !d.l1Serves c o kind a && (d.core c).bucketBehind id (resourcesOf kind) then d
        else if !short.isEmpty then d.onOp c id fun x => { x with starved := short }
        else match kind with
          | 0 => d.sendDev c o s a once
          | 1 => d.sendShr c o s a
          | 2 => d.sendHost c o s a once ((d.tier s.part o.addr).map fun m => d.tierDie m o.addr)
          | 3 => if sub a 63 1 == 1 && (d.core c).writesOpen id then d else d.sendWin c o s a
          | _ => d.sendReg c o s a

/-! ### Issue -/

/-- The outstanding operations of one access of `n` bytes, one per line. -/
def coreParts (k : Core) (vol : Bool) (acc : Nat → Nat → CoreAccess) (dest : Nat → Nat → Option LoadDest) (a n : Nat) : List CoreOpEntry :=
  let ps := dvaPieces a n
  (List.range ps.length).map fun i =>
    let (pa, len) := ps.getD i (a, n)
    let off := (pa + 2 ^ 64 - a) % 2 ^ 64
    { id := k.nextOp + i, tail := i != 0, pc := k.pc, addr := pa, bytes := len, vol := vol, acc := acc off len, dest := dest off len,
      line := none, sent := false, value := none, acked := false }

/-- Issue an access: its operations are outstanding, and leave the core as soon as they can. -/
def Die.startAccess (d : Die) (c : CoreIx) (k : Core) (os : List CoreOpEntry) : Die :=
  os.foldl (fun e o => e.sendOp c o.id) (d.setCore c { k.next with ops := k.ops ++ os, nextOp := k.nextOp + os.length })

/-- The one tracked range of a DVA access. -/
def dvaRange (a n : Nat) (write : Bool) : List Range := [{ dva := true, lo := a, hi := a + n, write := write }]

/-- A scalar load of `n` bytes. -/
def Die.scalarLoad (d : Die) (c : CoreIx) (op : CoreOp) (sd sa : Reg) (imm : W32) (vol : Bool) (n : Nat) : Die :=
  d.issue c op (fun k => k.clear (dvaRange (k.ea sa imm) n false) true) fun d k =>
    d.startAccess c k (coreParts k vol (fun _ _ => .read) (fun _ _ => some (.sreg sd n)) (k.ea sa imm) n)

/-- A scalar store of the low `n` bytes of a register. -/
def Die.scalarStore (d : Die) (c : CoreIx) (op : CoreOp) (sd sa : Reg) (imm : W32) (n : Nat) : Die :=
  d.issue c op (fun k => k.clear (dvaRange (k.ea sa imm) n true) true) fun d k =>
    d.startAccess c k (coreParts k false (fun _ _ => .write (leBytes n (k.s sd).toNat)) (fun _ _ => none) (k.ea sa imm) n)

/-- LD: 64-bit DVA load, volatile with V. -/
def opLd (c : CoreIx) (sd sa : Reg) (imm : W32) (v : Bool) (d : Die) : Die := d.scalarLoad c (.ld sd sa imm v) sd sa imm v 8

/-- LW: 32-bit zero-extended DVA load. -/
def opLw (c : CoreIx) (sd sa : Reg) (imm : W32) (v : Bool) (d : Die) : Die := d.scalarLoad c (.lw sd sa imm v) sd sa imm v 4

/-- SD: 64-bit DVA store. -/
def opSd (c : CoreIx) (sd sa : Reg) (imm : W32) (d : Die) : Die := d.scalarStore c (.sd sd sa imm) sd sa imm 8

/-- SW: 32-bit DVA store. -/
def opSw (c : CoreIx) (sd sa : Reg) (imm : W32) (d : Die) : Die := d.scalarStore c (.sw sd sa imm) sd sa imm 4

/-- AMOADD, AMOSWAP and AMOCAS (R98, R292): of 64 bits with W, else of 32. -/
def opAmo (op : AmoOp) (c : CoreIx) (sd sa sb : Reg) (w : Bool) (d : Die) : Die :=
  let n := if w then 8 else 4
  d.issue c (.amo op sd sa sb w) (fun k => k.clear (dvaRange (k.s sa).toNat n true) true) fun d k =>
    d.startAccess c k (coreParts k false (fun _ _ => .amo op (k.s sd) (k.s sb)) (fun _ _ => some (.sreg sd n)) (k.s sa).toNat n)

/-- VLDG: 512 bytes of DVA space into a vector register, under the lane mask. -/
def opVldg (c : CoreIx) (vd sa : Reg) (m : BitVec 2) (imm : W32) (d : Die) : Die :=
  d.issue c (.vldg vd sa m imm) (fun k => k.clear (dvaRange (k.ea sa imm) 512 false) true) fun d k =>
    d.startAccess c k (coreParts k false (fun _ _ => .read) (fun off _ => some (.vreg vd (k.m m) off)) (k.ea sa imm) 512)

/-- VSTG: a vector register to 512 bytes of DVA space. -/
def opVstg (c : CoreIx) (vd sa : Reg) (imm : W32) (d : Die) : Die :=
  d.issue c (.vstg vd sa imm) (fun k => k.clear (dvaRange (k.ea sa imm) 512 true) true) fun d k =>
    d.startAccess c k (coreParts k false (fun off n => .write (((laneBytes (lanes (k.v vd))).drop off).take n)) (fun _ _ => none) (k.ea sa imm) 512)

/-! ### Answers -/

/-- A vector register with the bytes from `off` on replaced in the lanes of the mask. -/
def Core.mergeLanes (k : Core) (r : Reg) (mask : LaneMask) (off : Nat) (bs : List Byte) : Core :=
  k.setV r (ofLanes ((List.range 128).map fun i =>
    if mask.getLsbD i && decide (off ≤ 4 * i) && decide (4 * i + 4 ≤ off + bs.length) then BitVec.ofNat 32 (field bs (4 * i - off) 4)
    else lane (k.v r) i))

def Core.land (k : Core) (dest : Option LoadDest) (bs : List Byte) : Core :=
  match dest with
  | some (.sreg r n) => k.setS r (BitVec.ofNat 64 (leNat (bs.take n)))
  | some (.vreg r mask off) => k.mergeLanes r mask off bs
  | none => k

/-- The access of a core with its value: it is complete, but for an atomic whose result its home has not accepted (R330). -/
def Die.landed (d : Die) (c : CoreIx) (o : CoreOpEntry) (bs : List Byte) : Die :=
  (d.onCore c fun k =>
    let k := k.land o.dest bs
    if o.writes && !o.acked then { k with ops := listUpd (fun x => x.id == o.id) (fun x => { x with dest := none }) k.ops }
    else { k with ops := k.ops.filter fun x => x.id != o.id }).settle c

/-- LOAD_RETURN: the value of a load or atomic reaches its register; an access that has not left its core tries again. -/
def opLoadReturn (c : CoreIx) (id : Nat) (d : Die) : Die :=
  match d.opOf c id with
  | none => d
  | some o =>
    match o.dest, o.value with
    | some _, some bs => d.landed c o bs
    | some _, none =>
      if !o.sent then d.sendOp c id
      else
        (match d.arrived c id with
         | none => d
         | some (m, st, data) =>
           match st, data with
           | .ok, some bs => (d.popL1 m).landed c { o with acked := true } bs
           | .ok, none => d
           | st, _ => (d.popL1 m).coreDrops c (fun x => x.id == id) st)
    | none, _ => d

/-- A core's write is complete (R273). -/
def Die.writeDone (d : Die) (c : CoreIx) (id : Nat) : Die :=
  (d.onCore c fun k =>
    let k := { k with ops := k.ops.filter fun x => x.id != id }
    if k.wait == some (.signal id) then k.waitDone else k).settle c

/-- WRITE_ACKNOWLEDGE (R273): a core's write that is acknowledged is complete; one that has not left its core tries again.
Other requesters find their acknowledgements when their own commands look for them. -/
def opWriteAcknowledge (req : Req) (id : Nat) (d : Die) : Die :=
  match req with
  | .core c =>
    (match d.opOf c id with
     | none => d
     | some o =>
       if o.dest.isSome then d
       else if o.acked then d.writeDone c id
       else if !o.sent then d.sendOp c id
       else
         match d.arrived c id with
         | none => d
         | some (m, st, _) => if st == .ok then (d.popL1 m).writeDone c id else (d.popL1 m).coreDrops c (fun x => x.id == id) st)
  | _ => d

/-! ### Fetch and stow -/

/-- The operation a FETCH or STOW gives to an engine. -/
def engOp (k : Core) (stow v : Bool) (part : PartIx) (sa sb sc : Reg) (crib : BitVec 22) : EngOp :=
  { pc := k.pc, stow := stow, v := v, part := part, dva := (k.s sa).toNat, rowBytes := (k.s sb).toNat % 2 ^ 32,
    rows := (k.s sb).toNat / 2 ^ 32 % 2 ^ 16, stride := (k.s sc).toInt, crib := crib.toNat, done := 0 }

def Core.freeEngine (k : Core) : Option EngIx := (List.finRange 4).find? fun e => (assoc k.engines e.val).isNone

/-- Issue a FETCH or STOW: the lowest-numbered free engine takes it. -/
def Die.startEngine (d : Die) (c : CoreIx) (op : CoreOp) (stow v : Bool) (sa sb sc : Reg) (crib : BitVec 22) : Die :=
  let part : PartIx := match (d.core c).run with | some r => r.part | none => 0
  d.issue c op (fun k => k.freeEngine.isSome && k.clear (engOp k stow v part sa sb sc crib).ranges true) fun d k =>
    match k.freeEngine with
    | none => d
    | some e => d.setCore c { k.next with engines := assocPut k.engines e.val (engOp k stow v part sa sb sc crib) }

/-- FETCH. -/
def opFetch (c : CoreIx) (sa sb sc : Reg) (v : Bool) (crib : BitVec 22) (d : Die) : Die :=
  d.startEngine c (.fetch sa sb sc v crib) false v sa sb sc crib

/-- STOW. -/
def opStow (c : CoreIx) (sa sb sc : Reg) (crib : BitVec 22) (d : Die) : Die :=
  d.startEngine c (.stow sa sb sc crib) true false sa sb sc crib

def Die.onEngine (d : Die) (c : CoreIx) (e : EngIx) (f : EngOp → EngOp) : Die :=
  d.onCore c fun k => { k with engines := k.engines.map fun x => if x.1 == e.val then (x.1, f x.2) else x }

/-- The core's own L1 gives up its copies of a range that a volatile FETCH reads (R317). -/
def Die.dropOwn (d : Die) (c : CoreIx) (s : Src) (a n : Nat) : Die :=
  (dvaPieces a n).foldl (fun e p =>
    match e.translate s p.1 false false with
    | (.ok 0 pa _, e) => e.dropOwnLine c (lineOf pa) false
    | (.ok 2 pa _, e) => e.dropOwnLine c (lineOf pa) true
    | _ => e) d

/-- Move one row; whether the row is done. -/
def Die.engineRow (d : Die) (c : CoreIx) (e : EngIx) (x : EngOp) : Bool × Die :=
  let s := srcEng c e x.part.val
  let a := x.rowAddr x.done
  let crib := x.crib + x.done * x.rowBytes
  let step (d : Die) : Die := (d.doneWith s.req).onEngine c e fun y => { y with done := y.done + 1 }
  if x.stow then
    match d.cribRead c crib x.rowBytes with
    | (none, d) =>
      (false, ((((d.doneWith s.req).onCore c fun k => { k with engines := k.engines.filter fun y => y.1 != e.val }).cribStop c x.pc).settle c))
    | (some bs, d) =>
      match d.writeAll s a bs {} with
      | (.ok _, d) => (true, step d)
      | (.wait, d) => (false, d)
      | (.fail st, d) => (false, (d.doneWith s.req).engineFails c e st)
  else
    let d := if x.v then d.dropOwn c s a x.rowBytes else d
    match d.readAll s a x.rowBytes false with
    | (.ok bs, d) => (true, step (d.onCore c fun k => k.cribWrite crib bs))
    | (.wait, d) => (false, d)
    | (.fail st, d) => (false, (d.doneWith s.req).engineFails c e st)

/-- Move rows until one must wait. -/
def Die.engineRows (c : CoreIx) (e : EngIx) : Nat → Die → Die
  | 0, d => d
  | n + 1, d =>
    match assoc (d.core c).engines e.val with
    | none => d
    | some x =>
      if x.rows ≤ x.done then d
      else
        match d.engineRow c e x with
        | (true, d) => Die.engineRows c e n d
        | (false, d) => d

/-- FETCH_COMPLETE: an engine moves its rows in order, as far as its accesses come; after the last row, and for a STOW
its last acknowledgement, it is free (R94, R273). -/
def opFetchComplete (c : CoreIx) (e : EngIx) (d : Die) : Die :=
  let d := Die.engineRows c e 65536 d
  match assoc (d.core c).engines e.val with
  | none => d
  | some x =>
    if x.rows ≤ x.done && !(x.stow && d.unacked (.eng c e)) then
      (d.onCore c fun k => { k with engines := k.engines.filter fun y => y.1 != e.val }).settle c
    else d

end Sys2Proof.Machine
end

