-- ==== Sys2Proof/Machine/Payload.lean ====
section
/-! DEFINITION. Payload checks that need nothing but the packet: row 7 of R213 for the managed packets (spec 07, R244, R245; spec 10, R344; spec 11,
R361, R387 and R578; spec 13, R439; spec 14, R476; spec 16, R537), and for COALESCE_DECODE. What depends on the state of the die as well is judged
when Groom performs the packet. -/

namespace Sys2Proof.Machine

/-- The first check that fails decides the outcome (R213). -/
def firstStatus : List (Bool × Status) → Status
  | [] => .ok
  | (bad, st) :: t => if bad then st else firstStatus t

/-- A named partition must be the stamp's unless the stamp is 0 (R244). -/
def foreign (q : Pkt) (p : Nat) : Bool := q.part.val != 0 && p != q.part.val

/-- Checks of a TARGET_PART or PARTITION byte. -/
def partChecks (q : Pkt) (off : Nat) : List (Bool × Status) :=
  [(foreign q (field q.body off 1), .noAuthority), (decide (16 ≤ field q.body off 1), .reservedValue)]

def pageBits (code : Nat) : Nat := match code with | 1 => 21 | 2 => 30 | _ => 16

/-- A REG page of 64 KiB at an offset lies in the space that its partition may map (R361, R541, R551). -/
def regPageOk (p off : Nat) : Bool :=
  if p == 0 then decide (off < 0x70000) || (decide (0x80000 ≤ off) && decide (off < 0x110000)) || (decide (0x1000000 ≤ off) && decide (off < 0x1300000))
    || (decide (0x2000000 ≤ off) && decide (off < 0x2020000))
  else decide (off < 0x30000)

/-- MAP_RANGE in ascending byte offset, then its target (R361, R244). -/
def mapPayload (q : Pkt) : List (Bool × Status) :=
  let b := q.body
  let dva := field b 16 8
  let n := field b 24 8
  let target := field b 32 8
  let attr := field b 40 1
  let page := 2 ^ pageBits (field b 41 1)
  List.flatten [[(dva % page != 0, .badAlignment), (n % page != 0, .badAlignment), (n == 0 || decide (2 ^ 52 < dva + n), .badLength), (target % page != 0, .badAlignment),
   (decide (5 ≤ attr), .reservedValue), (decide (3 ≤ field b 41 1), .reservedValue), (field b 42 1 == 0 || decide (4 ≤ field b 42 1), .reservedValue)],
    partChecks q 43,
    [(!zeroBytes b 44 20, .reservedValue), (decide (attr < 2) && decide (hbmTop < target + n), .reservedValue),
        (attr == 4 && (decide (0x2020000 < target + n) || !((List.range (n / 65536)).all fun i => regPageOk (field b 43 1) (target + 65536 * i))), .reservedValue)]]

/-- UNMAP_RANGE and INVALIDATE_RANGE (R578). -/
def unmapPayload (q : Pkt) : List (Bool × Status) :=
  let b := q.body
  let dva := field b 16 8
  let n := field b 24 8
  List.flatten [[(dva % 65536 != 0, .badAlignment), (n % 65536 != 0, .badAlignment), (n == 0 || decide (2 ^ 52 < dva + n), .badLength), (!zeroBytes b 32 11, .reservedValue)],
    partChecks q 43, [(!zeroBytes b 44 20, .reservedValue)]]

/-- The cores named by CORES. -/
def coresOf (b : List Byte) : List CoreIx := (List.finRange 48).filter fun c => sub (field b 16 6) c.val 1 == 1

/-- LOAD_PROGRAM (R244). -/
def loadPayload (b : List Byte) : List (Bool × Status) :=
  let bytes := field b 24 4
  let off := field b 28 4
  [((coresOf b).isEmpty, .reservedValue), (decide (2 ≤ field b 22 1), .reservedValue), (!zeroBytes b 23 1, .reservedValue),
   (bytes == 0 || bytes % 8 != 0, .badLength), (off % 8 != 0, .badAlignment), (decide (131072 < off + bytes), .badLength),
   (field b 32 8 % 64 != 0, .badAlignment), (!zeroBytes b 40 24, .reservedValue)]

/-- SWITCH_PROGRAM (R244). -/
def switchPayload (b : List Byte) : List (Bool × Status) := [((coresOf b).isEmpty, .reservedValue), (!zeroBytes b 22 42, .reservedValue)]

/-- R548: a register marked D or M with a field that the PF may write, and not TICK_EPOCH. -/
def mayChange (off : Nat) : Bool :=
  match findRow off with
  | some r => (r.digested || r.modeOnly) && r.rw != 0 && off != TICK_EPOCH
  | none => false

/-- Checks of the payload (R245, R214). -/
def modeStatus (b : List Byte) : Status :=
  let n := field b 18 2
  firstStatus [
    (n == 0 || decide (b.length < 32 + 16 * n), .badLength), (!zeroBytes b 20 4, .reservedValue),
    ((List.range n).any fun k => !mayChange (field b (32 + 16 * k) 4) || !zeroBytes b (41 + 16 * k) 7, .reservedValue),
    (!zeroBytes b (32 + 16 * n) (b.length - (32 + 16 * n)), .reservedValue)]

/-- SET_QOS (R476). -/
def qosPayload (b : List Byte) : List (Bool × Status) :=
  [(decide (15 < field b 16 1), .reservedValue), (decide (4 < field b 17 1), .reservedValue), (!zeroBytes b 18 2, .reservedValue), (!zeroBytes b 28 36, .reservedValue)]

/-- Test time of a block in reference clocks, and the number of its units. -/
def testInfo (block : Nat) : Option (Nat × Nat) :=
  match block with
  | 0 => some (4000, 48) | 1 => some (3000, 48) | 5 => some (18400000, 4) | 9 => some (200000, 2) | 10 => some (5000, 16) | 11 => some (4000, 1)
  | _ => none

/-- SELFTEST (R537). -/
def testPayload (b : List Byte) : List (Bool × Status) :=
  [((match testInfo (field b 16 1) with | none => true | some x => decide (x.2 ≤ field b 17 1)), .reservedValue), (!zeroBytes b 20 44, .reservedValue)]

def queryStatus (b : List Byte) : Status :=
  firstStatus [(decide (5 ≤ field b 16 2), .reservedValue), (!zeroBytes b 18 6, .reservedValue), (field b 24 8 % 64 != 0, .badAlignment), (!zeroBytes b 32 32, .reservedValue)]

/-- OPEN_WINDOW (R439, R244). -/
def openPayload (q : Pkt) : List (Bool × Status) :=
  let b := q.body
  let n := field b 32 8
  List.flatten [[(decide (1023 < field b 16 2), .reservedValue), (field b 18 1 == 0 || decide (32 ≤ field b 18 1), .reservedValue)],
    partChecks q 19,
    [(!zeroBytes b 20 4, .reservedValue), (field b 24 8 % 65536 != 0, .badAlignment), (n == 0 || n % 65536 != 0 || decide (2 ^ 38 < n), .reservedValue),
        (decide (2 ^ 52 < field b 24 8 + n), .badLength), (decide (4096 ≤ field b 40 2) || field b 42 1 == 0, .reservedValue), (!zeroBytes b 43 21, .reservedValue)]]

/-- CLOSE_WINDOW. -/
def closePayload (b : List Byte) : List (Bool × Status) := [(decide (1023 < field b 16 2), .reservedValue), (!zeroBytes b 18 46, .reservedValue)]

/-- PRESERVE_ARM (R387). -/
def armPayload (b : List Byte) : List (Bool × Status) :=
  [(decide (2 ≤ field b 16 1), .reservedValue), (!zeroBytes b 17 7, .reservedValue), (field b 16 1 == 1 && field b 24 8 % 65536 != 0, .badAlignment),
   (!zeroBytes b 32 32, .reservedValue)]

/-- LOCK_WAYS (R344). -/
def lockPayload (b : List Byte) : List (Bool × Status) :=
  [(field b 16 1 == 0 || field b 18 2 == 0 || (sub (field b 20 1) 1 1 == 1 && field b 20 1 % 2 == 0) || !zeroBytes b 17 1 || decide (4 ≤ field b 20 1) || !zeroBytes b 21 43,
    .reservedValue)]

/-- Row 7 of R213 for a managed packet. -/
def Pkt.payload (q : Pkt) : Status :=
  let op := q.opcode
  let b := q.body
  if op == 0x80 then firstStatus (mapPayload q)
  else if op == 0x81 || op == 0x82 then firstStatus (unmapPayload q)
  else if op == 0x84 then firstStatus (loadPayload b)
  else if op == 0x85 then firstStatus (switchPayload b)
  else if op == 0x88 then modeStatus b
  else if op == 0x8A then firstStatus (qosPayload b)
  else if op == 0x8C then firstStatus (testPayload b)
  else if op == 0x8E then queryStatus b
  else if op == 0x90 then firstStatus (openPayload q)
  else if op == 0x91 then firstStatus (closePayload b)
  else if op == 0x94 then firstStatus (armPayload b)
  else firstStatus (lockPayload b)

/-- Payload checks of COALESCE_DECODE. -/
def coalesceStatus (b : List Byte) : Status :=
  firstStatus
    [(decide (64 ≤ field b 16 1), .reservedValue), (!zeroBytes b 17 1, .reservedValue),
     (field b 18 2 == 0 || decide (64 < field b 18 2), .badLength), (!zeroBytes b 20 4, .reservedValue),
     (field b 24 8 % 64 != 0, .badAlignment), (field b 32 8 % 64 != 0, .badAlignment), (!zeroBytes b 40 24, .reservedValue)]

end Sys2Proof.Machine
end

