-- ==== Sys2Proof/Machine/Rings.lean ====
section
/-! DEFINITION. Rings, doorbell pages, decoding, completion records and halts (spec 07, R198 to R224, R580; spec 17,
R541 to R552). -/

namespace Sys2Proof.Machine

def Die.onCp (d : Die) (f : CpUnit → CpUnit) : Die := { d with cp := f d.cp }
def Die.setRing (d : Die) (i : Nat) (r : Ring) : Die := d.onCp fun u => { u with rings := tblPut (fun _ => ({} : Ring)) u.rings i r }
def Die.onRing (d : Die) (i : Nat) (f : Ring → Ring) : Die := d.setRing i (f (d.ring i))
def ringIx (n : Nat) : RingIx := ⟨n % 8192, Nat.mod_lt _ (by decide)⟩

def Ring.size (r : Ring) : Nat := 2 ^ r.sizeLog2.toNat

/-- Slot of an index within its ring (R199). -/
def Ring.place (r : Ring) (j : W32) : Nat := j.toNat % r.size

/-- DVA of a slot (R199): BASE is 4 KiB aligned, its low bits ignored. -/
def Ring.slot (r : Ring) (j : W32) : Nat := (r.base.toNat / 4096 * 4096 + 64 * r.place j) % 2 ^ 64

/-- Slots of a completion ring that no record fills and no packet has reserved (R212). -/
def Ring.freeSlots (r : Ring) : Nat := r.size - ((r.tail - r.head).toNat + r.reserved)

/-! ### Opcodes (table before R209) -/

structure OpInfo where
  lo : Nat
  hi : Nat
  cost : Nat := 0
  pf : Bool := false

/-- Slots, Groom's cost (0 on the fast path) and authority of a defined opcode. -/
def opInfo (op : Nat) : Option OpInfo :=
  match op with
  | 0x00 | 0x01 | 0x03 | 0x10 | 0x12 | 0x13 | 0x14 | 0x22 | 0x40 | 0x41 | 0x42 | 0x43 | 0x44 => some { lo := 1, hi := 1 }
  | 0x02 | 0x15 | 0x20 => some { lo := 2, hi := 2 }
  | 0x11 => some { lo := 2, hi := 8 }
  | 0x21 => some { lo := 3, hi := 3 }
  | 0x80 | 0x81 | 0x82 | 0x90 | 0x91 => some { lo := 1, hi := 1, cost := 2 }
  | 0x84 => some { lo := 1, hi := 1, cost := 8 }
  | 0x85 | 0x8E => some { lo := 1, hi := 1, cost := 1 }
  | 0x88 => some { lo := 2, hi := 8, cost := 4, pf := true }
  | 0x8A => some { lo := 1, hi := 1, cost := 1, pf := true }
  | 0x8C | 0x94 => some { lo := 1, hi := 1, cost := 4, pf := true }
  | 0x96 => some { lo := 1, hi := 1, cost := 2, pf := true }
  | _ => none

/-- Cost of a packet to Groom. -/
def opCost (op : Nat) : Nat := match opInfo op with | some i => i.cost | none => 0

/-- FENCE, or an opcode that acts as if it were set (R211). -/
def fenced (flags op : Byte) : Bool := flags.getLsbD 0 || op == 0x40 || op == 0x42 || op == 0x43 || op == 0x44

/-- Checks 3 to 6 of R213 on a header (and its packet's LEN). -/
def headerStatus (h : List Byte) (part : Nat) : Status :=
  match opInfo (field h 0 1) with
  | none => .illegalOpcode
  | some i =>
    let len := field h 2 1 % 16
    if len < i.lo || i.hi < len then .badLength
    else if 8 ≤ field h 1 1 || 16 ≤ field h 2 1 || !zeroBytes h 3 1 || 8192 ≤ field h 4 2 || !zeroBytes h 6 2 || !zeroBytes h 14 2 then .reservedValue
    else if i.pf && part != 0 then .noAuthority
    else .ok

/-! ### Halts (R206, R213, R215, R216, R580) -/

/-- A ring halts: HALTED, LAST_STATUS, the first halt's record, and a contained fault. -/
def Die.halt (d : Die) (i : Nat) (st : Status) (op slot : Nat) : Die :=
  ((d.onRing i fun r => { r with halted := true, lastStatus := BitVec.ofNat 8 st.code }).record CP_FAULT_VALID
    [(CP_FAULT_RING, i), (CP_FAULT_STATUS, st.code), (CP_FAULT_INFO_OPCODE, op), (CP_FAULT_INFO_SLOT, slot)]).raise 12 .contained (detail op st.code i)

/-! ### Completion records (R218 to R223, R580) -/

/-- RESULT of a packet: of a copy that failed, the bytes before its first error (R242). -/
def Pkt.answer (q : Pkt) : W64 :=
  match q.errAt with
  | some e => if q.opcode == 0x10 || q.opcode == 0x11 || q.opcode == 0x12 || q.opcode == 0x15 then BitVec.ofNat 64 (min e q.result.toNat) else q.result
  | none => q.result

/-- A record before its slot and tick are known (R218). -/
def recordBody (d : Die) (q : Pkt) : List Byte :=
  leBytes 4 q.seq.toNat ++ leBytes 1 q.status.code ++ leBytes 1 q.opcode.toNat ++ leBytes 2 q.ring.val ++ leBytes 8 0
    ++ leBytes 8 q.answer.toNat ++ leBytes 4 q.detail.toNat ++ leBytes 1 (q.part.val + 16 * d.here.die.val) ++ leBytes 3 0

/-- PHASE of a slot index (R219). -/
def phaseOf (r : Ring) (j : W32) : Nat := 1 - j.toNat / r.size % 2

/-- Fill in PHASE and TICK. -/
def stampRecord (bs : List Byte) (phase tick : Nat) : List Byte :=
  bs.take 6 ++ leBytes 2 (field bs 6 2 % 2 ^ 15 + phase * 2 ^ 15) ++ leBytes 8 tick ++ bs.drop 16

/-- An error that an acknowledgement brought for a requester (R220). -/
def Die.lostOf (d : Die) (req : Req) : Option Status := (d.cache.lost.find? fun l => l.1.req == req).map (·.2.2)
def Die.dropLost (d : Die) (req : Req) : Die := d.onCache fun u => { u with lost := u.lost.filter fun l => l.1.req != req }

/-- A packet learns of the errors that its acknowledgements brought. -/
def Die.takeErrors (d : Die) (pid : Nat) : Die :=
  (d.cache.lost.foldl (fun e l => if l.1.req == .pkt pid then e.pktErrorAt pid l.1.id l.2.2 else e) d).dropLost (.pkt pid)

/-- A record has been written and acknowledged: TAIL advances, the slot is no longer reserved, and the interrupt of a
qualifying record is due (R220, R223). -/
def Die.recordDone (d : Die) (c : Nat) (qual : Bool) : Die :=
  let r := d.ring c
  let d := (d.setRing c { r with tail := r.tail + 1, reserved := r.reserved - 1, kept := r.kept.drop 1 }).doneWith (.ring (ringIx c))
  if r.irqMode == 1 || (r.irqMode == 2 && qual) then
    d.onCp fun u => { u with irqDue := if u.irqDue.contains (r.part.toNat, r.vector.toNat) then u.irqDue else u.irqDue ++ [(r.part.toNat, r.vector.toNat)] }
  else d

/-- Write the records that a completion ring keeps, in order, as far as they can be written; a write that fails halts
the ring and leaves TAIL before the record's slot (R221, R580). -/
def Die.drainRing (c : Nat) : Nat → Die → Die
  | 0, d => d
  | n + 1, d =>
    let r := d.ring c
    let req : Req := .ring (ringIx c)
    match r.kept with
    | [] => d
    | (bs, qual) :: _ =>
      if r.halted then d
      else
        let stop (e : Die) (st : Status) : Die := ((e.dropLost req).doneWith req).halt c st (field bs 5 1) (r.place r.tail)
        match d.writeAll (srcCp req r.part.toNat) (r.slot r.tail) (stampRecord bs (phaseOf r r.tail) d.tick.now) {} with
        | (.wait, d) => d
        | (.fail st, d) => stop d st
        | (.ok _, d) =>
          match d.lostOf req with
          | some st => stop d st
          | none => if d.unacked req then d else Die.drainRing c n (d.recordDone c qual)

/-- Drain every completion ring that keeps records, in ascending index. -/
def Die.drainAll (d : Die) : Die :=
  (d.cp.rings.filter fun r => !r.2.kept.isEmpty).foldl (fun e r => Die.drainRing r.1 r.2.kept.length e) d

/-- The slot of a packet that writes no record is free again. -/
def Die.releaseSlot (d : Die) (c : Nat) : Die := d.onRing c fun r => { r with reserved := r.reserved - 1 }

/-- Records of a partition under a function-level reset are not written to rings in HOST pages (R488). -/
def Die.noRecord (d : Die) (p c : Nat) : Bool :=
  d.bit (PART_CTRL_RESETTING p) && d.bit (PART_CTRL_FLR p) &&
    (match (d.walk p (d.ring c).base.toNat).1 with | .leaf l _ => l.attr == 2 | _ => false)

/-- The first of two failures at one plan tick is a slice's; a chained packet counts after every core (R231). -/
def chainCore : Nat := 64

/-- A finished packet completes: its record is kept for its ring or its slot released, its successors may start, and a
failure halts its ring when STOP_ON_ERROR is set (R215, R222). A chained packet reports to its launch (R231). -/
def Die.completePkt (d : Die) (q : Pkt) : Die :=
  let c := q.cring.val
  let good := q.status == .ok
  let d := (({ d with pkts := d.pkts.filter fun x => x.pid != q.pid }).doneWith (.pkt q.pid)).dropLost (.pkt q.pid)
  let d := d.onCp fun u => { u with ready := u.ready.filter (· != q.pid) }
  let d := if (good && q.flags.getLsbD 1) || d.noRecord q.part.val c then d.releaseSlot c
    else d.onRing c fun r => { r with kept := r.kept ++ [(recordBody d q, q.flags.getLsbD 2 || !good)] }
  match q.launch with
  | some key =>
    d.onLaunch key fun l => { l with
      chainOpen := l.chainOpen.filter (· != q.pid),
      failure := if good then l.failure else some (firstFailure l.failure (q.order, chainCore, q.status)) }
  | none =>
    let r := d.ring q.ring.val
    let d := d.setRing q.ring.val { r with waitBlock := if r.waitBlock == some q.pid then none else r.waitBlock }
    if r.stopOnError && !r.halted && !good && q.status != .deferred then d.halt q.ring.val q.status q.opcode.toNat (r.place q.index) else d

/-- The record of a packet that has completed. -/
def Die.recordOf (d : Die) (pid : Nat) : Die :=
  let d := d.takeErrors pid
  match d.pkt? pid with | some q => d.completePkt q | none => d

/-- COMPLETION_RECORD_WRITE (R218 to R222): every write of the packet has been acknowledged; the records of the packets that completed before it
come first, and then its own. -/
def opRecordWrite (pid : Nat) (d : Die) : Die :=
  let d := d.noteReady
  (if d.cp.ready.contains pid then (d.cp.ready.takeWhile (· != pid) ++ [pid]).foldl Die.recordOf d else d).drainAll

/-! ### Managed packets at Groom's queue (R210, R249, R251) -/

/-- Target of the mode change outstanding in the tick domain, when this die knows of one: as its lead, by the announcement, or because the lead has
accepted it from this die (R71). -/
def Die.outstandingChange (d : Die) : Option Nat :=
  match d.tick.lead with
  | some c => some c.target
  | none => match d.tick.change with
    | some x => some x.target
    | none => d.tick.asked.head?.map (·.2.2)

/-- A managed packet is answered DEFERRED with a retry tick. -/
def Die.deferPkt (d : Die) (pid retry : Nat) : Die := (d.count GROOM_DEFERRED_COUNT 1).finish pid .deferred (BitVec.ofNat 64 retry) 0

/-- Cost of everything in Groom's queue. -/
def Die.backlog (d : Die) : Nat := d.cp.groom.queue.foldl (fun n pid => n + (match d.pkt? pid with | some q => opCost q.opcode.toNat | none => 0)) 0

/-- A managed packet is placed in Groom's queue, or deferred. -/
def Die.groomAccept (d : Die) (q : Pkt) : Die :=
  if d.cp.restarting then d.deferPkt q.pid (d.tick.now + 64)
  else if q.opcode == 0x88 && !d.bit TICK_CTRL_RUN then d.deferPkt q.pid 0
  else
    let mine := (d.cp.groom.queue.filter fun pid => match d.pkt? pid with | some x => x.part == q.part | none => false).length
    if 256 ≤ d.cp.groom.queue.length || d.get (GROOM_SHARE_SHARE q.part.val) ≤ mine then
      let units := d.get GROOM_BUDGET_UNITS
      let retry := d.tick.now + 1 + (d.backlog + units - 1) / units
      d.deferPkt q.pid (if q.opcode == 0x88 then (match d.outstandingChange with | some t => t + 1 | none => retry) else retry)
    else (d.onPkt q.pid fun x => { x with phase := .queued }).onCp fun u => { u with groom := { u.groom with queue := u.groom.queue ++ [q.pid] } }

/-! ### Decoding (R205 to R214, R477) -/

/-- A submission ring with an unstarted packet that nothing holds. -/
def Ring.ready (r : Ring) : Bool := r.enable && !r.completion && !r.halted && r.head != r.tail && r.waitBlock.isNone

/-- The decode limit of a partition allows a further packet in this tick (R477). -/
def Die.decodeLeft (d : Die) (p : Nat) : Bool :=
  d.get (QOS_DECODE_PACKETS p) == 0 || decide ((assoc d.parts.started p).getD 0 < d.get (QOS_DECODE_PACKETS p))

/-- Requests of a class that have started and wait for their acceptance, with one more, in the order of acceptance (R139, R234). -/
def Die.waitingReqs (d : Die) (p cls : Nat) (q : Pkt) : List Pkt :=
  ringOrder (q :: d.pkts.filter fun x => x.opcode == 0x03 && x.phase == .started && x.part.val == p && field x.body 16 1 == cls && coalesceStatus x.body == .ok)

/-- What the batches of a class become as a request is accepted: how many have opened, and the rows of one that takes requests (R140, R235). -/
def takeRows (s : Option (Nat × Option Nat)) (rows : Nat) : Option (Nat × Option Nat) :=
  match s with
  | none => none
  | some (n, last) =>
    if 2 ≤ n then none
    else match last with
      | some r => if r + rows ≤ 64 then some (n, some (r + rows)) else some (n + 1, some rows)
      | none => some (n + 1, some rows)

/-- A request starts when it and all that wait with it can be accepted, and no request of a higher ring has been accepted in this guard; else it
stays at its ring's head (R139, R235). -/
def Die.reqRoom (d : Die) (p : Nat) (q : Pkt) : Bool :=
  let cls := field q.body 16 1
  let mine := d.cp.batches.filter fun b => b.part.val == p && b.cls.val == cls
  let last := (mine.find? fun b => !b.closed && !b.launched).map (·.rows)
  coalesceStatus q.body != .ok
    || (((d.waitingReqs p cls q).foldl (fun s x => takeRows s (field x.body 18 2)) (some (mine.length, last))).isSome
        && (match assoc d.cp.accepted p with | some r => decide (r ≤ q.ring.val) | none => true))

/-- A packet waiter entry is left for a further WAIT (R260). -/
def Die.waitRoom (d : Die) : Bool := decide ((d.pkts.filter fun q => q.opcode == 0x41 && q.phase != .finished).length < 1024)

/-- A packet at the head of a ring, as it would start. -/
def Die.headPkt (d : Die) (i : RingIx) (body : List Byte) : Pkt :=
  let r := d.ring i.val
  { pid := d.cp.nextPid, ring := i, index := r.head, launch := none, part := ⟨r.part.toNat % 16, Nat.mod_lt _ (by decide)⟩, cring := ringIx (field body 4 2 % 8192),
    opcode := BitVec.ofNat 8 (field body 0 1), flags := BitVec.ofNat 8 (field body 1 1), seq := BitVec.ofNat 32 (field body 8 4), body := body,
    startTick := d.tick.now, engine := r.engine.toNat, plan := if d.tick.inGuard then none else some (d.planNow r.part.toNat) }

/-- Opcodes that need the tick: they wait at their ring's head until RUN (R39); so do a request that its class has no room for (R235) and a WAIT
without an entry (R260). -/
def Die.mayStart (d : Die) (i : RingIx) (h : List Byte) : Bool :=
  match field h 0 1 with
  | 0x41 => d.waitRoom
  | 0x01 | 0x02 => d.bit TICK_CTRL_RUN
  | 0x03 => d.bit TICK_CTRL_RUN && d.reqRoom (d.ring i.val).part.toNat (d.headPkt i h)
  | _ => true

/-- A packet that needs the unit under test waits at its start (`some true`) or ends with BUSY_SELFTEST (R539). -/
def Die.testHold (d : Die) (op engine : Nat) : Option Bool :=
  match d.boot.test with
  | some t =>
    (match t.start with
     | some s =>
       let copy := decide (0x10 ≤ op) && decide (op ≤ 0x15) && t.block == 10 && t.unit == engine
       let reduce := decide (0x20 ≤ op) && decide (op ≤ 0x22) && t.block == 11
       if s ≤ d.tick.count && (copy || reduce) then some (decide (s + t.ticks ≤ d.tick.count + orOne (d.get ST_CTRL_HOLD_TICKS))) else none
     | none => none)
  | none => none

/-- What a started packet's checks of R213 and R539 decide. -/
def Die.startStatus (d : Die) (body : List Byte) (part engine : Nat) : Status :=
  match headerStatus body part with
  | .ok => if d.testHold (field body 0 1) engine == some false then .busySelftest else .ok
  | st => st

/-- Read further slots of a packet (R207). -/
def Die.readSlots (d : Die) (i : RingIx) (r : Ring) : Nat → Nat → List Byte → DRes × Die
  | 0, _, got => (.ok got, d)
  | n + 1, k, got =>
    match d.readAll (srcCp (.ring i) r.part.toNat) (r.slot (r.head + BitVec.ofNat 32 k)) 64 false with
    | (.ok bs, d) => d.readSlots i r n (k + 1) (got ++ bs)
    | (x, d) => (x, d)

/-- The completion ring takes records of the partition (check 2 of R213). -/
def Ring.takes (c : Ring) (part : BitVec 4) : Bool := c.enable && !c.disabling && c.completion && c.part == part

/-- Start a packet whose slots have been read: reserve its record slot, advance HEAD, and hand it on (R210 to R214). -/
def Die.startPkt (d : Die) (i : RingIx) (body : List Byte) (len : Nat) : Die :=
  let q := d.headPkt i body
  let p := q.part
  let pid := q.pid
  let d := d.onRing q.cring.val fun x => { x with reserved := x.reserved + 1 }
  let d := d.onRing i.val fun x => { x with head := x.head + BitVec.ofNat 32 len, waitBlock := if q.opcode == 0x41 then some pid else none }
  let d := ({ d with pkts := d.pkts ++ [q], parts := { d.parts with started := assocPut d.parts.started p.val ((assoc d.parts.started p.val).getD 0 + 1) } }).onCp
    fun u => { u with nextPid := pid + 1 }
  match d.startStatus body p.val q.engine with
  | .ok => if q.managed then (match q.payload with | .ok => d.groomAccept q | st => d.finish pid st 0 0) else d
  | st => d.finish pid st 0 0

/-- Consider the packet at the head of one ring. -/
def Die.decodeRing (d : Die) (i : RingIx) : Die :=
  let r := d.ring i.val
  let p := r.part.toNat
  let req : Req := .ring i
  if !r.ready || !d.partOn p || !d.decodeLeft p then d
  else
    match d.readAll (srcCp req p) (r.slot r.head) 64 false with
    | (.wait, d) => d
    | (.fail st, d) =>
      -- the packet could not be read: the manual gives the recorded opcode no value
      let (n, d) := d.fresh
      (d.doneWith req).halt i.val st (Config.freeByte n).toNat (r.place r.head)
    | (.ok h, d) =>
      let op := field h 0 1
      let len := field h 2 1 % 16
      let c := d.ring (field h 4 2 % 8192)
      if len == 0 || 8 < len then (d.doneWith req).halt i.val .badLength op (r.place r.head)
      else if !c.takes r.part then (d.doneWith req).halt i.val .queueDisabled op (r.place r.head)
      else if fenced (BitVec.ofNat 8 (field h 1 1)) (BitVec.ofNat 8 op) && d.pkts.any fun q => q.ring == i && q.launch.isNone then d
      else if c.freeSlots == 0 || !d.mayStart i h || (headerStatus h p == .ok && d.testHold op r.engine.toNat == some true) then d
      else
        match d.readSlots i r (len - 1) 1 h with
        | (.wait, d) => d
        | (.fail st, d) => (d.doneWith req).halt i.val st op (r.place r.head)
        | (.ok body, d) => (d.doneWith req).startPkt i body len

/-- The command processor's round (R210): every submission ring in ascending index, at most one packet from each. -/
def Die.decodeRound (d : Die) : Die := (d.cp.rings.map (·.1)).foldl (fun e i => e.decodeRing (ringIx i)) d

/-- A started packet of an opcode on the fast path that awaits its own command. -/
def Die.startedPkt (d : Die) (pid : Nat) (op : Byte) : Option Pkt :=
  (d.pkt? pid).filter fun q => q.phase == .started && q.opcode == op

/-- NOP (0x00): it completes with OK; it has no payload fields. -/
def opNopPacket (pid : Nat) (d : Die) : Die := match d.startedPkt pid 0x00 with | some _ => d.finish pid .ok 0 0 | none => d

/-! ### Doorbell pages (R198 to R203, R217, R405, R552) -/

/-- A doorbell write that is ignored (R201, R552). -/
def Die.dbReject (d : Die) (i : Nat) : Die := (d.onRing i fun r => { r with dbError := true }).count CP_DB_REJECT_COUNT 1

/-- A write of DOORBELL (R200, R201). -/
def Die.doorbell (d : Die) (i : Nat) (new : W32) : Die :=
  let r := d.ring i
  if !(r.enable || r.disabling) then d.dbReject i
  else if r.completion then (if (r.tail - new).toNat ≤ (r.tail - r.head).toNat then d.setRing i { r with head := new } else d.dbReject i)
  else if (new - r.head).toNat ≤ r.size && (new - r.tail).toNat ≤ (new - r.head).toNat then d.setRing i { r with tail := new }
  else d.dbReject i

/-- A write of RESUME (R217). -/
def Die.resumeRing (d : Die) (i : Nat) : Die :=
  let r := d.ring i
  if r.halted then
    let d := d.setRing i { r with halted := false }
    if r.completion then Die.drainRing i r.kept.length d else d
  else d

/-- A completion ring being disabled becomes disabled once no slot is reserved (R203). -/
def Die.endDisable (d : Die) (i : Nat) : Die :=
  let r := d.ring i
  if r.disabling && r.reserved == 0 then d.setRing i { r with enable := false, disabling := false } else d

/-- A write of RING_CONFIG (R202, R203, R465, R552). -/
def Die.writeConfig (d : Die) (who : Who) (i v : Nat) : Die :=
  let r := d.ring i
  let pf := who.part.val == 0
  let on := r.enable || r.disabling
  let d := if !pf && v.land (0xFFFFFFFF - 0x3FFE0005) != 0 then d.reserved who true true false (i * 4096 + 0x28) else d
  let r := { r with
    stopOnError := sub v 2 1 == 1, irqMode := if sub v 17 2 == 3 then r.irqMode else BitVec.ofNat 2 (sub v 17 2), vector := BitVec.ofNat 11 (sub v 19 11) }
  let r := if pf && !on then { r with
      completion := sub v 1 1 == 1, sizeLog2 := if decide (4 ≤ sub v 4 5) && decide (sub v 4 5 ≤ 16) then BitVec.ofNat 5 (sub v 4 5) else r.sizeLog2,
      part := BitVec.ofNat 4 (sub v 9 4), engine := BitVec.ofNat 4 (sub v 13 4) } else r
  let want := v % 2 == 1
  if !on && want then
    (if r.part == 0 || d.bit (PART_CTRL_ENABLE r.part.toNat) then
      (d.setRing i { r with enable := true, disabling := false, head := 0, tail := 0, halted := false }).doneWith (.ring (ringIx i))
     else d.setRing i r)
  else if r.enable && !want then
    (if r.completion then (d.setRing i { r with disabling := true, enable := false }).endDisable i else d.setRing i { r with enable := false })
  else d.setRing i r

/-- A write of one aligned word of BAR2 or VF BAR2. -/
def Die.writePage (d : Die) (who : Who) (off v : Nat) : Die :=
  let i := off / 4096
  let r := d.ring i
  let vf := who.part.val != 0
  let none_ := d.reserved who true true false off
  if off % 4 != 0 then d.reserved who true true true off
  else if decide (8192 ≤ i) || (vf && r.part.toNat != who.part.val) then none_
  else
    match off % 4096 with
    | 0 => d.doorbell i (BitVec.ofNat 32 v)
    | 4 => if v % 2 == 1 then d.resumeRing i else d
    | 8 | 0xC => d
    | 0x10 => if sub v 3 1 == 1 then d.setRing i { r with dbError := false } else d
    | 0x20 => if vf then none_ else if r.enable || r.disabling then d else d.setRing i { r with base := BitVec.ofNat 64 (r.base.toNat / 2 ^ 32 * 2 ^ 32 + v) }
    | 0x24 => if vf then none_ else if r.enable || r.disabling then d else d.setRing i { r with base := BitVec.ofNat 64 (r.base.toNat % 2 ^ 32 + v * 2 ^ 32) }
    | 0x28 => d.writeConfig who i v
    | _ => none_

/-- DOORBELL (R200, R201). -/
def opDoorbell (who : Who) (r : RingIx) (v : W32) (d : Die) : Die := d.writePage who (r.val * 4096) v.toNat
/-- RESUME (R217). -/
def opResume (who : Who) (r : RingIx) (d : Die) : Die := d.writePage who (r.val * 4096 + 4) 1
/-- RING_ENABLE (R202, R203): a write of RING_CONFIG. -/
def opRingEnable (who : Who) (r : RingIx) (v : W32) (d : Die) : Die := d.writePage who (r.val * 4096 + 0x28) v.toNat
/-- RING_DISABLE (R203): a write of RING_CONFIG. -/
def opRingDisable (who : Who) (r : RingIx) (v : W32) (d : Die) : Die := d.writePage who (r.val * 4096 + 0x28) v.toNat
/-- RING_DISABLE_COMPLETE (R203). -/
def opRingDisableComplete (r : RingIx) (d : Die) : Die := d.endDisable r.val

/-! ### Register accesses (R541 to R545) -/

/-- REGISTER_WRITE: one aligned word of BAR0 or BAR2 of the accessing function. -/
def opRegisterWrite (who : Who) (bar2 : Bool) (off : Nat) (v : W32) (d : Die) : Die :=
  if bar2 then d.writePage who off v.toNat else d.writeBar0 who off v.toNat

/-- An offset at which the function has no register, or none that it may write (R541, R550, R405). -/
def Die.isReserved (d : Die) (who : Who) (bar2 : Bool) (off : Nat) (write : Bool) : Bool :=
  let host := match who with | .fn .. => true | .dev .. => false
  let p := who.part.val
  let table (x : Option Nat) : Bool := !host || x.isNone
  if bar2 then (d.readPage who off).isNone
  else if off % 4 != 0 then true
  else if p == 0 then
    if decide (0x3000000 ≤ off) && decide (off < 0x3008000) then table (d.msixWord 0 (off - 0x3000000))
    else if decide (0x3008000 ≤ off) && decide (off < 0x3008100) then table (d.pbaWord 0 (off - 0x3008000))
    else !isReg off
  else
    match d.vfReg p off with
    | .msix o => table (d.msixWord p o)
    | .pba o => table (d.pbaWord p o)
    | .zero => write
    | .none => true
    | _ => false

/-- RESERVED_ACCESS (R542, R544, R545): a read answers zero, a write is ignored, and either is counted. `size` says that
the access is a write that is not one aligned word. -/
def opReservedAccess (who : Who) (bar2 : Bool) (off : Nat) (write size : Bool) (d : Die) : Die :=
  if write && size then d.reserved who bar2 true true off
  else if d.isReserved who bar2 off write then
    let d := d.reserved who bar2 write false off
    if write then d else d.emit (.regData who off 0)
  else d

end Sys2Proof.Machine
end

