-- ==== Sys2Proof/Machine/Launches.lean ====
section
/-! DEFINITION. Launches, their plan and chain tables, and the decode coalescer (spec 07, R225 to R236, R581; spec 04,
R138 to R142). -/

namespace Sys2Proof.Machine

/-! ### Checks -/

/-- Dies of the package as this die knows them: IDs run from 0 without a gap (R26), and the link lists name them (R396,
R429; log entry 31). -/
def Die.dieCount (d : Die) : Nat :=
  1 + (d.ports.lists.map (fun l => (l.2.map (·.val)).foldl max l.1) ++ (d.ownLinks.filter fun l => l.2.2).map (·.1.val)).foldl max d.here.die.val

/-- Payload checks of LAUNCH_SLICES and LAUNCH_STEP, in ascending byte offset (R213, R226). -/
def Die.launchStatus (d : Die) (b : List Byte) (step : Bool) : Status :=
  let abs := field b 41 1 % 2 == 1
  let mask := field b 40 1
  let me := d.here.die.val
  firstStatus
    [(field b 20 4 == 0 || decide (2 ^ 24 ≤ field b 20 4), .badLength),
     (!abs && field b 24 8 == 0, .reservedValue),
     (field b 32 8 % 64 != 0, .badAlignment),
     (sub mask me 1 == 0 || (!abs && mask != 2 ^ me) || decide (2 ^ d.dieCount ≤ mask), .reservedValue),
     (decide (2 ≤ field b 41 1), .reservedValue),
     (!zeroBytes b 42 (if step then 6 else 22), .reservedValue),
     (step && field b 48 8 % 64 != 0, .badAlignment),
     (step && decide (65535 < field b 56 4), .badLength),
     (step && !zeroBytes b 60 68, .reservedValue)]

/-! ### Starting a launch (R225 to R227) -/

/-- DETAIL of a launch's record: the core as the plan entry names it; a free value where the first failure has none. -/
def Die.launchDetail (d : Die) (f : Option (Nat × Nat × Status)) : W32 × Die :=
  match f with
  | none => (0, d)
  | some (rel, core, _) =>
    if core < 64 then (BitVec.ofNat 32 (core + rel % 2 ^ 24 * 256), d)
    else
      let (n, d) := d.fresh
      (BitVec.ofNat 32 (Config.freeNat n % 64 + rel % 2 ^ 24 * 256), d)

/-- A launch packet begins, or ends with ABORTED when its plan tick has passed; `now` is the plan tick in which it counts as decoded (R227). -/
def Die.beginLaunch (d : Die) (q : Pkt) (now : Nat) (step : Bool) : Die :=
  let b := q.body
  let abs := field b 41 1 % 2 == 1
  let first := if abs then field b 24 8 else now + field b 24 8
  if abs && first ≤ now then
    let (det, d) := d.launchDetail (some (0, chainCore, .aborted))
    d.finish q.pid .aborted 0 det
  else
    let l : Launch := {
      key := d.cp.nextLaunch, order := q.pid, pid := some q.pid, batch := none, id := BitVec.ofNat 32 (field b 16 4), part := q.part,
      dies := BitVec.ofNat 8 (field b 40 1), first := first, plan := field b 32 8, entries := field b 20 4, readNext := 0, readTo := 0,
      lastKey := none, slices := [], cancelFrom := none, failure := none, ran := 0, chain := if step then field b 48 8 else 0,
      chainCount := if step then field b 56 4 else 0, chainNext := 0, chainRel := 0, chainOpen := [], args := none }
    ({ d with launches := d.launches ++ [l] }.onCp fun u => { u with nextLaunch := u.nextLaunch + 1 }).onPkt q.pid fun x => { x with phase := .running }

/-- One that was decoded in a guard waits for the tick in which it counts as decoded. -/
def Die.launchPkt (d : Die) (q : Pkt) (step : Bool) : Die :=
  match d.launchStatus q.body step with
  | .ok => (match q.plan with | some now => d.beginLaunch q now step | none => d)
  | st => d.finish q.pid st 0 0

/-- LAUNCH_SLICES (0x01). -/
def opLaunchSlices (pid : Nat) (d : Die) : Die := match d.startedPkt pid 0x01 with | some q => d.launchPkt q false | none => d
/-- LAUNCH_STEP (0x02). -/
def opLaunchStep (pid : Nat) (d : Die) : Die := match d.startedPkt pid 0x02 with | some q => d.launchPkt q true | none => d

/-! ### Tables (R228) -/

/-- Read bytes of a plan or chain table: no page request, and DEV or SHR pages only (R206, R228). -/
def Die.readTable (d : Die) (key part dva n : Nat) : DRes × Die :=
  let s := srcCp (.launch key) part
  match d.translate s dva false true with
  | (.ok attr _ _, d) => if attr < 2 then d.readAll s dva n true else (.fail .translationDenied, d)
  | (.fail st, d) => (.fail (if st == .eccUncorrectable then st else .translationDenied), d)
  | (.wait, d) => (.wait, d)

/-- What is wrong with a plan entry (R228), or its slice. -/
def Die.entryStatus (d : Die) (l : Launch) (b : List Byte) : Status :=
  let core := field b 4 1
  let key := (field b 0 4, core)
  let order := match l.lastKey with | some k => decide (k.1 < key.1) || (k.1 == key.1 && decide (k.2 < key.2)) | none => true
  if !order || !zeroBytes b 5 3 || !zeroBytes b 12 4 || !zeroBytes b 48 16 || field b 8 4 % 8 != 0 || 131072 ≤ field b 8 4
    || 48 ≤ core || !d.coreGood core then .reservedValue
  else if !(d.bit (CORE_ASSIGN_ASSIGNED core) && d.get (CORE_ASSIGN_PARTITION core) == l.part.val) then .noAuthority
  else .ok

/-- A bad or unreadable entry cancels its launch from a plan tick onward (R228, R229, R232). -/
def Die.cutLaunch (d : Die) (key rel core : Nat) (st : Status) : Die :=
  (d.onLaunch key fun l => { l with failure := some (firstFailure l.failure (rel, core, st)) }).cancelLaunch key rel

/-- Of two launches the first was decoded later (R229); a batch counts as decoded when it launches. -/
def Die.decodedAfter (d : Die) (a b : Nat) : Bool :=
  match d.launch? a, d.launch? b with
  | some x, some y => decide (y.order < x.order) || (x.order == y.order && decide (y.key < x.key))
  | _, _ => true

/-- Another launch that holds a slice for a core in a plan tick (R229). -/
def Die.heldBy (d : Die) (key : Nat) (part : PartIx) (core : CoreIx) (planTick : Nat) : Option Nat :=
  match d.launches.find? fun m => m.key != key && m.part == part && m.slices.any fun s => s.core == core && m.first + s.rel == planTick && (match m.cancelFrom with | some c => decide (s.rel < c) | none => true) with
  | some m => some m.key
  | none => (match (d.core core).run with | some r => if r.part == part && r.planTick == planTick && r.launch != key then some r.launch else none | none => none)

/-- Take a good entry into its launch; of two launches that hold a core in one plan tick the later is cut (R229). -/
def Die.takeEntry (d : Die) (l : Launch) (b : List Byte) : Die :=
  let rel := field b 0 4
  let core := coreIx (field b 4 1)
  let args := match l.args with | some a => a | none => (List.range 4).map fun i => BitVec.ofNat 64 (field b (16 + 8 * i) 8)
  let s : PlanSlice := { rel := rel, core := core, entry := field b 8 4, args := args }
  let take (e : Die) : Die := e.onLaunch l.key fun m => { m with slices := m.slices ++ [s] }
  let d := d.onLaunch l.key fun m => { m with readNext := m.readNext + 1, lastKey := some (rel, core.val) }
  match d.heldBy l.key l.part core (l.first + rel) with
  | none => take d
  | some k =>
    if d.decodedAfter l.key k then d.cutLaunch l.key rel core.val .aborted
    else
      match d.launch? k with
      | some m => take (d.cutLaunch k (l.first + rel - m.first) core.val .aborted)
      | none => take d

/-- No entry of the launch is left to read. -/
def Launch.allRead (l : Launch) : Bool := decide (l.entries ≤ l.readNext)

/-- Read a launch's entries up to a relative plan tick; the reads of an earlier try are kept (R228). -/
def Die.readPlan (key to_ : Nat) : Nat → Die → Die
  | 0, d => d
  | n + 1, d =>
    match d.launch? key with
    | none => d
    | some l =>
      let stop (e : Die) : Die := (e.onLaunch key fun m => { m with readNext := m.entries }).doneWith (.launch key)
      if l.allRead then (d.onLaunch key fun m => { m with readTo := to_ + 1 }).doneWith (.launch key)
      else if (match l.cancelFrom with | some c => decide (c ≤ l.readTo) | none => false) then
        stop (d.onLaunch key fun m => { m with failure := some (firstFailure m.failure (m.cancelFrom.getD 0, chainCore, .aborted)) })
      else
        match d.readTable key l.part.val ((l.plan + 64 * l.readNext) % 2 ^ 64) 64 with
        | (.wait, d) => d
        | (.fail st, d) => stop (d.cutLaunch key l.readTo 0 st)
        | (.ok b, d) =>
          let rel := field b 0 4
          let bad := d.entryStatus l b
          if to_ < rel && (bad == .ok || (match l.lastKey with | some k => decide (k.1 < rel) | none => true)) then
            (d.onLaunch key fun m => { m with readTo := to_ + 1 }).doneWith (.launch key)
          else if bad != .ok then stop (d.cutLaunch key rel (field b 4 1 % 64) bad)
          else if (match l.cancelFrom with | some c => decide (c ≤ rel) | none => false) then
            stop (d.onLaunch key fun m => { m with failure := some (firstFailure m.failure (m.cancelFrom.getD rel, chainCore, .aborted)) })
          else Die.readPlan key to_ n (d.takeEntry l b)

/-- PLAN_TABLE_READ (R228): the entries of the next plan tick are read in the wall tick before. -/
def opPlanTableRead (key : Nat) (d : Die) : Die :=
  match d.launch? key with
  | none => d
  | some l =>
    let next := d.planNow l.part.val + 1
    if decide (next < l.first) || decide (next - l.first < l.readTo) then d else Die.readPlan key (next - l.first) (l.entries - l.readNext + 1) d

/-! ### Chains (R232) -/

def chainAllowed (op : Nat) : Bool := (decide (0x10 ≤ op) && decide (op ≤ 0x15)) || (decide (0x20 ≤ op) && decide (op ≤ 0x22)) || (decide (0x40 ≤ op) && decide (op ≤ 0x44))

/-- The ring in which a launch runs its chain. -/
def Die.launchRing (d : Die) (l : Launch) : RingIx := match l.pid.bind d.pkt? with | some q => q.ring | none => 0

/-- A chained packet starts. -/
def Die.startChained (d : Die) (l : Launch) (rel slots : Nat) (body : List Byte) : Die :=
  let c := field body 4 2 % 8192
  let pid := d.cp.nextPid
  let q : Pkt := {
    pid := pid, ring := d.launchRing l, index := 0, launch := some l.key, part := l.part, cring := ringIx c, opcode := BitVec.ofNat 8 (field body 0 1),
    flags := BitVec.ofNat 8 (field body 1 1), seq := BitVec.ofNat 32 (field body 8 4), body := body, startTick := d.tick.now, engine := (d.ring (d.launchRing l).val).engine.toNat,
    plan := some (d.planNow l.part.val), order := rel }
  let d := d.onRing c fun x => { x with reserved := x.reserved + 1 }
  let d := ({ d with pkts := d.pkts ++ [q] }).onCp fun u => { u with nextPid := pid + 1 }
  let d := d.onLaunch l.key fun m => { m with chain := (m.chain + 64 + 64 * slots) % 2 ^ 64, chainNext := m.chainNext + 1, chainRel := rel, chainOpen := m.chainOpen ++ [pid] }
  match d.startStatus body l.part.val q.engine with
  | .ok => d
  | st => d.finish pid st 0 0

/-- The next chain entry of a launch, when its plan tick has come and nothing holds it. -/
def Die.chainStep (d : Die) (key : Nat) : Bool × Die :=
  match d.launch? key with
  | none => (false, d)
  | some l =>
    let now := d.planNow l.part.val
    let stop (e : Die) : Bool × Die := (false, (e.onLaunch key fun m => { m with chainNext := m.chainCount }).doneWith (.launch key))
    if l.chainCount ≤ l.chainNext || now < l.first then (false, d)
    else
      match d.readTable key l.part.val l.chain 64 with
      | (.wait, d) => (false, d)
      | (.fail st, d) => stop (d.cutLaunch key (now - l.first) 0 st)
      | (.ok b, d) =>
        let rel := field b 0 4
        let slots := field b 4 1
        if rel < l.chainRel then stop (d.cutLaunch key rel chainCore .reservedValue)
        else if (match l.cancelFrom with | some c => decide (c ≤ rel) | none => false) then
          stop (d.onLaunch key fun m => { m with failure := some (firstFailure m.failure (m.cancelFrom.getD rel, chainCore, .aborted)) })
        else if now < l.first + rel then (false, d)
        else if slots == 0 || 3 < slots || !zeroBytes b 5 59 then stop (d.cutLaunch key rel chainCore .reservedValue)
        else
          match (List.range slots).foldl (fun (acc : DRes × Die) i =>
              match acc with
              | (.ok got, e) => (match e.readTable key l.part.val ((l.chain + 64 + 64 * i) % 2 ^ 64) 64 with
                | (.ok bs, e) => (.ok (got ++ bs), e)
                | x => x)
              | x => x) (.ok [], d) with
          | (.wait, d) => (false, d)
          | (.fail st, d) => stop (d.cutLaunch key (now - l.first) 0 st)
          | (.ok body, d) =>
            let op := field body 0 1
            let c := d.ring (field body 4 2 % 8192)
            if field body 2 1 % 16 != slots || !chainAllowed op || !c.takes (BitVec.ofNat 4 l.part.val) then stop (d.cutLaunch key rel chainCore .reservedValue)
            else if (fenced (BitVec.ofNat 8 (field body 1 1)) (BitVec.ofNat 8 op) && !l.chainOpen.isEmpty)
              || (l.chainOpen.any fun pid => match d.pkt? pid with | some q => q.opcode == 0x41 | none => false)
              || c.freeSlots == 0 || !d.partOn l.part.val || (op == 0x41 && !d.waitRoom)
              || d.testHold op (d.ring (d.launchRing l).val).engine.toNat == some true then (false, d)
            else (true, (d.doneWith (.launch key)).startChained l rel slots body)

/-- Release the chain entries of a launch as far as they go. -/
def Die.chainRun (key : Nat) : Nat → Die → Die
  | 0, d => d
  | n + 1, d => match d.chainStep key with | (true, d) => Die.chainRun key n d | (false, d) => d

/-- Every launch's chain, in the order of decoding. -/
def Die.chains (d : Die) : Die := (d.launches.filter fun l => decide (l.chainNext < l.chainCount)).foldl (fun e l => Die.chainRun l.key (l.chainCount - l.chainNext) e) d

/-- DECODE_ROUND (R210): a round over the rings; chained packets that waited for earlier ones go on. -/
def opDecodeRound (d : Die) : Die := d.decodeRound.chains

/-! ### The coalescer (R138 to R142, R233 to R236) -/

def Die.onBatch (d : Die) (key : Nat) (f : Batch → Batch) : Die := d.onCp fun u => { u with batches := listUpd (fun b => b.key == key) f u.batches }

/-- The input half of a batch's staging buffer, and its output half (R235). -/
def Batch.input (b : Batch) : Nat := b.staging + b.number % 2 * (64 * (b.inRow + b.outRow))
def Batch.output (b : Batch) : Nat := b.input + 64 * b.inRow

/-- A usable class descriptor (R233; log entry 32). -/
def descOk (c : List Byte) : Bool :=
  let row (n : Nat) : Bool := n % 64 == 0 && decide (64 ≤ n) && decide (n ≤ 65536)
  field c 20 1 == 1 && decide (1 ≤ field c 8 4) && decide (field c 8 4 < 2 ^ 24) && row (field c 12 4) && row (field c 16 4)
    && zeroBytes c 21 3 && field c 24 8 % 64 == 0 && zeroBytes c 32 32

/-- A request joins a batch (R138, R139). -/
def Die.joinBatch (d : Die) (key : Nat) (q : Pkt) : Die :=
  (d.onBatch key fun b => { b with
    rows := b.rows + field q.body 18 2,
    reqs := b.reqs ++ [({ pid := q.pid, rows := field q.body 18 2, row := b.rows, dest := field q.body 32 8, copied := false } : BatchReq)] }).onPkt q.pid
    fun x => { x with phase := .running }

/-- A request opens a batch of its class with the class's descriptor (R233, R235). -/
def Die.openBatch (d : Die) (q : Pkt) (cls : Nat) : Die :=
  let p := q.part.val
  let table := d.get (COALESCE_TABLE_HI_TABLE p) * 2 ^ 32 + d.get (COALESCE_TABLE_LO_TABLE p) / 4096 * 4096
  match d.readAll (srcCp (.pkt q.pid) p) ((table + 64 * cls) % 2 ^ 64) 64 false with
  | (.wait, d) => d
  | (.fail st, d) => d.finish q.pid st 0 0
  | (.ok c, d) =>
    let d := d.doneWith (.pkt q.pid)
    if !descOk c then d.finish q.pid .reservedValue 0 0
    else
      let key := d.cp.nextBatch
      let k := (assoc d.cp.classCount (p * 64 + cls)).getD 0
      let b : Batch := {
        key := key, part := q.part, cls := ⟨cls % 64, Nat.mod_lt _ (by decide)⟩, number := k, template := field c 0 8, entries := field c 8 4,
        inRow := field c 12 4, outRow := field c 16 4, staging := field c 24 8, firstTick := d.tick.now, rows := 0, closed := false, launched := false,
        outcome := none, reqs := [] }
      (d.onCp fun u => { u with nextBatch := key + 1, classCount := assocPut u.classCount (p * 64 + cls) (k + 1), batches := u.batches ++ [b] }).joinBatch key q

/-- A request is accepted: into the open batch of its class, or into a new one (R140). -/
def Die.acceptRequest (d : Die) (q : Pkt) : Die :=
  let cls := field q.body 16 1 % 64
  let mine (b : Batch) : Bool := b.part == q.part && b.cls.val == cls
  if 2 ≤ (d.cp.batches.filter mine).length then d
  else
    let d := d.onCp fun u => { u with accepted := assocPut u.accepted q.part.val q.ring.val }
    match d.cp.batches.find? fun b => mine b && !b.closed && !b.launched with
    | some b =>
      if b.rows + field q.body 18 2 ≤ 64 then d.joinBatch b.key q
      else (d.onBatch b.key fun b => { b with closed := true }).openBatch q cls
    | none => d.openBatch q cls

/-- Copy a request's input rows into the staging buffer (R141). That a request whose copy fails ends alone with the copy's status, its rows still
counted in the batch, is the model's choice (log entry 83). -/
def Die.copyIn (d : Die) (b : Batch) (r : BatchReq) (src : Nat) : Die :=
  let s := srcCp (.pkt r.pid) b.part.val
  let fail (e : Die) (st : Status) : Die := (e.dropWork r.pid).finish r.pid st (BitVec.ofNat 64 b.number) (BitVec.ofNat 32 r.row)
  match d.readAll s src (r.rows * b.inRow) false with
  | (.wait, d) => d
  | (.fail st, d) => fail d st
  | (.ok bs, d) =>
    match d.writeAll s ((b.input + r.row * b.inRow) % 2 ^ 64) bs {} with
    | (.wait, d) => d
    | (.fail st, d) => fail d st
    | (.ok _, d) =>
      if d.unacked (.pkt r.pid) then d
      else (d.doneWith (.pkt r.pid)).onBatch b.key fun b => { b with reqs := listUpd (fun x => x.pid == r.pid) (fun x => { x with copied := true }) b.reqs }

/-- COALESCE_DECODE (0x03; R234): accepted in the guard, in ring order; then its input rows are copied. -/
def opCoalesceDecode (pid : Nat) (d : Die) : Die :=
  match d.pkt? pid with
  | none => d
  | some q =>
    if q.opcode != 0x03 then d
    else if q.phase == .started then
      match coalesceStatus q.body with
      | .ok =>
        let first := d.pkts.all fun x => !(x.opcode == 0x03 && x.phase == .started && x.pid != pid && x.part == q.part && coalesceStatus x.body == .ok
          && (decide (x.ring.val < q.ring.val) || (x.ring == q.ring && decide (x.pid < q.pid))))
        if d.tick.inGuard && first then d.acceptRequest q else d
      | st => d.finish pid st 0 0
    else
      match d.cp.batches.find? fun b => b.reqs.any fun r => r.pid == pid && !r.copied with
      | some b => (match b.reqs.find? fun r => r.pid == pid with | some r => d.copyIn b r (field q.body 24 8) | none => d)
      | none => d

/-- At a boundary, batches that are full, closed or due launch (R140, R141, R236). -/
def Die.launchBatch (d : Die) (b : Batch) : Die :=
  let p := b.part.val
  let due := b.rows == 64 || b.closed || decide (b.firstTick + orOne (d.get (COALESCE_CTRL_DEADLINE p)) ≤ d.tick.now)
  if b.launched || !due || b.reqs.any fun r => !r.copied then d
  else
    let (n, d) := d.fresh
    let l : Launch := {
      key := d.cp.nextLaunch, order := d.cp.nextPid, pid := none, batch := some b.key, id := Config.freeWord n, part := b.part, dies := BitVec.ofNat 8 (2 ^ d.here.die.val),
      first := d.planNow p, plan := b.template, entries := b.entries, readNext := 0, readTo := 0, lastKey := none, slices := [], cancelFrom := none,
      failure := none, ran := 0, chain := 0, chainCount := 0, chainNext := 0, chainRel := 0, chainOpen := [],
      args := some [BitVec.ofNat 64 b.rows, BitVec.ofNat 64 b.input, BitVec.ofNat 64 b.output, BitVec.ofNat 64 b.number] }
    let d := if b.rows == 64 then d.count (COALESCE_STAT_FULL p) 1 else d.count (COALESCE_STAT_DEADLINE_HIT p) 1
    let d := ({ d with launches := d.launches ++ [l] }.onCp fun u => { u with nextLaunch := u.nextLaunch + 1 }).onBatch b.key fun b => { b with launched := true, closed := true }
    Die.readPlan l.key 0 (b.entries + 1) d

def Die.batchBoundary (d : Die) : Die := d.cp.batches.foldl Die.launchBatch (d.onCp fun u => { u with accepted := [] })

/-- COALESCE_BATCH_COMPLETE (R141, R142): output rows go to each request's destination; then the requests end. That one whose output copy fails ends
alone with the copy's status is the model's choice (log entry 83). -/
def opBatchComplete (key : Nat) (d : Die) : Die :=
  match d.cp.batches.find? fun b => b.key == key with
  | none => d
  | some b =>
    match b.outcome with
    | none => d
    | some st =>
      let number := BitVec.ofNat 64 b.number
      let d := b.reqs.foldl (fun e r =>
        let fin (e : Die) (st : Status) : Die :=
          (e.onBatch key fun b => { b with reqs := b.reqs.filter fun x => x.pid != r.pid }).finish r.pid st number (BitVec.ofNat 32 r.row)
        if st != .ok then fin e st
        else
          let s := srcCp (.pkt r.pid) b.part.val
          match e.readAll s ((b.output + r.row * b.outRow) % 2 ^ 64) (r.rows * b.outRow) false with
          | (.wait, e) => e
          | (.fail st, e) => fin e st
          | (.ok bs, e) =>
            match e.writeAll s r.dest bs {} with
            | (.wait, e) => e
            | (.fail st, e) => fin e st
            | (.ok _, e) => fin e .ok) d
      if d.cp.batches.any fun b => b.key == key && b.reqs.isEmpty then d.onCp fun u => { u with batches := u.batches.filter fun b => b.key != key } else d

/-! ### Completion (R231) -/

/-- Slices that a cancellation leaves to a launch. -/
def Launch.kept (l : Launch) : List PlanSlice := l.slices.filter fun s => match l.cancelFrom with | some c => decide (s.rel < c) | none => true

/-- Slices that were cancelled count as ABORTED at the first plan tick cancelled (R231). -/
def Launch.prune (l : Launch) : Launch :=
  if l.kept.length == l.slices.length then l
  else { l with slices := l.kept, failure := some (firstFailure l.failure (l.cancelFrom.getD 0, chainCore, .aborted)) }

/-- Entries of a plan or chain that a cancellation has left unread count as ABORTED in the same way (R231). -/
def Launch.cut (l : Launch) : Launch :=
  match l.cancelFrom with
  | some c => if l.allRead && decide (l.chainCount ≤ l.chainNext) then l else { l with failure := some (firstFailure l.failure (c, chainCore, .aborted)) }
  | none => l

/-- Nothing of a launch is left to run. -/
def Die.launchOver (d : Die) (l : Launch) : Bool :=
  (l.allRead || (match l.cancelFrom with | some c => decide (c ≤ l.readTo) | none => false)) && l.kept.isEmpty
    && (d.cores.all fun k => match k.2.run with | some r => r.launch != l.key | none => true)
    && (decide (l.chainCount ≤ l.chainNext) || (match l.cancelFrom with | some c => decide (c ≤ l.chainRel) | none => false)) && l.chainOpen.isEmpty

/-- A launch ends: its packet's record, or the outcome of its batch. -/
def Die.endLaunch (d : Die) (l : Launch) : Die :=
  let l := l.prune.cut
  let st := match l.failure with | some f => f.2.2 | none => .ok
  let (det, d) := d.launchDetail l.failure
  let d := ({ d with launches := d.launches.filter fun m => m.key != l.key }).doneWith (.launch l.key)
  match l.pid, l.batch with
  | some pid, _ => d.finish pid st (BitVec.ofNat 64 l.ran) det
  | none, some key => d.onBatch key fun b => { b with outcome := some st }
  | none, none => d

/-- In the guard, launches with nothing left complete. -/
def Die.endLaunches (d : Die) : Die :=
  let d := { d with launches := d.launches.map Launch.prune }
  let ends (d : Die) (l : Launch) : Option Pkt := l.pid.bind d.pkt?
  let done := d.launches.filter d.launchOver
  -- launches that complete together do so in the order of their packets' rings (R221)
  let d := (done.filter fun l => (ends d l).isNone).foldl Die.endLaunch d
  (ringOrder (done.filterMap (ends d))).foldl (fun e q => match e.launches.find? fun l => l.pid == some q.pid with | some l => e.endLaunch l | none => e) d

/-- At the reset boundary of a partition its slices stop, and its launches are cancelled, on every die of their mask,
and end with ABORTED (R484). -/
def Die.resetLaunches (d : Die) : Die :=
  (d.parts.resets.filter fun r => !r.past).foldl (fun e r =>
    let p := r.part
    let mine := e.launches.filter fun l => l.part.val == p
    let e := mine.foldl (fun e l => e.cancelLaunch l.key (e.planNow p - l.first)) e
    let e := (List.finRange 48).foldl (fun e c => if (e.core c).slicePart == p && (e.core c).run.isSome then e.stopSlice c .aborted else e) e
    mine.foldl (fun e l => match e.launch? l.key with
      | some x =>
        let x := x.prune.cut
        e.endLaunch { x with failure := some (x.failure.getD (x.cancelFrom.getD 0, chainCore, .aborted)) }
      | none => e) e) d

/-- A cancellation that another die of the package reported: it cuts the launches of the same identifier, partition and DIE_MASK (R230). -/
def Die.remoteCancel (d : Die) (c : Cancel) : Die :=
  { d with launches := d.launches.map fun l =>
      if l.pid.isSome && c.pkg == d.here.pkg && l.dies == c.dies && l.id == c.launchId && l.part == c.part then { l with cancelFrom := firstCancel l.cancelFrom c.planTick } else l }

end Sys2Proof.Machine
end

