-- ==== Sys2Proof/Machine/Copies.lean ====
section
/-! DEFINITION. The copy engines: copies, fills, prefetch, advice and migration (spec 07, R237 to R242; spec 11, R381 to
R383). -/

namespace Sys2Proof.Machine

/-! ### The fields of a copy (tables before R238) -/

/-- One side of a copy: DVA space, or the crib of a core. -/
inductive Side where
  | dva | crib (c : CoreIx)
deriving DecidableEq, Repr

/-- A copy as its engine performs it. A fill and an inline copy have their bytes in the packet. -/
structure CopyPlan where
  bytes : Nat
  src : Side
  dst : Side
  from_ : Nat
  to_ : Nat
  counts : Nat × Nat × Nat
  srcStride : Int × Int × Int
  dstStride : Int × Int × Int

def CopyPlan.runs (c : CopyPlan) : Nat := c.counts.1 * c.counts.2.1 * c.counts.2.2

/-- Indices of a run: dimension 1 innermost (R238). -/
def CopyPlan.index (c : CopyPlan) (k : Nat) : Nat × Nat × Nat :=
  (k % c.counts.1, k / c.counts.1 % c.counts.2.1, k / (c.counts.1 * c.counts.2.1))

def dot (i : Nat × Nat × Nat) (s : Int × Int × Int) : Int := i.1 * s.1 + i.2.1 * s.2.1 + i.2.2 * s.2.2

def wrap64 (a : Int) : Nat := (a % 2 ^ 64).toNat

def CopyPlan.srcAt (c : CopyPlan) (k off : Nat) : Nat := wrap64 ((c.from_ : Int) + dot (c.index k) c.srcStride + off)
def CopyPlan.dstAt (c : CopyPlan) (k off : Nat) : Nat := wrap64 ((c.to_ : Int) + dot (c.index k) c.dstStride + off)

/-- Every run of a side stays within the crib (R240). -/
def inCrib (base bytes : Nat) (n : Nat × Nat × Nat) (s : Int × Int × Int) : Bool :=
  let ext (k : Nat) (d : Int) : Int × Int := (min 0 (((k : Int) - 1) * d), max 0 (((k : Int) - 1) * d))
  let a := ext n.1 s.1
  let b := ext n.2.1 s.2.1
  let c := ext n.2.2 s.2.2
  decide (0 ≤ (base : Int) + a.1 + b.1 + c.1) && decide ((base : Int) + a.2 + b.2 + c.2 + bytes ≤ (cribEnd : Int))

def field64 (b : List Byte) (off : Nat) : Int := (BitVec.ofNat 64 (field b off 8)).toInt

def sideOf (crib : Bool) (core : Nat) : Side := if crib then .crib (coreIx core) else .dva

def planOf (op : Byte) (b : List Byte) : CopyPlan :=
  let sp := field b 20 1
  if op == 0x15 then
    { bytes := field b 16 4, src := sideOf (sub sp 0 1 == 1) (field b 22 1), dst := sideOf (sub sp 1 1 == 1) (field b 23 1), from_ := field b 24 8, to_ := field b 32 8,
      counts := (field b 40 4, field b 44 4, field b 48 4), srcStride := (field64 b 64, field64 b 72, field64 b 80), dstStride := (field64 b 88, field64 b 96, field64 b 104) }
  else
    { bytes := if op == 0x11 then field b 16 2 else field b 16 4, src := if op == 0x10 then sideOf (sub sp 0 1 == 1) (field b 22 1) else .dva,
      dst := sideOf (sub sp 1 1 == 1) (field b 23 1), from_ := if op == 0x10 then field b 24 8 else 0, to_ := if op == 0x11 then field b 24 8 else field b 32 8,
      counts := (1, 1, 1), srcStride := (0, 0, 0), dstStride := (0, 0, 0) }

/-- A crib side's core (R240). -/
def Die.sideStatus (d : Die) (part core : Nat) : List (Bool × Status) :=
  [(decide (48 ≤ core) || !d.coreGood core, .reservedValue),
   (!(d.bit (CORE_ASSIGN_ASSIGNED core) && d.get (CORE_ASSIGN_PARTITION core) == part), .noAuthority)]

def when (c : Bool) (l : List (Bool × Status)) : List (Bool × Status) := if c then l else []

/-- Payload checks of the copy packets, in ascending byte offset (R213, R240). -/
def Die.copyStatus (d : Die) (op : Byte) (part : Nat) (b : List Byte) (len : Nat) : Status :=
  let p := planOf op b
  let srcCrib := p.src != .dva
  let dstCrib := p.dst != .dva
  let any := srcCrib || dstCrib
  let odd (x : Int) : Bool := x % 64 != 0
  let place (base : Nat) (s : Int × Int × Int) : List (Bool × Status) := [(base % 64 != 0, .badAlignment), (!inCrib base p.bytes p.counts s, .badLength)]
  firstStatus <| List.flatten [
    [(p.bytes == 0 || (op == 0x11 && (decide (448 < p.bytes) || decide (64 * (len - 1) < p.bytes))) || (op == 0x12 && p.bytes % 4 != 0), .badLength),
     (any && p.bytes % 64 != 0, .badAlignment)],
    when (op == 0x11) [(!zeroBytes b 18 2, .reservedValue)],
    [(decide (4 ≤ field b 20 1) || (op == 0x12 && field b 20 1 % 2 == 1), .reservedValue)],
    when (op == 0x10 || op == 0x15) ((decide (64 ≤ field b 22 1), .reservedValue) :: when srcCrib (d.sideStatus part (field b 22 1))),
    when (op == 0x11 || op == 0x12) [(!zeroBytes b 22 1, .reservedValue)],
    (decide (64 ≤ field b 23 1), .reservedValue) :: when dstCrib (d.sideStatus part (field b 23 1)),
    when (op == 0x12) [(!zeroBytes b 24 8, .reservedValue)],
    when (op != 0x15 && srcCrib) (place p.from_ p.srcStride),
    when (op != 0x15 && dstCrib) (place p.to_ p.dstStride),
    when (op == 0x11) [(!zeroBytes b 32 32, .reservedValue)],
    when (op == 0x12) [(!zeroBytes b 44 20, .reservedValue)],
    when (op == 0x10) [(!zeroBytes b 40 24, .reservedValue)],
    when (op == 0x15) (List.flatten [
      when srcCrib [(p.from_ % 64 != 0, .badAlignment)], when dstCrib [(p.to_ % 64 != 0, .badAlignment)],
      [(p.counts.1 == 0, .badLength), (p.counts.2.1 == 0, .badLength), (p.counts.2.2 == 0, .badLength), (!zeroBytes b 52 12, .reservedValue),
       (any && (odd p.srcStride.1 || odd p.srcStride.2.1 || odd p.srcStride.2.2), .badAlignment)],
      when srcCrib [(!inCrib p.from_ p.bytes p.counts p.srcStride, .badLength)],
      [(any && (odd p.dstStride.1 || odd p.dstStride.2.1 || odd p.dstStride.2.2), .badAlignment)],
      when dstCrib [(!inCrib p.to_ p.bytes p.counts p.dstStride, .badLength)],
      [(!zeroBytes b 112 16, .reservedValue)]])]

/-! ### Engines (R237) -/

def Die.setEngine (d : Die) (e : Nat) (x : CopyEngine) : Die := d.onCp fun u => { u with engines := tblPut (fun _ => ({} : CopyEngine)) u.engines e x }
def Die.onJob (d : Die) (e pid : Nat) (f : CopyJob → CopyJob) : Die := d.setEngine e { d.engine e with jobs := listUpd (fun j => j.pid == pid) f (d.engine e).jobs }

/-- A packet of the copy class goes to its ring's engine behind the earlier ones. -/
def Die.enqueue (d : Die) (q : Pkt) : Die :=
  let e := q.engine
  (d.setEngine e { d.engine e with jobs := (d.engine e).jobs ++ [{ pid := q.pid, run := 0, off := 0, written := 0, stalled := false }] }).onPkt q.pid
    fun x => { x with phase := .running }

/-- Packets of a ring reach its engine in the order in which they started. -/
def Die.turn (d : Die) (q : Pkt) : Bool :=
  d.pkts.all fun x => !(x.ring == q.ring && x.phase == .started && decide (0x10 ≤ x.opcode.toNat) && decide (x.opcode.toNat ≤ 0x15) && decide (x.pid < q.pid))

def Die.copyPacket (d : Die) (pid : Nat) (op : Byte) : Die :=
  match d.startedPkt pid op with
  | none => d
  | some q =>
    match d.copyStatus op q.part.val q.body (field q.body 2 1 % 16) with
    | .ok => if d.turn q then d.enqueue q else d
    | st => d.finish pid st 0 0

/-- COPY (0x10). -/
def opCopy (pid : Nat) (d : Die) : Die := d.copyPacket pid 0x10
/-- COPY_INLINE (0x11). -/
def opCopyInline (pid : Nat) (d : Die) : Die := d.copyPacket pid 0x11
/-- FILL (0x12). -/
def opFill (pid : Nat) (d : Die) : Die := d.copyPacket pid 0x12
/-- COPY_STRIDED (0x15). -/
def opCopyStrided (pid : Nat) (d : Die) : Die := d.copyPacket pid 0x15

/-- PREFETCH_RANGE and ADVISE: alignment, then codes, then rsvd bytes (R381). -/
def rangeStatus (b : List Byte) (codes : Nat) : Status :=
  firstStatus
    [(field b 16 8 % 65536 != 0, .badAlignment), (field b 24 8 % 65536 != 0, .badAlignment), (decide (codes ≤ field b 32 1), .reservedValue), (!zeroBytes b 33 31, .reservedValue)]

def Die.rangePacket (d : Die) (pid : Nat) (op : Byte) (codes : Nat) : Die :=
  match d.startedPkt pid op with
  | none => d
  | some q =>
    match rangeStatus q.body codes with
    | .ok => if d.turn q then d.enqueue q else d
    | st => d.finish pid st 0 0

/-- PREFETCH_RANGE (0x13). -/
def opPrefetchRange (pid : Nat) (d : Die) : Die := d.rangePacket pid 0x13 2
/-- ADVISE (0x14). -/
def opAdvise (pid : Nat) (d : Die) : Die := d.rangePacket pid 0x14 5

/-! ### One chunk of a copy (R239, R241, R242) -/

/-- The hint of a copy, ignored in the cases of R241. -/
def Die.hintOf (d : Die) (part : Nat) (b : List Byte) (pos : Nat) : Hint :=
  let h := field b 21 1
  let n := h / 4
  if h % 2 == 0 then { pos := pos }
  else if sub h 1 1 == 1 then { pos := pos, slice := if n < 8 then some ⟨n % 8, Nat.mod_lt _ (by decide)⟩ else none }
  else { pos := pos, push := if n < 48 && d.coreGood n && d.bit (CORE_ASSIGN_ASSIGNED n) && d.get (CORE_ASSIGN_PARTITION n) == part then some (coreIx n) else none }

/-- Bytes of a repeated pattern. -/
def patternBytes (w n : Nat) : List Byte := (List.range n).map fun i => BitVec.ofNat 8 (w / 2 ^ (8 * (i % 4)) % 256)

/-- Read the source of a chunk. -/
def Die.chunkRead (d : Die) (s : Src) (q : Pkt) (p : CopyPlan) (k off n : Nat) : DRes × Die :=
  if q.opcode == 0x12 then (.ok (patternBytes (field q.body 40 4) n), d)
  else if q.opcode == 0x11 then (.ok ((q.body.drop (64 + off)).take n), d)
  else
    match p.src with
    | .dva => d.readAll s (p.srcAt k off) n false
    | .crib c =>
      -- the chunk is read once, before any byte of it is written (R239)
      let key := 2 ^ 65 + c.val * 2 ^ 22 + p.srcAt k off
      match d.tr.reads.find? fun x => x.req == s.req && x.addr == key && x.n == n with
      | some x => (.ok x.got, d)
      | none =>
        match d.cribRead c (p.srcAt k off) n with
        | (some bs, d) => (.ok bs, d.setRead { req := s.req, addr := key, n := n, got := bs })
        | (none, d) => (.fail .eccUncorrectable, d)

/-- Write the destination of a chunk. -/
def Die.chunkWrite (d : Die) (s : Src) (q : Pkt) (p : CopyPlan) (k off pos : Nat) (bs : List Byte) : DRes × Die :=
  match p.dst with
  | .dva => d.writeAll s (p.dstAt k off) bs (d.hintOf q.part.val q.body pos)
  | .crib c => (.ok [], d.onCore c fun x => x.cribWrite (p.dstAt k off) bs)

/-- Bytes moved by an engine, counted in KiB. -/
def Die.moved (d : Die) (e n : Nat) : Die :=
  let x := d.engine e
  (d.setEngine e { x with bytes := (x.bytes + n) % 1024 }).countWrap (CE_BYTES_KIB e) ((x.bytes + n) / 1024)

/-- A job leaves its engine. -/
def Die.endJob (d : Die) (e pid : Nat) (st : Status) (written : Nat) : Die :=
  let left := (d.engine e).jobs.filter fun j => j.pid != pid
  let d := (d.setEngine e { d.engine e with jobs := left, served := if left.isEmpty then none else (d.engine e).served }).doneWith (.pkt pid)
  let d := if st == .ok then d else d.pktErrorAt pid written st
  d.finish pid st (BitVec.ofNat 64 written) 0

def Die.copyChunk (d : Die) (e : Nat) (j : CopyJob) (q : Pkt) : Die :=
  let p := planOf q.opcode q.body
  let n := min 65536 (p.bytes - j.off)
  let s : Src := { srcCopy e q.pid q.part.val with id := j.written }
  let d := d.takeErrors q.pid
  let wait (d : Die) : Die := d.onJob e q.pid fun x => { x with stalled := true }
  let failed : Bool := match d.pkt? q.pid with | some x => x.status != .ok | none => true
  if failed then d.endJob e q.pid .ok j.written
  else if !j.stalled && !d.mayUse q.part.val 2 then d
  else
    let d := if j.stalled then d else d.useTokens q.part.val 2 n
    match d.chunkRead s q p j.run j.off n with
    | (.wait, d) => wait d
    | (.fail st, d) => d.endJob e q.pid st j.written
    | (.ok bs, d) =>
      match d.chunkWrite s q p j.run j.off j.written bs with
      | (.wait, d) => wait d
      | (.fail st, d) => d.endJob e q.pid st (j.written + d.written (.pkt q.pid) (p.dstAt j.run j.off) n)
      | (.ok _, d) =>
        let d := (d.doneWith (.pkt q.pid)).moved e n
        let last := decide (p.bytes ≤ j.off + n)
        if last && decide (p.runs ≤ j.run + 1) then d.endJob e q.pid .ok (j.written + n)
        else d.onJob e q.pid fun x => { x with run := if last then x.run + 1 else x.run, off := if last then 0 else x.off + n, written := x.written + n, stalled := false }

/-! ### Prefetch, advice, migration (R381 to R383) -/

/-- Allocate a line in its home slice, as a read of the whole line (R381). -/
def Die.prefetchLine (d : Die) (s : Src) (dva : Nat) (space : Space) (pa : Nat) (once : Bool) (tier : Option DieIx) : DRes × Die :=
  let r := { s.request s.id dva space (lineOf pa) (once || tier.isSome) .prefetch with tier := tier }
  if space == .host then d.fetch r (!d.upstreamHeld s && d.mayUse s.part 1) fun e => e.useTokens s.part 1 128
  else d.fetch r (!d.bit HBM_STATUS_SELF_REFRESH && d.mayUse s.part 0) id

/-- Lines of a 64 KiB page from line `i` on: allocated, or skipped where they do not translate without a page request. -/
def Die.prefetchPage (s : Src) (page : Nat) : Nat → Die → Option Nat × Die
  | 0, d => (none, d)
  | n + 1, d =>
    let i := 511 - n
    let a := page + 128 * i
    let line (x : DRes × Die) : Option Nat × Die :=
      match x with
      | (.wait, d) => (some i, d)
      | (.ok _, d) => Die.prefetchPage s page n d
      | (.fail st, d) => Die.prefetchPage s page n (match s.req with | .pkt pid => d.pktError pid st | _ => d)
    match d.translate s a false true with
    | (.wait, d) => (some i, d)
    | (.fail _, d) => Die.prefetchPage s page n d
    | (.ok 0 pa once, d) => line (d.prefetchLine s a .dev pa once none)
    | (.ok 2 hpa once, d) =>
      if (d.p2pRange hpa).isSome then Die.prefetchPage s page n d
      else line (d.prefetchLine s a .host hpa once ((d.tier s.part a).map fun m => d.tierDie m a))
    | (.ok _ _ _, d) => Die.prefetchPage s page n d

/-- Will-not-need: the tree bits of each cached line of a page point towards it; no data moves. False while a line's translation is awaited. -/
def Die.unwanted (d : Die) (s : Src) (page : Nat) : Bool × Die :=
  (List.range 512).foldl (fun (acc : Bool × Die) i =>
    let mark (e : Die) (line : Nat) (host : Bool) : Die :=
      let slice := homeSlice host line
      match e.findWay slice line host with
      | some w => e.touch slice (setOf line) w true
      | none => e
    match acc.2.translate s (page + 128 * i) false true with
    | (.ok 0 pa _, d) => (acc.1, mark d (lineOf pa) false)
    | (.ok 2 hpa _, d) => (acc.1, mark d (lineOf hpa) true)
    | (.wait, d) => (false, d)
    | (_, d) => (acc.1, d)) (true, d)

/-- Pieces of a migrating page's host copy, through the host translation of its I/O virtual address. -/
def Die.hostPage (s : Src) (iova dva : Nat) (data : Option (List Byte)) : Nat → List Byte → Die → DRes × List Byte × Die
  | 0, got, d => (.ok got, got, d)
  | n + 1, got, d =>
    let off := got.length
    match d.ats s (iova + off) (dva + off) data.isSome with
    | (.wait, d) => (.wait, got, d)
    | (.fail st, d) => (.fail st, got, d)
    | (.ok _ hpa _, d) =>
      match (match data with
        | none => d.hostSideRead s 0 dva hpa 128 false
        | some bs => d.hostSideWrite s 0 dva hpa ((bs.drop off).take 128)) with
      | (.ok bs, d) => Die.hostPage s iova dva data n (got ++ (match data with | none => bs | some x => (x.drop off).take 128)) d
      | (.wait, d) => (.wait, got, d)
      | (.fail st, d) => (.fail st, got, d)

/-- Read a page of host memory, or write one, from where an earlier try stopped. -/
def Die.hostPageAll (d : Die) (s : Src) (iova dva : Nat) (data : Option (List Byte)) : DRes × Die :=
  let key := if data.isSome then 2 ^ 64 + dva else dva
  let old := match d.tr.reads.find? fun x => x.req == s.req && x.addr == key with | some x => x.got | none => []
  let (r, got, d) := Die.hostPage s iova dva data (512 - old.length / 128) old d
  (r, d.setRead { req := s.req, addr := key, n := 65536, got := got })

/-- No other work holds a line of a frame of device memory; a line in E is revoked. -/
def Die.frameReady (d : Die) (frame : Nat) : Bool × Die :=
  let inside (line : Nat) : Bool := decide (frame ≤ line) && decide (line < frame + 65536)
  let owned := d.cache.tally.filter fun t => t.2.excl && !t.2.host && inside t.2.addr
  (owned.isEmpty && !(d.requests.any fun r => !r.host && inside r.line) && !(d.cache.invs.any fun v => !v.host && inside v.line),
   owned.foldl (fun e t => e.revokeLine t.2.addr false) d)

/-- A packet's move of a page ends. -/
def Die.endMove (d : Die) (pid page : Nat) : Die :=
  (d.onTr fun t => { t with moves := t.moves.filter fun m => !(m.pid == pid && m.dva == page) }).doneWith (.pkt pid)

/-- The leaf of a moved page has been rewritten and invalidated: the move ends once every source has acknowledged (R376, R383). -/
def Die.moveEnds (d : Die) (p pid page : Nat) (last : Die → Die) : Bool × Die :=
  if d.unacked (.pkt pid) || d.rangeBusy p page (page + 65536) then (false, d) else (true, last (d.endMove pid page))

/-- The copy of a page into its frame, then the rewriting of its leaf. -/
def Die.migrateCopy (d : Die) (s : Src) (pid page : Nat) (m : Migration) (l : Leaf) : Bool × Die :=
  match d.hostPageAll s l.target page none with
  | (.wait, d) => (false, d)
  | (.fail st, d) => (true, (d.endMove pid page).pktError pid st)
  | (.ok bs, d) =>
    match d.frameReady m.frame with
    | (false, d) => (false, d)
    | (true, d) =>
      match d.writeDev s.req 57 m.frame s.part bs with
      | (false, d) => (true, (d.endMove pid page).pktError pid .eccUncorrectable)
      | (true, d) =>
        let d := d.putLeaf s.part page 16 { l with attr := 0, migrated := true, target := m.frame }
        let d := d.onTr fun t => { t with frames := t.frames ++ [({ part := s.part, frame := m.frame, dva := page, iova := l.target } : Frame)] }
        (false, d.invalidate s.part page (page + 65536) [(page, 16, l)])

/-- Migrate one page to device memory (R381): false while it must wait. -/
def Die.migrate (d : Die) (s : Src) (pid page : Nat) : Bool × Die :=
  match d.walk s.part page with
  | (.wait, d) => (false, d)
  | (.leaf l bits, d) =>
    (match d.tr.moves.find? fun m => m.pid == pid && m.dva == page with
     | some m =>
       if bits == 16 && l.attr == 2 then d.migrateCopy s pid page m l
       else if l.migrated && l.target == m.frame then d.moveEnds s.part pid page id
       else (true, d.endMove pid page)
     | none =>
       if bits != 16 || l.attr != 2 || l.prefHost then (true, d)
       else
         match d.freeFrame s.part with
         | some f =>
           if d.tr.moves.any fun m => m.part == s.part && (m.frame == f || m.dva == page) then (false, d)
           else (false, d.onTr fun t => { t with moves := t.moves ++ [({ pid := pid, part := s.part, dva := page, frame := f, back := false } : Migration)] })
         | none => (true, d))
  | (_, d) => (true, d.endMove pid page)

/-- The copy of a migrated page back to its I/O virtual address, once the accesses that were under way have ended, then the rewriting of its leaf. -/
def Die.migrateHome (d : Die) (s : Src) (pid page : Nat) (f : Frame) (l : Leaf) : Bool × Die :=
  if d.rangeBusy s.part page (page + 65536) && !(d.tr.reads.any fun r => r.req == .pkt pid) then (false, d)
  else
    match d.frameReady f.frame with
    | (false, d) => (false, d)
    | (true, d) =>
      match d.readDev f.frame 65536 s.part with
      | (none, d) => (true, (d.endMove pid page).pktError pid .eccUncorrectable)
      | (some bs, d) =>
        match d.hostPageAll s f.iova page (some bs) with
        | (.wait, d) => (false, d)
        | (.fail st, d) => (true, (d.endMove pid page).pktError pid st)
        | (.ok _, d) =>
          if d.unacked (.pkt pid) then (false, d)
          else
            (false, (d.putLeaf s.part page 16 { l with attr := 2, migrated := false, prefHost := true, target := f.iova }).invalidate s.part page
              (page + 65536) [])

/-- A leaf of the page set to prefer the host (R382, ADVICE 4). -/
def Die.preferHost (d : Die) (p page bits : Nat) (l : Leaf) : Die :=
  if l.prefHost then d
  else (d.putLeaf p page bits { l with prefHost := true }).invalidate p page (page + 65536) [(page / 2 ^ bits * 2 ^ bits, bits, l)]

/-- Copy a migrated page back to its I/O virtual address (R382, ADVICE 4). -/
def Die.migrateBack (d : Die) (s : Src) (pid page : Nat) : Bool × Die :=
  match d.walk s.part page with
  | (.wait, d) => (false, d)
  | (.leaf l bits, d) =>
    (match d.tr.moves.find? (fun m => m.pid == pid && m.dva == page), d.tr.frames.find? (fun f => f.part == s.part && f.dva == page) with
     | some _, some f =>
       if l.migrated then d.migrateHome s pid page f l
       else d.moveEnds s.part pid page fun e => e.onTr fun t => { t with frames := t.frames.erase f }
     | some _, none => (true, d.endMove pid page)
     | none, some f =>
       if !l.migrated then (true, d.preferHost s.part page bits l)
       else if d.tr.moves.any fun m => m.part == s.part && m.dva == page then (false, d)
       else (false, d.onTr fun t => { t with moves := t.moves ++ [({ pid := pid, part := s.part, dva := page, frame := f.frame, back := true } : Migration)] })
     | none, none => (true, d.preferHost s.part page bits l))
  | (_, d) => (true, d.endMove pid page)

/-- Change the leaf that maps a page: false while its tables are awaited. -/
def Die.adviseLeaf (d : Die) (p page : Nat) (f : Leaf → Leaf) : Bool × Die :=
  match d.walk p page with
  | (.wait, d) => (false, d)
  | (.leaf l bits, d) =>
    (true, if f l == l then d else (d.putLeaf p page bits (f l)).invalidate p page (page + 65536) [(page / 2 ^ bits * 2 ^ bits, bits, l)])
  | (_, d) => (true, d)

/-- One 64 KiB page of a PREFETCH_RANGE or ADVISE: true when the page is done. -/
def Die.rangePage (d : Die) (s : Src) (q : Pkt) (page : Nat) : Bool × Die :=
  let code := field q.body 32 1
  let fill (d : Die) : Bool × Die := match Die.prefetchPage s page 512 d with | (none, d) => (true, d) | (some _, d) => (false, d)
  if q.opcode == 0x13 then (if code == 0 then fill d else d.migrate s q.pid page)
  else
    match code with
    | 0 => fill d
    | 1 => d.unwanted s page
    | 2 => d.adviseLeaf s.part page fun l => { l with once := true }
    | 3 =>
      (match d.adviseLeaf s.part page fun l => { l with prefHost := false } with
       | (true, d) => d.migrate s q.pid page
       | (false, d) => (false, d))
    | _ => d.migrateBack s q.pid page

def Die.rangeChunk (d : Die) (e : Nat) (j : CopyJob) (q : Pkt) : Die :=
  let s := srcCopy e q.pid q.part.val
  let bytes := field q.body 24 8
  if bytes ≤ j.off then d.endJob e q.pid .ok 0
  else
    match d.rangePage s q (wrap64 (field q.body 16 8 + j.off)) with
    | (false, d) => d.onJob e q.pid fun x => { x with stalled := true }
    | (true, d) => if bytes ≤ j.off + 65536 then d.endJob e q.pid .ok 0 else d.onJob e q.pid fun x => { x with off := x.off + 65536, stalled := false }

/-! ### The engine's next chunk -/

/-- COPY_CHUNK (R237, R239, R242): the engine performs its next chunk, or goes on with the one that waits. -/
def opCopyChunk (e : CopyIx) (d : Die) : Die :=
  match d.nextJob e.val with
  | none => d
  | some j =>
    match d.pkt? j.pid with
    | none => d
    | some q =>
      let d := d.setEngine e.val { d.engine e.val with lastRing := q.ring.val, served := some q.ring.val }
      if q.opcode == 0x13 || q.opcode == 0x14 then d.rangeChunk e.val j q else d.copyChunk e.val j q

end Sys2Proof.Machine
end

