-- ==== Sys2Proof/Machine/Reduce.lean ====
section
/-! DEFINITION. The reduce-and-update unit (spec 06). -/

namespace Sys2Proof.Machine

def Die.onRu (d : Die) (f : RuUnit → RuUnit) : Die := { d with ru := f d.ru }
def Die.slot? (d : Die) (n : Nat) : Option RuSlot := assoc d.ru.slots n
def Die.setSlot (d : Die) (n : Nat) (s : RuSlot) : Die := d.onRu fun u => { u with slots := assocPut u.slots n s }

/-- The partition that a slot belongs to: the lowest whose block holds it (RU_SLOTS). -/
def Die.slotOwner (d : Die) (n : Nat) : Option Nat :=
  (List.range 16).find? fun p => decide (d.get (RU_SLOTS_BASE p) ≤ n) && decide (n < d.get (RU_SLOTS_BASE p) + d.get (RU_SLOTS_COUNT p))

/-- Words of a byte list. -/
def wordsLe (bs : List Byte) (n : Nat) : List W32 := (List.range n).map fun i => BitVec.ofNat 32 (field bs (4 * i) 4)
def wordBytes (xs : List W32) : List Byte := xs.flatMap fun x => leBytes 4 x.toNat

/-- FP32 values of elements stored as FP32 or BF16, every NaN the canonical one (R165, R180, R188). -/
def elements (bf16 : Bool) (bs : List Byte) (n : Nat) : List W32 :=
  (if bf16 then (List.range n).map fun i => BitVec.ofNat 32 (field bs (2 * i) 2 * 65536) else wordsLe bs n).map canon32

def addVals (x y : List W32) : List W32 := List.zipWith addRne x y

/-! ### Errors (R181, R185, R186) -/

/-- Record and raise an error of the unit; `src` is the sender and port of the partial concerned. -/
def Die.ruError (d : Die) (cause slot : Nat) (src : Option (Place × Nat)) : Die :=
  let who := match src with
    | some (s, port) => [(RU_ERR_SRC_PACKAGE, s.pkg.val), (RU_ERR_SRC_DIE, s.die.val), (RU_ERR_SRC_PORT, port)]
    | none => []
  (d.record RU_ERR_VALID ([(RU_ERR_CAUSE, cause), (RU_ERR_SLOT, slot)] ++ who)).raise 11 .contained (detail 0 cause slot)

/-- A partial is dropped. -/
def Die.dropPartial (d : Die) (cause : Nat) (m : PartialMsg) (viaLocal : Bool) : Die :=
  (d.count RU_DROP_DROPPED 1).ruError cause m.slot.val (some (m.head.src, if viaLocal then 0 else portNo m.head.port))

/-! ### Partials (R181, R182) -/

/-- Why a slot does not accept a new partial (R181): its cause. Which cause is recorded when several conditions fail, that a node outside the slot's
range is cause 1, and that a missing window is cause 7, are the model's choices (log entry 86). -/
def RuSlot.refuses (s : RuSlot) (m : PartialMsg) : Option Nat :=
  if m.head.part != s.part then some 7
  else if m.total != s.total || m.elements != s.elements then some 3
  else if !isNode s.total m.lo m.hi || m.lo < s.lo || s.hi < m.hi then some 1
  else if s.got.any fun r => decide (r.1 < m.hi) && decide (m.lo < r.2) then some 2
  else if s.inputs < (s.partials.filter fun p => p.src.isSome).length + 1 then some 5
  else none

/-- All elements of a partial are here. -/
def RuSlot.whole (s : RuSlot) (p : Partial) : Bool := p.vals.length == s.elements

/-- Combine a partial with the sibling that completes a node, as often as it goes (R182). -/
def RuSlot.combine (s : RuSlot) : Nat → Partial → List Partial → Partial × List Partial
  | 0, p, rest => (p, rest)
  | n + 1, p, rest =>
    let ok (a b m : Nat) : Bool := isNode s.total a b && m == a + pow2Above (b - a) / 2
    match rest.find? fun q => s.whole q && ((q.hi == p.lo && ok q.lo p.hi p.lo) || (p.hi == q.lo && ok p.lo q.hi q.lo)) with
    | some q =>
      let x : Partial := if q.hi == p.lo then { src := none, lo := q.lo, hi := p.hi, vals := addVals q.vals p.vals }
        else { src := none, lo := p.lo, hi := q.hi, vals := addVals p.vals q.vals }
      s.combine n x (rest.erase q)
    | none => (p, rest)

/-- Put a whole partial into the slot; a NaN that it holds becomes the canonical one (R165). -/
def RuSlot.put (s : RuSlot) (p : Partial) : RuSlot :=
  let p := { p with vals := p.vals.map canon32 }
  let (x, rest) := s.combine (s.partials.length + 1) p s.partials
  { s with partials := rest ++ [x] }

/-- A partial, or its next elements, reaches an armed slot. -/
def Die.deliver (d : Die) (m : PartialMsg) (viaLocal : Bool) : Die :=
  match d.slot? m.slot.val with
  | none => d
  | some s =>
    let same (p : Partial) : Bool := p.src == some m.head.src && p.lo == m.lo && p.hi == m.hi && !s.whole p
    if m.first == 0 then
      match s.refuses m with
      | some cause => d.dropPartial cause m viaLocal
      | none =>
        let p : Partial := { src := some m.head.src, lo := m.lo, hi := m.hi, vals := m.vals }
        let s := { s with got := s.got ++ [(m.lo, m.hi)] }
        d.setSlot m.slot.val (if s.whole p then s.put p else { s with partials := s.partials ++ [p] })
    else
      match s.partials.find? same with
      | some p =>
        -- every part of a partial is judged (R181): one that fails takes what has come of it along
        let bad := if m.head.part != s.part then some 7 else if m.total != s.total || m.elements != s.elements then some 3 else none
        if let some cause := bad then
          (d.setSlot m.slot.val { s with partials := s.partials.erase p, got := s.got.erase (p.lo, p.hi) }).dropPartial cause m viaLocal
        else if p.vals.length == m.first then
          let q := { p with vals := p.vals ++ m.vals }
          let s := { s with partials := s.partials.erase p }
          d.setSlot m.slot.val (if s.whole q then s.put q else { s with partials := s.partials ++ [q] })
        else d
      | none => d

/-- A partial arrives: at its armed slot, or in the early-arrival buffer while there is room (R185). -/
def Die.arrive (d : Die) (m : PartialMsg) (viaLocal : Bool) : Option Die :=
  if (d.slot? m.slot.val).isSome then some (d.deliver m viaLocal)
  else if 262144 < d.earlyBytes + msgBytes (.partial_ m) then none
  else some (d.onRu fun u => { u with early := u.early ++ [{ msg := m, since := d.tick.count, viaLocal := viaLocal }] })

/-- The window by which a partial that came by a port is accepted: its partition (R442). -/
def Die.reduceWindowOf (d : Die) (m : PartialMsg) : Option Nat :=
  ((List.range 1024).find? fun w =>
    if h : w < 1024 then
      match d.window? ⟨w, h⟩ with
      | some x => x.right 4 && x.srcPkg == m.head.src.pkg && maskBit x.srcDies m.head.src.die.val && d.slotOwner m.slot.val == some x.part
          && d.authGroup w m.head.port && d.authPart x.part m.head.port
      | none => false
    else false).bind fun w => if h : w < 1024 then (d.window? ⟨w, h⟩).map (·.part) else none

/-- REDUCE_PARTIAL_RECEIVE (R79, R181, R185, R436, R442): the partition is the window's. That a missing window is cause 7 is the
model's choice (log entry 86). -/
def opPartialReceive (m : PartialMsg) (d : Die) : Die :=
  d.admitted (judged m.head (.partial_ m)) 6 (msgBytes (.partial_ m)) (match m.head.port with | .opt _ => d.slotOwner m.slot.val | .peer _ => none) fun d =>
    match d.fenceOf m.head.epoch with
    | .newer => none
    | .older => some (d.rejectOld m.head true)
    | .same =>
      match d.reduceWindowOf m with
      | none => some (if m.first == 0 then d.dropPartial 7 m false else d)
      | some p =>
        let m := { m with head := { m.head with part := ⟨p % 16, Nat.mod_lt _ (by decide)⟩ } }
        let before := d.get RU_DROP_DROPPED
        match d.arrive m false with
        | none => none
        | some d => some (if d.get RU_DROP_DROPPED == before then d.respond m.head .ok [] else d)

/-! ### REDUCE_SEGMENT (R178 to R180) -/

/-- Payload checks (R178). -/
def Die.reduceStatus (d : Die) (part : Nat) (b : List Byte) : Status :=
  let fl := field b 18 2
  let nfwd := sub fl 2 3
  let total := field b 20 4
  let lo := field b 24 4
  let hi := field b 28 4
  let llo := field b 32 4
  let lhi := field b 36 4
  let loc := llo != lhi
  firstStatus <|
    [(d.slotOwner (field b 16 2 % 1024) != some part, .noAuthority), (decide (1024 ≤ field b 16 2), .reservedValue),
     (decide (64 ≤ fl) || (sub fl 0 1 == 1 && sub fl 1 1 == 1) || decide (4 < nfwd), .reservedValue),
     (total == 0, .reservedValue), (!isNode total lo hi, .reservedValue),
     (loc && (!isNode total llo lhi || decide (llo < lo) || decide (hi < lhi)), .reservedValue),
     (decide (1024 < field b 40 2) || !zeroBytes b 42 2, .reservedValue), (field b 44 4 == 0, .reservedValue),
     (loc && field b 48 8 % 64 != 0, .badAlignment), (sub fl 0 1 == 0 && loc && field b 56 8 % 64 != 0, .badAlignment),
     (sub fl 5 1 == 1 && field b 64 8 % 64 != 0, .badAlignment), (field b 40 2 != 0 && field b 72 8 % 64 != 0, .badAlignment)]
    ++ ((List.range 4).map fun i => (decide (i < nfwd) && decide (2 ^ 25 ≤ field b (80 + 4 * i) 4), .reservedValue))
    ++ [(!zeroBytes b 96 32, .reservedValue)]

/-- A forward target (table before R178). -/
def fwdOf (b : List Byte) (i : Nat) : FwdSend :=
  let f := field b (80 + 4 * i) 4
  { dst := { pkg := ⟨sub f 13 12 % 4096, Nat.mod_lt _ (by decide)⟩, die := ⟨sub f 10 3 % 8, Nat.mod_lt _ (by decide)⟩ }, slot := ⟨f % 1024, Nat.mod_lt _ (by decide)⟩, sent := false }

/-- Arm a slot and deliver what waited for it (R181, R185). -/
def Die.arm (d : Die) (q : Pkt) : Die :=
  let b := q.body
  let n := field b 16 2 % 1024
  let llo := field b 32 4
  let lhi := field b 36 4
  let s : RuSlot := {
    pid := q.pid, part := q.part, total := field b 20 4, lo := field b 24 4, hi := field b 28 4, localLo := llo, localHi := lhi, inputs := field b 40 2,
    elements := field b 44 4, got := if llo < lhi then [(llo, lhi)] else [], partials := [], armTick := d.tick.count, done := decide (lhi ≤ llo),
    destDone := sub (field b 18 2) 5 1 == 0, fwd := (List.range (sub (field b 18 2) 2 3)).map (fwdOf b) }
  let early := d.ru.early.filter fun e => e.msg.slot.val == n
  let d := (d.setSlot n s).onRu fun u => { u with early := u.early.filter fun e => e.msg.slot.val != n, waiting := u.waiting.filter (· != q.pid) }
  early.foldl (fun e x => e.deliver x.msg x.viaLocal) (d.onPkt q.pid fun x => { x with phase := .running })

/-- A slot is released; the first packet that waits for it arms it: they wait in the order in which they started (R179). -/
def Die.releaseRu (d : Die) (n : Nat) : Die :=
  let d := d.onRu fun u => { u with slots := u.slots.filter fun s => s.1 != n }
  match d.ru.waiting.find? fun pid => match d.pkt? pid with | some q => field q.body 16 2 % 1024 == n | none => false with
  | some pid => (match d.pkt? pid with | some q => d.arm q | none => d)
  | none => d

/-- A slot's packet ends and the slot is released (R184). -/
def Die.endSlot (d : Die) (n pid : Nat) (st : Status) : Die := ((d.releaseRu n).doneWith (.pkt pid)).finish pid st 0 0

/-- A slot's packet fails (R186): what is in SCRATCH is unpredictable from then on (R180). -/
def Die.failSlot (d : Die) (n pid : Nat) (st : Status) : Die := (d.spoilScratch pid).endSlot n pid st

/-- Read the leaves of the local range, or its one partial (R180). -/
def Die.readLocal (d : Die) (q : Pkt) (s : RuSlot) : DRes × List (List W32) × Die :=
  let b := q.body
  let src := srcRu q.pid q.part.val
  let node := sub (field b 18 2) 0 1 == 1
  let bf16 := sub (field b 18 2) 1 1 == 1
  let n := if node then 1 else s.localHi - s.localLo
  (List.range n).foldl (fun (acc : DRes × List (List W32) × Die) k =>
    match acc with
    | (.ok _, got, e) =>
      (match e.readAll src ((field b 48 8 + k * field b 56 8) % 2 ^ 64) (s.elements * (if bf16 then 2 else 4)) false with
       | (.ok bs, e) => (.ok [], got ++ [elements bf16 bs s.elements], e)
       | (x, e) => (x, got, e))
    | x => x) (.ok [], [], d)

/-- The local input of a slot enters it (R156, R180). -/
def Die.takeLocal (d : Die) (q : Pkt) (n : Nat) (s : RuSlot) : Die :=
  if s.done then d
  else
    match d.readLocal q s with
    | (.wait, _, d) => d
    | (.fail st, _, d) => d.failSlot n q.pid st
    | (.ok _, got, d) =>
      match d.slot? n with
      | none => d
      | some s =>
        let v := (ctree addVals got).getD []
        (d.doneWith (.pkt q.pid)).setSlot n { s.put { src := none, lo := s.localLo, hi := s.localHi, vals := v } with done := true }

/-- A packet for the slot that started earlier has not reached the unit yet (R179). -/
def Die.armsLater (d : Die) (q : Pkt) : Bool :=
  d.pkts.any fun x => x.opcode == 0x20 && x.phase == .started && decide (x.pid < q.pid) && field x.body 16 2 == field q.body 16 2

/-- REDUCE_SEGMENT (0x20): checks; it arms its slot, or waits at the unit; its local input is read. -/
def opReduceSegment (pid : Nat) (d : Die) : Die :=
  match d.pkt? pid with
  | none => d
  | some q =>
    if q.opcode != 0x20 then d
    else
      let n := field q.body 16 2 % 1024
      if q.phase == .started then
        match d.reduceStatus q.part.val q.body with
        | .ok =>
          if d.armsLater q then d
          else
          let d := if (d.slot? n).isSome || d.ru.waiting.any fun w => match d.pkt? w with | some x => field x.body 16 2 % 1024 == n | none => false
            then (d.onPkt pid fun x => { x with phase := .running }).onRu fun u => { u with waiting := u.waiting ++ [pid] }
            else d.arm q
          (match d.slot? n with | some s => if s.pid == pid then d.takeLocal q n s else d | none => d)
        | st => d.finish pid st 0 0
      else match d.slot? n with
        | some s => if s.pid == pid && q.phase == .running then d.takeLocal q n s else d
        | none => d

/-- The partial that covers a slot's range. -/
def RuSlot.root (s : RuSlot) : Option Partial := s.partials.find? fun p => p.lo == s.lo && p.hi == s.hi && s.whole p

/-- REDUCE_SLOT_COMPLETE (R184): the result goes to DEST; once it and every forward are acknowledged the packet
completes, SCRATCH is unpredictable (R180) and the slot is released. -/
def opSlotComplete (slot : Fin 1024) (d : Die) : Die :=
  match d.slot? slot.val with
  | none => d
  | some s =>
    match s.root, d.pkt? s.pid with
    | some r, some q =>
      let src := srcRu q.pid q.part.val
      if !s.destDone then
        match d.writeAll src (field q.body 64 8) (wordBytes r.vals) {} with
        | (.wait, d) => d
        | (.fail st, d) => d.failSlot slot.val q.pid st
        | (.ok _, d) => (d.doneWith (.pkt q.pid)).setSlot slot.val { s with destDone := true }
      else if s.fwd.all (fun f => f.sent) && !d.unacked (.pkt q.pid) then
        let n := s.inputs * s.elements * 4
        if n == 0 then d.endSlot slot.val q.pid .ok
        else
          let (junk, d1) := d.freshBytes n
          match d1.writeAll src (field q.body 72 8) junk {} with
          | (.wait, d) => d
          | (.fail st, d) => d.failSlot slot.val q.pid st
          | (.ok _, d) => d.endSlot slot.val q.pid .ok
      else d
    | _, _ => d

/-- The messages of a partial: at most 112 elements each. -/
def fragments (r : Partial) (n : Nat) : List (Nat × List W32) := (List.range ((n + 111) / 112)).map fun i => (112 * i, (r.vals.drop (112 * i)).take 112)

/-- REDUCE_PARTIAL_SEND (R184, R187): the slot's whole partial goes to forward target `n`: to a slot of this die at once,
or over a port. -/
def opPartialSend (slot : Fin 1024) (n : Fin 4) (d : Die) : Die :=
  match d.slot? slot.val with
  | none => d
  | some s =>
    match s.root, s.fwd[n.val]? with
    | some r, some f =>
      if f.sent then d
      else
        let mark (e : Die) : Die := match e.slot? slot.val with
          | some s => e.setSlot slot.val { s with fwd := s.fwd.set n.val { f with sent := true } }
          | none => e
        let msg (h : MsgHead) (first : Nat) (vals : List W32) : PartialMsg :=
          { head := h, slot := f.slot, lo := r.lo, hi := r.hi, total := s.total, elements := s.elements, first := first, vals := vals }
        if f.dst == d.here then
          let h : MsgHead := { port := .peer 0, src := d.here, dst := d.here, epoch := d.epoch, part := s.part, tag := 0, window := none }
          if d.slotOwner f.slot.val != some s.part.val then mark (d.dropPartial 7 (msg h 0 r.vals) true)
          else (match d.arrive (msg h 0 r.vals) true with | some d => mark d | none => d)
        else
          mark ((fragments r s.elements).foldl (fun e x =>
            match e.remote { req := .pkt s.pid, id := 0 } s.part.val f.dst none none false fun h => .partial_ (msg h x.1 x.2) with
            | (none, e) => e
            | (some st, e) => e.pktError s.pid st) d)
    | _, _ => d

/-- EARLY_ARRIVAL_TIMEOUT (R185): a partial has waited EARLY ticks for its slot. -/
def opEarlyTimeout (n : Nat) (d : Die) : Die :=
  match d.ru.early[n]? with
  | some e =>
    if e.since + orOne (d.get RU_TIMEOUT_EARLY) ≤ d.tick.count then
      let d := d.onRu fun u => { u with early := u.early.eraseIdx n }
      if e.msg.first == 0 then d.dropPartial 4 e.msg e.viaLocal else d
    else d
  | none => d

/-- SLOT_TIMEOUT (R186): of a slot that has no partial of its whole range yet. -/
def opSlotTimeout (slot : Fin 1024) (d : Die) : Die :=
  match d.slot? slot.val with
  | some s =>
    if s.root.isNone && decide (s.armTick + orOne (d.get RU_TIMEOUT_SLOT) ≤ d.tick.count) then (d.failSlot slot.val s.pid .aborted).ruError 6 slot.val none else d
  | none => d

/-! ### NORM_PARTIAL (R188, R189) -/

def normStatus (b : List Byte) : Status :=
  let base := field b 16 8
  let n := field b 24 4
  let total := field b 32 8
  let top := base + n
  firstStatus
    [(base % 4096 != 0, .badAlignment), (n == 0 || decide (2 ≤ field b 28 4), .reservedValue),
     (decide (total < top) || (top % 4096 != 0 && top != total) || !isNode ((total + 4095) / 4096) (base / 4096) ((top + 4095) / 4096), .reservedValue),
     (field b 40 8 % 64 != 0, .badAlignment), (field b 48 8 % 4 != 0, .badAlignment), (!zeroBytes b 56 8, .reservedValue)]

/-- The partial of the pieces of a list of elements (R188). -/
def normOf (xs : List W32) : W32 :=
  let piece (i : Nat) : W32 := (ctree addRne (((xs.drop (4096 * i)).take 4096).map fun x => mulRne x x)).getD 0
  (ctree addRne ((List.range ((xs.length + 4095) / 4096)).map piece)).getD 0

/-- A packet of the unit that reads, computes and writes: it goes on where it had to wait. -/
def Die.unitFail (d : Die) (pid : Nat) (st : Status) : Die := (d.doneWith (.pkt pid)).finish pid st 0 0

/-- NORM_PARTIAL (0x22). -/
def opNormPartial (pid : Nat) (d : Die) : Die :=
  match d.pkt? pid with
  | none => d
  | some q =>
    if q.opcode != 0x22 || (q.phase != .started && q.phase != .running) then d
    else
      match normStatus q.body with
      | .ok =>
        let d := d.onPkt pid fun x => { x with phase := .running }
        let n := field q.body 24 4
        let bf16 := field q.body 28 4 % 2 == 1
        let s := srcRu pid q.part.val
        (match d.readAll s (field q.body 40 8) (n * (if bf16 then 2 else 4)) false with
         | (.wait, d) => d
         | (.fail st, d) => d.unitFail pid st
         | (.ok bs, d) =>
           match d.writeAll s (field q.body 48 8) (leBytes 4 (normOf (elements bf16 bs n)).toNat) {} with
           | (.wait, d) => d
           | (.fail st, d) => d.unitFail pid st
           | (.ok _, d) => d.unitFail pid .ok)
      | st => d.finish pid st 0 0

/-! ### OPTIMIZER_STEP (R190 to R195) -/

/-- Codes of MODE. -/
structure OptMode where
  sgd : Bool
  nesterov : Bool
  clip : Bool
  skip : Bool
  sched : Nat
  work : Nat
  round : Nat

def optMode (b : List Byte) : OptMode :=
  let m := field b 16 4
  { sgd := sub m 0 2 == 1, nesterov := sub m 2 1 == 1, clip := sub m 3 1 == 1, skip := sub m 4 1 == 1, sched := sub m 5 2, work := sub m 7 3, round := sub m 10 2 }

/-- Payload checks (R190). -/
def optStatus (b : List Byte) : Status :=
  let o := optMode b
  let m := field b 16 4
  let odd (off n : Nat) : Bool := field b off 8 % n != 0
  firstStatus
    [(decide (2 ≤ sub m 0 2) || o.sched == 3 || decide (4 ≤ o.work) || o.round == 3 || decide (4096 ≤ m), .reservedValue),
     (field b 20 4 == 0, .reservedValue), (field b 32 4 == 0, .badLength), (odd 48 64, .badAlignment), (odd 56 64, .badAlignment), (odd 64 64, .badAlignment),
     (!o.sgd && odd 72 64, .badAlignment), (odd 80 64, .badAlignment), ((o.clip || o.skip) && odd 88 4, .badAlignment), (o.sched == 2 && odd 96 64, .badAlignment),
     (decide (31 < field b 120 1), .reservedValue), (!zeroBytes b 121 3, .reservedValue), (!zeroBytes b 156 36, .reservedValue)]

/-- An integer as FP32 (R191). -/
def floatOf (n : Nat) : W32 := if n == 0 then 0 else roundFp32 false n 0

def one32 : W32 := 0x3F800000#32
def fp (b : List Byte) (off : Nat) : W32 := BitVec.ofNat 32 (field b off 4)
def finite32 (x : W32) : Bool := x.toNat / 2 ^ 23 % 256 != 255
def above32 (x y : W32) : Bool := !(num32 x).isNan && !(num32 y).isNan && decide (key32 y < key32 x)

/-- Learning rate; `rate` is the entry of TABLE that SCHED 2 reads (R191). -/
def learnRate (b : List Byte) (sched : Nat) (rate : W32) : W32 :=
  let step := field b 20 4
  let top := fp b 104
  let low := fp b 108
  let w := field b 112 4
  let dk := field b 116 4
  if sched == 0 then top
  else if sched == 2 then rate
  else if step ≤ w then divRne (mulRne top (floatOf step)) (floatOf w)
  else if dk == 0 then top
  else if w + dk ≤ step then low
  else
    let p := divRne (floatOf (step - w)) (floatOf dk)
    let c := addRne one32 (fnCos (mulRne 0x40490FDB#32 p))
    addRne low (mulRne (mulRne 0x3F000000#32 (subRne top low)) c)

/-- Square and multiply from bit 31 down (R191). -/
def powi (x : W32) (t : Nat) : W32 :=
  (List.range 32).foldl (fun r i => let r := mulRne r r; if sub t (31 - i) 1 == 1 then mulRne r x else r) one32

/-- The scaled norm (R191). -/
def scaledNorm (b : List Byte) (normSq : W32) : W32 := mulRne (sqrtRne normSq) (fp b 148 &&& 0x7FFFFFFF#32)

/-- Gradient scale with clipping (R191). -/
def gradScale (b : List Byte) (o : OptMode) (ne : W32) : W32 :=
  if o.clip && above32 ne (fp b 144) then mulRne (fp b 148) (divRne (fp b 144) ne) else fp b 148

/-- New w, m and v of one element (R191). -/
def optElement (b : List Byte) (o : OptMode) (lr gs : W32) (bc1 bc2 : W32) (g w m v : W32) : W32 × W32 × W32 :=
  let b1 := fp b 124
  let b2 := fp b 128
  let g := mulRne g gs
  let dec := subRne one32 (mulRne lr (fp b 136))
  let fin (u : W32) : W32 := subRne (mulRne w dec) (mulRne lr u)
  if o.sgd then
    let m := addRne (mulRne (fp b 140) m) g
    (fin (if o.nesterov then addRne g (mulRne (fp b 140) m) else m), m, v)
  else
    let m := addRne (mulRne b1 m) (mulRne (subRne one32 b1) g)
    let v := addRne (mulRne b2 v) (mulRne (subRne one32 b2) (mulRne g g))
    (fin (divRne (divRne m bc1) (addRne (sqrtRne (divRne v bc2)) (fp b 132))), m, v)

/-- Working copy of an element (R194). -/
def workBytes (b : List Byte) (o : OptMode) (i : Nat) (w : W32) : List Byte :=
  let x := num32 (mulRne w (fp b 152))
  let draw := if o.round == 2 then sinter (BitVec.ofNat 64 (field b 40 8)) (fp b 36) (BitVec.ofNat 64 (field b 24 8 + i)) (fp b 20) else 0
  match o.work with
  | 0 => []
  | 1 => leBytes 2 (convert .bf16 (roundOf o.round) draw x)
  | 2 => leBytes 1 (convert .e4m3 (roundOf o.round) draw x)
  | _ => leBytes 1 (convert .e5m2 (roundOf o.round) draw x)

/-- Several reads in a row. -/
def Die.readMany (d : Die) (s : Src) (rs : List (Nat × Nat)) : DRes × List (List Byte) × Die :=
  rs.foldl (fun (acc : DRes × List (List Byte) × Die) r =>
    match acc with
    | (.ok _, got, e) => (match e.readAll s r.1 r.2 false with | (.ok bs, e) => (.ok [], got ++ [bs], e) | (x, e) => (x, got, e))
    | x => x) (.ok [], [], d)

def Die.step? (d : Die) (pid : Nat) : OptProg := (d.ru.steps.find? fun x => x.pid == pid).getD { pid := pid, norm := none, rate := none, next := 0, writes := [], crc := 0 }
def Die.setStep (d : Die) (x : OptProg) : Die := d.onRu fun u => { u with steps := (u.steps.filter fun y => y.pid != x.pid) ++ [x] }

/-- The packet ends. -/
def Die.endStep (d : Die) (pid : Nat) (st : Status) (result : W64) : Die :=
  ((d.onRu fun u => { u with steps := u.steps.filter fun y => y.pid != pid }).doneWith (.pkt pid)).finish pid st result 0

/-- The writes of element `i`: new w, m, v (v for AdamW only), then the working copy (R191, R192, R194). -/
def optWrites (b : List Byte) (o : OptMode) (i : Nat) (norm rate g w m v : W32) : List (Nat × List Byte) :=
  let lr := learnRate b o.sched rate
  let gs := if o.clip || o.skip then gradScale b o (scaledNorm b norm) else fp b 148
  let step := field b 20 4
  let new := optElement b o lr gs (subRne one32 (powi (fp b 124) step)) (subRne one32 (powi (fp b 128) step)) g w m v
  let at_ (off size : Nat) : Nat := (field b off 8 + size * i) % 2 ^ 64
  [(at_ 56 4, leBytes 4 new.1.toNat), (at_ 64 4, leBytes 4 new.2.1.toNat)]
    ++ (if o.sgd then [] else [(at_ 72 4, leBytes 4 new.2.2.toNat)])
    ++ (if o.work == 0 then [] else [(at_ 80 (if o.work == 1 then 2 else 1), workBytes b o i new.1)])

/-- The elements from the next one on, one after the other (R196): each is read, computed, and written before the next is read. -/
def Die.optLoop (q : Pkt) : Nat → Die → Die
  | 0, d => d
  | fuel + 1, d =>
    let b := q.body
    let o := optMode b
    let s := srcRu q.pid q.part.val
    let x := d.step? q.pid
    match x.writes with
    | w :: rest =>
      (match d.writeAll s w.1 w.2 {} with
       | (.wait, d) => d
       | (.fail st, d) => d.endStep q.pid st 0
       | (.ok _, d) =>
         Die.optLoop q fuel ((d.doneWith (.pkt q.pid)).setStep { x with writes := rest, next := if rest.isEmpty then x.next + 1 else x.next }))
    | [] =>
      if field b 32 4 ≤ x.next then
        ((d.putRaw RU_STEP_CRC_LO (x.crc.toNat % 2 ^ 32)).putRaw RU_STEP_CRC_HI (x.crc.toNat / 2 ^ 32)).endStep q.pid .ok x.crc
      else
        let at_ (off : Nat) : Nat × Nat := ((field b off 8 + 4 * x.next) % 2 ^ 64, 4)
        match d.readMany s ([at_ 48, at_ 56, at_ 64] ++ if o.sgd then [] else [at_ 72]) with
        | (.wait, _, d) => d
        | (.fail st, _, d) => d.endStep q.pid st 0
        | (.ok _, got, d) =>
          let val (i : Nat) : W32 := le32 (got[i]?.getD [])
          let ws := optWrites b o x.next (x.norm.getD 0) (x.rate.getD 0) (val 0) (val 1) (val 2) (val 3)
          Die.optLoop q fuel ((d.doneWith (.pkt q.pid)).setStep { x with writes := ws, crc := (match ws with | w :: _ => w.2.foldl crcByte x.crc | [] => x.crc) })

/-- A value that all elements share. -/
def Die.optShared (d : Die) (q : Pkt) (have_ : Option W32) (needed : Bool) (a : Nat) : DRes × W32 × Die :=
  match have_ with
  | some v => (.ok [], v, d)
  | none =>
    if !needed then (.ok [], 0, d)
    else match d.readAll (srcRu q.pid q.part.val) a 4 false with
      | (.ok bs, d) => (.ok [], le32 bs, d)
      | (r, d) => (r, 0, d)

/-- The step: the norm is read and judged first (R193), then the table, then the elements follow. -/
def Die.optRun (d : Die) (q : Pkt) : Die :=
  let b := q.body
  let o := optMode b
  let x := d.step? q.pid
  match d.optShared q x.norm (o.clip || o.skip) (field b 88 8) with
  | (.wait, _, d) => d
  | (.fail st, _, d) => d.endStep q.pid st 0
  | (.ok _, norm, d) =>
    if o.skip && !finite32 (scaledNorm b norm) then (d.count RU_DROP_SKIPPED 1).endStep q.pid .aborted 0
    else
      match d.optShared q x.rate (o.sched == 2) ((field b 96 8 + 4 * min (field b 20 4 / 2 ^ field b 120 1) 1023) % 2 ^ 64) with
      | (.wait, _, d) => d.setStep { x with norm := some norm }
      | (.fail st, _, d) => d.endStep q.pid st 0
      | (.ok _, rate, d) =>
        let fresh := x.norm.isNone || x.rate.isNone
        let d := (if fresh then d.doneWith (.pkt q.pid) else d).setStep { x with norm := some norm, rate := some rate }
        Die.optLoop q (5 * (field b 32 4 - x.next) + 1) d

/-- OPTIMIZER_STEP (0x21). -/
def opOptimizerStep (pid : Nat) (d : Die) : Die :=
  match d.pkt? pid with
  | none => d
  | some q =>
    if q.opcode != 0x21 || (q.phase != .started && q.phase != .running) then d
    else
      match optStatus q.body with
      | .ok => (d.onPkt pid fun x => { x with phase := .running }).optRun q
      | st => d.finish pid st 0 0

end Sys2Proof.Machine
end

