-- ==== Sys2Proof/Machine/SyncPackets.lean ====
section
/-! DEFINITION. The sync packets (spec 07, R243; spec 08, R255 to R266). -/

namespace Sys2Proof.Machine

/-! ### SIGNAL (0x40) -/

def signalStatus (b : List Byte) : Status :=
  firstStatus
    [(decide (8192 ≤ field b 16 2), .reservedValue), (decide (16 ≤ field b 18 1) || (field b 18 1 % 2 == 0 && field b 18 1 != 0), .reservedValue),
     (!zeroBytes b 19 5, .reservedValue), (!zeroBytes b 32 32, .reservedValue)]

/-- A SIGNAL of this die's own source to an object of this die (R255, R266): none while the source's slot is occupied. -/
def Die.localSignal (d : Die) (source : Nat) (part : Nat) (obj : ObjIx) (inc : W64) (req : Req) (id : Nat) : Option (Except Status Unit × Die) :=
  if (d.obj obj).owner.toNat != part then some (.error .noAuthority, d.syncErr obj 1 source d.here part true)
  else (d.slotSignal source { obj := obj, inc := inc, part := part, who := some (req, id), head := none }).map fun e => (.ok (), e)

/-- SIGNAL_PACKET (R211, R255): its ring's earlier packets have completed; the record waits for the answer. -/
def opSignalPacket (pid : Nat) (d : Die) : Die :=
  match d.startedPkt pid 0x40 with
  | none => d
  | some q =>
    let b := q.body
    match signalStatus b with
    | .ok =>
      let obj := objIx (field b 16 2)
      let inc := BitVec.ofNat 64 (field b 24 8)
      let die : DieIx := ⟨sub (field b 18 1) 1 3 % 8, Nat.mod_lt _ (by decide)⟩
      if field b 18 1 % 2 == 1 && die != d.here.die then
        match d.remote { req := .pkt pid, id := 0 } q.part.val { pkg := d.here.pkg, die := die } none none false fun h => .signal { head := h, obj := obj, inc := inc } with
        | (none, d) => d.finish pid .ok 0 0
        | (some st, d) => d.finish pid st 0 0
      else
        match d.localSignal 48 q.part.val obj inc (.pkt pid) 0 with
        | none => d
        | some (.ok _, d) => d.finish pid .ok 0 0
        | some (.error st, d) => d.finish pid st 0 0
    | st => d.finish pid st 0 0

/-! ### WAIT (0x41) -/

def waitStatus (b : List Byte) : Status :=
  firstStatus
    [(decide (8192 ≤ field b 16 2), .reservedValue), (decide (2 ≤ field b 18 1), .reservedValue), (!zeroBytes b 19 5, .reservedValue),
     (!zeroBytes b 36 28, .reservedValue)]

/-- Register a packet waiter and test it (R258, R261, R266, R270). -/
def Die.registerWait (d : Die) (q : Pkt) : Die :=
  let b := q.body
  let n := objIx (field b 16 2)
  let o := d.obj n
  let equal := field b 18 1 == 1
  let thr := BitVec.ofNat 64 (field b 24 8)
  let timeout := field b 32 4
  if o.owner != BitVec.ofNat 4 q.part.val then (d.syncErr n 1 48 d.here q.part.val false).finish q.pid .noAuthority 0 0
  else if o.poison then (d.syncErr n 3 48 d.here q.part.val false).finish q.pid .eccUncorrectable 0 0
  else if meets equal thr o.value then d.finish q.pid .ok o.value 0
  else
    let w : PktWaiter := { pid := q.pid, obj := n, equal := equal, thr := thr,
                           deadline := if timeout == 0 then none else some (d.tick.count + timeout - (d.tick.now - q.startTick)) }
    (d.onSync fun u => { u with waiters := u.waiters ++ [w] }).onPkt q.pid fun x => { x with phase := .running }

/-- WAIT_PACKET. -/
def opWaitPacket (pid : Nat) (d : Die) : Die :=
  match d.startedPkt pid 0x41 with
  | none => d
  | some q => match waitStatus q.body with | .ok => d.registerWait q | st => d.finish pid st 0 0

/-! ### BARRIER (0x42) -/

def barrierStatus (b : List Byte) : Status := firstStatus [(decide (2 ≤ field b 16 1), .reservedValue), (!zeroBytes b 17 47, .reservedValue)]

/-- A packet that a BARRIER of SCOPE 1 waits for: of its partition and started before it; a chained BARRIER does not wait
for the launch that it is part of (log entry 33). -/
def Die.before (d : Die) (q x : Pkt) : Bool :=
  x.part == q.part && decide (x.pid < q.pid) && (match q.launch.bind d.launch? with | some l => l.pid != some x.pid | none => true)

/-- BARRIER_PACKET (R211, R243): SCOPE 0 asks no more than the fence of its ring. -/
def opBarrierPacket (pid : Nat) (d : Die) : Die :=
  match d.startedPkt pid 0x42 with
  | none => d
  | some q =>
    match barrierStatus q.body with
    | .ok => if field q.body 16 1 == 1 && d.pkts.any (d.before q) then d else d.finish pid .ok 0 0
    | st => d.finish pid st 0 0

/-! ### FLAG_WRITE (0x43) and TIMESTAMP (0x44) -/

/-- A write of the command processor's own for a packet, and the end of the packet. -/
def Die.cpWrite (d : Die) (q : Pkt) (dva : Nat) (bs : List Byte) (result : W64) (det : W32) : Die :=
  match d.writeAll (srcCp (.pkt q.pid) q.part.val) dva bs {} with
  | (.wait, d) => d
  | (.fail st, d) => (d.doneWith (.pkt q.pid)).finish q.pid st result det
  | (.ok _, d) => (d.doneWith (.pkt q.pid)).finish q.pid .ok result det

def flagBytes (b : List Byte) : Nat := if field b 24 1 % 2 == 1 then 8 else 4

def flagStatus (b : List Byte) : Status :=
  firstStatus
    [(field b 16 8 % flagBytes b != 0, .badAlignment), (decide (2 ≤ field b 24 1), .reservedValue), (!zeroBytes b 25 7, .reservedValue),
     (!zeroBytes b 40 24, .reservedValue)]

/-- FLAG_WRITE (R243, R279, R291). -/
def opFlagWrite (pid : Nat) (d : Die) : Die :=
  match d.startedPkt pid 0x43 with
  | none => d
  | some q =>
    match flagStatus q.body with
    | .ok => d.cpWrite q (field q.body 16 8) (leBytes (flagBytes q.body) (field q.body 32 8)) 0 0
    | st => d.finish pid st 0 0

def timestampStatus (b : List Byte) : Status := firstStatus [(field b 16 8 % 16 != 0, .badAlignment), (!zeroBytes b 24 40, .reservedValue)]

/-- The 16 bytes of a time stamp (R243). -/
def Die.stampBytes (d : Die) : List Byte := leBytes 8 d.tick.now ++ leBytes 4 d.clkInTick ++ leBytes 2 (d.get TICK_EPOCH_EPOCH) ++ leBytes 2 0

/-- TIMESTAMP (R243). -/
def opTimestamp (pid : Nat) (d : Die) : Die :=
  match d.startedPkt pid 0x44 with
  | none => d
  | some q =>
    match timestampStatus q.body with
    | .ok =>
      let result := BitVec.ofNat 64 d.tick.now
      let det := BitVec.ofNat 32 d.clkInTick
      if field q.body 16 8 == 0 then d.finish pid .ok result det else d.cpWrite q (field q.body 16 8) d.stampBytes result det
    | st => d.finish pid st 0 0

end Sys2Proof.Machine
end

