-- ==== Sys2Proof/Machine/Managed.lean ====
section
/-! DEFINITION. The managed packets that Groom performs (spec 07, R244 and the tables before it; spec 03, R110 to R113;
spec 10, R343 and R344; spec 11, R361, R376, R377, R387 and R578; spec 13, R439 and R443; spec 14, R476; spec 16, R537 to
R540). -/

namespace Sys2Proof.Machine

/-- A managed packet that Groom has taken (R247) and whose work has not begun. -/
def Die.grantedPkt (d : Die) (pid : Nat) (op : Byte) : Option Pkt := (d.pkt? pid).filter fun q => q.phase == .granted && q.opcode == op

/-- A managed packet whose work has begun. -/
def Die.runningPkt (d : Die) (pid : Nat) (op : Byte) : Option Pkt := (d.pkt? pid).filter fun q => q.phase == .running && q.opcode == op

/-! ### MAP_RANGE (0x80) -/

/-- Checks of MAP_RANGE: its payload, then that nothing of the range is mapped (R361). -/
def Die.mapStatus (d : Die) (q : Pkt) : Status :=
  let dva := field q.body 16 8
  firstStatus (mapPayload q ++ [(!(d.leaves (field q.body 43 1) dva (dva + field q.body 24 8)).isEmpty, .reservedValue)])

/-- Write the leaves of a range, from leaf `i` on; none when the pool cannot hold the tables. -/
def Die.mapLeaves (p dva target bits entry : Nat) : Nat → Nat → Die → Option Die
  | 0, _, d => some d
  | n + 1, i, d =>
    match d.setLeaf p (dva + i * 2 ^ bits) (bitsLevel bits) (entry + (target + i * 2 ^ bits)) with
    | some e => Die.mapLeaves p dva target bits entry n (i + 1) e
    | none => none

/-- The walk cache forgets the tables of a range (log entry 34). -/
def Die.forgetWalks (d : Die) (p lo hi : Nat) : Die :=
  d.onTr fun t => { t with walk := t.walk.filter fun w => !(w.part == p && decide (w.index * 2 ^ levelBits w.level < hi) && decide (lo < (w.index + 1) * 2 ^ levelBits w.level)) }

/-- MAP_RANGE (R361). -/
def opMapRange (pid : Nat) (d : Die) : Die :=
  match d.grantedPkt pid 0x80 with
  | none => d
  | some q =>
    match d.mapStatus q with
    | .ok =>
      let b := q.body
      let dva := field b 16 8
      let n := field b 24 8
      let bits := pageBits (field b 41 1)
      let p := field b 43 1
      let entry := 1 + 2 * field b 40 1 + 16 * field b 42 1 + 64
      (match Die.mapLeaves p dva (field b 32 8) bits entry (n / 2 ^ bits) 0 d with
       | some e => (e.forgetWalks p dva (dva + n)).finish pid .ok 0 0
       | none => d.finish pid .badLength 0 0)
    | st => d.finish pid st 0 0

/-! ### UNMAP_RANGE (0x81), INVALIDATE_RANGE (0x82) -/

/-- Checks of R578. -/
def Die.unmapStatus (d : Die) (q : Pkt) (unmap : Bool) : Status :=
  let b := q.body
  let dva := field b 16 8
  let n := field b 24 8
  let p := field b 43 1
  firstStatus (unmapPayload q ++ [(unmap && (d.leaves p dva (dva + n)).any fun l => decide (l.1 < dva) || decide (dva + n < l.1 + 2 ^ l.2.1), .reservedValue)])

/-- Drop the clean copies of a line of host memory from the slice and the L1s (R377). -/
def Die.dropHost (d : Die) (line : Nat) : Die :=
  let d := d.dropCopy line true
  if (d.tallyOf line true).isNone then d.hostGone line else if d.invPending line true then d else (d.broadcast line true .none).2

/-- Every host line that the die holds a copy of. -/
def Die.hostLines (d : Die) : List Nat :=
  ((d.cache.lines.filter fun c => c.2.host).map fun c => c.2.addr) ++ (d.cache.hay.flatMap fun h => (h.2.filter fun c => c.host).map fun c => c.addr)
    ++ ((d.cache.tally.filter fun t => t.2.host).map fun t => t.2.addr)

/-- Drop the copies of the host lines of a range: those of the host pages that the address translation cache gives, and
every host line where it does not hold a page's translation (R377; log entry 35). -/
def Die.dropHostRange (d : Die) (p lo hi : Nat) : Die :=
  let host := (d.leaves p lo hi).filter fun l => l.2.2.attr == 2
  let iovas := host.flatMap fun l =>
    let a := max lo l.1
    let n := min hi (l.1 + 2 ^ l.2.1) - a
    (List.range (n / 4096)).map fun i => (l.2.2.target / 2 ^ l.2.1 * 2 ^ l.2.1 + (a - l.1)) / 4096 + i
  let found := iovas.map fun page => (d.tr.atc.find? fun a => a.part == p && a.page == page).map fun a => a.hpa
  let hit (line : Nat) : Bool := found.any fun f => match f with | some hpa => decide (hpa ≤ line) && decide (line < hpa + 4096) | none => true
  (d.hostLines.dedup.filter hit).foldl Die.dropHost d

/-- The end of UNMAP_RANGE or INVALIDATE_RANGE once every source has acknowledged: host lines that came for accesses which the invalidation met go too. -/
def Die.unmapEnds (d : Die) (pid : Nat) (unmap : Bool) (p lo hi : Nat) : Die :=
  if d.rangeBusy p lo hi then d
  else
    let d := if unmap then d else d.dropHostRange p lo hi
    if d.rangeBusy p lo hi then d else d.finish pid .ok 0 0

/-- UNMAP_RANGE or INVALIDATE_RANGE: the change, then the end. -/
def Die.unmapPacket (d : Die) (pid : Nat) (op : Byte) : Die :=
  let unmap := op == 0x81
  match d.grantedPkt pid op with
  | some q =>
    let p := field q.body 43 1
    let lo := field q.body 16 8
    let hi := lo + field q.body 24 8
    (match d.unmapStatus q unmap with
     | .ok =>
       let ls := d.leaves p lo hi
       let d := if unmap then ls.foldl (fun e l => e.clearLeaf p l.1 l.2.1) d else d.dropHostRange p lo hi
       let d := if unmap then d.onTr fun t => { t with frames := t.frames.filter fun f => !(f.part == p && decide (lo ≤ f.dva) && decide (f.dva < hi)) } else d
       ((d.invalidate p lo hi ls).onPkt pid fun x => { x with phase := .running }).unmapEnds pid unmap p lo hi
     | st => d.finish pid st 0 0)
  | none =>
    match d.runningPkt pid op with
    | some q => d.unmapEnds pid unmap (field q.body 43 1) (field q.body 16 8) (field q.body 16 8 + field q.body 24 8)
    | none => d

/-- UNMAP_RANGE (R376, R377, R578). -/
def opUnmapRange (pid : Nat) (d : Die) : Die := d.unmapPacket pid 0x81
/-- INVALIDATE_RANGE (R376, R377, R578). -/
def opInvalidateRange (pid : Nat) (d : Die) : Die := d.unmapPacket pid 0x82

/-! ### LOAD_PROGRAM (0x84), SWITCH_PROGRAM (0x85) -/

/-- R113 for one core. -/
def Die.coreRight (d : Die) (q : Pkt) (c : CoreIx) : Status :=
  if !d.coreGood c.val then .reservedValue
  else if !(d.bit (CORE_ASSIGN_ASSIGNED c.val) && d.get (CORE_ASSIGN_PARTITION c.val) == q.part.val) then .noAuthority
  else .ok

/-- Status of the lowest-numbered core that fails (R244). -/
def firstCore (f : CoreIx → Status) (cs : List CoreIx) : Status := ((cs.map f).find? fun s => s != .ok).getD .ok

/-- R110: the named bank is active, or a switch is pending. -/
def Core.bankActive (k : Core) (bank : Bool) : Bool := k.active == bank || (k.switch.isSome && !k.switched)

def Die.loadStatus (d : Die) (q : Pkt) : Status :=
  let b := q.body
  match firstStatus (loadPayload b) with
  | .ok => firstCore (fun c => match d.coreRight q c with
      | .ok => if (d.core c).bankActive (field b 22 1 == 1) then .bankActive else .ok
      | st => st) (coresOf b)
  | st => st

/-- Words of a program into a bank of a core (R110, R116). -/
def Core.loadWords (k : Core) (bank : Bool) (off : Nat) (bs : List Byte) : Core :=
  let base := (if bank then 16384 else 0) + off / 8
  let n := bs.length / 8
  { k with
    prog := (List.range n).foldl (fun t i => tblPut (fun _ => 0#64) t (base + i) (BitVec.ofNat 64 (field bs (8 * i) 8))) k.prog,
    progBad := k.progBad.filter fun j => decide (j < base) || decide (base + n ≤ j) }

/-- The program's bytes are read and written to every named core. -/
def Die.loadCores (d : Die) (q : Pkt) : Die :=
  let b := q.body
  let cs := coresOf b
  let ended (e : Die) : Die := (e.endLoad q.pid).doneWith (.pkt q.pid)
  match d.readAll (srcCp (.pkt q.pid) q.part.val) (field b 32 8) (field b 24 4) false with
  | (.wait, d) => d
  | (.fail st, d) => (ended d).finish q.pid st 0 0
  | (.ok bs, d) => (cs.foldl (fun e c => e.onCore c fun k => k.loadWords (field b 22 1 == 1) (field b 28 4) bs) (ended d)).finish q.pid .ok 0 0

/-- LOAD_PROGRAM (R110, R113, R244). -/
def opLoadProgram (pid : Nat) (d : Die) : Die :=
  match d.grantedPkt pid 0x84 with
  | some q =>
    (match d.loadStatus q with
     | .ok =>
       let d := (coresOf q.body).foldl (fun e c => e.onCore c fun k => { k with loading := k.loading ++ [pid] }) d
       (d.onPkt pid fun x => { x with phase := .running }).loadCores q
     | st => d.finish pid st 0 0)
  | none => match d.runningPkt pid 0x84 with | some q => d.loadCores q | none => d

def Die.switchStatus (d : Die) (q : Pkt) : Status :=
  match firstStatus (switchPayload q.body) with
  | .ok => firstCore (fun c => match d.coreRight q c with
      | .ok => if (d.core c).switch.isSome then .bankActive else .ok
      | st => st) (coresOf q.body)
  | st => st

/-- SWITCH_PROGRAM (R111 to R113): the switch is pending until a boundary. -/
def opSwitchProgram (pid : Nat) (d : Die) : Die :=
  match d.grantedPkt pid 0x85 with
  | some q =>
    (match d.switchStatus q with
     | .ok => ((coresOf q.body).foldl (fun e c => e.onCore c fun k => { k with switch := some pid, switched := false }) d).onPkt pid fun x => { x with phase := .running }
     | st => d.finish pid st 0 0)
  | none => d

/-- At a boundary the pending switches of cores without a slice take effect, and packets whose last core has switched
complete (R111, R112); a switch that a core reset has applied ends at the first boundary after the reset (R115). -/
def Die.switchBoundary (d : Die) : Die :=
  let d := (List.finRange 48).foldl (fun e c =>
    let k := e.core c
    if k.inReset then e
    else if k.switch.isSome && k.switched then e.setCore c { k with switch := none, switched := false }
    else if k.switch.isSome && k.run.isNone && k.loading.isEmpty then
      (e.countWrap (PROG_BANK_SWITCH_COUNT c.val) 1).setCore c { k with switch := none, switched := false, active := !k.active }
    else e) d
  (ringOrder (d.pkts.filter fun q => q.opcode == 0x85 && q.phase == .running && !(d.cores.any fun k => k.2.switch == some q.pid))).foldl (fun e q => e.finish q.pid .ok 0 0) d

/-! ### SET_QOS (0x8A) -/

/-- SET_QOS (R476): the registers change; the bucket follows at the next boundary. -/
def opSetQos (pid : Nat) (d : Die) : Die :=
  match d.grantedPkt pid 0x8A with
  | none => d
  | some q =>
    let b := q.body
    let p := field b 16 1
    let r := field b 17 1
    (match firstStatus (qosPayload b) with
     | .ok =>
       let d := (d.putRaw (QOS_RATE p r) (field b 20 4)).putRaw (QOS_BURST p r) (field b 24 4)
       { d with parts := { d.parts with qosNew := (d.parts.qosNew.filter (· != 5 * p + r)) ++ [5 * p + r] } }.finish pid .ok 0 0
     | st => d.finish pid st 0 0)

/-- One bucket at a boundary (R472, R476). -/
def Die.refill (d : Die) (p r : Nat) : Die :=
  let rate := d.raw (QOS_RATE p r)
  let burst : Int := min (d.raw (QOS_BURST p r)) 0x7FFFFFFF
  let d := if d.parts.qosNew.contains (5 * p + r) then d.setLevel p r (min (d.level p r) burst) else d
  let d := { d with parts := { d.parts with rates := tblPut (fun _ => 0xFFFFFFFF#32) d.parts.rates (5 * p + r) (BitVec.ofNat 32 rate) } }
  if rate == 0xFFFFFFFF then d else d.setLevel p r (min (d.level p r + rate) burst)

/-- Every bucket at a boundary, and the decode limits (R472, R477). -/
def Die.qosBoundary (d : Die) : Die :=
  let d := (List.range 80).foldl (fun e i => e.refill (i / 5) (i % 5)) d
  { d with parts := { d.parts with qosNew := [], started := [] } }

/-! ### SELFTEST (0x8C) -/

/-- Ticks of a test (R537). -/
def Die.testTicks (d : Die) (clocks : Nat) : Nat := let p := d.get TICK_PERIOD_PERIOD; (clocks + p - 1) / p

/-- The condition at acceptance (table before R537). -/
def Die.testCondition (d : Die) (block unit : Nat) : Bool :=
  match block with
  | 0 | 1 => !d.bit (CORE_ASSIGN_ASSIGNED unit) && d.coreGood unit
  | 5 => maskBit (BitVec.ofNat 4 (d.get HBM_CTRL_OFFLINE)) unit
  | 9 => !d.bit (OPT_CTRL_ENABLE unit) && (!d.bit (CAGE_PRESENT unit) || !d.bit (CAGE_LASER_EN unit))
  | 11 => d.ru.slots.isEmpty
  | _ => true

/-- The unit has no work in progress (R538). -/
def Die.testIdle (d : Die) (block unit : Nat) : Bool :=
  match block with
  | 0 | 1 => (d.core (coreIx unit)).run.isNone
  | 10 => (d.engine unit).jobs.isEmpty
  | 11 => d.ru.slots.isEmpty && !(d.pkts.any fun q => decide (0x20 ≤ q.opcode.toNat) && decide (q.opcode.toNat ≤ 0x22) && q.phase != .finished)
  | _ => true

def Die.testStatus (d : Die) (b : List Byte) : Status :=
  let most := field b 18 2
  let short : Bool := match testInfo (field b 16 1) with | some x => most != 0 && decide (most < d.testTicks x.1) | none => false
  firstStatus (testPayload b ++ [(short || !d.testCondition (field b 16 1) (field b 17 1), .reservedValue)])

/-- The wall tick of a boundary count, as the registers show it. -/
def Die.wallOf (d : Die) (count : Nat) : Nat := d.tick.now + count - d.tick.count

/-- SELFTEST (R537). -/
def opSelftest (pid : Nat) (d : Die) : Die :=
  match d.grantedPkt pid 0x8C with
  | none => d
  | some q =>
    let b := q.body
    match d.testStatus b with
    | .ok =>
      (match d.boot.test with
       | some t => d.deferPkt pid (match t.start with | some s => d.wallOf (s + t.ticks) + 1 | none => d.tick.now + 16)
       | none =>
         let t : SelfTest := {
           pid := pid, block := field b 16 1, unit := field b 17 1, maxTicks := field b 18 2, accepted := d.tick.count, start := none, stopped := false,
           ticks := match testInfo (field b 16 1) with | some x => d.testTicks x.1 | none => 0 }
         let d := ((d.putB ST_STATUS_PENDING true).put ST_STATUS_BLOCK t.block).put ST_STATUS_UNIT t.unit
         { d with boot := { d.boot with test := some t } }.onPkt pid fun x => { x with phase := .running })
    | st => d.finish pid st 0 0

/-- The unit as its test leaves it (table before R537). -/
def Die.testClear (d : Die) (block unit : Nat) : Die :=
  match block with
  | 0 => d.clearCore (coreIx unit)
  | 1 => d.onCore (coreIx unit) fun k => { k with crib := [], cribErr := [] }
  | 5 => d.zeroStack unit
  | _ => d

/-- A test ends: its unit is cleared, its signature recorded (R540); the outcome is the silicon's. -/
def Die.testEnd (d : Die) (t : SelfTest) : Die :=
  let d := (d.putB ST_STATUS_ACTIVE false).testClear t.block t.unit
  let d := { d with boot := { d.boot with test := none } }
  if t.stopped then d
  else
    let (n, d) := d.fresh
    let fail := Config.freeNat n % 2 == 1
    let d := d.finish t.pid .ok (Config.selfTestSignature n) (if fail then 1 else 0)
    if fail then d.raise ⟨t.block % 20, Nat.mod_lt _ (by decide)⟩ .contained (detail t.unit 0x40 0) else d

/-- Self-test at a boundary (R538, R540). -/
def Die.testBoundary (d : Die) : Die :=
  match d.boot.test with
  | none => d
  | some t =>
    match t.start with
    | some s => if s + t.ticks ≤ d.tick.count || t.stopped then d.testEnd t else d
    | none =>
      if t.maxTicks != 0 && t.accepted + t.maxTicks < d.tick.count + t.ticks then
        { d.putB ST_STATUS_PENDING false with boot := { d.boot with test := none } }.finish t.pid .aborted 0 0
      else if d.testIdle t.block t.unit then
        let d := ((d.putB ST_STATUS_PENDING false).putB ST_STATUS_ACTIVE true).put ST_STATUS_END (d.wallOf (d.tick.count + t.ticks))
        { d with boot := { d.boot with test := some { t with start := some d.tick.count } } }
      else d

/-! ### QUERY (0x8E) -/

/-- The answer to an item: what the manual gives of its bytes (log entry 36). -/
def Die.queryBytes (d : Die) (item : Nat) : List Byte :=
  match item with
  | 0 => leBytes 8 Config.firmwareVersion.toNat
  | 1 => leBytes 8 Config.tableVersion.toNat
  | 2 => leBytes 24 d.fuses.arrays.toNat
  | 4 => leBytes 8 d.cp.groom.queue.length
  | _ => []

/-- QUERY (R209, R218): RESULT holds an answer of 64 bits; a longer one, or one whose form the manual does not give, is a
free value there, as are the bytes at DEST past the answer. -/
def opQuery (pid : Nat) (d : Die) : Die :=
  match d.grantedPkt pid 0x8E with
  | none => d
  | some q =>
    match queryStatus q.body with
    | .ok =>
      let item := field q.body 16 2
      let known := d.queryBytes item
      let det := BitVec.ofNat 32 item
      (match field q.body 24 8 with
       | 0 =>
         if known.length == 8 then d.finish pid .ok (le64 known) det
         else
           let (bs, d) := d.freshBytes 8
           d.finish pid .ok (le64 bs) det
       | dest =>
         let (bs, d1) := d.freshBytes (64 - known.length)
         d1.cpWrite q dest (known ++ bs) 0 det)
    | st => d.finish pid st 0 0

/-! ### OPEN_WINDOW (0x90), CLOSE_WINDOW (0x91) -/

def winOf (n : Nat) : WinIx := ⟨n % 1024, Nat.mod_lt _ (by decide)⟩

/-- Checks of R439 and R244. -/
def Die.openStatus (d : Die) (q : Pkt) : Status :=
  firstStatus (openPayload q ++ [((d.window? (winOf (field q.body 16 2))).isSome, .reservedValue)])

/-- OPEN_WINDOW (R439). -/
def opOpenWindow (pid : Nat) (d : Die) : Die :=
  match d.grantedPkt pid 0x90 with
  | none => d
  | some q =>
    match d.openStatus q with
    | .ok =>
      let b := q.body
      let w : Window := { part := field b 19 1, base := field b 24 8, bytes := field b 32 8, flags := BitVec.ofNat 5 (field b 18 1),
                          srcPkg := ⟨field b 40 2 % 4096, Nat.mod_lt _ (by decide)⟩, srcDies := BitVec.ofNat 8 (field b 42 1) }
      (d.setWindow (winOf (field b 16 2)) (some w)).finish pid .ok 0 0
    | st => d.finish pid st 0 0

/-- Writes accepted through a window are still to be answered (R443). -/
def Die.windowBusy (d : Die) (w : WinIx) : Bool :=
  (d.ports.winOps.any fun o => o.head.window == some w) || d.sync.slots.any fun x => match x.2.head with | some h => h.window == some w | none => false

/-- Checks of CLOSE_WINDOW (R244). -/
def Die.closeStatus (d : Die) (q : Pkt) : Status :=
  let own := match d.window? (winOf (field q.body 16 2)) with | some x => foreign q x.part | none => false
  firstStatus (closePayload q.body ++ [((d.window? (winOf (field q.body 16 2))).isNone, .reservedValue), (own, .noAuthority)])

/-- CLOSE_WINDOW (R443). -/
def opCloseWindow (pid : Nat) (d : Die) : Die :=
  match d.grantedPkt pid 0x91 with
  | some q =>
    let w := winOf (field q.body 16 2)
    (match d.closeStatus q with
     | .ok =>
       let d := (d.setWindow w none).onPkt pid fun x => { x with phase := .running }
       if d.windowBusy w then d else d.finish pid .ok 0 0
     | st => d.finish pid st 0 0)
  | none =>
    match d.runningPkt pid 0x91 with
    | some q => if d.windowBusy (winOf (field q.body 16 2)) then d else d.finish pid .ok 0 0
    | none => d

/-! ### PRESERVE_ARM (0x94) -/

/-- PRESERVE_ARM (R387): the record's page is found through partition 0's tables; a table word that cannot be read ends it ECC_UNCORRECTABLE (R350). -/
def opPreserveArm (pid : Nat) (d : Die) : Die :=
  match d.grantedPkt pid 0x94 with
  | none => d
  | some q =>
    let b := q.body
    let arm := field b 16 1 == 1
    let rec_ := field b 24 8
    (match firstStatus (armPayload b) with
     | .ok =>
       if !arm then (d.putB PRESERVE_STATUS_ARMED false).finish pid .ok 0 0
       else
         (match d.walk 0 rec_ with
          | (.leaf l bits, d) =>
            if l.attr == 0 then
              { d.putB PRESERVE_STATUS_ARMED true with mem := { d.mem with record := l.target / 2 ^ bits * 2 ^ bits + rec_ % 2 ^ bits } }.finish pid .ok 0 0
            else d.finish pid .reservedValue 0 0
          | (.invalid, d) => d.finish pid .reservedValue 0 0
          | (.ecc, d) => d.finish pid .eccUncorrectable 0 0
          | (.wait, d) => d)
     | st => d.finish pid st 0 0)

/-! ### LOCK_WAYS (0x96) -/

/-- The locked ways of a slice after a change (R343). -/
def lockedAfter (old ways : Nat) (lock exact_ : Bool) : Nat := if !lock then old - old.land ways else if exact_ then ways else old.lor ways

/-- Checks of R344. -/
def Die.lockStatus (d : Die) (b : List Byte) : Status :=
  let ways := field b 18 2
  let lock := field b 20 1 % 2 == 1
  let exact_ := sub (field b 20 1) 1 1 == 1
  let few (s : Nat) : Bool :=
    decide (((List.range 16).filter fun w =>
      sub (lockedAfter (d.get (DC_WAYS_LOCKED s)) ways lock exact_) w 1 == 0 && sub (d.get (DC_WAYS_DISABLED s)) w 1 == 0).length < 4)
  firstStatus (lockPayload b ++ [((List.range 8).any fun s => sub (field b 16 1) s 1 == 1 && few s, .reservedValue)])

/-- LOCK_WAYS (R343, R344). -/
def opLockWays (pid : Nat) (d : Die) : Die :=
  match d.grantedPkt pid 0x96 with
  | none => d
  | some q =>
    let b := q.body
    match d.lockStatus b with
    | .ok =>
      let d := (List.range 8).foldl (fun e s =>
        if sub (field b 16 1) s 1 == 1 then
          e.put (DC_WAYS_LOCKED s) (lockedAfter (e.get (DC_WAYS_LOCKED s)) (field b 18 2) (field b 20 1 % 2 == 1) (sub (field b 20 1) 1 1 == 1))
        else e) d
      d.finish pid .ok 0 0
    | st => d.finish pid st 0 0

end Sys2Proof.Machine
end

