-- ==== Sys2Proof/Machine/Groom.lean ====
section
/-! DEFINITION. Groom's scheduling of managed packets (spec 07, R247 to R252). -/

namespace Sys2Proof.Machine

def Die.onGroom (d : Die) (f : GroomUnit → GroomUnit) : Die := { d with cp := { d.cp with groom := f d.cp.groom } }

/-- Groom serves. -/
def Die.groomServes (d : Die) : Bool := d.get GROOM_STATUS_STATE == 1 && !d.cp.restarting

/-- A partition's oldest queued packet (R248); none of a partition that is being reset (R483). -/
def Die.groomHead (d : Die) (p : Nat) : Option Pkt :=
  if d.bit (PART_CTRL_RESETTING p) then none else d.cp.groom.queue.findSome? fun pid => (d.pkt? pid).filter fun q => q.part.val == p

/-- Groom comes to a partition in a round: its packet starts, or does not fit in what remains of the budget and the
partition is passed over for the rest of the tick (R247). -/
def Die.groomTake (d : Die) (p : Nat) : Die :=
  if d.cp.groom.skip.contains p then d
  else
    match d.groomHead p with
    | none => d
    | some q =>
      let c := opCost q.opcode.toNat
      if d.cp.groom.budgetLeft < c then d.onGroom fun g => { g with skip := g.skip ++ [p] }
      else
        (d.onPkt q.pid fun x => { x with phase := .granted }).onGroom fun g => { g with
          queue := g.queue.filter (· != q.pid), budgetLeft := g.budgetLeft - c,
          served := (match g.served with | some s => some s | none => some p) }

/-- GROOM_ROUND: one packet of each partition that has one queued, in ascending index from the partition after the one
served first in the previous tick (R248). -/
def opGroomRound (d : Die) : Die :=
  if d.groomServes then (List.range 16).foldl (fun e k => e.groomTake ((d.cp.groom.nextPart + k) % 16)) d else d

/-- Groom at a boundary of a tick or a beat (R247, R248, R250): a new budget, and one more tick without a kick. -/
def Die.groomBoundary (d : Die) : Die :=
  d.onGroom fun g => { g with
    budgetLeft := d.get GROOM_BUDGET_UNITS, skip := [], served := none,
    nextPart := (match g.served with | some s => (s + 1) % 16 | none => g.nextPart),
    wdog := if d.groomServes then g.wdog + 1 else 0 }

/-- GROOM_WATCHDOG_EXPIRE (R250): after 64 ticks without a kick Groom alone is reset, with a contained fault. -/
def opGroomWatchdogExpire (d : Die) : Die :=
  if d.groomServes && decide (64 ≤ d.cp.groom.wdog) then
    (d.groomReset.count GROOM_WDOG_RESETS 1).raise 14 .contained (detail 0 1 0)
  else d

/-- GROOM_RESTART_DONE (R251): Groom serves again, with what is left of the tick's budget (R247, R248). -/
def opGroomRestartDone (d : Die) : Die :=
  if d.cp.restarting then ({ d with cp := { d.cp with restarting := false } }.put GROOM_STATUS_STATE 1).onGroom fun g => { g with wdog := 0 } else d

end Sys2Proof.Machine
end

