-- ==== Sys2Proof/Machine/Slices.lean ====
section
/-! DEFINITION. Slices against the tick (spec 02, R42 to R55, R76; spec 09, R289): what the guard judges, what a boundary
resets, and what it starts. -/

namespace Sys2Proof.Machine

/-! ### Stalls on page requests (R54, R55) -/

def reqOfCore (c : CoreIx) : Req → Bool
  | .core x => x == c
  | .eng x _ => x == c
  | _ => false

/-- The slice of a core is stalled on a page request. -/
def Die.pageStalled (d : Die) (c : CoreIx) : Bool := d.tr.faults.any fun f => reqOfCore c f.req

/-- A stopped slice abandons its stalled accesses; answers to their page requests are discarded (R55). -/
def Die.abandonStalled (d : Die) (c : CoreIx) : Die :=
  let fs := d.tr.faults.filter fun f => reqOfCore c f.req
  let d := d.onCore c fun k => { k with
    ops := k.ops.filter fun o => o.sent || !(fs.any fun f => f.req == .core c && f.dva / 4096 == o.addr / 4096),
    engines := k.engines.filter fun e => !(fs.any fun f => match f.req with | .eng _ x => x.val == e.1 | _ => false) }
  (d.onTr fun t => { t with faults := t.faults.filter fun f => !reqOfCore c f.req }).settle c

/-- A rule that heeds no stall stops the slice of a core (R55). -/
def Die.stopHard (d : Die) (c : CoreIx) (st : Status) : Die := if (d.core c).run.isSome then (d.stopSlice c st).abandonStalled c else d

/-! ### The guard (R42, R47, R50 to R55) -/

/-- An access of the core waits for the host (cause HOST_WAIT). -/
def Die.hostWait (d : Die) (c : CoreIx) : Bool :=
  (d.host.p2p.any fun o => reqOfCore c o.req && o.data.isNone)
    || d.cache.mshrs.any fun m => (match m.why with | .host | .hostAtomic | .hostWriteback _ | .unit => true | _ => false) && m.reqs.any fun r => reqOfCore c r.who.req

/-- Causes of an overrun (table after R55), as bits of OVERRUN_LAST.CAUSE without ABORTED. -/
def Die.overrunCause (d : Die) (c : CoreIx) : Nat :=
  let k := d.core c
  bitN (d.hostWait c) 0 + bitN (match k.run with | some r => r.linkRetry | none => false) 1
    + bitN (match k.wait with | some (.object ..) | some (.barrier ..) => true | _ => false) 2

def Die.overrunLast (d : Die) (c : CoreIx) (p cause : Nat) : Die :=
  (((d.put OVERRUN_LAST_CORE c.val).put OVERRUN_LAST_PARTITION p).put OVERRUN_LAST_CAUSE cause).put OVERRUN_LAST_TICK d.tick.now

/-- The boundary at which a slip of tick `t` takes effect (R47). -/
def Die.slipDue (d : Die) (t p : Nat) : Nat := t + 1 + orOne (d.get (SLIP_CTRL_SLIP_LAG p))

/-- A slip of a partition in the current tick: reported in the acknowledgement, due at B(T + 1 + SLIP_LAG) (R47). -/
def Die.slipNow (d : Die) (p : Nat) : Die :=
  if d.tick.slipsNow.contains p then d
  else { d with tick := { d.tick with slipsNow := d.tick.slipsNow ++ [p], owed := d.tick.owed ++ [(d.slipDue d.tick.now p, p)] } }

/-- Partitions that slipped in the current tick. -/
def Die.slipMask (d : Die) : BitVec 16 := d.tick.slipsNow.foldl (fun m p => setMask m p true) 0

/-- The guard judges the slice of one core. A slice that is stopping has been judged already. -/
def Die.judge (d : Die) (c : CoreIx) : Die :=
  match (d.core c).run with
  | none => d
  | some r =>
    let p := r.part.val
    let cause := d.overrunCause c
    if r.stopping.isSome then d
    else if orOne (d.get (SLIP_CTRL_SLIP_LIMIT p)) ≤ r.overSlips then
      -- hung (R51)
      (((d.overrunLast c p (cause + 8)).raise 0 .contained (detail c.val 0x30 p)).abandonStalled c).coreReset c .tickOverrun
    else if d.pageStalled c || r.pageDone then (d.slipNow p).count (SLIP_COUNT_FAULT_SLIPS p) 1
    else if d.tick.policies.getLsbD p then
      ((d.overrunLast c p (cause + 8)).raise 15 .contained (detail c.val 1 p)).stopSlice c .tickOverrun
    else
      ((((d.slipNow p).count (SLIP_COUNT_OVERRUN_SLIPS p) 1).overrunLast c p cause).raise 15 .contained (detail c.val 1 p)).onCore c fun k =>
        { k with run := k.run.map fun r => { r with overSlips := r.overSlips + 1 } }

def Die.judgeAll (d : Die) : Die := (List.finRange 48).foldl Die.judge d

/-! ### The boundary -/

/-- Cores at a boundary: one that has been in reset leaves it; one that has not stopped since the last boundary is reset (R53, R492); what
the tick noted of a slice is forgotten. It comes first, so that a slice stopped at this boundary has until the next one (R53, R76). -/
def Die.coreBoundary (d : Die) : Die :=
  (List.finRange 48).foldl (fun e c =>
    let k := e.core c
    let e := if k.inReset then e.setCore c { k with inReset := false } else e
    match k.run with
    | none => e
    | some r =>
      if r.stopping.isSome then (e.raise 0 .contained (detail c.val 0x31 r.part.val)).coreReset c .aborted
      else e.setCore c { k with run := some { r with pageDone := false, linkRetry := false } }) d

/-- Dies of the package on which a partition exists (R466). -/
def Die.span (d : Die) (p : Nat) : Nat := (d.get (PART_CTRL_SPAN p)).lor (2 ^ d.here.die.val)

/-- The partition includes a die that has been removed (R68). -/
def Die.spanLost (d : Die) (p : Nat) : Bool := (d.span p).land d.tick.removedMask.toNat != 0

/-- The partition may start slices on this die now (R66, R68, R72, R465, R483, R530). -/
def Die.partRuns (d : Die) (p : Nat) : Bool :=
  d.tick.runs && !d.tick.holdTick && d.partOn p && !d.spanLost p && !d.bit PWR_CTRL_THERMAL_HALT
    && !(d.bit TICK_STATUS_TICK_LOST && d.span p != 2 ^ d.here.die.val)

/-- The unit under test is the core or its crib (R538). -/
def Die.coreTested (d : Die) (c : CoreIx) : Bool := d.underTest 0 c.val || d.underTest 1 c.val

/-- The core may start a slice at this boundary. -/
def Die.coreFree (d : Die) (c : CoreIx) : Bool :=
  let k := d.core c
  d.coreGood c.val && k.run.isNone && !k.inReset && decide (k.notBefore ≤ d.tick.count) && !d.coreTested c

/-- The slice planned for a core at the earliest plan tick that has come, is not cancelled and has not run (R45). -/
def Die.planned (d : Die) (c : CoreIx) (p : Nat) : Option (Launch × PlanSlice) :=
  let all := d.launches.flatMap fun l =>
    if l.part.val == p then (l.kept.filter fun s => s.core == c && decide (l.first + s.rel ≤ d.planNow p)).map fun s => (l, s) else []
  all.foldl (fun (m : Option (Launch × PlanSlice)) x => match m with
    | some y => if y.1.first + y.2.rel ≤ x.1.first + x.2.rel then some y else some x
    | none => some x) none

/-- A core starts a slice (R45, R101, R133). -/
def Die.startSlice (d : Die) (c : CoreIx) (l : Launch) (s : PlanSlice) : Die :=
  let d := d.onLaunch l.key fun m => { m with slices := m.slices.erase s, ran := m.ran + 1 }
  d.onCore c fun k => { k with
    run := some { part := l.part, launch := l.key, planTick := l.first + s.rel, startTick := d.tick.now, args := s.args },
    pc := s.entry, srSeed := 0, srTensor := 0, srStep := 0, rowMask := BitVec.allOnes 64, colMask := BitVec.allOnes 64, wait := none, held := [] }

/-- Every free core starts what is planned for it. -/
def Die.startSlices (d : Die) : Die :=
  (List.finRange 48).foldl (fun e c =>
    let p := e.get (CORE_ASSIGN_PARTITION c.val)
    if e.bit (CORE_ASSIGN_ASSIGNED c.val) && e.partRuns p && e.coreFree c then
      (match e.planned c p with
       | some (l, s) => e.startSlice c l s
       | none => e)
    else e) d

/-! ### A removed die (R68, R289) -/

/-- Every partition that includes a removed die ends its slices and launches with ABORTED. -/
def Die.endSpanning (d : Die) : Die :=
  let lost := (List.range 16).filter d.spanLost
  let d := (List.finRange 48).foldl (fun e c =>
    if (e.core c).run.isSome && lost.contains (e.core c).slicePart then e.stopHard c .aborted else e) d
  -- a reduction slot that waits for a removed die ends (R186)
  let d := (d.ru.slots.filter fun x => x.2.root.isNone && (lost.contains x.2.part.val || x.2.partials.any fun p =>
      !x.2.whole p && (match p.src with | some a => d.removed a | none => false))).foldl (fun e x => e.failSlot x.1 x.2.pid .aborted) d
  { d with launches := d.launches.map fun l =>
      if lost.contains l.part.val then
        { l with readNext := l.entries, slices := [], chainNext := l.chainCount, cancelFrom := some 0, failure := some (0, chainCore, .aborted) }
      else l }

end Sys2Proof.Machine
end

