-- ==== Sys2Proof/Machine/Domain.lean ====
section
/-! DEFINITION. The tick domain (spec 02, R56 to R84): TICK messages and acknowledgements, membership, mode changes and the
configuration digest. -/

namespace Sys2Proof.Machine

def Die.onTick (d : Die) (f : TickUnit → TickUnit) : Die := { d with tick := f d.tick }

/-- The die counts its own tick: it leads its tick domain (R36, R61). -/
def Die.leads (d : Die) : Bool := d.tick.runs && !d.tick.adopted && !d.bit TICK_STATUS_TICK_LOST

/-- A contained or corrected fault of the tick unit about a die (R497). -/
def Die.tickEvent (d : Die) (cls : Cls) (die cause extra : Nat) : Die := d.raise 15 cls (detail die cause extra)

/-- Every other die of the package that has not been removed. -/
def Die.otherDies (d : Die) : List DieIx :=
  (List.finRange 8).filter fun x => decide (x.val < d.dieCount) && x != d.here.die && !maskBit d.tick.removedMask x.val

/-- Every other die of the package: TICK messages go to all, so that a removed die can lock again after its reset (R37, R68). -/
def Die.packageDies (d : Die) : List DieIx := (List.finRange 8).filter fun x => decide (x.val < d.dieCount) && x != d.here.die

/-- Send a TICK-class message to a die. -/
def Die.postTick (d : Die) (dst : Place) (m : FabMsg) : Die :=
  match d.portFor dst with
  | some port => if d.authClass 1 port then d.post port 0 m else d
  | none => d

/-- The far end of an optical port in state 4. -/
def Die.optPartner (d : Die) (n : OptIx) : Option Place := if d.portUp (.opt n) then (d.optPort n).session.map (·.partner) else none

/-- A message to every die of the package, and from a system lead to the far end of every optical port (R58). -/
def Die.distribute (d : Die) (mk : Place → FabMsg) : Die :=
  let d := d.packageDies.foldl (fun e x => e.postTick { pkg := e.here.pkg, die := x } (mk { pkg := e.here.pkg, die := x })) d
  if d.leads && d.bit TICK_CTRL_SYSTEM_LEAD then
    (List.finRange 2).foldl (fun e n => match e.optPartner n with
      | some p => if e.authClass 1 (.opt n) then e.post (.opt n) 0 (mk p) else e
      | none => e) d
  else d

/-! ### The configuration digest (R80 to R83) -/

/-- Record of one register. -/
def Die.digestRecord (d : Die) (off : Nat) : List Byte := leBytes 4 off ++ leBytes 4 (d.raw off)

/-- Digested registers of a subsystem in ascending offset: those of the tick unit and of the reduce-and-update unit (R83). -/
def digestedOf (unit : Nat) : List Nat :=
  if unit == 15 then [TICK_PERIOD, TICK_GUARD, TICK_EPOCH] else if unit == 11 then [RU_TIMEOUT] else []

def Die.unitDigest (d : Die) (unit : Nat) : W64 :=
  if (digestedOf unit).isEmpty then 0 else crc64 ((digestedOf unit).flatMap d.digestRecord)

def Die.digest (d : Die) : W64 := crc64 ((List.range 20).flatMap fun u => leBytes 8 (d.unitDigest u).toNat)

/-! ### Mode changes at the die (R70 to R76, R469, R64) -/

/-- The record names this die: DIE_MASK 0 names all. -/
def Die.named (d : Die) (r : ModeRec) : Bool := r.dies == 0 || maskBit r.dies d.here.die.val

def isAssign (off : Nat) : Bool := inArr off (CORE_ASSIGN 0) 48 4

/-- The unit that refuses a staged change: 16 for an assignment (R469), 15 on the lead for the period (R64). -/
def Die.refuses (d : Die) (recs : List ModeRec) : Option (BitVec 5) :=
  let mine := recs.filter d.named
  let short (r : ModeRec) : Bool := r.offset == TICK_PERIOD && decide (2 * (r.value.toNat % 2 ^ 17) < 5 * d.get DIST_LATENCY_LATENCY)
  let resetting (p : Nat) : Bool := d.bit (PART_CTRL_RESETTING p)
  if d.leads && recs.any short then some 15
  else if mine.any fun r => isAssign r.offset &&
      (let c := (r.offset - CORE_ASSIGN 0) / 4
       let p := sub r.value.toNat 0 4
       let on := sub r.value.toNat 4 1 == 1
       (on && (!d.coreGood c || !(p == 0 || d.bit (PART_CTRL_ENABLE p)) || resetting p))
         || (d.bit (CORE_ASSIGN_ASSIGNED c) && resetting (d.get (CORE_ASSIGN_PARTITION c)))) then some 16
  else none

/-- MODE_RESULT (R75). -/
def Die.modeResult (d : Die) (id : W16) (cause unit die : Nat) : Die :=
  (((d.put MODE_RESULT_CAUSE cause).put MODE_RESULT_UNIT unit).put MODE_RESULT_DIE die).put MODE_RESULT_CHANGE_ID id.toNat

/-- The packets of a change on this die complete (R75): RESULT the target, DETAIL what MODE_RESULT holds. -/
def Die.endAsked (d : Die) (id : W16) (st : Status) : Die :=
  let mine := d.tick.asked.filter fun a => a.2.1 == id
  let d := d.onTick fun t => { t with asked := t.asked.filter fun a => a.2.1 != id }
  mine.foldl (fun e a => e.finish a.1 st (BitVec.ofNat 64 a.2.2) (BitVec.ofNat 32 (e.raw MODE_RESULT))) d

/-- One record moves into its live register (R72). -/
def Die.applyRec (d : Die) (r : ModeRec) : Die :=
  if isAssign r.offset then d.assignCore (coreIx ((r.offset - CORE_ASSIGN 0) / 4)) (r.value.toNat)
  else
    match findRow r.offset with
    | some row => d.store row r.offset r.value.toNat
    | none => d

/-- A core whose assignment a record alters. -/
def Die.alters (d : Die) (recs : List ModeRec) (c : CoreIx) : Bool :=
  recs.any fun r => r.offset == CORE_ASSIGN c.val && r.value.toNat % 32 != d.raw (CORE_ASSIGN c.val) % 32

/-- B(target) of a committed change (R72, R75, R76): slices on altered cores stop, values move, the epoch rises. -/
def Die.applyChange (d : Die) (x : Change) : Die :=
  let mine := x.recs.filter d.named
  let d := (List.finRange 48).foldl (fun e c => if d.alters mine c then e.stopHard c .aborted else e) d
  let d := mine.foldl Die.applyRec d
  let d := d.put TICK_EPOCH_EPOCH (d.get TICK_EPOCH_EPOCH + 1)
  let d := ((d.modeResult x.id 0 0 0).put MODE_STATE_STATE 0).endAsked x.id .ok
  d.onTick fun t => { t with change := none, holdTick := false, epochTick := t.now, lead := match t.lead with | some c => if c.id == x.id then none else some c | none => none }

/-- The hold tick of a committed change: every plan offset rises (R72, R56). -/
def Die.hold (d : Die) : Die :=
  ((List.range 16).foldl (fun e p => e.putRaw (PLAN_OFFSET p) (e.raw (PLAN_OFFSET p) + 1)) d).put MODE_STATE_STATE 4 |>.onTick fun t => { t with holdTick := true }

/-- What a TICK message says of a mode change (R72 to R74). -/
def Die.modeAction (d : Die) (m : TickMsg) : Die :=
  match m.action with
  | .none => d
  | .announce =>
    let d := (((d.put MODE_STATE_STATE 1).put MODE_STATE_CHANGE_ID m.changeId.toNat).putRaw MODE_TARGET_LO (m.target % 2 ^ 32)).putRaw MODE_TARGET_HI (m.target / 2 ^ 32)
    d.onTick fun t => { t with change := some { id := m.changeId, target := m.target, recs := m.recs, refused := d.refuses m.recs, committed := false } }
  | .commit =>
    (match d.tick.change with
     | some x => if x.id == m.changeId then (d.put MODE_STATE_STATE 3).onTick fun t => { t with change := some { x with committed := true } } else d
     | none => d)
  | .cancel =>
    (match d.tick.change with
     | some x => if x.id == m.changeId then (d.put MODE_STATE_STATE 0).onTick fun t => { t with change := none } else d
     | none => d)

/-- The change's hold and apply boundaries, and the end of one whose commit has not come (R72, R73). -/
def Die.modeBoundary (d : Die) : Die :=
  let d := d.onTick fun t => { t with holdTick := false }
  match d.tick.change with
  | none => d
  | some x =>
    if x.target ≤ d.tick.now then (if x.committed && x.target == d.tick.now then d.applyChange x else (d.put MODE_STATE_STATE 0).onTick fun t => { t with change := none })
    else if x.committed && x.target == d.tick.now + 1 then d.hold else d

/-! ### Membership (R67, R68) -/

/-- Key of a member: its die, or 8 plus its package. -/
def Die.memberKey (d : Die) (x : Place) : Nat := if x.pkg == d.here.pkg then x.die.val else 8 + x.pkg.val

def Die.isMember (d : Die) (x : Place) : Bool :=
  if x.pkg == d.here.pkg then sub (d.get MEMBERSHIP_MEMBER) x.die.val 1 == 1 else d.tick.packages.any fun p => p.pkg == x.pkg

/-- An acknowledgement of a removed die or package that it sent before it knew: a die that knows of its removal sends none, so
that a later one comes from a die that has been reset (R68, log entry 38). -/
def Die.wasRemoved (d : Die) (x : Place) (t : Nat) : Bool :=
  if x.pkg == d.here.pkg then (match assoc d.tick.removedAt x.die.val with | some a => decide (t < a + 2) | none => false) else d.tick.removedPkgs.contains x.pkg

/-- The lead cancels an undecided change (R72, R74, R77). -/
def Die.cancelChange (d : Die) (cause : BitVec 4) (unit : BitVec 5) (die : DieIx) : Die :=
  d.onTick fun t => { t with lead := t.lead.map fun c => if c.decision == .none then { c with decision := .cancel, cause := cause, unit := unit, die := die } else c }

/-- The members that the last message sent or heard has named. -/
def Die.namedLast (d : Die) : Byte := match d.tick.nextMsg with | some m => if d.tick.now < m.tick then m.members else d.tick.members | none => d.tick.members

/-- The members that the next message names: those of the domain, and those removed before a message could name them, so that the message after
it announces their removal (R68; log entry 29). -/
def Die.membersToName (d : Die) : Byte := BitVec.ofNat 8 (d.get MEMBERSHIP_MEMBER) ||| d.tick.unnamed

/-- The lead removes a member (R67): every operation towards another package's dies is lost at once; the package's own
dies hear of a removal at the boundary that announces it. -/
def Die.removeMember (d : Die) (x : Place) : Die :=
  if !d.isMember x then d
  else
    let d := if x.pkg == d.here.pkg then
        let bit := 2 ^ x.die.val
        ((d.put MEMBERSHIP_MEMBER (d.get MEMBERSHIP_MEMBER - bit)).put MEMBERSHIP_LOST ((d.get MEMBERSHIP_LOST).lor bit)).onTick fun t => { t with
          removedAt := assocPut t.removedAt x.die.val (if maskBit d.namedLast x.die.val then t.now else t.now + 1),
          unnamed := setMask t.unnamed x.die.val (maskBit t.unnamed x.die.val || !maskBit d.namedLast x.die.val) }
      else (d.onTick fun t => { t with packages := t.packages.filter fun p => p.pkg != x.pkg, removedPkgs := t.removedPkgs ++ [x.pkg] }).loseOps fun o => o.dst.pkg == x.pkg
    (d.tickEvent .contained x.die.val 4 0).cancelChange 4 0 x.die

def Die.addMember (d : Die) (x : Place) : Die :=
  if d.isMember x then d
  else
    let d := d.onTick fun t => { t with ackMiss := t.ackMiss.filter fun m => m.1 != d.memberKey x }
    if x.pkg == d.here.pkg then d.put MEMBERSHIP_MEMBER ((d.get MEMBERSHIP_MEMBER).lor (2 ^ x.die.val))
    else d.onTick fun t => { t with packages := t.packages ++ [x] }

/-! ### Acknowledgements at a lead (R63, R72, R78, R84) -/

/-- A member's digest differs from the lead's (R84). -/
def Die.digestMismatch (d : Die) (x : Place) : Die :=
  let d := if x.pkg == d.here.pkg then d.put DIGEST_MISMATCH_DIE ((d.get DIGEST_MISMATCH_DIE).lor (2 ^ x.die.val)) else d.putB DIGEST_MISMATCH_PACKAGE true
  let d := d.tickEvent .contained x.die.val 5 0
  if d.bit TICK_CTRL_DIGEST_FENCE then d.removeMember x else d

/-- Compare an acknowledgement with the lead's own of the same tick. -/
def Die.compareDigest (d : Die) (own a : TickAck) : Die :=
  if a.src == d.here || a.tick != own.tick then d
  else if a.digest != own.digest then d.digestMismatch a.src
  else if a.mismatch && a.src.pkg != d.here.pkg then (d.putB DIGEST_MISMATCH_PACKAGE true).tickEvent .contained a.src.die.val 5 0
  else d

def Die.ownAck (d : Die) (t : Nat) : Option TickAck := d.tick.acks.find? fun a => a.src == d.here && a.tick == t

/-- The vote of a member (R72, R74): a refusal cancels at once, and the acknowledgement of tick target − 3 is the one that decides. -/
def Die.takeVote (d : Die) (a : TickAck) : Die :=
  match d.tick.lead with
  | none => d
  | some c =>
    if c.announced && c.decision == .none && c.id == a.changeId then
      match a.vote with
      | .refuse u => d.cancelChange 1 u a.src.die
      | v => if a.tick + 3 == c.target then d.onTick fun t => { t with lead := some { c with votes := assocPut c.votes (d.memberKey a.src) v } } else d
    else d

/-- Partitions of a mask. -/
def maskParts (m : BitVec 16) : List Nat := (List.range 16).filter m.getLsbD

/-- A lead takes an acknowledgement of one of its members. -/
def Die.takeAck (d : Die) (a : TickAck) : Die :=
  if d.wasRemoved a.src a.tick then d
  else if a.epoch != d.epoch then (if d.tick.epochTick ≤ a.tick then d.removeMember a.src else d)
  else
    let d := d.addMember a.src
    let new := (maskParts a.slips).filter fun p => !(d.tick.slipLog.any fun s => s.tick == a.tick && s.part == p)
    let d := d.onTick fun t => { t with
      acks := (t.acks.filter fun x => !(x.src == a.src && x.tick == a.tick) && decide (t.now ≤ x.tick + 4)) ++ [a],
      cancelsOut := t.cancelsOut ++ a.cancels,
      slipLog := t.slipLog ++ new.map fun p => { tick := a.tick, part := p, due := d.slipDue a.tick p, carried := false } }
    let d := d.takeVote a
    if a.src == d.here then d.tick.acks.foldl (fun e x => e.compareDigest a x) d
    else match d.ownAck a.tick with
      | some own => d.compareDigest own a
      | none => d

/-- Votes of a package as its lead passes them on: a refusal, else pending while one is pending or missing. -/
def mergeVotes (vs : List (Option Vote)) : Vote :=
  match vs.find? fun v => match v with | some (.refuse _) => true | _ => false with
  | some (some v) => v
  | _ => if vs.all fun v => v == some .ready then .ready else .pending

/-- A package lead that follows another passes on its package's acknowledgement of a tick (R63, R84), once. It has no field for a die that the
lead has removed: that such a die drops out of the merged vote, and that an outstanding change may then commit (R77), is the model's choice (log
entry 87). -/
def Die.forwardAck (d : Die) (t : Nat) (complete : Bool) : Die :=
  let members := (List.finRange 8).filter fun x => sub (d.get MEMBERSHIP_MEMBER) x.val 1 == 1
  let ack (x : DieIx) : Option TickAck := d.tick.acks.find? fun a => a.src == { pkg := d.here.pkg, die := x } && a.tick == t
  match d.ownAck t, d.tick.leadAt with
  | some own, some dst =>
    if d.tick.ackSent == some t || (complete && members.any fun x => (ack x).isNone) then d
    else
      let all := members.filterMap ack
      let a := { own with
        vote := mergeVotes (members.map fun x => (ack x).map (·.vote)), slips := all.foldl (fun m x => m ||| x.slips) 0,
        -- a die that the mismatch has just fenced counts too (R84)
        mismatch := d.tick.acks.any fun x => x.src.pkg == d.here.pkg && x.tick == t && x.digest != own.digest, cancels := all.flatMap (·.cancels) }
      (d.postTick dst (.ack dst a)).onTick fun u => { u with ackSent := some t }
  | _, _ => d

/-! ### The lead's TICK message (R47, R58, R63, R72) -/

/-- The vote that decides: every member's in the acknowledgement of tick target − 3 is ready (R72, R74). -/
def Die.decideChange (d : Die) : Die :=
  match d.tick.lead with
  | none => d
  | some c =>
    if c.decision != .none || !c.announced || d.tick.now + 2 < c.target then d
    else
      let places := ((List.finRange 8).filter fun x => sub (d.get MEMBERSHIP_MEMBER) x.val 1 == 1).map (fun x => ({ pkg := d.here.pkg, die := x } : Place)) ++ d.tick.packages
      let late (x : Place) : Bool := assoc c.votes (d.memberKey x) != some Vote.ready
      match places.find? late with
      | some x => d.cancelChange 2 0 x.die
      | none => d.onTick fun t => { t with lead := some { c with decision := .commit } }

/-- Missing acknowledgements of the tick before last sent are counted for each member (R67). -/
def Die.countMisses (d : Die) (t : Nat) : Die :=
  let places := ((List.finRange 8).filter fun x => sub (d.get MEMBERSHIP_MEMBER) x.val 1 == 1).map (fun x => ({ pkg := d.here.pkg, die := x } : Place)) ++ d.tick.packages
  places.foldl (fun e x =>
    let k := e.memberKey x
    let n := if e.tick.acks.any fun a => a.src == x && a.tick == t then 0 else (assoc e.tick.ackMiss k).getD 0 + 1
    e.onTick fun u => { u with ackMiss := assocPut u.ackMiss k n }) d

/-- What the next message says of the outstanding change. -/
def LeadChange.say (c : LeadChange) (now : Nat) : ModeAction :=
  match c.decision with
  | .cancel => .cancel
  | .commit => if c.sent then .none else .commit
  | _ => if !c.announced && decide (c.accepted + 1 ≤ now) then .announce else .none

/-- Slips that take effect at B(t), at most one of each partition (R47, R56). -/
def Die.slipsFor (d : Die) (t : Nat) : List Slip :=
  (List.range 16).filterMap fun p => d.tick.slipLog.find? fun s => s.part == p && !s.carried && decide (s.due ≤ t)

/-- TICK_MSG_SEND: at the midpoint of the tick the lead merges the acknowledgements of the last one, decides, and sends the next
tick's message (R63, R72). -/
def opTickMsgSend (d : Die) : Die :=
  if !d.leads || d.tick.msgSent == some d.tick.now then d
  else
    let now := d.tick.now
    let d := (if now == 0 then d else d.countMisses (now - 1)).decideChange
    let lead := d.tick.lead
    let act := match lead with | some c => c.say now | none => .none
    let slips := d.slipsFor (now + 1)
    let m : TickMsg := {
      src := d.here, epoch := d.epoch, tick := now + 1, members := d.membersToName,
      slips := slips.foldl (fun m s => setMask m s.part true) 0,
      changeId := match d.tick.lead with | some c => c.id | none => 0, action := act,
      cause := match d.tick.lead with | some c => c.cause | none => 0, sysLead := d.bit TICK_CTRL_SYSTEM_LEAD,
      target := match d.tick.lead with | some c => c.target | none => 0, cancels := d.tick.cancelsOut,
      recs := match act, d.tick.lead with | .announce, some c => c.recs | _, _ => [] }
    let d := d.onTick fun t => { t with
      msgSent := some now, nextMsg := some m, cancelsOut := [], unnamed := 0,
      slipLog := (t.slipLog.map fun s => if slips.contains s then { s with carried := true } else s).filter fun s => !s.carried || decide (now ≤ s.tick + 32),
      lead := match act with
        | .announce => t.lead.map fun c => { c with announced := true }
        | .commit => t.lead.map fun c => { c with sent := true }
        | .cancel => none
        | .none => t.lead }
    -- a package that has been removed hears that no die of it is a member (R69; log entry 74)
    let d := d.distribute fun dst => .tick dst d.epoch (if d.tick.removedPkgs.contains dst.pkg then { m with members := 0 } else m)
    match act, lead with
    | .cancel, some c =>
      -- the cancellation is sent: the change's packets on this die complete (R75)
      (d.modeResult c.id c.cause.toNat c.unit.toNat c.die.val).endAsked c.id .aborted
    | _, _ => d

end Sys2Proof.Machine
end

