-- ==== Sys2Proof/Machine/Gate.lean ====
section
/-! DEFINITION. What the host port lets through of a memory request of the host (R398, R413, R421, R518, R535, the power
management row of the capability table, and the errors before R423). -/

namespace Sys2Proof.Machine

/-- R421: a Requester ID is accepted if no host entry is valid or a valid one matches. -/
def Die.ridOk (d : Die) (rid : W16) : Bool :=
  let hit (k : Nat) : Bool := d.bit (HOST_RID_VALID k) && d.get (HOST_RID_RID k) == rid.toNat
  (!d.bit (HOST_RID_VALID 0) && !d.bit (HOST_RID_VALID 1)) || hit 0 || hit 1

/-- The function answers memory requests: a VF must be enabled (R398), and none answers in D3hot. -/
def Die.fnAnswers (d : Die) (p : PartIx) : Bool := (p.val == 0 || d.host.vfEnable) && !(d.fn p.val).d3

/-- A memory request that completes with Unsupported Request; `cause` is the code of HOST_ERR or 0. -/
def Die.unsupported (d : Die) (p : PartIx) (cause : Nat) : Die :=
  ((d.raise 7 .contained (detail p.val cause 0)).emit (.unsupported p.val)).emit (.aer 0 .unsupported)

/-- A write whose data is poisoned: it is not performed. -/
def Die.poisonedWrite (d : Die) (p : PartIx) : Die := (d.raise 7 .contained (detail p.val 11 0)).emit (.aer 0 .poisonedTlp)

/-- BAR0 offsets that answer on a die whose boot failed (R535): identity, fault collector, security and boot. -/
def failedAnswers (off : Nat) : Bool :=
  decide (off < 0x10000) || (decide (0x20000 ≤ off) && decide (off < 0x30000)) || (decide (0xF0000 ≤ off) && decide (off < 0x100000))

/-- A request that has reached a function which the die lets answer. -/
def Die.hostRequest (d : Die) (p : PartIx) (tlp : Tlp) (write : Bool) (off : Nat) (f : Die → Die) : Die :=
  if !d.ridOk tlp.rid then (d.hostErr 4 p.val off).unsupported p 4
  else if !d.fnAnswers p then d.unsupported p 0
  else if write && tlp.poisoned then d.poisonedWrite p
  else f d

/-- An access to a register or to device memory: through a BAR of the host, or through a REG page on a booted die. -/
def fromHost (who : Who) (bar0 write : Bool) (off : Nat) (f : Die → Die) (d : Die) : Die :=
  match who with
  | .dev .. => if d.boot.phase == .ready then f d else d
  | .fn p tlp =>
    match d.boot.phase with
    | .ready => d.hostRequest p tlp write off f
    | .failed => d.hostRequest p tlp write off fun e => if p.val == 0 && bar0 && failedAnswers off then f e else e
    | .dormant => d.emit (.unsupported p.val)
    | _ => d

/-- A message of another die that asks for an answer: a die that has become orphaned answers all with LINK_LOST (R388). -/
def fromDie (h : MsgHead) (f : Die → Die) (d : Die) : Die :=
  match d.boot.phase with
  | .ready => f d
  | .orphaned =>
    let head : MsgHead := { port := h.port, src := d.here, dst := h.src, epoch := d.epoch, part := h.part, tag := h.tag, window := h.window }
    d.emit (.msg h.port (.response { head := head, st := .linkLost, data := [] }))
  | _ => d

/-- A memory request of the host outside the BAR it names (R404, R549, the errors before R423). -/
def inBar (who : Who) (bar2 : Bool) (off : Nat) (f : Die → Die) (d : Die) : Die :=
  let size := if bar2 then 0x2000000 else if who.part.val == 0 then 0x4000000 else 0x100000
  match who with
  | .fn p _ => if off < size then f d else d.unsupported p 0
  | .dev .. => f d

/-- Where a function finds a field of a sync object (R253, R550). -/
def objOff (who : Who) (n : ObjIx) (field : Nat) : Nat := (if who.part.val == 0 then 0x2000000 else 0x10000) + 16 * n.val + field

end Sys2Proof.Machine
end

