-- ==== Sys2Proof/Machine/Host.lean ====
section
/-! DEFINITION. The host port (spec 12) and what the host does to device memory (spec 11): link and host events, the
orphaned state, HDM decoders, CXL.mem, BAR4, bias flips, snoops, and the answers to the die's own requests. -/

namespace Sys2Proof.Machine

/-! ### Link and host events (R388 to R394, R417) -/

/-- The preservation record is written with key tag 0 (R388, table after R389). -/
def Die.writeRecord (d : Die) (cause : Nat) : Die :=
  let d := { d with mem := { d.mem with recordGen := d.mem.recordGen + 1 } }
  (d.hbmWrite 0 d.mem.record (d.preservationRecord cause)).2

/-- Entry into the orphaned state (R342, R388, R389): the cache is written back, pages in shared bias return to device
bias, Groom writes the record, and only the always-on domains keep their state, with the keys. A die that does not serve
has no Groom to write the record: the earlier one stands. The die keeps its place, under which it answers. -/
def Die.orphan (d : Die) (ev : HostEvent) : Die :=
  let d := if d.boot.phase == .ready then d.writeBackAll.writeRecord ev.cause else d
  let e := d.bare
  let keep := d.regs.filter fun r => r.1 == PRESERVE_STATUS || inArr r.1 (MEMKEY_GEN 0) 16 4
  let e := keep.foldl (fun x r => x.putRaw r.1 r.2.toNat) e
  let e := { e with
    dieId := d.dieId, pkgId := d.pkgId,
    mem := { e.mem with record := d.mem.record, keys := d.mem.keys },
    tr := { e.tr with frames := d.tr.frames },
    boot := { e.boot with phase := .orphaned } }
  e.putB HBM_STATUS_SELF_REFRESH true

/-- An event of the host port that resets the die, or orphans it with preservation armed; a dormant die ignores it (R388,
R417, R519). -/
def Die.hostEvent (d : Die) (ev : HostEvent) : Die :=
  match d.boot.phase with
  | .dormant | .off | .orphaned => d
  | .ready | .boot | .failed => if d.bit PRESERVE_STATUS_ARMED then d.orphan ev else d.dieReset

/-- HOST_LINK_TRAIN (R390, R393, R394): the modules train at a rate, or neither does: the loss of a link that was up (R388). An orphaned die boots. -/
def opHostLinkTrain (modules : BitVec 2) (rate : BitVec 3) (d : Die) : Die :=
  match d.boot.phase with
  | .off | .dormant => d
  | ph =>
    if modules == 0 || rate == 0 || rate == 7 then
      let e := (({ d with host := { d.host with trained := false } }.put HOST_LINK_MODULES_UP 0).put HOST_LINK_RATE 0).putB HOST_LINK_DEGRADED false
      if d.host.trained then e.hostEvent .linkLoss else e
    else
      let low := modules != 3 || decide (rate.toNat < 6)
      let d := if d.host.trained then d.count HOST_LINK_RETRAINS 1 else d
      let d := (((d.put HOST_LINK_MODULES_UP modules.toNat).put HOST_LINK_RATE rate.toNat).putB HOST_LINK_DEGRADED low).onHost fun h => { h with trained := true }
      let d := if low then (d.raise 7 .corrected (detail 0 9 0)).emit (.aer 0 .correctable) else d
      if ph == .orphaned then
        let d := (d.putB HBM_STATUS_SELF_REFRESH false).putB PRESERVE_STATUS_ORPHANED true
        ({ d with dieId := none, pkgId := none, boot := { d.boot with preserved := true } }).beginBoot
      else d

/-- ORPHAN_ENTRY (R388). -/
def opOrphanEntry (ev : HostEvent) (d : Die) : Die := if d.bit PRESERVE_STATUS_ARMED then d.hostEvent ev else d

/-- HOST_RESET_EVENT (R388). -/
def opHostResetEvent (ev : HostEvent) (d : Die) : Die := if d.bit PRESERVE_STATUS_ARMED then d else d.hostEvent ev

/-- CXL_RESET (R417). -/
def opCxlReset (d : Die) : Die := d.hostEvent .cxlReset

/-! ### HDM decoders (R400 to R404) -/

/-- The counts of ways that a decoder of a package may have (table before R402): none where it is unused. -/
def hdmWays (dies index : Nat) : Option Nat :=
  match index, dies with
  | 0, 2 => some 2 | 0, 3 => some 3 | 0, 4 => some 4 | 0, 6 => some 6 | 0, 8 => some 8
  | 0, 5 => some 4 | 0, 7 => some 6
  | 1, 5 => some 1 | 1, 7 => some 1
  | _, _ => none

/-- 144 GiB. -/
def dieBytes : Nat := 144 * 2 ^ 30

/-- What R401 asks of one decoder. -/
def Die.hdmOk (d : Die) (index : Nat) (h : Hdm) : Bool :=
  h.base % 2 ^ 28 == 0 && hdmWays d.dieCount index == some h.iw && decide (256 ≤ h.ig) && decide (h.ig ≤ 16384) && decide (h.size ≤ h.iw * dieBytes)

/-- Two ranges have an address in common. -/
def hdmOverlap (a b : Hdm) : Bool := decide (a.base < b.base + b.size) && decide (b.base < a.base + a.size)

/-- The copy of the decoders leaves for another die of the package (R400), or is lost at once. -/
def Die.mirrorTo (decs : List Hdm) (d : Die) (x : DieIx) : Die :=
  let seq := BitVec.ofNat 32 d.ports.mgmtSeq
  match (d.onPorts fun u => { u with mgmtSeq := u.mgmtSeq + 1 }).remote { req := .reg, id := 1 } 0 { pkg := d.here.pkg, die := x } none none false
      fun hd => .mgmt { head := hd, seq := seq, body := .hdmMirror (decs.map fun (y : Hdm) => { y with committed := true }) } with
  | (none, e) => e
  | (some st, e) => e.mirrorEnd st

/-- What R401 asks of the decoders of a commit together. -/
def Die.hdmFits (d : Die) (decs : List Hdm) : Bool :=
  decide (decs.length ≤ 2) && !(match decs with | a :: b :: _ => hdmOverlap a b | _ => false) && decs.zipIdx.all fun x => d.hdmOk x.2 x.1

/-- HDM_COMMIT (R400, R401): on die 0 the decoders are checked and mirrored to the other dies; they are committed once
every die has confirmed. A commit that fails shows Error Not Committed and changes nothing else. -/
def opHdmCommit (decs : List Hdm) (d : Die) : Die :=
  if d.dieId != some 0 || (d.ports.ops.any fun o => o.req == .reg && o.id == 1) then d
  else
    let d := d.onHost fun h => { h with hdmError := false }
    if !d.hdmFits decs then d.onHost fun h => { h with hdmError := true }
    else
      let others := d.otherDies
      others.foldl (Die.mirrorTo decs) (d.onHost fun h => { h with hdm := decs.map fun (x : Hdm) => { x with committed := others.isEmpty } })

/-- The die and the device physical address of a host physical address (R402). -/
def Die.hdmTarget (d : Die) (h : Nat) : Option (Nat × Nat) :=
  match d.host.hdm.zipIdx.find? fun x => x.1.committed && decide (x.1.base ≤ h) && decide (h < x.1.base + x.1.size) with
  | none => none
  | some (x, i) =>
    let first := if i == 0 then 0 else match d.host.hdm.head? with | some y => y.iw | none => 0
    let o := h - x.base
    let g := o / x.ig
    some (first + g % x.iw, g / x.iw * x.ig + o % x.ig)

/-- The device physical address on this die, or the cause of R404. -/
def Die.hdmHere (d : Die) (h : Nat) : Except Nat Nat :=
  match d.hdmTarget h with
  | none => .error 1
  | some (die, dpa) => if d.dieId.map (·.val) == some die then .ok dpa else .error 2

/-! ### The home slice and the host -/

/-- Copies of a line in the slice, its hayloft, or L1s. -/
def Die.heldLine (d : Die) (line : Nat) (host : Bool) : Bool :=
  let slice := homeSlice host line
  (d.findWay slice line host).isSome || ((d.hay slice).any fun c => c.addr == line && c.host == host) || (d.tallyOf line host).isSome

/-- Write back the dirty sectors of the slice's copy of a device line; the copy stays, clean. -/
def Die.cleanLine (d : Die) (line : Nat) : Die :=
  let slice := homeSlice false line
  let d := match d.findWay slice line false with
    | some w =>
      (match d.cline (wayKey slice (setOf line) w) with
       | some c => (d.writeBack c).setCline (wayKey slice (setOf line) w) { c with dirty := 0 }
       | none => d)
    | none => d
  match (d.hay slice).find? fun c => c.addr == line && !c.host with
  | some c => (d.writeBack c).setHay slice (listUpd (fun x => x == c) (fun x => { x with dirty := 0 }) (d.hay slice))
  | none => d

/-- The line is held in E, or an atomic or an invalidation of it is under way: what the host asks must wait (R333, R338). A held line is revoked. -/
def Die.lineFree (d : Die) (line : Nat) (host : Bool) : Bool × Die :=
  let busy : Bool := match d.mshrOf line host with
    | some m => (match m.why with | .hostAtomic | .hostWriteback _ | .far => true | _ => false)
    | none => false
  if busy || d.invPending line host then (false, d)
  else if d.excl line host then (false, d.revokeLine line host)
  else (true, d)

/-- The device line in shared bias that a host line names on this die. -/
def Die.sharedHere (d : Die) (line : Nat) : Option Nat := match d.hdmHere line with | .ok a => if d.sharedBias a then some a else none | .error _ => none

/-- HOST_SNOOP (R338, R339): the slice drops its copy, writing back a shared-bias line, and the L1s are invalidated; the
host is answered once every holder has acknowledged. -/
def opHostSnoop (_kind : Snoop) (addr : Nat) (d : Die) : Die :=
  let dev := d.sharedHere (lineOf addr)
  let line := dev.getD (lineOf addr)
  match d.lineFree line dev.isNone with
  | (false, d) => d
  | (true, d) =>
    let held := d.heldLine line dev.isNone
    let d := if dev.isSome then (d.cleanLine line).onCache fun u => { u with owned := u.owned.erase line } else d
    match (d.dropCopy line dev.isNone).broadcast line dev.isNone (.snoop (lineOf addr) held) with
    | (true, d) => d
    | (false, d) => d.emit (.snoopResponse (lineOf addr) held)

/-- A request of the die's own, which no source waits for. -/
def ownRequest (line : Nat) : HomeReq :=
  { stop := 60, slice := homeSlice true line, line := line, space := .host, key := 0, once := false, op := .prefetch, who := { req := .reg, id := 0 } }

/-- Ask the host for the ownership of a line of a page that returns to device bias: a request that no MSHR waits for. -/
def Die.askOwnership (d : Die) (a : Nat) : Die :=
  d.sendCxlFor false none .rdOwnNoData (d.hostAddrOf a) [] (ownRequest a)

/-- What a bias flip has asked for has not come yet (R365): the host's answers, or the acknowledgements of the invalidations. -/
def Die.flipBusy (d : Die) (f : Flip) : Bool :=
  (!f.shared && d.host.cxl.any fun x => !x.mshr && x.kind == .rdOwnNoData)
    || (f.shared && d.cache.invs.any fun v => !v.host && v.line / 65536 == f.page)

/-- A bias flip begins, once no line of the page is held in E: towards shared bias the dirty sectors are written back and the L1 copies invalidated, and the
page is in shared bias from then on; towards device bias the host is asked for every line. -/
def Die.startFlip (d : Die) (f : Flip) : Die :=
  let lines := (List.range 512).map fun i => f.page * 65536 + 128 * i
  let (free, d) := lines.foldl (fun (acc : Bool × Die) a => let (ok, e) := acc.2.lineFree a false; (acc.1 && ok, e)) (true, d)
  if !free then d
  else
    let d := if f.shared then lines.foldl (fun e a => ((e.cleanLine a).broadcast a false .none).2) d else lines.foldl Die.askOwnership d
    { d with mem := { d.mem with flip := some { f with started := true },
                                 shared := if f.shared then tblPut (fun _ => false) d.mem.shared f.page true else d.mem.shared } }

/-- BIAS_FLIP_COMPLETE (R365): the flip in progress begins, or ends once all it asked for has come; the page is in its target bias. -/
def opBiasFlipComplete (d : Die) : Die :=
  match d.mem.flip with
  | none => d
  | some f =>
    if !f.started then d.startFlip f
    else if d.flipBusy f then d
    else
      { d with
        mem := { d.mem with flip := none, shared := tblPut (fun _ => false) d.mem.shared f.page f.shared },
        cache := { d.cache with owned := d.cache.owned.filter fun a => a / 65536 != f.page } }

/-! ### CXL.mem (R301, R349, R352, R364, R404) -/

/-- Write the enabled bytes of one sector. -/
def Die.maskedSector (d : Die) (key s : Nat) (mask : List Bool) (bs : List Byte) : Die :=
  if !(mask.any id) then d
  else if mask.all id then (d.writeSector key s 0 bs).2
  else
    match d.readSector key s with
    | (none, d) => d
    | (some old, d) => (d.writeSector key s 0 ((old.zip (bs.zip mask)).map fun x => if x.2.2 then x.2.1 else x.1)).2

/-- CXL_MEM_REQUEST: a line is read or written at the controllers under the host key map; a refused one is recorded. -/
def opCxlMemRequest (hpa : Nat) (write : Option LineData) (mask : BitVec 128) (d : Die) : Die :=
  match d.hdmHere (lineOf hpa) with
  | .error cause =>
    let d := (d.hostErr cause 0 hpa).raise 7 .contained (detail 0 cause 0)
    if write.isSome then d else d.emit (.memData hpa none)
  | .ok a =>
    let (free, d) := if d.sharedBias a then
        (match d.lineFree a false with
         | (true, d) =>
           let d := (d.cleanLine a).dropCopy a false
           let d := d.onCache fun u => { u with owned := u.owned.erase a }
           (match d.broadcast a false .none with
            | (true, d) => (false, d)
            | (false, d) => (true, d))
         | (false, d) => (false, d))
      else (true, d)
    if !free then d
    else
      let key := d.hostKey a
      match write with
      | none => let (r, d) := d.hbmRead key a 128; d.emit (.memData hpa r)
      | some data =>
        let bytes := ((List.range 128).filter mask.getLsbD).length
        (List.range 4).foldl (fun e i =>
          e.maskedSector key (a / 32 + i) ((List.range 32).map fun j => mask.getLsbD (32 * i + j)) (lineBytes data (32 * i) 32)) (if bytes == 0 then d else d.charge key 0 bytes)

/-! ### Tier reads for other dies (R385, R386) -/

/-- TIER_READ: the die issues a current-read on its host port; without one the answer is LINK_LOST. -/
def opTierRead (head : MsgHead) (addr : Nat) (d : Die) : Die :=
  d.admitted head 9 24 none fun d =>
    match d.fenceOf head.epoch with
    | .newer => none
    | .older => some (d.rejectOld head true)
    | .same =>
      if !d.host.trained then some (d.respond head .linkLost [])
      else some (d.sendCxlFor false (some head) .rdCurr addr [] (ownRequest (lineOf addr)))

/-! ### Answers of the host (R409, R410, R412, R419) -/

def Die.dropCxl (d : Die) (tag : Nat) : Die := (d.onHost fun h => { h with cxl := h.cxl.filter fun x => x.tag != tag }).noteReady

/-- The MSHR that waits for a request's answer: of a host line, or of a device line in shared bias. -/
def Die.cxlMshr (d : Die) (x : CxlOp) : Option Mshr :=
  match d.mshrOf (lineOf x.addr) true with
  | some m => (match m.why with | .host | .hostAtomic | .hostWriteback _ => some m | _ => none)
  | none => d.cache.mshrs.find? fun m => !m.host && m.why == .host && d.hostAddrOf m.line == x.addr

/-- The atomic unit of a slice is free again: the next far atomic of the host's memory goes on (R333). -/
def Die.wakeUnit (d : Die) (slice : SliceIx) : Die :=
  (d.cache.mshrs.filter fun m => m.slice == slice && m.why == .unit).foldl (fun e m => if e.unitBusy slice then e else e.serveMshr false m) d

/-- A line of device memory in shared bias has come from the host (R364): into the slice, or to memory where it is not cached or finds no way. -/
def Die.sharedLineCame (d : Die) (m : Mshr) (r : HomeReq) (data : LineData) : Die :=
  match (if r.space == .shr then (false, d) else d.placeLine m r.key r.once true data) with
  | (true, d) => Die.serve true m.reqs d
  | (false, d) => Die.serve true m.reqs (d.hbmWrite r.key m.line (lineBytes data 0 128)).2

/-- The host's answer for an MSHR. -/
def Die.cxlServed (d : Die) (x : CxlOp) (m : Mshr) (data : LineData) : Die :=
  let e := d.dropMshr m.line m.host
  match x.kind, m.reqs with
  | .rdShared, r :: _ | .rdCurr, r :: _ => if m.host then d.hostLineCame m r.once data else e.sharedLineCame m r data
  | .wrInv, r :: rs => Die.serve false rs (e.reply r .ok [])
  | .rdOwn, r :: _ =>
    (match r.op with
     | .amo op a n cmp new _ =>
       let old := lineBytes data (a - m.line) n
       let line := lineWrite data (a - m.line) (leBytes n (amoNew op n (leNat old) cmp.toNat new.toNat))
       (d.onMshr m.line m.host fun y => { y with why := .hostWriteback (le64 old) }).sendCxl .dirtyEvict m.line (lineBytes line 0 128) r
     | _ => Die.serve false m.reqs e)
  | .dirtyEvict, r :: rs =>
    (match m.why, r.op with
     | .hostWriteback old, .amo _ _ n _ _ _ => (Die.serve false rs (e.reply r .ok (leBytes n old.toNat))).wakeUnit m.slice
     | _, _ => Die.serve false rs e)
  | .rdOwnNoData, _ => Die.serve false m.reqs (e.onCache fun u => { u with owned := m.line :: u.owned })
  | _, [] => e

/-- CXL_CACHE_RESPONSE (R333, R385, R409): the host answers a request; one that was abandoned is discarded. -/
def opCxlCacheResponse (tag : Nat) (data : LineData) (d : Die) : Die :=
  match d.host.cxl.find? fun x => x.tag == tag with
  | none => d
  | some x =>
    let d := d.dropCxl tag
    match x.tier with
    | some h => d.respond h .ok (lineBytes data 0 128)
    | none => if x.mshr then (match d.cxlMshr x with | some m => d.cxlServed x m data | none => d) else d

/-- The device virtual address that a request to the host was for: a free value where it was for none. -/
def Die.cxlAddr (d : Die) (x : CxlOp) : Nat × Die :=
  match x.dva with
  | some a => (a, d)
  | none => let (n, d) := d.fresh; (Config.freeNat n % 2 ^ 64, d)

/-- An operation of a requester ends with LINK_LOST. -/
def Die.lostFor (d : Die) (who : Asker) (line : Nat) : Die :=
  match who.req with
  | .core c => d.coreDrops c (fun o => o.id == who.id) .linkLost
  | .eng c e => d.engineFails c e .linkLost
  | _ => d.failAsker who line .linkLost

/-- CXL_CACHE_TIMEOUT (R410): HOST_TIMEOUT.US has passed without an answer; every operation that waits for it fails. -/
def opCxlCacheTimeout (tag : Nat) (d : Die) : Die :=
  match d.host.cxl.find? fun x => x.tag == tag with
  | none => d
  | some x =>
    let d := d.dropCxl tag
    let (addr, d) := d.cxlAddr x
    let d := (d.hostErr 5 x.part addr).raise 7 .fatal (detail x.part 5 0)
    match x.tier with
    | some h => d.respond h .linkLost []
    | none => if x.mshr then (match d.cxlMshr x with | some m => (d.failMshr m .linkLost).wakeUnit m.slice | none => d) else d

def Die.dropP2p (d : Die) (tag : Nat) : Die := (d.onHost fun h => { h with p2p := h.p2p.filter fun o => o.tag != tag }).noteReady

/-- P2P_READ_COMPLETION (R418, R419): the data of a read, or of no bytes for the read behind a write. -/
def opP2pReadCompletion (tag : Nat) (data : List Byte) (d : Die) : Die :=
  match d.host.p2p.find? fun o => o.tag == tag with
  | none => d
  | some o =>
    if data.length != o.n then d
    else
      let who : Asker := { req := o.req, id := o.id }
      match o.req with
      | .reg => d.dropP2p tag
      | .core _ => (if o.n == 0 then d.ackAsker who else d.answer who data).dropP2p tag
      | _ => if o.n == 0 then d.dropP2p tag
        else d.onHost fun h => { h with p2p := listUpd (fun y => y.tag == tag) (fun y => { y with data := some data }) h.p2p }

/-- COMPLETION_TIMEOUT (R412, R419 and the errors before R423): of an ATS Translation Request or of a peer-to-peer read. -/
def opCompletionTimeout (ats : Bool) (id : Nat) (d : Die) : Die :=
  if ats then
    match d.tr.ats.find? fun q => q.id == id with
    | none => d
    | some q =>
      let addr := match d.tr.faults.find? fun f => f.part == q.part && f.host && f.page == q.page with | some f => f.dva | none => q.page
      let d := d.onTr fun t => { t with ats := t.ats.filter fun y => y.id != id, atsBad := if q.dead then t.atsBad else t.atsBad ++ [(q.part, q.page)] }
      ((d.hostErr 7 q.part addr).raise 7 .contained (detail q.part 7 0)).emit (.aer 0 .completionTimeout)
  else
    match d.host.p2p.find? fun o => o.tag == id && o.data.isNone with
    | none => d
    | some o =>
      let d := ((d.dropP2p id).hostErr 8 o.part o.addr).raise 7 .contained (detail o.part 8 0)
      (d.emit (.aer 0 .completionTimeout)).lostFor { req := o.req, id := o.id } (lineOf o.addr)

/-! ### Configuration requests (R395 to R398, R408, R480, R518, R532, R535) -/

/-- Device ID, class code and Revision ID as bytes 0 to 7 of the function's header give them (R395); the Vendor ID is open. -/
def Die.idWords (d : Die) (p : PartIx) : Nat :=
  let dev := if p.val != 0 then 0x4C48 else if d.dieId == some 0 then 0x4C40 else 0x4C41
  dev * 2 ^ 16 + 0x12000001 * 2 ^ 32

/-- The package DVSEC's first register (R396). -/
def Die.dvsec (d : Die) : Nat := d.here.pkg.val + d.here.die.val * 2 ^ 12 + (d.dieCount - 1) * 2 ^ 15 + (if d.here.die.val == 0 then 2 ^ 18 else 0)

/-- Bytes [off, off + 8) of the expansion ROM: zero unless an image is present (R408). -/
def Die.romRead (d : Die) (off : Nat) : W64 × Die :=
  if d.host.rom then
    (le64 ((List.range 8).map fun i => Config.romByte (off + i)), d)
  else (0, d)

/-- A capability of a function with its settings, in the order of the table in "Configuration space" of spec 12; none where the function has it not. -/
def Die.capability (d : Die) (p : PartIx) (c : Capability) : Option (List Nat) :=
  let pf (v : List Nat) : Option (List Nat) := if p.val == 0 then some v else none
  match c with
  | .pciExpress => some [512, 1, 50]                        -- Max Payload, Function Level Reset, default Completion Timeout in ms
  | .powerManagement => some [0, 3]                         -- D0 and D3hot
  | .msix => some [d.get (MSIX_ALLOC_COUNT p.val) - 1]      -- Table Size (R478)
  | .aer => pf []
  | .serialNumber => pf [d.fuses.serial.toNat]
  | .srIov => pf [15, 1, 1, 4096]                           -- TotalVFs, First VF Offset, VF Stride (R398), System Page Size
  | .ats => some [32, 1, 1]                                 -- Invalidate Queue Depth, page-aligned requests, global invalidate
  | .pri => some [512, 1]                                   -- Outstanding Page Request Capacity, PRG Response PASID Required
  | .pasid => some [20, 0, 0]                               -- width; no execute, no privileged mode
  | .doe => pf [1]                                          -- one mailbox
  | .readiness => some [10, 250]                            -- FLR time, reset time in ms
  | .cxlDvsecs => pf [1, 1, 1, 2, 68]                       -- Cache, IO and Mem capable, HDM_Count, cache size in MiB
  | .packageDvsec => pf [d.dvsec]                           -- R396

/-- The Transactions Pending bit of a function (R414): a non-posted request for its partition has no completion yet. -/
def Die.transPending (d : Die) (p : Nat) : Bool :=
  (d.tr.ats.any fun q => q.part == p) || (d.host.p2p.any fun o => o.part == p && o.data.isNone) || d.host.cxl.any fun x => x.part == p

/-- The effect of a configuration request on a function that answers. -/
def Die.configure (d : Die) (p : PartIx) (r : CfgReq) : Die :=
  let c := d.fn p.val
  match r with
  | .read => d.emit (.cfg p.val 0)
  | .readIds => let v := BitVec.ofNat 64 (d.idWords p + Config.vendorId.toNat); d.emit (.cfgData p.val v)
  | .readSubsystem => d.emit (.cfgData p.val (BitVec.ofNat 64 (d.host.subVendor.toNat + d.host.subId.toNat * 2 ^ 16)))
  | .readPackage => if p.val == 0 then d.emit (.cfgData 0 (BitVec.ofNat 64 d.dvsec)) else d.emit (.cfg p.val 0)
  | .readCapability x => d.emit (.capability p.val x (d.capability p x))
  | .readPending => d.emit (.cfgData p.val (if d.transPending p.val then 1 else 0))
  | .readRom off =>
    if p.val == 0 && d.dieId == some 0 && c.romEnable && c.memEnable then (let (v, d) := d.romRead off; d.emit (.cfgData 0 v)) else d.unsupported p 0
  | .busMaster v => d.setFn p.val { c with busMaster := v }
  | .memEnable v => d.setFn p.val { c with memEnable := v }
  | .d3hot v => d.setFn p.val { c with d3 := v }
  | .msixEnable v => d.setFn p.val { c with msixEnable := v }
  | .funcMask v => d.setFn p.val { c with funcMask := v }
  | .vfEnable v => if p.val == 0 && d.boot.phase != .failed then d.onHost fun h => { h with vfEnable := v } else d
  | .priAlloc n => d.setFn p.val { c with priAlloc := n }
  | .romEnable v => if p.val == 0 && d.dieId == some 0 then d.setFn 0 { c with romEnable := v } else d

/-- CONFIGURATION_REQUEST: 1 stands for Request Retry Status, 2 for Completer Abort. -/
def opConfigurationRequest (fn : PartIx) (r : CfgReq) (d : Die) : Die :=
  match d.boot.phase with
  | .boot => d.emit (.cfg fn.val 1)
  | .dormant => d.emit (.cfg fn.val 2)
  | .off | .orphaned => d
  | .ready | .failed => if fn.val != 0 && !d.host.vfEnable then d else d.configure fn r

end Sys2Proof.Machine
end

