-- ==== Sys2Proof/Machine/Boot.lean ====
section
/-! DEFINITION. Power-up, boot, the ID chain, the I3C target and the JTAG port (specs 16 and 18). -/

namespace Sys2Proof.Machine

/-! ### Power good and reset (R558 to R560) -/

/-- BOOT_START: PWRGOOD and RESET_N are both high (R560). -/
def opBootStart (d : Die) : Die :=
  if d.boot.phase == .off then ({ d with pins := { d.pins with pwrGood := true, resetN := true } }).beginBoot else d

/-- RESET_N_FALL: a die reset, or the exit from the dormant state; the die stays in reset until RESET_N rises (R519, R560). -/
def opResetNFall (d : Die) : Die :=
  if !d.pins.pwrGood || !d.pins.resetN then d
  else
    let e := { d with pins := { d.pins with resetN := false } }
    if d.boot.phase == .dormant then e.leaveDormant else e.dieReset

/-- POWER_REMOVAL: PWRGOOD falls. Only fuses, straps and the separately supplied fabric rails remain (R33, R392, R559,
R560). -/
def opPowerRemoval (d : Die) : Die :=
  { fuses := d.fuses, freeCtr := d.freeCtr, out := d.out,
    pins := { pwrGood := false, resetN := false, lead := d.pins.lead, pkgStrap := d.pins.pkgStrap, fabricRails := d.pins.fabricRails },
    boot := { phase := .off, cold := true } }

/-! ### Stages 1 to 3 (R533 to R535) -/

/-- What R534 asks of an image. -/
def Die.imageOk (d : Die) (x : BootSlot) : Bool :=
  x.present && x.magicOk && x.sizeOk && x.rsvdZero && (x.genfeson || some x.key == d.fuses.ownerKey) && x.sigOk
    && decide (d.fuses.svn.toNat ≤ x.svn) && decide (400 ≤ x.boardMax) && decide (x.boardMax ≤ 900)

/-- The slots in the order in which the boot ROM tries them: the higher SVN first. -/
def slotOrder (slots : List BootSlot) : List (Bool × BootSlot) :=
  match slots with
  | [a, b] => if a.svn < b.svn then [(true, b), (false, a)] else [(false, a), (true, b)]
  | a :: _ => [(false, a)]
  | [] => []

/-- Try the slots in order: the first that verifies, and whether slot A has failed before it. -/
def Die.trySlots : List (Bool × BootSlot) → Bool → Die → Option (Bool × BootSlot × Bool) × Die
  | [], _, d => (none, d)
  | (b, x) :: rest, aFailed, d =>
    let d := if x.retried then d.secEvent 3 .corrected else d
    if d.imageOk x then (some (b, x, aFailed), d) else Die.trySlots rest (aFailed || !b) d

/-- BOOT_IMAGE_VERIFY. -/
def opBootImageVerify (slots : List BootSlot) (d : Die) : Die :=
  if d.boot.phase != .boot || d.boot.verified then d
  else
    let d := d.put BOOT_STATUS_STAGE 1
    let (r, d) := Die.trySlots (slotOrder slots) false d
    let d := d.put BOOT_STATUS_STAGE 2
    match r with
    | none =>
      let d := (d.secEvent 1 .fatal).put BOOT_STATUS_STAGE 15
      { d with boot := { d.boot with phase := .failed } }
    | some (b, x, aFailed) =>
      let d := if b && aFailed then d.secEvent 2 .corrected else d
      let d := ((((d.putB BOOT_STATUS_SLOT b).putB BOOT_STATUS_OWNER_KEY (!x.genfeson)).put BOOT_STATUS_SVN x.svn).put BOOT_STATUS_STAGE 3).putB BOOT_STATUS_PRESERVED d.boot.preserved
      let d := (d.put PWR_CAP_BOARD_MAX x.boardMax).putB ST_CTRL_BOOT_BIST x.bootBist
      { d with
        host := { d.host with subVendor := x.subVendor, subId := x.subId, rom := x.romPresent },
        boot := { d.boot with verified := true, altRoot := x.altRoot } }

/-! ### Stage 4 (R358, R536) -/

/-- Stage 4 rewrites memory: a cold boot that has not done so. -/
def Die.mustZero (d : Die) : Bool := d.boot.phase == .boot && d.boot.verified && d.boot.cold && !d.boot.preserved && !d.boot.zeroed

/-- Every stack in service holds zeros. -/
def Die.zeroDone (d : Die) : Die :=
  let d := (d.zeroHbm.putB HBM_STATUS_ZEROED true).put BOOT_STATUS_STAGE 5
  { d with boot := { d.boot with zeroed := true } }

/-- HBM_ZEROING (R358). -/
def opHbmZeroing (d : Die) : Die := if d.mustZero && !d.bit ST_CTRL_BOOT_BIST then d.zeroDone else d

/-- A pseudo-channel fails boot BIST: its stack goes offline. The manual gives no address, so EXTRA is a free value. -/
def Die.bistFails (d : Die) (i : Nat) : Die :=
  let s := i / 32 % 4
  let (n, d) := d.fresh
  let d := d.put HBM_CTRL_OFFLINE (setMask (BitVec.ofNat 4 (d.get HBM_CTRL_OFFLINE)) s true).toNat
  (d.record HBM_ERR_VALID [(HBM_ERR_STACK, s), (HBM_ERR_CHAN, i % 32), (HBM_ERR_CAUSE, 5)]).raise 5 .contained (detail (i % 128) 5 (Config.freeNat n))

/-- BOOT_BIST (R536): with the pseudo-channels that failed. -/
def opBootBist (fails : List Nat) (d : Die) : Die :=
  if d.mustZero && d.bit ST_CTRL_BOOT_BIST then ((fails.foldl Die.bistFails d).zeroDone).putB BOOT_STATUS_BIST_RAN true else d

/-! ### Stage 6 (R532) -/

/-- BOOT_READY: `ms` milliseconds after boot began, with memory ready and the host link up. -/
def opBootReady (ms : Nat) (d : Die) : Die :=
  if d.boot.phase == .boot && d.boot.verified && !d.mustZero && d.host.trained then
    let d := ((d.put BOOT_STATUS_STAGE 6).put BOOT_STATUS_MS (ms / 2)).put GROOM_STATUS_STATE 1
    let groom : GroomUnit := { d.cp.groom with budgetLeft := d.get GROOM_BUDGET_UNITS, skip := [], served := none, wdog := 0 }
    { d with boot := { d.boot with phase := .ready }, tick := { d.tick with beats := true }, cp := { d.cp with groom := groom } }
  else d

/-! ### The ID chain (R26, R546, R563, R564) -/

/-- ID_FRAME_SEND: the lead sends DIE 0, any other die its own ID plus one; die 7 sends nothing. -/
def opIdFrameSend (d : Die) : Die :=
  if !d.running then d
  else if d.pins.lead then { d with pins := { d.pins with idSending := true } }.emit (.idFrame 0 d.pins.pkgStrap)
  else match d.dieId, d.pkgId with
    | some x, some p =>
      if h : x.val + 1 < 8 then { d with pins := { d.pins with idSending := true } }.emit (.idFrame ⟨x.val + 1, h⟩ p) else d
    | _, _ => d

/-- ID_FRAME_RECEIVE: three consecutive identical frames with valid parity give a die that is not the lead its IDs, unless its links have
begun to train without them; a lead that receives an ID does not join its package (R27). -/
def opIdFrameReceive (die : DieIx) (pkg : PkgIx) (parityOk : Bool) (d : Die) : Die :=
  if !d.running then d
  else
    let kept := if !parityOk then [] else if d.pins.idFrames.head? == some (die, pkg) then ((die, pkg) :: d.pins.idFrames).take 3 else [(die, pkg)]
    let d := { d with pins := { d.pins with idFrames := kept } }
    if kept.length != 3 then d
    else if d.pins.lead then d.chainFails 0
    else if d.dieId.isNone && !d.boot.chainBad then { d with dieId := some die, pkgId := some pkg } else d

/-! ### The I3C target (R568) -/

/-- The register that the board controller reads at an offset. -/
def Die.i3cWord (d : Die) (off : Nat) : Nat :=
  let region := off / 0x10000
  let open_ := if d.boot.phase == .dormant && region == 0 then off == ID || off == PLACE || off == SERIAL_LO || off == SERIAL_HI
    else region == 0 || region == 2 || region == 3 || region == 15
  if open_ && isReg off then d.view off else 0

/-- I3C_PRIVATE_WRITE: sets the offset; bytes past it reach no register. -/
def opI3cPrivateWrite (off : W32) (_v : Option W32) (d : Die) : Die := if d.pins.pwrGood then { d with boot := { d.boot with i3cOffset := off } } else d

/-- I3C_PRIVATE_READ: the register at the offset, which advances by 4. -/
def opI3cPrivateRead (d : Die) : Die :=
  if d.pins.pwrGood then
    let o := d.boot.i3cOffset
    { d with boot := { d.boot with i3cOffset := o + 4 } }.emit (.i3c (BitVec.ofNat 32 (d.i3cWord o.toNat)))
  else d

/-- DYNAMIC_ADDRESS_ASSIGNMENT. -/
def opDynamicAddressAssignment (addr : BitVec 7) (d : Die) : Die := if d.pins.pwrGood then { d with boot := { d.boot with i3cAddr := some addr } } else d

/-! ### The JTAG port (R569) -/

/-- The word that IDCODE shifts out. -/
def Die.idcode (d : Die) : Nat := d.fuses.stepping.toNat * 2 ^ 28 + 0x4C34 * 2 ^ 12 + Config.manufacturer.toNat * 2 + 1

/-- An instruction is in force; IDCODE shifts out its word, the others a 0 of the bypass register's kind. -/
def Die.jtag (d : Die) (ir : JtagIr) : Die :=
  if !d.pins.pwrGood then d
  else { d with boot := { d.boot with jtag := ir } }.emit (.tdo (match ir with | .idcode => d.idcode | _ => 0))

def opIdcode (d : Die) : Die := d.jtag .idcode
def opBypass (d : Die) : Die := d.jtag .bypass

/-- EXTEST acts only while RESET_N is low, and else as BYPASS. -/
def opExtest (d : Die) : Die := d.jtag (if d.pins.resetN then .bypass else .extest)

/-- FUSE_PROGRAM: the OWNER_KEY fuses, once, while RESET_N is low; else as BYPASS. -/
def opFuseProgram (digest : BitVec 384) (d : Die) : Die :=
  if d.pins.resetN then d.jtag .bypass
  else
    let e := d.jtag .fuseProgram
    if d.pins.pwrGood && d.fuses.ownerKey.isNone then { e with fuses := { e.fuses with ownerKey := some digest } } else e

end Sys2Proof.Machine
end

