-- ==== Sys2Proof/Machine/HostPort.lean ====
section
/-! DEFINITION. The host port's queue (R295 to R301, R406, R407): the accesses of the host to the BARs of a die are performed in the order of their
arrival. One that must wait, a BAR4 access at its home slices, a SYNC_ADD whose slot is occupied or a read behind a write without its effect, holds
the later ones. -/

namespace Sys2Proof.Machine

/-- The hint of DC_BAR4_HINT for a write of a line: a slice, or a core of partition 0, which the writing function has (R335, R336, R241). -/
def Die.barHint (d : Die) (r : HomeReq) : HomeReq :=
  let h := d.get DC_BAR4_HINT_HINT
  let n := h / 4
  if h % 2 == 0 then r
  else if sub h 1 1 == 1 then { r with keep := n == r.slice.val }
  else if n < 48 && d.coreGood n && d.bit (CORE_ASSIGN_ASSIGNED n) && d.get (CORE_ASSIGN_PARTITION n) == 0 then { r with push := some (coreIx n) }
  else r

/-- The request for one line of a BAR4 access, under the host key map (R354, R406). -/
def Die.barRequest (d : Die) (id a : Nat) (op : HomeOp) : HomeReq :=
  let r : HomeReq := { stop := 60, slice := homeSlice false (lineOf a), line := lineOf a, space := .dev, key := d.hostKey a, once := false, op := op,
                       who := { req := .bar id, id := id } }
  if r.writes then d.barHint r else r

def Die.popPosted (d : Die) : Die := d.onHost fun h => { h with posted := h.posted.drop 1 }

/-- A BAR4 access is performed: the window is where BAR4_BASE has it now (R407), its lines are asked of their slices. Past the end of memory a write is
dropped and a read returns all ones (R406). -/
def Die.barStart (d : Die) (id off n : Nat) (write : Option (List Byte)) : Die :=
  let a := d.get BAR4_BASE_BASE * 2 ^ 21 + off
  if decide (hbmTop < a + n) then
    (match write with
     | some _ => ((d.hostErr 3 0 off).raise 7 .contained (detail 0 3 0)).popPosted
     | none => ((d.raise 7 .contained (detail 0 3 0)).emit (.barData 0 (some (List.replicate n 0xFF)))).popPosted)
  else
    let d := d.onHost fun h => { h with posted := .bar id off n write (some a) :: h.posted.drop 1 }
    (linePieces a n).foldl (fun e p =>
      e.askHome (e.barRequest id p.1 (match write with | some bs => .write p.1 ((bs.drop (p.1 - a)).take p.2) | none => .read p.1 p.2))) d

/-- A BAR4 access is complete: a read answers, poisoned where a line's data was. -/
def Die.barEnd (d : Die) (id : Nat) (write : Bool) (xs : List Reply) : Die :=
  let d := (d.dropReplies (.bar id)).popPosted
  if write then d else d.emit (.barData 0 (if xs.all fun x => x.st == .ok then some (xs.flatMap (·.data)) else none))

/-- Perform a register read. -/
def PostedRead.read (who : Who) : PostedRead → Die → Die
  | .tickLo => opTickNowLoRead who
  | .valueLo n => opSyncValueLoRead who n
  | .hkm => opHkmDataAccess who none

/-- The access at the head of the queue goes as far as it can; none when it must wait. -/
def Die.drainStep (d : Die) : Option Die :=
  match d.host.posted with
  | [] => none
  | .regWrite who bar2 off v :: _ =>
    if !bar2 && d.addHeld who.part.val off then none else some (opRegisterWrite who bar2 off (BitVec.ofNat 32 v) d.popPosted)
  | .regRead who what :: _ => if d.effectDue who then none else some (what.read who d.popPosted)
  | .reserved who bar2 off write size :: _ =>
    if !write && d.effectDue who then none else some (opReservedAccess who bar2 off write size d.popPosted)
  | .bar id off n write none :: _ => if d.bit HBM_STATUS_SELF_REFRESH then none else some (d.barStart id off n write)
  | .bar id _ n write (some a) :: _ => (d.allReplies (.bar id) (linePieces a n)).map fun xs => d.barEnd id write.isSome xs

def Die.drainLoop : Nat → Die → Die
  | 0, d => d
  | n + 1, d => match d.drainStep with | some e => Die.drainLoop n e | none => d

/-- Perform what the queue holds, as far as it goes. -/
def Die.drainHost (d : Die) : Die := Die.drainLoop (2 * d.host.posted.length) d

/-- After an event at the homes: window accesses whose pieces have come are answered, and the host's accesses go on. -/
def Die.afterHome (d : Die) : Die := d.answerWindows.drainHost

/-- A command of the homes, and what it lets go on. -/
def homeEvent (f : Die → Die) (d : Die) : Die := (f d).afterHome

/-- Put an access behind those that wait. -/
def Die.enqueueHost (d : Die) (x : Posted) : Die := (d.onHost fun h => { h with posted := h.posted ++ [x] }).drainHost

/-- The access is the host's, and an earlier one of the host waits. -/
def Die.hostBehind (d : Die) (who : Who) : Bool := match who with | .fn .. => !d.host.posted.isEmpty | .dev .. => false

/-- A write of a register: performed at once, unless an earlier access of the host waits or it is withheld (R264, R295, R300). -/
def posted (who : Who) (bar2 : Bool) (off : Nat) (v : W32) (f : Die → Die) (d : Die) : Die :=
  if d.hostBehind who || (!bar2 && d.addHeld who.part.val off) then d.enqueueHost (.regWrite who bar2 off v.toNat) else f d

/-- A read of a register: behind the earlier accesses, and behind the effects of its own function's writes (R295, R297). -/
def postedRead (who : Who) (what : PostedRead) (d : Die) : Die :=
  if d.hostBehind who || d.effectDue who then d.enqueueHost (.regRead who what) else what.read who d

/-- An access to a reserved offset, in its order. -/
def postedReserved (who : Who) (bar2 : Bool) (off : Nat) (write size : Bool) (d : Die) : Die :=
  if d.hostBehind who || (!write && d.effectDue who) then d.enqueueHost (.reserved who bar2 off write size) else opReservedAccess who bar2 off write size d

/-- BAR4_ACCESS: one posted write or one read of at most 512 bytes inside the window. -/
def opBar4Access (off n : Nat) (write : Option (List Byte)) (d : Die) : Die :=
  let len := match write with | some bs => bs.length | none => n
  if decide (512 < len) then d.raise 7 .fatal (detail 0 0 0)
  else if decide (2 ^ 28 < off + len) then d.unsupported 0 0
  else
    let id := d.host.nextBar
    (d.onHost fun h => { h with nextBar := id + 1 }).enqueueHost (.bar id off len write none)

end Sys2Proof.Machine
end

