-- ==== Sys2Proof/Machine/Tick.lean ====
section
/-! DEFINITION. The geyser tick (spec 02): beats and tick boundaries, the guard, TICK messages at the other dies, holdover,
delay measurement and MODE_CHANGE packets. -/

namespace Sys2Proof.Machine

/-! ### Offsets (R57, R60, R65) -/

def absInt (v : W16) : Nat := v.toInt.natAbs

/-- The offset lies within the bound of R57: 5 ns, or 25 ns on a package lead that follows a system lead. -/
def Die.withinBound (d : Die) (offset : W16) : Bool := decide (absInt offset ≤ (if d.pins.lead then 160 else 32))

/-! ### What a beat and a tick boundary have in common (R39) -/

/-- Interrupts of completion rings with records of the last tick, and pending vectors (R223, R479). -/
def Die.irqBoundary (d : Die) : Die :=
  let due := d.cp.irqDue
  let d := (d.onCp fun u => { u with irqDue := [] }).sendPending
  due.foldl (fun e x => e.interrupt x.1 x.2) d

/-- Resets, bank switches, self-test, rates, Groom, routes and ports at a boundary. R39 lists what acts at beats before RUN; that these act there
too where they concern no other die is the model's choice (log entry 76). -/
def Die.unitBoundary (d : Die) : Die :=
  let d := d.resetLaunches.resetBoundary.switchBoundary.testBoundary.qosBoundary.groomBoundary.routeBoundary
  ((d.optBoundary 0).optBoundary 1).afterHome.irqBoundary

/-- BEAT_BOUNDARY (R39): before its tick starts the die counts beats once Groom has first served. -/
def opBeatBoundary (d : Die) : Die :=
  if d.tick.runs || !d.tick.beats then d
  else
    let d := { d.onTick fun t => { t with now := t.now + 1, count := t.count + 1 } with clkInTick := 0 }
    ((d.coreBoundary.unitBoundary).powerBoundary false).pump

/-! ### Contents of a TICK message at its boundary (R47, R63, R67, R68, R230) -/

/-- The die holds cores of the partition. -/
def Die.holdsCores (d : Die) (p : Nat) : Bool :=
  (List.range 48).any fun c => d.bit (CORE_ASSIGN_ASSIGNED c) && d.get (CORE_ASSIGN_PARTITION c) == p

/-- Plan offsets of the named partitions rise by 1 (R47, R56). -/
def Die.applySlips (d : Die) (ps : List Nat) : Die :=
  ps.foldl (fun e p => if e.holdsCores p then e.putRaw (PLAN_OFFSET p) (e.raw (PLAN_OFFSET p) + 1) else e) d

/-- Members that a message no longer names are removed (R67, R68). -/
def Die.applyMembers (d : Die) (now : Byte) : Die :=
  let lost := d.tick.members &&& ~~~now
  let d := d.onTick fun t => { t with members := now, removedMask := (t.removedMask ||| lost) &&& ~~~now }
  let d := if maskBit lost d.here.die.val then d.putB TICK_STATUS_FENCED true else d
  if lost == 0 then d else d.loseOps fun o => o.dst.pkg == d.here.pkg && maskBit lost o.dst.die.val

/-- A slip of this die that was due and that no message has carried shows that SLIP_LAG is too short (R64). -/
def Die.checkLag (d : Die) (slips : BitVec 16) : Die :=
  if d.tick.owed.any fun x => decide (x.1 ≤ d.tick.now) && !slips.getLsbD x.2 then d.putB TICK_STATUS_LAG_SHORT true else d

/-- The die acts on the message of this tick; a tick-lost die only on its own slips (R63, R66). -/
def Die.applyMsg (d : Die) : Die :=
  let due := (d.tick.owed.filter fun x => decide (x.1 ≤ d.tick.now)).map (·.2)
  let d :=
    if d.bit TICK_STATUS_TICK_LOST then d.applySlips due
    else match d.tick.nextMsg with
      | some m =>
        if m.tick == d.tick.now then
          let d := ((d.applyMembers m.members).checkLag m.slips).applySlips (maskParts m.slips)
          (m.cancels.foldl Die.remoteCancel d).modeAction m
        else d
      | none => d
  d.onTick fun t => { t with owed := t.owed.filter fun x => decide (t.now < x.1) }

/-! ### Holdover (R65, R66) -/

/-- The message of this tick has come. -/
def Die.heard (d : Die) : Bool := match d.tick.nextMsg with | some m => m.tick == d.tick.now | none => false

/-- A following die at a boundary: ticks without a message, ticks of holdover, and the end of a holdover without a gap. -/
def Die.holdBoundary (d : Die) : Die :=
  if !d.tick.adopted || d.bit TICK_STATUS_TICK_LOST then d
  else
    let heard := d.heard
    let hold := d.bit TICK_STATUS_HOLDOVER
    let d := d.onTick fun t => { t with
      silent := if heard then 0 else t.silent + 1, gap := t.gap || (hold && !heard), holdTicks := if hold then t.holdTicks + 1 else 0 }
    if hold && heard && !d.tick.gap && d.tick.offsetOk then
      (d.putB TICK_STATUS_HOLDOVER false).putB TICK_STATUS_LOCKED (d.withinBound (BitVec.ofNat 16 (d.get TICK_OFFSET_OFFSET)))
    else d

/-- HOLDOVER_ENTER (R65). -/
def opHoldoverEnter (d : Die) : Die :=
  if d.tick.adopted && !d.bit TICK_STATUS_HOLDOVER && !d.bit TICK_STATUS_TICK_LOST && (!d.tick.offsetOk || decide (orOne (d.get TICK_ALIGN_HOLDOVER) ≤ d.tick.silent)) then
    ((d.putB TICK_STATUS_HOLDOVER true).putB TICK_STATUS_LOCKED false).onTick fun t => { t with holdTicks := 0, gap := false }
  else d

/-- TICK_LOST (R66). -/
def opTickLost (d : Die) : Die :=
  if d.bit TICK_STATUS_HOLDOVER && decide (orOne (d.get TICK_ALIGN_HOLDOVER) ≤ d.tick.holdTicks) then
    ((d.putB TICK_STATUS_HOLDOVER false).putB TICK_STATUS_TICK_LOST true).tickEvent .contained d.here.die.val 3 0
  else d

/-- A package lead without a tick source (R61). -/
def Die.sourceBoundary (d : Die) : Die :=
  let src := d.bit (OPT_CTRL_TICK_SRC 0) || d.bit (OPT_CTRL_TICK_SRC 1)
  if d.pins.lead && !d.bit TICK_CTRL_SYSTEM_LEAD && !src && !d.bit TICK_STATUS_NO_SOURCE && (d.optState 0 == 4 || d.optState 1 == 4) then
    (d.putB TICK_STATUS_NO_SOURCE true).tickEvent .contained d.here.die.val 7 0
  else d

/-! ### The boundary and the guard (R36, R42, R43, R63) -/

/-- SLIP_CTRL.POLICY of every partition. -/
def Die.policyMask (d : Die) : BitVec 16 := (List.range 16).foldl (fun m p => setMask m p (d.bit (SLIP_CTRL_POLICY p))) 0

/-- A package lead that follows a system lead. -/
def Die.followsAsLead (d : Die) : Bool := d.tick.adopted && d.pins.lead

/-- DIGEST_LO and DIGEST_HI show the digest of the last completed tick (register table of spec 02). -/
def Die.showDigest (d : Die) : Die :=
  match d.tick.sampled with
  | some x => ((d.putRaw DIGEST_LO (x.toNat % 2 ^ 32)).putRaw DIGEST_HI (x.toNat / 2 ^ 32)).onTick fun t => { t with sampled := none }
  | none => d

/-- The plan tick becomes known that packets decoded in the guard before count from (R227). -/
def Die.settlePlans (d : Die) : Die := { d with pkts := d.pkts.map fun q => { q with plan := some (q.plan.getD (d.planNow q.part.val)) } }

/-- The old tick ends: its launches end, and a package lead that follows passes on what it has had of it (R43, R63, R67). -/
def Die.oldTick (d : Die) : Die :=
  let d := d.endLaunches
  if d.followsAsLead then (d.forwardAck d.tick.now false).countMisses (d.tick.now - 1) else d

/-- The tick number rises. -/
def Die.countTick (d : Die) : Die :=
  { d with tick := { d.tick with now := d.tick.now + 1, count := d.tick.count + 1, inGuard := false, slipsNow := [] }, clkInTick := 0 }

/-- What spans a removed die ends (R68). -/
def Die.spanBoundary (d : Die) : Die := if d.tick.removedMask == 0 && d.tick.removedPkgs.isEmpty then d else d.endSpanning

/-- The overrun policies of the new tick (R50). -/
def Die.takePolicies (d : Die) : Die := { d with tick := { d.tick with policies := d.policyMask } }

/-- TICK_BOUNDARY: B(T) begins. The tick's message and a mode change act before the units, and the slices start last. -/
def opTickBoundary (d : Die) : Die :=
  if !d.tick.runs then d
  else
    let d := (d.oldTick.countTick.emit .boundary).showDigest.holdBoundary.applyMsg
    let d := d.coreBoundary.modeBoundary.spanBoundary.unitBoundary.settlePlans.takePolicies
    ((d.powerBoundary true).faultIrq).batchBoundary.chains.startSlices.sourceBoundary.pump

/-- This die's acknowledgement of its tick (R43, R63, R72, R82). -/
def Die.makeAck (d : Die) : TickAck :=
  { src := d.here, epoch := d.epoch, tick := d.tick.now,
    vote := (match d.tick.change with
      | some x => (match x.refused with | some u => .refuse u | none => .ready)
      | none => .pending),
    changeId := (match d.tick.change with | some x => x.id | none => 0),
    slips := d.slipMask, digest := d.digest, mismatch := false, cancels := d.tick.cancelsNow }

/-- The acknowledgement goes to the lead of the tick domain, or is merged at once where this die leads; a tick-lost or removed die
sends none. -/
def Die.sendAck (d : Die) (a : TickAck) : Die :=
  if d.leads then d.takeAck a
  else if d.bit TICK_STATUS_TICK_LOST || d.bit TICK_STATUS_FENCED then d
  else if d.followsAsLead then (d.takeAck a).forwardAck a.tick true
  else match d.tick.leadAt with
    | some dst => d.postTick dst (.ack dst a)
    | none => d

/-- GUARD_START: overruns are judged, ended launches complete, the digest is sampled, the acknowledgement is sent and the
power is measured (`watts`, and what the next point would draw, `scaled`). -/
def opGuardStart (watts scaled : Nat) (d : Die) : Die :=
  if !d.tick.runs || d.tick.inGuard then d
  else
    let d := ((d.onTick fun t => { t with inGuard := true }).judgeAll).endLaunches
    let a := d.makeAck
    let d := if a.vote == .ready && d.get MODE_STATE_STATE == 1 then d.put MODE_STATE_STATE 2 else d
    let d := d.onTick fun t => { t with cancelsNow := [], sampled := some a.digest }
    (d.sendAck a).powerGuard watts scaled

/-! ### TICK messages received (R37, R58, R61, R63) -/

/-- The port from which this die takes time; on an optical port, from its partner alone (R457). -/
def Die.takesTime (d : Die) (port : LinkPort) (src : Place) : Bool :=
  d.bit TICK_CTRL_RUN && (match port with
    | .peer _ => !d.pins.lead
    | .opt n => d.pins.lead && !d.bit TICK_CTRL_SYSTEM_LEAD && d.bit (OPT_CTRL_TICK_SRC n.val)
      && src.pkg.val == d.get (OPT_PEER_PACKAGE n.val) && src.die.val == d.get (OPT_PEER_DIE n.val))

/-- A message of a second system lead (R61): of the two, the die with the higher package ID becomes tick-lost. That LOCKED then stays as it
is, and that the fault of R61 is the only one, is the model's choice (log entry 75). -/
def Die.dualLead (d : Die) (m : TickMsg) : Die :=
  let d := (d.putB TICK_STATUS_DUAL_LEAD true).tickEvent .contained d.here.die.val 6 m.src.pkg.val
  if m.src.pkg.val < d.here.pkg.val then (d.putB TICK_STATUS_HOLDOVER false).putB TICK_STATUS_TICK_LOST true else d

/-- A package lead passes a message on to its dies, with its own package's membership (R58, R63). -/
def Die.passOn (d : Die) (m : TickMsg) : Die :=
  if d.pins.lead then
    d.packageDies.foldl (fun e x => e.postTick { pkg := e.here.pkg, die := x } (.tick { pkg := e.here.pkg, die := x } e.epoch m)) d
  else d

/-- The first message that a die locks to gives it tick number and epoch (R37). -/
def Die.adopt (d : Die) (m : TickMsg) : Die :=
  let d := (d.onTick fun t => { t with runs := true, adopted := true, now := m.tick - 1, members := m.members, inGuard := false }).put TICK_EPOCH_EPOCH m.epoch.toNat
  if d.pins.lead then d.put MEMBERSHIP_MEMBER (2 ^ d.here.die.val) else d

/-- A cancellation reaches a die: packets of the change that were submitted there complete (R75). The message carries the
cause alone, so the refusing unit and die are free values. -/
def Die.hearCancel (d : Die) (m : TickMsg) : Die :=
  let (n, d) := d.fresh
  (d.modeResult m.changeId m.cause.toNat (Config.freeNat n % 32) (Config.freeNat n / 32 % 8)).endAsked m.changeId .aborted

/-- The package of this lead has been removed from its domain, and all of its dies with it (R69). -/
def Die.packageRemoved (d : Die) : Die :=
  let m := d.get MEMBERSHIP_MEMBER
  ((d.put MEMBERSHIP_MEMBER 0).put MEMBERSHIP_LOST ((d.get MEMBERSHIP_LOST).lor m)).onTick fun t => { t with
    removedAt := ((List.range 8).filter fun x => sub m x 1 == 1).foldl (fun r x => assocPut r x t.now) t.removedAt }

/-- A message of the die's tick source: its phase is measured and its contents kept for their boundary. -/
def Die.hearTick (d : Die) (m : TickMsg) (offset chain : W16) : Die :=
  let d := d.put TICK_OFFSET_OFFSET offset.toNat
  let warn := d.get TICK_ALIGN_WARN_LIMIT
  let d := if warn < absInt offset || (!d.pins.lead && decide (warn < absInt chain)) then d.tickEvent .corrected d.here.die.val 2 0 else d
  let d := if d.tick.runs then d else d.adopt m
  let d := d.onTick fun t => { t with offsetOk := decide (absInt offset ≤ d.get TICK_ALIGN_LOSS_LIMIT), leadAt := some m.src, silent := 0 }
  let d := if d.bit TICK_STATUS_HOLDOVER || d.bit TICK_STATUS_TICK_LOST then d else d.putB TICK_STATUS_LOCKED (d.withinBound offset)
  -- a message that names no member tells a package lead that its whole package has been removed (R69; log entry 74)
  let d := if d.pins.lead && m.members == 0 then d.packageRemoved else d
  let own := if d.pins.lead then { m with src := d.here, members := d.membersToName } else m
  let d := if m.tick == d.tick.now + 1 then d.onTick fun t => { t with nextMsg := some own, unnamed := 0 } else d
  let d := if m.action == .cancel then d.hearCancel m else d
  d.passOn own

/-- TICK_MSG_RECEIVE. A die takes time from its source alone; a lead takes none. -/
def opTickMsgReceive (port : LinkPort) (m : TickMsg) (offset chain : W16) (d : Die) : Die :=
  if !d.portUp port then d
  else if !d.authClass 1 port then (d.refuseTick port m.src).freeUnits port 1 44
  else
    let d := d.freeUnits port 1 44
    let optical : Bool := match port with | .opt _ => true | .peer _ => false
    if optical && d.pins.lead && d.bit TICK_CTRL_SYSTEM_LEAD && m.sysLead && m.src.pkg != d.here.pkg then d.dualLead m
    else if !d.takesTime port m.src || (d.tick.runs && !d.tick.adopted) then d
    else d.hearTick m offset chain

/-- TICK_ACK_RECEIVE (R63): at the lead of a domain or of a package. -/
def opTickAckReceive (a : TickAck) (d : Die) : Die :=
  if d.leads then d.takeAck a
  else if d.followsAsLead && !d.bit TICK_STATUS_TICK_LOST && !d.bit TICK_STATUS_FENCED then (d.takeAck a).forwardAck a.tick true
  else d

/-- MEMBER_ACK_LOSS (R67). -/
def opMemberAckLoss (src : Place) (d : Die) : Die :=
  if (d.leads || d.followsAsLead) && src != d.here && d.isMember src && decide (orOne (d.get TICK_ALIGN_ACK_LOSS) ≤ (assoc d.tick.ackMiss (d.memberKey src)).getD 0) then d.removeMember src
  else d

/-- TICK_IN_PULSE (R58, R562): until it tracks messages a die passes the pulse on; afterwards it drives TICK_OUT at its own
boundary. -/
def opTickInPulse (d : Die) : Die := if d.pins.lead || d.tick.runs then d else d.emit .boundary

/-! ### Link delay (R58, R64) -/

/-- LINK_DELAY_ECHO: an echo request leaves on a port at a time in steps of 156.25 ps. -/
def opLinkDelayEcho (port : LinkPort) (time : W64) (d : Die) : Die :=
  if d.portUp port then (d.sayOn port (.echo port d.epoch false time.toNat)).onTick fun t => { t with echo := assocPut t.echo (portNo port) time } else d

/-- ECHO_REQUEST: answered with the same time. -/
def opEchoRequest (port : LinkPort) (time : W64) (d : Die) : Die := if d.portUp port then d.sayOn port (.echo port d.epoch true time.toNat) else d

/-- Members that a port reaches lie beyond its partner: for them the latency is more than this link's (R64). -/
def Die.beyond (d : Die) (port : LinkPort) : Bool :=
  match port with
  | .opt _ => true
  | .peer n => d.otherDies.any fun x => d.route x == some n && x.val != d.get (PEER_STATE_PARTNER_DIE n.val)

/-- A measured one-way delay at a lead: DIST_LATENCY keeps the largest. What lies beyond the link adds a free value, since no message carries the
measurements of other dies (R64; log entry 77). -/
def Die.latency (d : Die) (port : LinkPort) (delay : Nat) : Die :=
  let (n, d) := d.fresh
  let far := if d.beyond port then Config.freeNat n else 0
  d.put DIST_LATENCY_LATENCY (max (d.get DIST_LATENCY_LATENCY) (min ((delay + 63) / 64 + far) 65535))

/-- ECHO_REPLY: half the round trip is the delay of the port; a lead keeps the largest latency. -/
def opEchoReply (port : LinkPort) (time now : W64) (d : Die) : Die :=
  if assoc d.tick.echo (portNo port) == some time then
    let delay := (now - time).toNat / 2
    let d := d.onTick fun t => { t with echo := t.echo.filter fun e => e.1 != portNo port }
    let d := match port with
      | .peer n => d.put (PEER_DELAY_DELAY n.val) (min delay 65535)
      | .opt _ => d
    if d.pins.lead then d.latency port delay else d
  else d

/-! ### MODE_CHANGE (0x88; R71, R72, R245, R548) -/

def packetRecs (b : List Byte) : List ModeRec :=
  (List.range (field b 18 2)).map fun k =>
    { offset := field b (32 + 16 * k) 4, value := le32 ((b.drop (36 + 16 * k)).take 4), dies := BitVec.ofNat 8 (field b (40 + 16 * k) 1) }

/-- The lead's tick unit accepts a change (R72): one with a target nearer than A + 8 is cancelled. -/
def Die.acceptChange (d : Die) (id : W16) (target : Nat) (recs : List ModeRec) : Die :=
  let a := d.tick.now
  let t := if target == 0 then a + 8 else target
  let x : LeadChange := { id := id, accepted := a, target := t, recs := recs, announced := false, votes := [], decision := if t < a + 8 then .cancel else .none,
                          cause := if t < a + 8 then 3 else 0, unit := 0, die := 0, sent := false }
  d.onTick fun u => { u with lead := some x }

/-- The packet now belongs to the tick unit, whatever reset it has met on its way (R246). -/
def Die.askChange (d : Die) (pid : Nat) (id : W16) (target : Nat) : Die :=
  (d.onTick fun t => { t with asked := t.asked ++ [(pid, id, target)] }).onPkt pid fun q => { q with phase := .running, status := .ok }

/-- MODE_CHANGE: Groom checks the packet and hands it to the lead, on this die or by a MANAGEMENT message (R71). No optical port's mask allows
class 8 (R432, R434), so a packet whose lead is in another package ends with NO_AUTHORITY (R437). -/
def opModeChange (pid : Nat) (d : Die) : Die :=
  match d.grantedPkt pid 0x88 with
  | none => d
  | some q =>
    let b := q.body
    let id := BitVec.ofNat 16 (field b 16 2)
    let target := field b 24 8
    match modeStatus b with
    | .ok =>
      if d.leads then
        (match d.tick.lead with
         | some x => d.deferPkt pid (x.target + 1)
         | none =>
           match d.tick.change with
           | some x => d.deferPkt pid (x.target + 1)
           | none => (d.acceptChange id target (packetRecs b)).askChange pid id (if target == 0 then d.tick.now + 8 else target))
      else if !d.tick.runs then d
      else match d.tick.leadAt with
        | some dst =>
          if dst.pkg != d.here.pkg then d.finish pid .noAuthority 0 0
          else
            let seq := BitVec.ofNat 32 d.ports.mgmtSeq
            (match d.remote { req := .pkt pid, id := 0 } 0 dst none none false fun h => .mgmt { head := h, seq := seq, body := .modeForward id (packetRecs b) target } with
             | (some st, d) => d.finish pid st 0 0
             | (none, d) => (d.onPorts fun u => { u with mgmtSeq := u.mgmtSeq + 1 }).onPkt pid fun q => { q with phase := .running })
        | none => d.finish pid .linkLost 0 0
    | st => d.finish pid st 0 0

end Sys2Proof.Machine
end

