-- ==== Sys2Proof/Machine/CoreEvents.lean ====
section
/-! DEFINITION. The core's sync and barrier instructions, the end of a slice, and the stops that no instruction of its own
names (spec 03, R96 to R100, R105 to R109, R116; spec 08, R255 to R270; spec 09, R286 to R289). -/

namespace Sys2Proof.Machine

/-! ### SIGNAL and WAIT (R105 to R107) -/

/-- The core's outstanding signal: its slice does not end before the answer (R109). -/
def signalEntry (k : Core) : CoreOpEntry :=
  { id := k.nextOp, tail := true, pc := k.pc, addr := 0, bytes := 0, vol := false, acc := .write [], dest := none, line := none,
    sent := true, value := none, acked := false }

def Core.addOp (k : Core) (o : CoreOpEntry) : Core := { k with ops := k.ops ++ [o], nextOp := k.nextOp + 1 }

/-- A SIGNAL to an object of this die (R255, R266): held while the core's slot is occupied (R264). -/
def Die.signalHere (d : Die) (c : CoreIx) (k : Core) (obj : ObjIx) (inc : W64) : Die :=
  match d.localSignal c.val k.slicePart obj inc (.core c) k.nextOp with
  | none => d
  | some (.error st, d) => d.coreFault c 13 k.pc st
  | some (.ok _, d) => d.onCore c fun k => (k.addOp (signalEntry k)).next

/-- A SIGNAL to another die of the package: the core stands at it until the answer comes (R255, R257). -/
def Die.signalAway (d : Die) (c : CoreIx) (k : Core) (die : DieIx) (obj : ObjIx) (inc : W64) : Die :=
  match d.remote { req := .core c, id := k.nextOp } k.slicePart { pkg := d.here.pkg, die := die } none none false fun h => .signal { head := h, obj := obj, inc := inc } with
  | (some .noAuthority, d) => d.coreFault c 13 k.pc .noAuthority
  | (some st, d) => d.stopSlice c st
  | (none, d) => d.onCore c fun k => { k.addOp (signalEntry k) with wait := some (.signal k.nextOp) }

/-- SIGNAL (R105): behind every earlier write of the core. -/
def opSignalInstr (c : CoreIx) (r : Reg) (reg remote : Bool) (die : DieIx) (obj : ObjIx) (imm : W32) (d : Die) : Die :=
  d.issue c (.signal r reg remote (BitVec.ofNat 3 die.val) (BitVec.ofNat 13 obj.val) imm) (fun k => !k.writesOpen k.nextOp) fun d k =>
    let inc := if reg then k.s r else imm.setWidth 64
    if remote && die != d.here.die then d.signalAway c k die obj inc else d.signalHere c k obj inc

/-- WAIT (R106, R107, R258, R270). -/
def opWaitInstr (c : CoreIx) (r : Reg) (equal : Bool) (obj : ObjIx) (d : Die) : Die :=
  d.issue c (.wait r equal (BitVec.ofNat 13 obj.val)) (fun _ => true) fun d k =>
    let o := d.obj obj
    if o.owner.toNat != k.slicePart then (d.syncErr obj 1 c.val d.here k.slicePart false).coreFault c 13 k.pc .noAuthority
    else if o.poison then (d.syncErr obj 3 c.val d.here k.slicePart false).stopSlice c .eccUncorrectable
    else if meets equal (k.s r) o.value then d.setCore c k.next
    else d.setCore c { k with wait := some (.object obj equal (k.s r)) }

/-! ### BARRIER (R108, R286 to R289) -/

/-- The LAUNCH_ID of the launch whose slice runs. -/
def Die.launchId (d : Die) (r : SliceRun) : Nat := match d.launch? r.launch with | some l => l.id.toNat | none => 0

/-- The name of a system-barrier instance: LAUNCH_ID, plan tick, and the number of the barrier in its slice (R287; log entry 37). -/
def Die.sysInst (d : Die) (r : SliceRun) : Nat := (d.launchId r * 2 ^ 64 + r.planTick) * 2 ^ 32 + r.sysbars

/-- BARRIER: the core reaches it; with core scope and nothing outstanding it issues at once. -/
def opBarrierInstr (c : CoreIx) (scope : Scope) (d : Die) : Die :=
  d.issue c (.barrier scope) (fun _ => true) fun d k =>
    match scope, k.run with
    | .core, _ => d.setCore c (if k.quiet then k.next else { k with wait := some (.barrier .core 0 false) })
    | .system, some r => d.setCore c { k with wait := some (.barrier .system (d.sysInst r) false), run := some { r with sysbars := r.sysbars + 1 } }
    | _, _ => d.setCore c { k with wait := some (.barrier scope 0 false) }

/-- The core stands at a barrier of a scope and instance with every earlier write acknowledged. -/
def Core.standsAt (k : Core) (scope : Scope) (inst : Nat) : Bool :=
  (match k.wait with | some (.barrier s i _) => s == scope && i == inst | _ => false) && !k.writesOpen k.nextOp

/-- The participants of a core's barrier on this die: cores that run slices of its launch within the scope (R108); with
system scope, in the same plan tick a slice of any launch of the same LAUNCH_ID and partition (R287). -/
def Die.participants (d : Die) (c : CoreIx) (r : SliceRun) (scope : Scope) : List CoreIx :=
  (List.finRange 48).filter fun x =>
    match (d.core x).run with
    | some y =>
      if scope == .system then d.launchId y == d.launchId r && y.part == r.part && y.planTick == r.planTick
      else y.launch == r.launch && (scope != .yard || x.val / 8 == c.val / 8)
    | none => false

/-- Cores move past their WAIT or BARRIER. -/
def Die.passAll (d : Die) (cs : List CoreIx) : Die := cs.foldl (fun e x => e.onCore x Core.waitDone) d

/-- A release reaches a die (R288). -/
def Die.releaseSys (d : Die) (part : PartIx) (inst : Nat) : Die :=
  d.passAll <| (List.finRange 48).filter fun x =>
    match (d.core x).wait with
    | some (.barrier .system i true) => i == inst && (d.core x).slicePart == part.val
    | _ => false

def barrierMsg (d : Die) (src dst : Place) (part : PartIx) (release : Bool) (inst : Nat) : FabMsg :=
  .barrier { head := { port := .peer 0, src := src, dst := dst, epoch := d.epoch, part := part, tag := 0, window := none }, release := release, inst := inst }

/-- The lead counts distinct dies; at SYSBAR_EXPECT.DIES it sends the release (R288). -/
def Die.countArrival (d : Die) (src : Place) (part : PartIx) (inst : Nat) : Die :=
  let same (x : SysInstance) : Bool := x.part == part && x.inst == inst
  let old : List Place := match d.cp.sysbars.find? same with | some x => x.dies | none => []
  let dies := if old.contains src then old else old ++ [src]
  if orOne (d.get (SYSBAR_EXPECT_DIES part.val)) ≤ dies.length then
    let d := d.onCp fun u => { u with sysbars := u.sysbars.filter fun x => !same x }
    ((d.distribute fun dst => barrierMsg d d.here dst part true inst)).releaseSys part inst
  else
    d.onCp fun u => { u with sysbars :=
      if (u.sysbars.any same) then u.sysbars.map fun x => if same x then { x with dies := dies } else x
      else u.sysbars ++ [{ part := part, inst := inst, dies := dies }] }

/-- An arrival of this package goes to the lead of the tick domain, or is counted there. -/
def Die.arriveSys (d : Die) (src : Place) (part : PartIx) (inst : Nat) : Die :=
  if d.leads then d.countArrival src part inst
  else match d.tick.leadAt with
    | some dst => d.postTick dst (barrierMsg d src dst part false inst)
    | none => d

/-- BARRIER_RELEASE: a barrier issues on its participants when every one has reached it and its earlier writes are
acknowledged; a system barrier then sends the die's one arrival (R108, R288). -/
def opBarrierRelease (c : CoreIx) (d : Die) : Die :=
  let k := d.core c
  match k.wait, k.run with
  | some (.barrier .core _ _), some _ => if k.quiet then d.passAll [c] else d
  | some (.barrier scope inst arrived), some r =>
    let ps := d.participants c r scope
    if arrived || !(ps.all fun x => (d.core x).standsAt scope inst) then d
    else if scope == .system then
      (ps.foldl (fun e x => e.onCore x fun k => { k with wait := some (.barrier .system inst true) }) d).arriveSys d.here r.part inst
    else d.passAll ps
  | _, _ => d

/-- SYSBAR_ARRIVAL (R288): a die's arrival reaches the lead, or a package lead on the way. -/
def opSysbarArrival (src : Place) (part : PartIx) (inst : Nat) (d : Die) : Die :=
  if d.leads || d.followsAsLead then d.arriveSys src part inst else d

/-- SYSBAR_RELEASE (R288): the lead's release reaches a die; a package lead passes it on. -/
def opSysbarRelease (part : PartIx) (inst : Nat) (d : Die) : Die :=
  let d := if d.followsAsLead then
      d.otherDies.foldl (fun e x => e.postTick { pkg := e.here.pkg, die := x } (barrierMsg e e.here { pkg := e.here.pkg, die := x } part true inst)) d
    else d
  d.releaseSys part inst

/-! ### The end of a slice (R109) -/

/-- SLICE_END issues: every earlier instruction has issued. -/
def opSliceEnd (c : CoreIx) (d : Die) : Die :=
  d.issue c .sliceEnd (fun _ => true) fun d k => d.setCore c { k with run := k.run.map fun r => { r with ended := true } }

/-- SLICE_END_RETIRE: everything of the slice has completed and every write is acknowledged; in the guard its launch may
complete (R43, R109). -/
def opSliceEndRetire (c : CoreIx) (d : Die) : Die :=
  let k := d.core c
  match k.run with
  | some r =>
    if r.ended && r.stopping.isNone && k.quiet then
      let d := d.setCore c k.leave
      if d.tick.inGuard then d.endLaunches else d
    else d
  | none => d

/-! ### Stops of the sequencer (R96 to R100, R116) -/

/-- UNDEFINED_ENCODING: the word at the issue point is undefined as it stands (causes 1 to 3), undefined at run time, or
lies past the end of the bank (cause 8, with the last word's offset). -/
def opUndefinedEncoding (c : CoreIx) (d : Die) : Die :=
  let k := d.core c
  if !k.issuing then d
  else
    match k.wordAt with
    | none => d.coreFault c 8 (k.pc - 8) .illegalOpcode
    | some (_, true) => d
    | some (w, false) =>
      match decodeWord w with
      | .error cause => d.coreFault c cause k.pc .illegalOpcode
      | .ok op =>
        if k.regsReady (sregsOf op) (vregsOf op) then
          (match runtimeCause d.fuses.arrays c k op with
           | some cause => d.coreFault c cause k.pc .illegalOpcode
           | none => d)
        else d

/-- PROGRAM_PARITY_STOP (R116). -/
def opProgramParityStop (c : CoreIx) (d : Die) : Die :=
  let k := d.core c
  match k.wordAt with
  | some (_, true) => if k.issuing then d.coreFault c 10 k.pc .eccUncorrectable else d
  | _ => d

/-- CRIB_ECC_WRITEBACK (R88): a corrected word has been written back. -/
def opCribEccWriteback (c : CoreIx) (word : Nat) (d : Die) : Die :=
  d.onCore c fun k => { k with cribErr := k.cribErr.filter fun e => !(e.1 == word && e.2 == .pending) }

end Sys2Proof.Machine
end

