-- ==== Sys2Proof/Machine/Fabric.lean ====
section
/-! DEFINITION. Messages of other dies (spec 13; spec 17, R553): windows, responses, error reports, management, forwarding,
and what an optical port lets in. -/

namespace Sys2Proof.Machine

/-! ### Windows (R440, R441) -/

/-- The ring stop of a port's window traffic. -/
def portStop : LinkPort → Fin 64
  | .peer _ => 61
  | .opt _ => 62

/-- What became of an attempt at a message: performed or refused, or it must wait at its port. -/
inductive Took where
  | done (d : Die)
  | hold (d : Die)

/-- Admission of a message whose performance may have to wait (R79, R431, R435, R451): true when it stays at its port. -/
def Die.admittedOr (d : Die) (h : MsgHead) (cls bytes : Nat) (go : Die → Took) : Bool × Die :=
  match d.portCheck h cls none with
  | .pass =>
    (match d.fenceOf h.epoch with
     | .newer => (true, d)
     | .older => (false, ((d.winRefused h cls 2).rejectOld h true).freeUnits h.port cls bytes)
     | .same => match go d with | .done e => (false, e.freeUnits h.port cls bytes) | .hold e => (true, e))
  | x => (false, (d.notPassed h cls x).freeUnits h.port cls bytes)

/-- A refused window message: recorded, answered, and no fault (R440). -/
def Die.outOfWindow (d : Die) (h : MsgHead) (check : Nat) : Took := .done ((d.winErr h check).respond h .outOfWindow [])

/-- Result of the translation of a piece of a window. -/
inductive WinPage where
  | ok (space : Space) (addr : Nat) (once : Bool) | bad | ecc | wait

/-- Check 7 of R440, without a page request. -/
def Die.winPage (d : Die) (part dva : Nat) (write : Bool) : WinPage × Die :=
  match d.walk part dva with
  | (.invalid, d) => (.bad, d)
  | (.ecc, d) => (.ecc, d)
  | (.wait, d) => (.wait, d)
  | (.leaf l bits, d) =>
    if (d.tier part dva).isSome || decide (1 < l.attr) || !(if write then l.w else l.r) then (.bad, d)
    else if d.moving part dva then (.wait, d)
    else (.ok (if l.attr == 1 then .shr else .dev) (l.target / 2 ^ bits * 2 ^ bits + dva % 2 ^ bits) l.once, d)

/-- A piece of a window access: its page's space and advice, its physical address and its length. -/
structure WinPiece where
  space : Space
  once : Bool
  addr : Nat
  n : Nat

/-- The pieces of a window access, up to the first whose page is not open. -/
def Die.winPages (part : Nat) (write : Bool) : List (Nat × Nat) → List WinPiece → Die → Except WinPage (List WinPiece) × Die
  | [], got, d => (.ok got, d)
  | (a, n) :: rest, got, d =>
    match d.winPage part a write with
    | (.ok space pa once, d) => Die.winPages part write rest (got ++ [{ space := space, once := once, addr := pa, n := n }]) d
    | (r, d) => (.error r, d)

/-- An access of one aligned 64-bit word is two words, unless the window carries PAIR_ATOMIC (R291). -/
def splitPair (w : Window) : List WinPiece → List WinPiece
  | [p] => if p.n == 8 && p.addr % 8 == 0 && !w.right 2 then [{ p with n := 4 }, { p with addr := p.addr + 4, n := 4 }] else [p]
  | ps => ps

/-- The requests of a window access; `bs` is the data of a write. -/
def winRequests (port : LinkPort) (part id : Nat) (write : Option (List Byte)) : List WinPiece → List HomeReq
  | [] => []
  | p :: ps =>
    { stop := portStop port, slice := homeSlice false (lineOf p.addr), line := lineOf p.addr, space := p.space, key := part, once := p.once,
      op := match write with | some bs => .write p.addr (bs.take p.n) | none => .read p.addr p.n, who := { req := .win id, id := id }, part := part }
      :: winRequests port part id (write.map fun bs => bs.drop p.n) ps

/-- Send the requests. Of two words of one line there is no order (R291): a free choice says which goes first, and the other waits on the ring. -/
def Die.winSend (d : Die) (rs : List HomeReq) : Die :=
  match rs with
  | [x, y] =>
    if x.line == y.line then
      let (i, d) := d.fresh
      if Config.freeNat i % 2 == 0 then (d.askHome x).sendHome y else (d.askHome y).sendHome x
    else (d.askHome x).askHome y
  | rs => rs.foldl Die.askHome d

/-- Checks 3 to 7 of R440 for an access of `n` bytes of memory; then its pieces go to their homes, and it is answered when all have been performed
(R273). What it uses is charged to the window's partition (R475). -/
def Die.winAccess (d : Die) (h : MsgHead) (offset n right : Nat) (write : Option (List Byte)) : Took :=
  match d.winOpen h with
  | .error check => d.outOfWindow h check
  | .ok w =>
    if !w.right right then d.outOfWindow h 5
    else if decide (w.bytes < offset + n) then d.outOfWindow h 6
    else
      match Die.winPages w.part write.isSome (linePieces (w.base + offset) n) [] d with
      | (.error .ecc, d) => .done ((d.raise 6 .contained (detail (portStop h.port).val 2 w.part)).respondAs w.part h .eccUncorrectable [])
      | (.error .wait, d) => .hold d
      | (.error _, d) => d.outOfWindow h 7
      | (.ok ps, d) =>
        let id := d.ports.nextWin
        let ps := splitPair w ps
        let rs := winRequests h.port w.part id write ps
        if d.bit HBM_STATUS_SELF_REFRESH || rs.any fun r => r.space == .shr && r.writes && d.shrHeld (fun q => q.stop == r.stop) r then .hold d
        else
          let d := (d.charge w.part 1 n).onPorts fun u => { u with
            nextWin := id + 1,
            winOps := u.winOps ++ [{ id := id, part := w.part, head := h, write := write.isSome, pieces := ps.map fun p => (p.addr, p.n) }] }
          .done (d.winSend rs).afterHome

/-- A signal through the aperture (R438): the increment is the written value. -/
def Die.winSignal (d : Die) (m : WinWrite) : Took :=
  if (m.data.length == 4 || m.data.length == 8) && m.offset / 65536 == 0 && m.offset % 8 == 0 then
    (match d.windowSignal { head := m.head, obj := objIx (m.offset / 8), inc := le64 m.data } with
     | some e => .done e
     | none => .hold d)
  else match d.winOpen m.head with
    | .error check => d.outOfWindow m.head check
    | .ok w => d.outOfWindow m.head (if w.right 3 then 6 else 5)

/-- An earlier write of the source, still at its port, holds this one (R277). -/
def Die.heldBefore (d : Die) (h : MsgHead) : Bool :=
  (d.ports.held.takeWhile fun x => x != (h.port, h.src, h.tag)).any fun x => x.2.1 == h.src

/-- WINDOW_WRITE (R277, R440, R441): of 1 to 128 bytes. One that stays at its port holds the later ones of its source. -/
def opWindowWrite (m : WinWrite) (d : Die) : Die :=
  let me := (m.head.port, m.head.src, m.head.tag)
  match d.admittedOr (judged m.head (.winWrite m)) 2 (msgBytes (.winWrite m)) fun d =>
      if d.heldBefore m.head then .hold d
      else if m.aperture then d.winSignal m else d.winAccess m.head m.offset m.data.length 1 (some m.data) with
  | (true, e) => e.onPorts fun u => { u with held := if u.held.contains me then u.held else u.held ++ [me] }
  | (false, e) => e.onPorts fun u => { u with held := u.held.erase me }

/-- Reads of a port whose data has not left yet (R449). -/
def Die.readsWaiting (d : Die) (port : LinkPort) : Nat :=
  (d.ports.winOps.filter fun o => o.head.port == port && !o.write).length + (d.ports.outq.filter fun q => q.1 == port && (match q.2.2 with | .response r => !r.data.isEmpty | _ => false)).length

/-- WINDOW_READ (R440, R449): of 1 to 128 bytes; the aperture is not read (R438). -/
def opWindowRead (m : WinRead) (d : Die) : Die :=
  Prod.snd <| d.admittedOr (judged m.head (.winRead m)) 3 24 fun d =>
    if decide (256 ≤ d.readsWaiting m.head.port) then .hold d
    else if m.aperture then
      (match d.winOpen m.head with
       | .error check => d.outOfWindow m.head check
       | .ok w => d.outOfWindow m.head (if w.right 3 then 6 else 5))
    else d.winAccess m.head m.offset m.n 0 none

/-! ### Answers (R440, R444) -/

/-- A message of class 4, admitted and fenced like any other (R79). -/
def Die.takeResponse (d : Die) (m : Response) (data : List Byte) : Die :=
  d.admitted (judged m.head (.response m)) 4 (msgBytes (.response m)) none fun d =>
    match d.fenceOf m.head.epoch with
    | .newer => none
    | .older => some (d.rejectOld m.head false)
    | .same => some (d.response m.head.tag m.st data)

/-- READ_RESPONSE: data of a read, or the status of another operation. -/
def opReadResponse (m : Response) (d : Die) : Die := d.takeResponse m m.data

/-- SIGNAL_ACK_RECEIVE (R255, R257): the READ_RESPONSE that answers a SIGNAL message carries no data. -/
def opSignalAckReceive (head : MsgHead) (st : Status) (d : Die) : Die := d.takeResponse { head := head, st := st, data := [] } []

/-- WINDOW_OP_TIMEOUT (R444): OP_TICKS ticks have passed since an operation's message left. -/
def opWindowOpTimeout (tag : W32) (d : Die) : Die :=
  match d.ports.ops.find? fun o => o.tag == tag && o.reply.isNone with
  | none => d
  | some o =>
    let waits := d.ports.outq.any fun q => msgTag q.2.2 == some tag && q.2.1 != otherPart
    if !waits && decide (o.sentTick + orOne (d.get FAB_TIMEOUT_OP_TICKS) ≤ d.tick.count) then d.remoteEnd o .linkLost [] else d

/-! ### Error reports (R458) -/

/-- ERROR_REPORT: recorded, with a corrected fault. -/
def opErrorReport (m : ErrorReport) (d : Die) : Die :=
  d.admitted m.head 7 28 none fun d =>
    match d.fenceOf m.head.epoch with
    | .newer => none
    | .older => some (d.rejectOld m.head false)
    | .same =>
      let d := ((d.put FAB_REMOTE_ERR_PACKAGE m.head.src.pkg.val).put FAB_REMOTE_ERR_DIE m.head.src.die.val).putB FAB_REMOTE_ERR_VALID true
      let d := d.count FAB_REMOTE_ERR_COUNT 1
      some (match m.head.port with
        | .opt n => d.optEvent n 0x23 .corrected
        | .peer n => d.raise 9 .corrected (detail n.val 0x23 m.head.src.pkg.val))

/-! ### Management (R71, R400, R553) -/

/-- The reply to a MANAGEMENT message. -/
def Die.mgmtReply (d : Die) (h : MsgHead) (seq : W32) (answer : W64) (st : Status) : Die :=
  let head : MsgHead := { port := h.port, src := d.here, dst := h.src, epoch := d.epoch, part := h.part, tag := h.tag, window := none }
  d.post h.port 0 (.mgmt { head := head, seq := seq, body := .reply answer st })

/-- A subordinate die takes the copy of the decoders (R400). -/
def Die.takeMirror (d : Die) (decs : List Hdm) : Die :=
  if d.dieId == some 0 then d else { d with host := { d.host with hdm := decs } }

/-- A forwarded MODE_CHANGE at the lead (R71, R72): accepted, or deferred to the tick after the outstanding target. A package lead that
follows another cannot pass it on (R432, R437). -/
def Die.takeForward (d : Die) (h : MsgHead) (seq : W32) (id : W16) (recs : List ModeRec) (target : Nat) : Die :=
  if !d.leads then d.mgmtReply h seq 0 .noAuthority
  else match d.outstandingChange with
    | some t => d.mgmtReply h seq (BitVec.ofNat 64 (t + 1)) .deferred
    | none =>
      let t := if target == 0 then d.tick.now + 8 else target
      (d.acceptChange id target recs).mgmtReply h seq (BitVec.ofNat 64 t) .ok

/-- The reply to one of this die's messages: a forwarded MODE_CHANGE belongs to the lead from now on, is deferred or ends; a
mirror is confirmed. -/
def Die.takeReply (d : Die) (h : MsgHead) (answer : W64) (st : Status) : Die :=
  match d.ports.ops.find? fun o => o.tag == h.tag && o.reply.isNone with
  | none => d
  | some o =>
    let gone := d.onPorts fun u => { u with ops := u.ops.filter fun x => x.tag != o.tag }
    match o.req with
    | .pkt pid =>
      (match d.pkt? pid with
       | none => gone
       | some q =>
         match st with
         | .ok => gone.askChange pid (BitVec.ofNat 16 (field q.body 16 2)) answer.toNat
         | .deferred => if q.status == .ok then gone.deferPkt pid answer.toNat else gone.finish pid .aborted 0 0
         | st => gone.finish pid st 0 0)
    | _ => d.remoteEnd o st []

/-- MANAGEMENT_MSG_RECEIVE. -/
def opManagementMsgReceive (m : MgmtMsg) (d : Die) : Die :=
  d.admitted m.head 8 (msgBytes (.mgmt m)) none fun d =>
    let reply : Bool := match m.body with | .reply .. => true | _ => false
    match d.fenceOf m.head.epoch with
    | .newer => none
    | .older => some (d.rejectOld m.head (!reply))
    | .same => some (match m.body with
      | .modeForward id recs target => d.takeForward m.head m.seq id recs target
      | .hdmMirror decs => (d.takeMirror decs).mgmtReply m.head m.seq 0 .ok
      | .query item =>
        if decide (4 < item) then d.mgmtReply m.head m.seq 0 .reservedValue
        else
          let known := d.queryBytes item
          let (bs, d) := d.freshBytes (8 - known.length)
          d.mgmtReply m.head m.seq (le64 ((known ++ bs).take 8)) .ok
      | .reply answer st => d.takeReply m.head answer st)

/-- HDM_MIRROR_RECEIVE (R400): the MANAGEMENT message of that kind. -/
def opHdmMirrorReceive (head : MsgHead) (decs : List Hdm) (d : Die) : Die :=
  opManagementMsgReceive { head := head, seq := head.tag, body := .hdmMirror decs } d

/-! ### Forwarding and the optical ports (R429, R431, R432, R435, R448) -/

/-- The header of a message that has one of the common kind, judged by R451. -/
def msgHead (x : FabMsg) : Option MsgHead :=
  (match x with
   | .barrier m => some m.head
   | .winWrite m => some m.head
   | .winRead m => some m.head
   | .response m => some m.head
   | .signal m => some m.head
   | .partial_ m => some m.head
   | .error m => some m.head
   | .mgmt m => some m.head
   | .tier h _ => some h
   | .tick .. | .ack .. | .undef .. => none).map fun h => judged h x

/-- A message with its port of arrival. -/
def atPort (port : LinkPort) : FabMsg → FabMsg
  | .barrier m => .barrier { m with head := { m.head with port := port } }
  | .winWrite m => .winWrite { m with head := { m.head with port := port } }
  | .winRead m => .winRead { m with head := { m.head with port := port } }
  | .response m => .response { m with head := { m.head with port := port } }
  | .signal m => .signal { m with head := { m.head with port := port } }
  | .partial_ m => .partial_ { m with head := { m.head with port := port } }
  | .error m => .error { m with head := { m.head with port := port } }
  | .mgmt m => .mgmt { m with head := { m.head with port := port } }
  | .tier h a => .tier { h with port := port } a
  | m => m

/-- A message that asks for an answer. -/
def asks : FabMsg → Bool
  | .winWrite _ | .winRead _ | .signal _ | .partial_ _ | .tier .. => true
  | .mgmt m => (match m.body with | .reply .. => false | _ => true)
  | _ => false

/-- Traffic on a port of the die: a die that has become orphaned answers it with LINK_LOST (R388). -/
def fromPort (port : LinkPort) (m : FabMsg) (f : Die → Die) (d : Die) : Die :=
  match msgHead (atPort port m) with
  | some h => if asks m then fromDie h f d else if d.boot.phase == .ready then f d else d
  | none => if d.boot.phase == .ready then f d else d

/-- A message leaves for another die of the package by this die's route entry; without one it goes no further. -/
def Die.sendOn (d : Die) (dst : Place) (m : FabMsg) : Die :=
  match d.portFor dst with
  | some out => if d.authClass m.cls out then d.post out otherPart (atPort out m) else d
  | none => d

/-- PEER_MSG_FORWARD (R429, R435): a message for a third die of the package. -/
def opPeerMsgForward (port : LinkPort) (m : FabMsg) (d : Die) : Die :=
  match m.dst with
  | none => d
  | some dst =>
    if dst == d.here || dst.pkg != d.here.pkg || !d.portUp port then d
    else
      let m := atPort port m
      match msgHead m with
      | some h =>
        (match d.portCheck h m.cls none with
         | .pass => (d.sendOn dst m).freeUnits port m.cls (msgBytes m)
         | x => (d.notPassed h m.cls x).freeUnits port m.cls (msgBytes m))
      | none =>
        (if d.authClass m.cls port then d.sendOn dst m
         else match m with
           | .tick _ _ t => d.refuseTick port t.src
           | .ack _ a => d.refuseTick port a.src
           | _ => d.gateDrop port m.cls).freeUnits port m.cls (msgBytes m)

/-- What the gate and the port's authority say of an optical message for another die (R431, R435): its window's group alone
can be judged here. -/
def Die.opticalPasses (d : Die) (n : OptIx) (m : FabMsg) : Bool :=
  let grouped := match msgHead m with
    | some h => !h.bad && (match h.window with | some w => m.cls == 4 || d.authGroup w.val (.opt n) | none => true)
    | none => true
  decide (m.cls ≤ 7) && d.authClass m.cls (.opt n) && d.optState n == 4 && grouped

/-- A message for this die goes to the unit of its class. -/
def Die.toUnit (d : Die) (port : LinkPort) (m : FabMsg) (offset chain : W16) : Die :=
  match m with
  | .tick _ _ t => opTickMsgReceive port t offset chain d
  | .ack _ a => (if d.portUp port && d.authClass 1 port then opTickAckReceive a d else d.refuseTick port a.src).freeUnits port 1 44
  | .barrier b =>
    if !(d.portUp port && d.authClass 1 port) then (d.refuseTick port b.head.src).freeUnits port 1 44
    else
      let d := d.freeUnits port 1 44
      if b.release then (if d.takesTime port b.head.src then opSysbarRelease b.head.part b.inst d else d) else opSysbarArrival b.head.src b.head.part b.inst d
  | .winWrite w => opWindowWrite w d
  | .winRead r => opWindowRead r d
  | .response r => opReadResponse r d
  | .signal x => opSignalMsgReceive x d
  | .partial_ p => opPartialReceive p d
  | .error e => opErrorReport e d
  | .mgmt x => opManagementMsgReceive x d
  | .tier h a => opTierRead h a d
  | .undef _ c => (d.gateDrop port c).freeUnits port (min c 9) 64

/-- OPTICAL_MSG_RECEIVE (R431, R432, R435, R448): the gate drops classes 8 to 15 and what the mask forbids; a message for this
die goes to its unit, one for another die of the package is forwarded, one for another package is dropped and recorded. -/
def opOpticalMsgReceive (n : OptIx) (m : FabMsg) (offset chain : W16) (d : Die) : Die :=
  let port : LinkPort := .opt n
  let m := atPort port m
  if !d.portUp port then d
  else if decide (7 < m.cls) || !d.authClass m.cls port then (d.gateDrop port m.cls).freeUnits port (min m.cls 9) (msgBytes m)
  else match m.dst with
    | none => (d.gateDrop port m.cls).freeUnits port (min m.cls 9) (msgBytes m)
    | some dst =>
      if dst == d.here then d.toUnit port m offset chain
      else if dst.pkg != d.here.pkg then (d.optErr n 9).freeUnits port m.cls (msgBytes m)
      else if d.opticalPasses n m then (d.sendOn dst m).freeUnits port m.cls (msgBytes m)
      else (d.gateDrop port m.cls).freeUnits port m.cls (msgBytes m)

end Sys2Proof.Machine
end

