-- ==== Sys2Proof/Machine/State.lean ====
section
/-! DEFINITION. The state of the block: the queue of waiting commands and the die; reset, faults and refusals. -/

namespace Sys2Proof.Machine

/-- The block: the commands that wait, first in first out, and the die they act on. -/
structure State where
  pending : List Instr
  die : Die
deriving DecidableEq, Repr

/-- Why a step stops with a fault. -/
inductive Fault where
  /-- Raised by `exec` on a command that is not well-formed: its operands describe no message or access that the
  spec's formats can carry. Safe: no such command exists on the hardware. -/
  | illFormed
deriving DecidableEq, Repr

/-- Why a command is refused. -/
inductive Refusal where
  /-- Raised by `exec` on a command whose meaning is not written. Safe. -/
  | notModelled (mnemonic : String)
deriving DecidableEq, Repr

/-- The block right after a cold power-on reset (R532, R560): every register at its reset value, memory with nothing
listed, no command waiting. The die is strapped LEAD of package 0 (log entry 5). -/
def State.reset : State := { pending := [], die := { dieId := some 0, pkgId := some 0 } }

end Sys2Proof.Machine
end

