-- ==== Sys2Proof/Machine/Phase.lean ====
section
/-! DEFINITION. When the die acts on a command (R532, R388, R518, R560). -/

namespace Sys2Proof.Machine

/-- The die is powered, out of reset, booted, and neither orphaned nor dormant (R388, R518, R532, R560). -/
def Die.live (d : Die) : Bool := d.boot.phase == .ready

/-- A command that acts whatever the die is doing. -/
def onDie (f : Die → Die) (s : State) : Host.Outcome State Fault Refusal := .next { s with die := f s.die }

/-- A command that acts only on a booted die; else nothing of the die changes. -/
def onLive (f : Die → Die) (s : State) : Host.Outcome State Fault Refusal := onDie (fun d => if d.live then f d else d) s

/-- A command to the collector or the power controller, whose domains run while the die has power (R33). -/
def onAwake (f : Die → Die) (s : State) : Host.Outcome State Fault Refusal := onDie (fun d => if d.awake then f d else d) s

/-- A command of the die ports, which train before the die is ready (R532). -/
def onPortsLive (f : Die → Die) (s : State) : Host.Outcome State Fault Refusal :=
  onDie (fun d => if d.live || d.boot.phase == .boot then f d else d) s

/-- A command with operands to check (WellFormed.lean): one that no format can carry is a fault. -/
def onWf (ok : Bool) (f : State → Host.Outcome State Fault Refusal) (s : State) : Host.Outcome State Fault Refusal :=
  if ok then f s else .fault .illFormed

end Sys2Proof.Machine
end

