-- ==== Sys2Proof/Machine/Spdm.lean ====
section
/-! DEFINITION. The DOE mailbox of the PF (spec 12, R404, R424, R425): DOE Discovery, the SPDM 1.2 responder and the CDAT.
Error codes and the order of requests are those of SPDM 1.2 (PRESUMED, log entry 40). -/

namespace Sys2Proof.Machine

/-- The mailbox answers on a booted die and on one whose boot failed (R535), also while Groom restarts. -/
def Die.onDoe (d : Die) (f : Die → Die) : Die := if d.boot.phase == .ready || d.boot.phase == .failed then f d else d

def Die.answerDoe (d : Die) (a : DoeAnswer) : Die := d.emit (.doe a)

def Die.onSpdm (d : Die) (f : Spdm → Spdm) : Die := d.onHost fun h => { h with spdm := f h.spdm }

/-- SPDM error codes: InvalidRequest, UnexpectedRequest, UnsupportedRequest. -/
def spdmInvalid : Byte := 0x01
def spdmUnexpected : Byte := 0x04
def spdmUnsupported : Byte := 0x07

/-- A request that needs the negotiation to be complete. -/
def Die.negotiated (d : Die) (f : Die → Die) : Die :=
  d.onDoe fun d => if d.host.spdm.version && d.host.spdm.caps && d.host.spdm.algs then f d else d.answerDoe (.error spdmUnexpected)

/-- GET_VERSION: only 1.2 is offered; negotiation begins again. -/
def opGetVersion (d : Die) : Die := d.onDoe fun d => (d.onSpdm fun _ => { version := true }).answerDoe (.version 0x12)

/-- GET_CAPABILITIES: with the CTExponent of R425. -/
def opGetCapabilities (d : Die) : Die :=
  d.onDoe fun d =>
    if d.host.spdm.version then (d.onSpdm fun x => { x with caps := true, algs := false }).answerDoe (.capabilities 16) else d.answerDoe (.error spdmUnexpected)

/-- NEGOTIATE_ALGORITHMS: ECDSA on P-384 with SHA-384, SHA-384 for measurements. -/
def opNegotiateAlgorithms (d : Die) : Die :=
  d.onDoe fun d =>
    if d.host.spdm.version && d.host.spdm.caps then (d.onSpdm fun x => { x with algs := true }).answerDoe .algorithms else d.answerDoe (.error spdmUnexpected)

/-- GET_DIGESTS: slot 0 alone holds a chain. -/
def opGetDigests (d : Die) : Die := d.negotiated fun d => d.answerDoe (.digests 1 (Config.sha384 Config.certChain))

/-- GET_CERTIFICATE: a portion of slot 0's chain. -/
def opGetCertificate (slot off n : Nat) (d : Die) : Die :=
  d.negotiated fun d =>
    if slot != 0 || decide (Config.certChain.length ≤ off) then d.answerDoe (.error spdmInvalid)
    else d.answerDoe (.certificate ((Config.certChain.drop off).take n) (Config.certChain.length - off - n))

/-- A signature: the leaf key is known to no one, so its bytes are free. -/
def Die.sign (d : Die) (msg : List Byte) : List Byte × Die := let (n, d) := d.fresh; (Config.spdmSignature n msg, d)

/-- CHALLENGE. -/
def opChallenge (slot : Nat) (nonce : List Byte) (d : Die) : Die :=
  d.negotiated fun d =>
    if slot != 0 then d.answerDoe (.error spdmInvalid)
    else
      let (sig, d) := d.sign nonce
      d.answerDoe (.challenge (Config.sha384 Config.certChain) sig)

/-- The measurement of an index (table before Registers of spec 12, R535). -/
def Die.measure (d : Die) (i : Nat) : List Byte :=
  match i with
  | 1 => Config.sha384 Config.bootRom
  | 2 => Config.sha384 (if d.boot.verified then Config.bootImage (d.bit BOOT_STATUS_SLOT) (d.get BOOT_STATUS_SVN) else [])
  | 3 => Config.sha384 (if d.host.rom then (List.range 0x100000).map Config.romByte else [])
  | _ => Config.sha384 (leBytes 24 d.fuses.arrays.toNat ++ leBytes 1 d.fuses.grade.toNat)

/-- GET_MEASUREMENTS: index 0 asks for their number, 0xFF for all of them. -/
def opGetMeasurements (index : Nat) (signed : Bool) (nonce : List Byte) (d : Die) : Die :=
  d.negotiated fun d =>
    let asked := if index == 0 then [] else if index == 0xFF then [1, 2, 3, 4] else [index]
    if asked.any fun i => i == 0 || decide (4 < i) then d.answerDoe (.error spdmInvalid)
    else
      let blocks := asked.map fun i => (i, d.measure i)
      if signed then
        let (sig, d) := d.sign (nonce ++ blocks.flatMap (·.2))
        d.answerDoe (.measurements 4 blocks (some sig))
      else d.answerDoe (.measurements 4 blocks none)

/-- Any other request (R424). -/
def opSpdmUnsupportedRequest (_code : Byte) (d : Die) : Die := d.onDoe fun d => d.answerDoe (.error spdmUnsupported)

/-- DOE_DISCOVERY: the three protocols of the mailbox, by vendor and type, and the next index. -/
def opDoeDiscovery (index : Nat) (d : Die) : Die :=
  d.onDoe fun d => match index with
    | 0 => d.answerDoe (.discovery 0x0001 0 1)
    | 1 => d.answerDoe (.discovery 0x0001 1 2)
    | 2 => d.answerDoe (.discovery 0x1E98 2 0)
    | _ => d.answerDoe (.discovery 0xFFFF 0 0)

/-- CXL_TABLE_ACCESS: die 0's CDAT has one memory range for each committed decoder (R404); entry 0 tells their number. -/
def opCxlTableAccess (index : Nat) (d : Die) : Die :=
  d.onDoe fun d =>
    let ranges := if d.dieId == some 0 then d.host.hdm.filter fun (h : Hdm) => h.committed else []
    match index with
    | 0 => d.answerDoe (.cdatHeader ranges.length)
    | k + 1 => match ranges[k]? with
      | some r => d.answerDoe (.cdatRange r.base r.size 450 400 (430 * r.iw))
      | none => d.answerDoe .cdatEnd

end Sys2Proof.Machine
end

