-- ==== Sys2Proof/WellFormed.lean ====
section
/-! DEFINITION. Well-formed commands: operands that the spec's formats can carry. What the spec gives a meaning although it
breaks a bound (the lengths of R451, offsets outside a BAR) is well-formed. -/

namespace Sys2Proof

/-- A TICK message: ticks are 64 bits (R30), a change descriptor has at most 30 records (spec 07). -/
def TickMsg.wf (m : TickMsg) : Bool :=
  decide (m.tick < 2 ^ 64) && decide (m.target < 2 ^ 64) && decide (m.recs.length ≤ 30) && m.cancels.all fun c => decide (c.planTick < 2 ^ 64)

/-- A tick acknowledgement. -/
def TickAck.wf (a : TickAck) : Bool := decide (a.tick < 2 ^ 64) && a.cancels.all fun c => decide (c.planTick < 2 ^ 64)

/-- A MANAGEMENT message: at most 30 records, two decoders (R400, R553). -/
def Mgmt.wf : Mgmt → Bool
  | .modeForward _ recs target => decide (recs.length ≤ 30) && decide (target < 2 ^ 64)
  | .hdmMirror decs => decide (decs.length ≤ 2)
  | .query _ | .reply .. => true

/-- A message of any class. -/
def FabMsg.wf : FabMsg → Bool
  | .tick _ _ m => m.wf
  | .ack _ a => a.wf
  | .mgmt m => m.body.wf
  | .undef _ c => decide (10 ≤ c) && decide (c < 16)
  | .barrier .. | .winWrite .. | .winRead .. | .response .. | .signal .. | .partial_ .. | .error .. | .tier .. => true

/-- Operands fit their formats. -/
def Instr.wf : Instr → Bool
  | .tickMsgReceive _ m _ _ => m.wf
  | .tickAckReceive a => a.wf
  | .managementMsgReceive m => m.body.wf
  | .opticalMsgReceive _ m _ _ => m.wf
  | .peerMsgForward _ m => m.wf
  | .hdmMirrorReceive _ decs => decide (decs.length ≤ 2)
  | .hdmCommit decs => decide (decs.length ≤ 2)
  | .linkHelloReceive _ h => h.pools.length == 10
  | .creditReceive _ units => units.length == 10
  | .linkListReceive _ _ links => decide (links.length ≤ 4)
  | .challenge _ nonce => nonce.length == 32
  | .getMeasurements _ signed nonce => nonce.length == if signed then 32 else 0
  | .thermalSample temps => temps.length == 32
  | .bootImageVerify slots => slots.length == 2
  | .bootBist fails => fails.all fun c => decide (c < 128)
  | _ => true

end Sys2Proof
end

