-- ==== Sys2Proof/Machine/Commands.lean ====
section
/-! DEFINITION. The meanings of the commands: one definition per constructor of Instr, each a call of the operation
of its family under the guard of Phase.lean. -/

namespace Sys2Proof.Machine

/-- TICK_RUN (R37). -/
def execTickRun (who : Who) (v : W32) (s : State) : Host.Outcome State Fault Refusal := onDie (fromHost who true true TICK_CTRL (posted who false TICK_CTRL v (opTickRun who v))) s

/-- BEAT_BOUNDARY (R39). -/
def execBeatBoundary (s : State) : Host.Outcome State Fault Refusal := onLive (opBeatBoundary) s

/-- TICK_BOUNDARY (R36). -/
def execTickBoundary (s : State) : Host.Outcome State Fault Refusal := onLive (opTickBoundary) s

/-- GUARD_START (R43). -/
def execGuardStart (watts : Nat) (scaled : Nat) (s : State) : Host.Outcome State Fault Refusal := onLive (opGuardStart watts scaled) s

/-- TICK_MSG_SEND (R63). -/
def execTickMsgSend (s : State) : Host.Outcome State Fault Refusal := onLive (opTickMsgSend) s

/-- TICK_MSG_RECEIVE (R63). -/
def execTickMsgReceive (port : LinkPort) (m : TickMsg) (offset : W16) (chain : W16) (s : State) : Host.Outcome State Fault Refusal := onWf (m.wf) (onLive (opTickMsgReceive port m offset chain)) s

/-- TICK_ACK_RECEIVE (R63). -/
def execTickAckReceive (a : TickAck) (s : State) : Host.Outcome State Fault Refusal := onWf (a.wf) (onLive (opTickAckReceive a)) s

/-- MEMBER_ACK_LOSS (R67). -/
def execMemberAckLoss (src : Place) (s : State) : Host.Outcome State Fault Refusal := onLive (opMemberAckLoss src) s

/-- TICK_IN_PULSE (R562). -/
def execTickInPulse (s : State) : Host.Outcome State Fault Refusal := onPortsLive (opTickInPulse) s

/-- HOLDOVER_ENTER (R65). -/
def execHoldoverEnter (s : State) : Host.Outcome State Fault Refusal := onLive (opHoldoverEnter) s

/-- TICK_LOST (R66). -/
def execTickLost (s : State) : Host.Outcome State Fault Refusal := onLive (opTickLost) s

/-- LINK_DELAY_ECHO (R58). -/
def execLinkDelayEcho (port : LinkPort) (time : W64) (s : State) : Host.Outcome State Fault Refusal := onPortsLive (opLinkDelayEcho port time) s

/-- ECHO_REQUEST (R58). -/
def execEchoRequest (port : LinkPort) (time : W64) (s : State) : Host.Outcome State Fault Refusal := onPortsLive (opEchoRequest port time) s

/-- ECHO_REPLY (R58). -/
def execEchoReply (port : LinkPort) (time : W64) (now : W64) (s : State) : Host.Outcome State Fault Refusal := onPortsLive (opEchoReply port time now) s

/-- MODE_CHANGE (R71). -/
def execModeChange (pid : Nat) (s : State) : Host.Outcome State Fault Refusal := onLive (opModeChange pid) s

/-- ADD (R89). -/
def execAdd (c : CoreIx) (sd : Reg) (sa : Reg) (sb : Reg) (s : State) : Host.Outcome State Fault Refusal := onLive (aluReg .add c sd sa sb) s

/-- SUB (R89). -/
def execSub (c : CoreIx) (sd : Reg) (sa : Reg) (sb : Reg) (s : State) : Host.Outcome State Fault Refusal := onLive (aluReg .sub c sd sa sb) s

/-- AND (R89). -/
def execAnd (c : CoreIx) (sd : Reg) (sa : Reg) (sb : Reg) (s : State) : Host.Outcome State Fault Refusal := onLive (aluReg .and c sd sa sb) s

/-- OR (R89). -/
def execOr (c : CoreIx) (sd : Reg) (sa : Reg) (sb : Reg) (s : State) : Host.Outcome State Fault Refusal := onLive (aluReg .or c sd sa sb) s

/-- XOR (R89). -/
def execXor (c : CoreIx) (sd : Reg) (sa : Reg) (sb : Reg) (s : State) : Host.Outcome State Fault Refusal := onLive (aluReg .xor c sd sa sb) s

/-- SHL (R89). -/
def execShl (c : CoreIx) (sd : Reg) (sa : Reg) (sb : Reg) (s : State) : Host.Outcome State Fault Refusal := onLive (aluReg .shl c sd sa sb) s

/-- SHR (R89). -/
def execShr (c : CoreIx) (sd : Reg) (sa : Reg) (sb : Reg) (s : State) : Host.Outcome State Fault Refusal := onLive (aluReg .shr c sd sa sb) s

/-- SRA (R89). -/
def execSra (c : CoreIx) (sd : Reg) (sa : Reg) (sb : Reg) (s : State) : Host.Outcome State Fault Refusal := onLive (aluReg .sra c sd sa sb) s

/-- MUL (R89). -/
def execMul (c : CoreIx) (sd : Reg) (sa : Reg) (sb : Reg) (s : State) : Host.Outcome State Fault Refusal := onLive (aluReg .mul c sd sa sb) s

/-- MULHU (R89). -/
def execMulhu (c : CoreIx) (sd : Reg) (sa : Reg) (sb : Reg) (s : State) : Host.Outcome State Fault Refusal := onLive (aluReg .mulhu c sd sa sb) s

/-- SLT (R89). -/
def execSlt (c : CoreIx) (sd : Reg) (sa : Reg) (sb : Reg) (s : State) : Host.Outcome State Fault Refusal := onLive (aluReg .slt c sd sa sb) s

/-- SLTU (R89). -/
def execSltu (c : CoreIx) (sd : Reg) (sa : Reg) (sb : Reg) (s : State) : Host.Outcome State Fault Refusal := onLive (aluReg .sltu c sd sa sb) s

/-- MIN (R89). -/
def execMin (c : CoreIx) (sd : Reg) (sa : Reg) (sb : Reg) (s : State) : Host.Outcome State Fault Refusal := onLive (aluReg .min c sd sa sb) s

/-- MAX (R89). -/
def execMax (c : CoreIx) (sd : Reg) (sa : Reg) (sb : Reg) (s : State) : Host.Outcome State Fault Refusal := onLive (aluReg .max c sd sa sb) s

/-- ADD_IMM (R89). -/
def execAddImm (c : CoreIx) (sd : Reg) (sa : Reg) (imm : W32) (s : State) : Host.Outcome State Fault Refusal := onLive (aluImm .add c sd sa imm) s

/-- SUB_IMM (R89). -/
def execSubImm (c : CoreIx) (sd : Reg) (sa : Reg) (imm : W32) (s : State) : Host.Outcome State Fault Refusal := onLive (aluImm .sub c sd sa imm) s

/-- AND_IMM (R89). -/
def execAndImm (c : CoreIx) (sd : Reg) (sa : Reg) (imm : W32) (s : State) : Host.Outcome State Fault Refusal := onLive (aluImm .and c sd sa imm) s

/-- OR_IMM (R89). -/
def execOrImm (c : CoreIx) (sd : Reg) (sa : Reg) (imm : W32) (s : State) : Host.Outcome State Fault Refusal := onLive (aluImm .or c sd sa imm) s

/-- XOR_IMM (R89). -/
def execXorImm (c : CoreIx) (sd : Reg) (sa : Reg) (imm : W32) (s : State) : Host.Outcome State Fault Refusal := onLive (aluImm .xor c sd sa imm) s

/-- SHL_IMM (R89). -/
def execShlImm (c : CoreIx) (sd : Reg) (sa : Reg) (imm : W32) (s : State) : Host.Outcome State Fault Refusal := onLive (aluImm .shl c sd sa imm) s

/-- SHR_IMM (R89). -/
def execShrImm (c : CoreIx) (sd : Reg) (sa : Reg) (imm : W32) (s : State) : Host.Outcome State Fault Refusal := onLive (aluImm .shr c sd sa imm) s

/-- SRA_IMM (R89). -/
def execSraImm (c : CoreIx) (sd : Reg) (sa : Reg) (imm : W32) (s : State) : Host.Outcome State Fault Refusal := onLive (aluImm .sra c sd sa imm) s

/-- MUL_IMM (R89). -/
def execMulImm (c : CoreIx) (sd : Reg) (sa : Reg) (imm : W32) (s : State) : Host.Outcome State Fault Refusal := onLive (aluImm .mul c sd sa imm) s

/-- MULHU_IMM (R89). -/
def execMulhuImm (c : CoreIx) (sd : Reg) (sa : Reg) (imm : W32) (s : State) : Host.Outcome State Fault Refusal := onLive (aluImm .mulhu c sd sa imm) s

/-- SLT_IMM (R89). -/
def execSltImm (c : CoreIx) (sd : Reg) (sa : Reg) (imm : W32) (s : State) : Host.Outcome State Fault Refusal := onLive (aluImm .slt c sd sa imm) s

/-- SLTU_IMM (R89). -/
def execSltuImm (c : CoreIx) (sd : Reg) (sa : Reg) (imm : W32) (s : State) : Host.Outcome State Fault Refusal := onLive (aluImm .sltu c sd sa imm) s

/-- MIN_IMM (R89). -/
def execMinImm (c : CoreIx) (sd : Reg) (sa : Reg) (imm : W32) (s : State) : Host.Outcome State Fault Refusal := onLive (aluImm .min c sd sa imm) s

/-- MAX_IMM (R89). -/
def execMaxImm (c : CoreIx) (sd : Reg) (sa : Reg) (imm : W32) (s : State) : Host.Outcome State Fault Refusal := onLive (aluImm .max c sd sa imm) s

/-- LI (R89). -/
def execLi (c : CoreIx) (sd : Reg) (imm : W32) (s : State) : Host.Outcome State Fault Refusal := onLive (opLi c sd imm) s

/-- LIH (R89). -/
def execLih (c : CoreIx) (sd : Reg) (imm : W32) (s : State) : Host.Outcome State Fault Refusal := onLive (opLih c sd imm) s

/-- LD (R98). -/
def execLd (c : CoreIx) (sd : Reg) (sa : Reg) (imm : W32) (v : Bool) (s : State) : Host.Outcome State Fault Refusal := onLive (opLd c sd sa imm v) s

/-- LW (R98). -/
def execLw (c : CoreIx) (sd : Reg) (sa : Reg) (imm : W32) (v : Bool) (s : State) : Host.Outcome State Fault Refusal := onLive (opLw c sd sa imm v) s

/-- SD (R98). -/
def execSd (c : CoreIx) (sd : Reg) (sa : Reg) (imm : W32) (s : State) : Host.Outcome State Fault Refusal := onLive (opSd c sd sa imm) s

/-- SW (R98). -/
def execSw (c : CoreIx) (sd : Reg) (sa : Reg) (imm : W32) (s : State) : Host.Outcome State Fault Refusal := onLive (opSw c sd sa imm) s

/-- LDC (R99). -/
def execLdc (c : CoreIx) (sd : Reg) (sa : Reg) (imm : W32) (s : State) : Host.Outcome State Fault Refusal := onLive (opLdc c sd sa imm) s

/-- SDC (R99). -/
def execSdc (c : CoreIx) (sd : Reg) (sa : Reg) (imm : W32) (s : State) : Host.Outcome State Fault Refusal := onLive (opSdc c sd sa imm) s

/-- CSRR (R101). -/
def execCsrr (c : CoreIx) (sd : Reg) (n : BitVec 12) (s : State) : Host.Outcome State Fault Refusal := onLive (opCsrr c sd n) s

/-- CSRW (R101). -/
def execCsrw (c : CoreIx) (sa : Reg) (n : BitVec 12) (s : State) : Host.Outcome State Fault Refusal := onLive (opCsrw c sa n) s

/-- AMOADD (R292). -/
def execAmoadd (c : CoreIx) (sd : Reg) (sa : Reg) (sb : Reg) (w : Bool) (s : State) : Host.Outcome State Fault Refusal := onLive (opAmo .add c sd sa sb w) s

/-- AMOSWAP (R292). -/
def execAmoswap (c : CoreIx) (sd : Reg) (sa : Reg) (sb : Reg) (w : Bool) (s : State) : Host.Outcome State Fault Refusal := onLive (opAmo .swap c sd sa sb w) s

/-- AMOCAS (R292). -/
def execAmocas (c : CoreIx) (sd : Reg) (sa : Reg) (sb : Reg) (w : Bool) (s : State) : Host.Outcome State Fault Refusal := onLive (opAmo .cas c sd sa sb w) s

/-- NOP (R89). -/
def execNop (c : CoreIx) (s : State) : Host.Outcome State Fault Refusal := onLive (opNop c) s

/-- BEQ (R100). -/
def execBeq (c : CoreIx) (sa : Reg) (sb : Reg) (imm : W32) (s : State) : Host.Outcome State Fault Refusal := onLive (opBranch .eq c sa sb imm) s

/-- BNE (R100). -/
def execBne (c : CoreIx) (sa : Reg) (sb : Reg) (imm : W32) (s : State) : Host.Outcome State Fault Refusal := onLive (opBranch .ne c sa sb imm) s

/-- BLT (R100). -/
def execBlt (c : CoreIx) (sa : Reg) (sb : Reg) (imm : W32) (s : State) : Host.Outcome State Fault Refusal := onLive (opBranch .lt c sa sb imm) s

/-- BGE (R100). -/
def execBge (c : CoreIx) (sa : Reg) (sb : Reg) (imm : W32) (s : State) : Host.Outcome State Fault Refusal := onLive (opBranch .ge c sa sb imm) s

/-- BLTU (R100). -/
def execBltu (c : CoreIx) (sa : Reg) (sb : Reg) (imm : W32) (s : State) : Host.Outcome State Fault Refusal := onLive (opBranch .ltu c sa sb imm) s

/-- BGEU (R100). -/
def execBgeu (c : CoreIx) (sa : Reg) (sb : Reg) (imm : W32) (s : State) : Host.Outcome State Fault Refusal := onLive (opBranch .geu c sa sb imm) s

/-- JAL (R100). -/
def execJal (c : CoreIx) (sd : Reg) (imm : W32) (s : State) : Host.Outcome State Fault Refusal := onLive (opJal c sd imm) s

/-- JR (R100). -/
def execJr (c : CoreIx) (sa : Reg) (s : State) : Host.Outcome State Fault Refusal := onLive (opJr c sa) s

/-- VADD (R170). -/
def execVadd (c : CoreIx) (vd : Reg) (va : Reg) (vb : Reg) (m : BitVec 2) (ty : VType) (s : State) : Host.Outcome State Fault Refusal := onLive (vec2 .add c vd va vb m ty) s

/-- VSUB (R170). -/
def execVsub (c : CoreIx) (vd : Reg) (va : Reg) (vb : Reg) (m : BitVec 2) (ty : VType) (s : State) : Host.Outcome State Fault Refusal := onLive (vec2 .sub c vd va vb m ty) s

/-- VMUL (R170). -/
def execVmul (c : CoreIx) (vd : Reg) (va : Reg) (vb : Reg) (m : BitVec 2) (ty : VType) (s : State) : Host.Outcome State Fault Refusal := onLive (vec2 .mul c vd va vb m ty) s

/-- VMIN (R172). -/
def execVmin (c : CoreIx) (vd : Reg) (va : Reg) (vb : Reg) (m : BitVec 2) (ty : VType) (s : State) : Host.Outcome State Fault Refusal := onLive (vec2 .min c vd va vb m ty) s

/-- VMAX (R172). -/
def execVmax (c : CoreIx) (vd : Reg) (va : Reg) (vb : Reg) (m : BitVec 2) (ty : VType) (s : State) : Host.Outcome State Fault Refusal := onLive (vec2 .max c vd va vb m ty) s

/-- VABS (R170). -/
def execVabs (c : CoreIx) (vd : Reg) (va : Reg) (m : BitVec 2) (ty : VType) (s : State) : Host.Outcome State Fault Refusal := onLive (opVabs c vd va m ty) s

/-- VFMA (R170). -/
def execVfma (c : CoreIx) (vd : Reg) (va : Reg) (vb : Reg) (vc : Reg) (m : BitVec 2) (ty : VType) (s : State) : Host.Outcome State Fault Refusal := onLive (opVfma c vd va vb vc m ty) s

/-- VCMP (R172). -/
def execVcmp (c : CoreIx) (md : BitVec 2) (va : Reg) (vb : Reg) (m : BitVec 2) (ty : VType) (op : CmpOp) (s : State) : Host.Outcome State Fault Refusal := onLive (opVcmp c md va vb m ty op) s

/-- VSEL (R89). -/
def execVsel (c : CoreIx) (vd : Reg) (va : Reg) (vb : Reg) (m : BitVec 2) (s : State) : Host.Outcome State Fault Refusal := onLive (opVsel c vd va vb m) s

/-- VCVT (R162). -/
def execVcvt (c : CoreIx) (vd : Reg) (va : Reg) (vb : Reg) (m : BitVec 2) (ty : VType) (out : OutFmt) (rnd : Rounding) (s : State) : Host.Outcome State Fault Refusal := onLive (opVcvt c vd va vb m ty out rnd) s

/-- VBCAST (R89). -/
def execVbcast (c : CoreIx) (vd : Reg) (sa : Reg) (m : BitVec 2) (s : State) : Host.Outcome State Fault Refusal := onLive (opVbcast c vd sa m) s

/-- VRED (R157). -/
def execVred (c : CoreIx) (vd : Reg) (va : Reg) (m : BitVec 2) (ty : VType) (s : State) : Host.Outcome State Fault Refusal := onLive (opVred c vd va m ty) s

/-- VMOVS (R89). -/
def execVmovs (c : CoreIx) (sd : Reg) (va : Reg) (ln : BitVec 7) (s : State) : Host.Outcome State Fault Refusal := onLive (opVmovs c sd va ln) s

/-- VEXP (R174). -/
def execVexp (c : CoreIx) (vd : Reg) (va : Reg) (m : BitVec 2) (s : State) : Host.Outcome State Fault Refusal := onLive (vtrans .exp c vd va m) s

/-- VLOG (R174). -/
def execVlog (c : CoreIx) (vd : Reg) (va : Reg) (m : BitVec 2) (s : State) : Host.Outcome State Fault Refusal := onLive (vtrans .log c vd va m) s

/-- VRCP (R174). -/
def execVrcp (c : CoreIx) (vd : Reg) (va : Reg) (m : BitVec 2) (s : State) : Host.Outcome State Fault Refusal := onLive (vtrans .rcp c vd va m) s

/-- VRSQRT (R174). -/
def execVrsqrt (c : CoreIx) (vd : Reg) (va : Reg) (m : BitVec 2) (s : State) : Host.Outcome State Fault Refusal := onLive (vtrans .rsqrt c vd va m) s

/-- VSIN (R174). -/
def execVsin (c : CoreIx) (vd : Reg) (va : Reg) (m : BitVec 2) (s : State) : Host.Outcome State Fault Refusal := onLive (vtrans .sin c vd va m) s

/-- VCOS (R174). -/
def execVcos (c : CoreIx) (vd : Reg) (va : Reg) (m : BitVec 2) (s : State) : Host.Outcome State Fault Refusal := onLive (vtrans .cos c vd va m) s

/-- VTANH (R174). -/
def execVtanh (c : CoreIx) (vd : Reg) (va : Reg) (m : BitVec 2) (s : State) : Host.Outcome State Fault Refusal := onLive (vtrans .tanh c vd va m) s

/-- VSIGM (R174). -/
def execVsigm (c : CoreIx) (vd : Reg) (va : Reg) (m : BitVec 2) (s : State) : Host.Outcome State Fault Refusal := onLive (vtrans .sigm c vd va m) s

/-- VLD (R99). -/
def execVld (c : CoreIx) (vd : Reg) (sa : Reg) (m : BitVec 2) (imm : W32) (s : State) : Host.Outcome State Fault Refusal := onLive (opVld c vd sa m imm) s

/-- VST (R99). -/
def execVst (c : CoreIx) (vd : Reg) (sa : Reg) (imm : W32) (s : State) : Host.Outcome State Fault Refusal := onLive (opVst c vd sa imm) s

/-- VLDG (R99). -/
def execVldg (c : CoreIx) (vd : Reg) (sa : Reg) (m : BitVec 2) (imm : W32) (s : State) : Host.Outcome State Fault Refusal := onLive (opVldg c vd sa m imm) s

/-- VSTG (R99). -/
def execVstg (c : CoreIx) (vd : Reg) (sa : Reg) (imm : W32) (s : State) : Host.Outcome State Fault Refusal := onLive (opVstg c vd sa imm) s

/-- LOADW (R119). -/
def execLoadw (c : CoreIx) (fmt : ArrFmt) (src : BitVec 22) (s : State) : Host.Outcome State Fault Refusal := onLive (opLoadw c fmt src) s

/-- PASS (R120). -/
def execPass (c : CoreIx) (fmt : ArrFmt) (fold : Bool) (arr : BitVec 2) (rowsM1 : BitVec 8) (acc : BitVec 8) (src : BitVec 22) (s : State) : Host.Outcome State Fault Refusal := onLive (pass false c fmt fold arr rowsM1 acc src) s

/-- PASST (R121). -/
def execPasst (c : CoreIx) (fmt : ArrFmt) (fold : Bool) (arr : BitVec 2) (rowsM1 : BitVec 8) (acc : BitVec 8) (src : BitVec 22) (s : State) : Host.Outcome State Fault Refusal := onLive (pass true c fmt fold arr rowsM1 acc src) s

/-- DRAIN (R130). -/
def execDrain (c : CoreIx) (sa : Reg) (sb : Reg) (arr : BitVec 2) (rowsM1 : BitVec 8) (acc : BitVec 8) (out : OutFmt) (rnd : Rounding) (dst : BitVec 22) (s : State) : Host.Outcome State Fault Refusal := onLive (opDrain c sa sb arr rowsM1 acc out rnd dst) s

/-- MASK (R133). -/
def execMask (c : CoreIx) (sa : Reg) (sb : Reg) (s : State) : Host.Outcome State Fault Refusal := onLive (opMask c sa sb) s

/-- FETCH (R94). -/
def execFetch (c : CoreIx) (sa : Reg) (sb : Reg) (sc : Reg) (v : Bool) (crib : BitVec 22) (s : State) : Host.Outcome State Fault Refusal := onLive (opFetch c sa sb sc v crib) s

/-- STOW (R95). -/
def execStow (c : CoreIx) (sa : Reg) (sb : Reg) (sc : Reg) (crib : BitVec 22) (s : State) : Host.Outcome State Fault Refusal := onLive (opStow c sa sb sc crib) s

/-- SIGNAL_INSTRUCTION (R105). -/
def execSignalInstr (c : CoreIx) (r : Reg) (reg : Bool) (remote : Bool) (die : DieIx) (obj : ObjIx) (imm : W32) (s : State) : Host.Outcome State Fault Refusal := onLive (opSignalInstr c r reg remote die obj imm) s

/-- WAIT_INSTRUCTION (R106). -/
def execWaitInstr (c : CoreIx) (r : Reg) (equal : Bool) (obj : ObjIx) (s : State) : Host.Outcome State Fault Refusal := onLive (opWaitInstr c r equal obj) s

/-- BARRIER_INSTRUCTION (R108). -/
def execBarrierInstr (c : CoreIx) (scope : Scope) (s : State) : Host.Outcome State Fault Refusal := onLive (opBarrierInstr c scope) s

/-- SLICE_END (R109). -/
def execSliceEnd (c : CoreIx) (s : State) : Host.Outcome State Fault Refusal := onLive (opSliceEnd c) s

/-- SLICE_END_RETIRE (R109). -/
def execSliceEndRetire (c : CoreIx) (s : State) : Host.Outcome State Fault Refusal := onLive (opSliceEndRetire c) s

/-- UNDEFINED_ENCODING (R97). -/
def execUndefinedEncoding (c : CoreIx) (s : State) : Host.Outcome State Fault Refusal := onLive (opUndefinedEncoding c) s

/-- PROGRAM_PARITY_STOP (R116). -/
def execProgramParityStop (c : CoreIx) (s : State) : Host.Outcome State Fault Refusal := onLive (opProgramParityStop c) s

/-- CRIB_ECC_WRITEBACK (R88). -/
def execCribEccWriteback (c : CoreIx) (word : Nat) (s : State) : Host.Outcome State Fault Refusal := onLive (opCribEccWriteback c word) s

/-- FETCH_COMPLETE (R285). -/
def execFetchComplete (c : CoreIx) (e : EngIx) (s : State) : Host.Outcome State Fault Refusal := onLive (opFetchComplete c e) s

/-- WRITE_ACKNOWLEDGE (R273). -/
def execWriteAcknowledge (req : Req) (id : Nat) (s : State) : Host.Outcome State Fault Refusal := onLive (opWriteAcknowledge req id) s

/-- LOAD_RETURN (R91). -/
def execLoadReturn (c : CoreIx) (id : Nat) (s : State) : Host.Outcome State Fault Refusal := onLive (opLoadReturn c id) s

/-- BARRIER_RELEASE (R108). -/
def execBarrierRelease (c : CoreIx) (s : State) : Host.Outcome State Fault Refusal := onLive (opBarrierRelease c) s

/-- SYSBAR_ARRIVAL (R288). -/
def execSysbarArrival (src : Place) (part : PartIx) (inst : Nat) (s : State) : Host.Outcome State Fault Refusal := onLive (opSysbarArrival src part inst) s

/-- SYSBAR_RELEASE (R288). -/
def execSysbarRelease (part : PartIx) (inst : Nat) (s : State) : Host.Outcome State Fault Refusal := onLive (opSysbarRelease part inst) s

/-- DECODE_ROUND (R210). -/
def execDecodeRound (s : State) : Host.Outcome State Fault Refusal := onLive (opDecodeRound) s

/-- DOORBELL (R201). -/
def execDoorbell (who : Who) (r : RingIx) (v : W32) (s : State) : Host.Outcome State Fault Refusal := onDie (fromHost who false true (r.val * 4096) (posted who true (r.val * 4096) v (opDoorbell who r v))) s

/-- RESUME (R217). -/
def execResume (who : Who) (r : RingIx) (s : State) : Host.Outcome State Fault Refusal := onDie (fromHost who false true (r.val * 4096 + 4) (posted who true (r.val * 4096 + 4) 1 (opResume who r))) s

/-- RING_ENABLE (R203). -/
def execRingEnable (who : Who) (r : RingIx) (v : W32) (s : State) : Host.Outcome State Fault Refusal := onDie (fromHost who false true (r.val * 4096 + 0x28) (posted who true (r.val * 4096 + 0x28) v (opRingEnable who r v))) s

/-- RING_DISABLE (R203). -/
def execRingDisable (who : Who) (r : RingIx) (v : W32) (s : State) : Host.Outcome State Fault Refusal := onDie (fromHost who false true (r.val * 4096 + 0x28) (posted who true (r.val * 4096 + 0x28) v (opRingDisable who r v))) s

/-- RING_DISABLE_COMPLETE (R203). -/
def execRingDisableComplete (r : RingIx) (s : State) : Host.Outcome State Fault Refusal := onLive (opRingDisableComplete r) s

/-- COMPLETION_RECORD_WRITE (R220). -/
def execCompletionRecordWrite (pid : Nat) (s : State) : Host.Outcome State Fault Refusal := onLive (opRecordWrite pid) s

/-- NOP_PACKET (R209). -/
def execNopPacket (pid : Nat) (s : State) : Host.Outcome State Fault Refusal := onLive (opNopPacket pid) s

/-- LAUNCH_SLICES (R225). -/
def execLaunchSlices (pid : Nat) (s : State) : Host.Outcome State Fault Refusal := onLive (opLaunchSlices pid) s

/-- LAUNCH_STEP (R232). -/
def execLaunchStep (pid : Nat) (s : State) : Host.Outcome State Fault Refusal := onLive (opLaunchStep pid) s

/-- PLAN_TABLE_READ (R228). -/
def execPlanTableRead (key : Nat) (s : State) : Host.Outcome State Fault Refusal := onLive (opPlanTableRead key) s

/-- COALESCE_DECODE (R234). -/
def execCoalesceDecode (pid : Nat) (s : State) : Host.Outcome State Fault Refusal := onLive (opCoalesceDecode pid) s

/-- COALESCE_BATCH_COMPLETE (R141). -/
def execCoalesceBatchComplete (key : Nat) (s : State) : Host.Outcome State Fault Refusal := onLive (opBatchComplete key) s

/-- COPY (R239). -/
def execCopy (pid : Nat) (s : State) : Host.Outcome State Fault Refusal := onLive (opCopy pid) s

/-- COPY_INLINE (R237). -/
def execCopyInline (pid : Nat) (s : State) : Host.Outcome State Fault Refusal := onLive (opCopyInline pid) s

/-- FILL (R237). -/
def execFill (pid : Nat) (s : State) : Host.Outcome State Fault Refusal := onLive (opFill pid) s

/-- COPY_STRIDED (R238). -/
def execCopyStrided (pid : Nat) (s : State) : Host.Outcome State Fault Refusal := onLive (opCopyStrided pid) s

/-- COPY_CHUNK (R239). -/
def execCopyChunk (e : CopyIx) (s : State) : Host.Outcome State Fault Refusal := onLive (opCopyChunk e) s

/-- PREFETCH_RANGE (R381). -/
def execPrefetchRange (pid : Nat) (s : State) : Host.Outcome State Fault Refusal := onLive (opPrefetchRange pid) s

/-- ADVISE (R382). -/
def execAdvise (pid : Nat) (s : State) : Host.Outcome State Fault Refusal := onLive (opAdvise pid) s

/-- REDUCE_SEGMENT (R178). -/
def execReduceSegment (pid : Nat) (s : State) : Host.Outcome State Fault Refusal := onLive (opReduceSegment pid) s

/-- REDUCE_PARTIAL_RECEIVE (R181). -/
def execReducePartialReceive (m : PartialMsg) (s : State) : Host.Outcome State Fault Refusal := onDie (fromDie m.head (opPartialReceive m)) s

/-- REDUCE_PARTIAL_SEND (R187). -/
def execReducePartialSend (slot : Fin 1024) (n : Fin 4) (s : State) : Host.Outcome State Fault Refusal := onLive (opPartialSend slot n) s

/-- REDUCE_SLOT_COMPLETE (R184). -/
def execReduceSlotComplete (slot : Fin 1024) (s : State) : Host.Outcome State Fault Refusal := onLive (opSlotComplete slot) s

/-- EARLY_ARRIVAL_TIMEOUT (R185). -/
def execEarlyArrivalTimeout (n : Nat) (s : State) : Host.Outcome State Fault Refusal := onLive (opEarlyTimeout n) s

/-- SLOT_TIMEOUT (R186). -/
def execSlotTimeout (slot : Fin 1024) (s : State) : Host.Outcome State Fault Refusal := onLive (opSlotTimeout slot) s

/-- NORM_PARTIAL (R189). -/
def execNormPartial (pid : Nat) (s : State) : Host.Outcome State Fault Refusal := onLive (opNormPartial pid) s

/-- OPTIMIZER_STEP (R192). -/
def execOptimizerStep (pid : Nat) (s : State) : Host.Outcome State Fault Refusal := onLive (opOptimizerStep pid) s

/-- SIGNAL_PACKET (R254). -/
def execSignalPacket (pid : Nat) (s : State) : Host.Outcome State Fault Refusal := onLive (opSignalPacket pid) s

/-- WAIT_PACKET (R261). -/
def execWaitPacket (pid : Nat) (s : State) : Host.Outcome State Fault Refusal := onLive (opWaitPacket pid) s

/-- BARRIER_PACKET (R243). -/
def execBarrierPacket (pid : Nat) (s : State) : Host.Outcome State Fault Refusal := onLive (opBarrierPacket pid) s

/-- FLAG_WRITE (R243). -/
def execFlagWrite (pid : Nat) (s : State) : Host.Outcome State Fault Refusal := onLive (opFlagWrite pid) s

/-- TIMESTAMP (R243). -/
def execTimestamp (pid : Nat) (s : State) : Host.Outcome State Fault Refusal := onLive (opTimestamp pid) s

/-- MAP_RANGE (R361). -/
def execMapRange (pid : Nat) (s : State) : Host.Outcome State Fault Refusal := onLive (opMapRange pid) s

/-- UNMAP_RANGE (R376). -/
def execUnmapRange (pid : Nat) (s : State) : Host.Outcome State Fault Refusal := onLive (opUnmapRange pid) s

/-- INVALIDATE_RANGE (R376). -/
def execInvalidateRange (pid : Nat) (s : State) : Host.Outcome State Fault Refusal := onLive (opInvalidateRange pid) s

/-- LOAD_PROGRAM (R110). -/
def execLoadProgram (pid : Nat) (s : State) : Host.Outcome State Fault Refusal := onLive (opLoadProgram pid) s

/-- SWITCH_PROGRAM (R111). -/
def execSwitchProgram (pid : Nat) (s : State) : Host.Outcome State Fault Refusal := onLive (opSwitchProgram pid) s

/-- SET_QOS (R476). -/
def execSetQos (pid : Nat) (s : State) : Host.Outcome State Fault Refusal := onLive (opSetQos pid) s

/-- SELFTEST (R537). -/
def execSelftest (pid : Nat) (s : State) : Host.Outcome State Fault Refusal := onLive (opSelftest pid) s

/-- QUERY (R209). -/
def execQuery (pid : Nat) (s : State) : Host.Outcome State Fault Refusal := onLive (opQuery pid) s

/-- OPEN_WINDOW (R439). -/
def execOpenWindow (pid : Nat) (s : State) : Host.Outcome State Fault Refusal := onLive (opOpenWindow pid) s

/-- CLOSE_WINDOW (R443). -/
def execCloseWindow (pid : Nat) (s : State) : Host.Outcome State Fault Refusal := onLive (opCloseWindow pid) s

/-- PRESERVE_ARM (R387). -/
def execPreserveArm (pid : Nat) (s : State) : Host.Outcome State Fault Refusal := onLive (opPreserveArm pid) s

/-- LOCK_WAYS (R343). -/
def execLockWays (pid : Nat) (s : State) : Host.Outcome State Fault Refusal := onLive (opLockWays pid) s

/-- GROOM_ROUND (R248). -/
def execGroomRound (s : State) : Host.Outcome State Fault Refusal := onLive (opGroomRound) s

/-- GROOM_KICK (R250). -/
def execGroomKick (who : Who) (s : State) : Host.Outcome State Fault Refusal := onDie (fromHost who true true GROOM_WDOG (posted who false GROOM_WDOG 1 (opGroomKick who))) s

/-- GROOM_WATCHDOG_EXPIRE (R250). -/
def execGroomWatchdogExpire (s : State) : Host.Outcome State Fault Refusal := onLive (opGroomWatchdogExpire) s

/-- GROOM_RESTART_DONE (R251). -/
def execGroomRestartDone (s : State) : Host.Outcome State Fault Refusal := onLive (opGroomRestartDone) s

/-- SYNC_BANK_UPDATE (R263). -/
def execSyncBankUpdate (bank : Fin 8) (s : State) : Host.Outcome State Fault Refusal := onLive (homeEvent (opSyncBankUpdate bank)) s

/-- WAIT_TIMEOUT (R261). -/
def execWaitTimeout (pid : Nat) (s : State) : Host.Outcome State Fault Refusal := onLive (opWaitTimeout pid) s

/-- SIGNAL_MSG_RECEIVE (R256). -/
def execSignalMsgReceive (m : SignalMsg) (s : State) : Host.Outcome State Fault Refusal := onDie (fromDie m.head (opSignalMsgReceive m)) s

/-- SIGNAL_ACK_RECEIVE (R255). -/
def execSignalAckReceive (head : MsgHead) (st : Status) (s : State) : Host.Outcome State Fault Refusal := onLive (opSignalAckReceive head st) s

/-- SYNC_ADD (R254). -/
def execSyncAdd (who : Who) (n : ObjIx) (v : W32) (s : State) : Host.Outcome State Fault Refusal := onDie (fromHost who true true (objOff who n 8) (posted who false (objOff who n 8) v (opSyncAdd who n v))) s

/-- SYNC_OWNER_WRITE (R267). -/
def execSyncOwnerWrite (who : Who) (n : ObjIx) (v : W32) (s : State) : Host.Outcome State Fault Refusal := onDie (fromHost who true true (objOff who n 12) (posted who false (objOff who n 12) v (opSyncOwnerWrite who n v))) s

/-- CLEAR (R268). -/
def execClear (who : Who) (n : ObjIx) (s : State) : Host.Outcome State Fault Refusal := onDie (fromHost who true true (objOff who n 12) (fun d => posted who false (objOff who n 12) ((d.obj n).owner.setWidth 32 ||| 16) (opClear who n) d)) s

/-- SYNC_VALUE_LO_READ (R543). -/
def execSyncValueLoRead (who : Who) (n : ObjIx) (s : State) : Host.Outcome State Fault Refusal := onDie (fromHost who true false (objOff who n 0) (postedRead who (.valueLo n))) s

/-- TICK_NOW_LO_READ (R543). -/
def execTickNowLoRead (who : Who) (s : State) : Host.Outcome State Fault Refusal := onDie (fromHost who true false TICK_NOW_LO (postedRead who .tickLo)) s

/-- HOME_REQUEST_ACCEPT (R311). -/
def execHomeRequestAccept (slice : SliceIx) (stop : Fin 64) (s : State) : Host.Outcome State Fault Refusal := onLive (homeEvent (opHomeRequestAccept slice stop)) s

/-- L1_INVALIDATION (R318). -/
def execL1Invalidation (stop : Fin 64) (s : State) : Host.Outcome State Fault Refusal := onLive (homeEvent fun d => d.l1Invalidation stop) s

/-- L1_FILL (R318). -/
def execL1Fill (stop : Fin 64) (s : State) : Host.Outcome State Fault Refusal := onLive (opL1Fill stop) s

/-- MEMORY_FILL_RETURN (R313). -/
def execMemoryFillReturn (line : Nat) (s : State) : Host.Outcome State Fault Refusal := onLive (homeEvent (opMemoryFillReturn line)) s

/-- REVOKE (R330). -/
def execRevoke (stop : Fin 64) (s : State) : Host.Outcome State Fault Refusal := onLive (opRevoke stop) s

/-- EXCLUSIVE_RELEASE (R330). -/
def execExclusiveRelease (stop : Fin 64) (line : Nat) (s : State) : Host.Outcome State Fault Refusal := onLive (opExclusiveRelease stop line) s

/-- RELEASE_RECEIVE (R331). -/
def execReleaseReceive (slice : SliceIx) (stop : Fin 64) (s : State) : Host.Outcome State Fault Refusal := onLive (homeEvent (opReleaseReceive slice stop)) s

/-- FAR_ATOMIC_RETURN (R332). -/
def execFarAtomicReturn (line : Nat) (s : State) : Host.Outcome State Fault Refusal := onLive (homeEvent (opFarAtomicReturn line)) s

/-- HAYLOFT_WRITEBACK (R327). -/
def execHayloftWriteback (slice : SliceIx) (s : State) : Host.Outcome State Fault Refusal := onLive (opHayloftWriteback slice) s

/-- NEXT_LINE_PREFETCH (R325). -/
def execNextLinePrefetch (slice : SliceIx) (s : State) : Host.Outcome State Fault Refusal := onLive (opNextLinePrefetch slice) s

/-- HOST_SNOOP (R338). -/
def execHostSnoop (kind : Snoop) (addr : Nat) (s : State) : Host.Outcome State Fault Refusal := onLive (opHostSnoop kind addr) s

/-- KEY_SWEEP (R341). -/
def execKeySweep (p : PartIx) (s : State) : Host.Outcome State Fault Refusal := onLive (opKeySweep p) s

/-- KEY_SWEEP_COMPLETE (R341). -/
def execKeySweepComplete (s : State) : Host.Outcome State Fault Refusal := onLive (homeEvent (opKeySweepComplete)) s

/-- PATROL_SCRUB (R351). -/
def execPatrolScrub (stack : StackIx) (s : State) : Host.Outcome State Fault Refusal := onLive (opPatrolScrub stack) s

/-- HBM_OFFLINE (R352). -/
def execHbmOffline (who : Who) (v : W32) (s : State) : Host.Outcome State Fault Refusal := onDie (fromHost who true true HBM_CTRL (posted who false HBM_CTRL v (opHbmOffline who v))) s

/-- HKM_DATA_ACCESS (R355). -/
def execHkmDataAccess (who : Who) (v : Option W32) (s : State) : Host.Outcome State Fault Refusal := onDie (fromHost who true v.isSome HKM_DATA (match v with
    | some x => posted who false HKM_DATA x (opHkmDataAccess who (some x))
    | none => postedRead who .hkm)) s

/-- BIAS_FLIP (R365). -/
def execBiasFlip (who : Who) (v : W32) (s : State) : Host.Outcome State Fault Refusal := onDie (fromHost who true true BIAS_FLIP (posted who false BIAS_FLIP v (opBiasFlip who v))) s

/-- BIAS_FLIP_COMPLETE (R365). -/
def execBiasFlipComplete (s : State) : Host.Outcome State Fault Refusal := onLive (opBiasFlipComplete) s

/-- ROTATE (R356). -/
def execRotate (who : Who) (v : W32) (s : State) : Host.Outcome State Fault Refusal := onDie (fromHost who true true MEMKEY_CTRL (posted who false MEMKEY_CTRL v (opRotate who v))) s

/-- ATS_COMPLETION (R370). -/
def execAtsCompletion (id : Nat) (hpa : Nat) (r : Bool) (w : Bool) (s : State) : Host.Outcome State Fault Refusal := onLive (opAtsCompletion id hpa r w) s

/-- PAGE_REQUEST_SEND (R372). -/
def execPageRequestSend (s : State) : Host.Outcome State Fault Refusal := onLive (opPageRequestSend) s

/-- PRG_RESPONSE (R374). -/
def execPrgResponse (fn : PartIx) (index : Nat) (code : PrgCode) (s : State) : Host.Outcome State Fault Refusal := onLive (opPrgResponse fn index code) s

/-- PAGE_REQUEST_TIMEOUT (R375). -/
def execPageRequestTimeout (fn : PartIx) (index : Nat) (s : State) : Host.Outcome State Fault Refusal := onLive (opPageRequestTimeout fn index) s

/-- PRI_ENABLE (R374). -/
def execPriEnable (fn : PartIx) (s : State) : Host.Outcome State Fault Refusal := onLive (opPriEnable fn) s

/-- ATS_INVALIDATION (R378). -/
def execAtsInvalidation (fn : PartIx) (tag : Nat) (lo : Nat) (hi : Nat) (s : State) : Host.Outcome State Fault Refusal := onLive (opAtsInvalidation fn tag lo hi) s

/-- ATS_INVALIDATION_COMPLETE (R378). -/
def execAtsInvalidationComplete (tag : Nat) (s : State) : Host.Outcome State Fault Refusal := onLive (opAtsInvalidationComplete tag) s

/-- TIER_READ (R385). -/
def execTierRead (head : MsgHead) (addr : Nat) (s : State) : Host.Outcome State Fault Refusal := onDie (fromDie head (opTierRead head addr)) s

/-- ORPHAN_ENTRY (R388). -/
def execOrphanEntry (ev : HostEvent) (s : State) : Host.Outcome State Fault Refusal := onDie (opOrphanEntry ev) s

/-- REATTACH (R390). -/
def execReattach (who : Who) (s : State) : Host.Outcome State Fault Refusal := onDie (fromHost who true true PRESERVE_CTRL (posted who false PRESERVE_CTRL 1 (opReattach who))) s

/-- DISCARD (R390). -/
def execDiscard (who : Who) (s : State) : Host.Outcome State Fault Refusal := onDie (fromHost who true true PRESERVE_CTRL (posted who false PRESERVE_CTRL 2 (opDiscard who))) s

/-- HOST_LINK_TRAIN (R394). -/
def execHostLinkTrain (modules : BitVec 2) (rate : BitVec 3) (s : State) : Host.Outcome State Fault Refusal := onDie (opHostLinkTrain modules rate) s

/-- HDM_COMMIT (R400). -/
def execHdmCommit (decs : List Hdm) (s : State) : Host.Outcome State Fault Refusal := onWf (decide (decs.length ≤ 2)) (onLive (opHdmCommit decs)) s

/-- HDM_MIRROR_RECEIVE (R400). -/
def execHdmMirrorReceive (head : MsgHead) (decs : List Hdm) (s : State) : Host.Outcome State Fault Refusal := onWf (decide (decs.length ≤ 2)) (onDie (fromDie head (opHdmMirrorReceive head decs))) s

/-- CXL_MEM_REQUEST (R404). -/
def execCxlMemRequest (hpa : Nat) (write : Option LineData) (mask : BitVec 128) (s : State) : Host.Outcome State Fault Refusal := onLive (opCxlMemRequest hpa write mask) s

/-- BAR4_ACCESS (R406). -/
def execBar4Access (tlp : Tlp) (off : Nat) (n : Nat) (write : Option (List Byte)) (s : State) : Host.Outcome State Fault Refusal := onDie (fromHost (.fn 0 tlp) false write.isSome off (opBar4Access off n write)) s

/-- CXL_CACHE_RESPONSE (R409). -/
def execCxlCacheResponse (tag : Nat) (data : LineData) (s : State) : Host.Outcome State Fault Refusal := onLive (homeEvent (opCxlCacheResponse tag data)) s

/-- CXL_CACHE_TIMEOUT (R410). -/
def execCxlCacheTimeout (tag : Nat) (s : State) : Host.Outcome State Fault Refusal := onLive (homeEvent (opCxlCacheTimeout tag)) s

/-- P2P_READ_COMPLETION (R419). -/
def execP2pReadCompletion (tag : Nat) (data : List Byte) (s : State) : Host.Outcome State Fault Refusal := onLive (opP2pReadCompletion tag data) s

/-- FLR_VF (R413). -/
def execFlrVf (p : PartIx) (s : State) : Host.Outcome State Fault Refusal := onLive (opFlrVf p) s

/-- FLR_PF (R416). -/
def execFlrPf (s : State) : Host.Outcome State Fault Refusal := onLive (opFlrPf) s

/-- CXL_RESET (R417). -/
def execCxlReset (s : State) : Host.Outcome State Fault Refusal := onDie (opCxlReset) s

/-- HOST_RESET_EVENT (R388). -/
def execHostResetEvent (ev : HostEvent) (s : State) : Host.Outcome State Fault Refusal := onDie (opHostResetEvent ev) s

/-- GET_VERSION (R424). -/
def execGetVersion (s : State) : Host.Outcome State Fault Refusal := onDie (opGetVersion) s

/-- GET_CAPABILITIES (R424). -/
def execGetCapabilities (s : State) : Host.Outcome State Fault Refusal := onDie (opGetCapabilities) s

/-- NEGOTIATE_ALGORITHMS (R425). -/
def execNegotiateAlgorithms (s : State) : Host.Outcome State Fault Refusal := onDie (opNegotiateAlgorithms) s

/-- GET_DIGESTS (R425). -/
def execGetDigests (s : State) : Host.Outcome State Fault Refusal := onDie (opGetDigests) s

/-- GET_CERTIFICATE (R425). -/
def execGetCertificate (slot : Nat) (off : Nat) (n : Nat) (s : State) : Host.Outcome State Fault Refusal := onDie (opGetCertificate slot off n) s

/-- CHALLENGE (R425). -/
def execChallenge (slot : Nat) (nonce : List Byte) (s : State) : Host.Outcome State Fault Refusal := onWf (nonce.length == 32) (onDie (opChallenge slot nonce)) s

/-- GET_MEASUREMENTS (R425). -/
def execGetMeasurements (index : Nat) (signed : Bool) (nonce : List Byte) (s : State) : Host.Outcome State Fault Refusal := onWf (nonce.length == if signed then 32 else 0) (onDie (opGetMeasurements index signed nonce)) s

/-- SPDM_UNSUPPORTED_REQUEST (R424). -/
def execSpdmUnsupportedRequest (code : Byte) (s : State) : Host.Outcome State Fault Refusal := onDie (opSpdmUnsupportedRequest code) s

/-- DOE_DISCOVERY (R424). -/
def execDoeDiscovery (index : Nat) (s : State) : Host.Outcome State Fault Refusal := onDie (opDoeDiscovery index) s

/-- CXL_TABLE_ACCESS (R404). -/
def execCxlTableAccess (index : Nat) (s : State) : Host.Outcome State Fault Refusal := onDie (opCxlTableAccess index) s

/-- PEER_LINK_TRAIN (R427). -/
def execPeerLinkTrain (port : PortIx) (modules : BitVec 4) (s : State) : Host.Outcome State Fault Refusal := onPortsLive (opPeerLinkTrain port modules) s

/-- LINK_HELLO_RECEIVE (R450). -/
def execLinkHelloReceive (port : LinkPort) (h : Hello) (s : State) : Host.Outcome State Fault Refusal := onWf (h.pools.length == 10) (onPortsLive (opLinkHelloReceive port h)) s

/-- LINK_LIST_RECEIVE (R429). -/
def execLinkListReceive (port : PortIx) (die : DieIx) (links : List (DieIx × PortIx × Bool)) (s : State) : Host.Outcome State Fault Refusal := onWf (decide (links.length ≤ 4)) (onPortsLive (opLinkListReceive port die links)) s

/-- PEER_MODULE_LOSS (R428). -/
def execPeerModuleLoss (port : PortIx) (m : Fin 4) (s : State) : Host.Outcome State Fault Refusal := onPortsLive (opPeerModuleLoss port m) s

/-- PEER_LINK_DOWN (R430). -/
def execPeerLinkDown (port : PortIx) (s : State) : Host.Outcome State Fault Refusal := onPortsLive (opPeerLinkDown port) s

/-- OPTICAL_MSG_RECEIVE (R431). -/
def execOpticalMsgReceive (n : OptIx) (m : FabMsg) (offset : W16) (chain : W16) (s : State) : Host.Outcome State Fault Refusal := onWf (m.wf) (onDie (fromPort (.opt n) m (opOpticalMsgReceive n m offset chain))) s

/-- PEER_MSG_FORWARD (R429). -/
def execPeerMsgForward (port : LinkPort) (m : FabMsg) (s : State) : Host.Outcome State Fault Refusal := onWf (m.wf) (onDie (fromPort port m (opPeerMsgForward port m))) s

/-- WINDOW_WRITE (R440). -/
def execWindowWrite (m : WinWrite) (s : State) : Host.Outcome State Fault Refusal := onDie (fromDie m.head (opWindowWrite m)) s

/-- WINDOW_READ (R440). -/
def execWindowRead (m : WinRead) (s : State) : Host.Outcome State Fault Refusal := onDie (fromDie m.head (opWindowRead m)) s

/-- READ_RESPONSE (R440). -/
def execReadResponse (m : Response) (s : State) : Host.Outcome State Fault Refusal := onLive (opReadResponse m) s

/-- WINDOW_OP_TIMEOUT (R444). -/
def execWindowOpTimeout (tag : W32) (s : State) : Host.Outcome State Fault Refusal := onLive (opWindowOpTimeout tag) s

/-- ERROR_REPORT (R458). -/
def execErrorReport (m : ErrorReport) (s : State) : Host.Outcome State Fault Refusal := onLive (opErrorReport m) s

/-- MANAGEMENT_MSG_RECEIVE (R553). -/
def execManagementMsgReceive (m : MgmtMsg) (s : State) : Host.Outcome State Fault Refusal := onWf (m.body.wf) (onDie (fromDie m.head (opManagementMsgReceive m))) s

/-- CREDIT_RECEIVE (R450). -/
def execCreditReceive (port : LinkPort) (units : List Nat) (s : State) : Host.Outcome State Fault Refusal := onWf (units.length == 10) (onLive (opCreditReceive port units)) s

/-- CREDIT_RETURN_TIMER (R450). -/
def execCreditReturnTimer (port : LinkPort) (s : State) : Host.Outcome State Fault Refusal := onLive (opCreditReturnTimer port) s

/-- NIVIK_FLIT_RECEIVE (R446). -/
def execNivikFlitReceive (n : OptIx) (crcOk : Bool) (tagOk : Bool) (seq : Nat) (phase : Bool) (ack : Bool) (credit : Option (Fin 8 × Nat)) (s : State) : Host.Outcome State Fault Refusal := onLive (opNivikFlitReceive n crcOk tagOk seq phase ack credit) s

/-- FLIT_REPLAY (R446). -/
def execFlitReplay (n : OptIx) (s : State) : Host.Outcome State Fault Refusal := onLive (opFlitReplay n) s

/-- OPTICAL_LANE_LOSS (R446). -/
def execOpticalLaneLoss (n : OptIx) (lane : Fin 16) (s : State) : Host.Outcome State Fault Refusal := onLive (opOpticalLaneLoss n lane) s

/-- KEY_UPDATE (R454). -/
def execKeyUpdate (n : OptIx) (s : State) : Host.Outcome State Fault Refusal := onLive (opKeyUpdate n) s

/-- SPDM_RECORD_RECEIVE (R453). -/
def execSpdmRecordReceive (n : OptIx) (r : SessionResult) (s : State) : Host.Outcome State Fault Refusal := onLive (opSpdmRecordReceive n r) s

/-- SESSION_TIMEOUT (R453). -/
def execSessionTimeout (n : OptIx) (s : State) : Host.Outcome State Fault Refusal := onLive (opSessionTimeout n) s

/-- CREDIT_STALL (R449). -/
def execCreditStall (n : OptIx) (s : State) : Host.Outcome State Fault Refusal := onLive (opCreditStall n) s

/-- OPT_ENABLE (R455). -/
def execOptEnable (who : Who) (n : OptIx) (v : W32) (s : State) : Host.Outcome State Fault Refusal := onDie (fromHost who true true (OPT_CTRL n.val) (posted who false (OPT_CTRL n.val) v (opOptEnable who n v))) s

/-- ADMIT (R456). -/
def execAdmission (who : Who) (n : OptIx) (v : W32) (s : State) : Host.Outcome State Fault Refusal := onDie (fromHost who true true (OPT_CTRL n.val) (posted who false (OPT_CTRL n.val) v (opAdmit who n v))) s

/-- TICK_SRC (R457). -/
def execTickSrc (who : Who) (n : OptIx) (v : W32) (s : State) : Host.Outcome State Fault Refusal := onDie (fromHost who true true (OPT_CTRL n.val) (posted who false (OPT_CTRL n.val) v (opTickSrc who n v))) s

/-- FABRIC_SUPPLY_LOSS (R433). -/
def execFabricSupplyLoss (s : State) : Host.Outcome State Fault Refusal := onDie (opFabricSupplyLoss) s

/-- PRESENCE_CHANGE (R573). -/
def execPresenceChange (n : OptIx) (present : Bool) (s : State) : Host.Outcome State Fault Refusal := onPortsLive (opPresenceChange n present) s

/-- BUTTON (R573). -/
def execButton (n : OptIx) (s : State) : Host.Outcome State Fault Refusal := onLive (opButton n) s

/-- LASER_POWER_FAULT (R460). -/
def execLaserPowerFault (n : OptIx) (s : State) : Host.Outcome State Fault Refusal := onLive (opLaserPowerFault n) s

/-- LASER_EN (R459). -/
def execLaserEn (who : Who) (n : OptIx) (v : W32) (s : State) : Host.Outcome State Fault Refusal := onDie (fromHost who true true (CAGE n.val) (posted who false (CAGE n.val) v (opLaserEn who n v))) s

/-- PARTITION_ENABLE (R464). -/
def execPartitionEnable (who : Who) (p : PartIx) (v : W32) (s : State) : Host.Outcome State Fault Refusal := onDie (fromHost who true true (PART_CTRL p.val) (posted who false (PART_CTRL p.val) v (opPartitionEnable who p v))) s

/-- PARTITION_RESET_REQUEST (R482). -/
def execPartitionResetRequest (who : Who) (p : PartIx) (v : W32) (s : State) : Host.Outcome State Fault Refusal := onDie (fromHost who true true (PART_CTRL p.val) (posted who false (PART_CTRL p.val) v (opPartitionResetRequest who p v))) s

/-- PARTITION_CLEAR (R486). -/
def execPartitionClear (p : PartIx) (s : State) : Host.Outcome State Fault Refusal := onLive (opPartitionClear p) s

/-- FAULT_EVENT (R495). -/
def execFaultEvent (us : List Upset) (s : State) : Host.Outcome State Fault Refusal := onAwake (opFaultEvent us) s

/-- NMI_ACK (R505). -/
def execNmiAck (s : State) : Host.Outcome State Fault Refusal := onAwake (opNmiAck) s

/-- FAULT_FORCE (R513). -/
def execFaultForce (who : Who) (cls : Cls) (v : W32) (s : State) : Host.Outcome State Fault Refusal := onDie (fromHost who true true (forceReg cls) (posted who false (forceReg cls) v (opFaultForce who cls v))) s

/-- FAULT_HIST_CLEAR (R516). -/
def execFaultHistClear (who : Who) (s : State) : Host.Outcome State Fault Refusal := onDie (fromHost who true true FAULT_HIST_CTRL (fun d => posted who false FAULT_HIST_CTRL (if d.bit FAULT_HIST_CTRL_CORR_EN then 0xC000 else 0x8000) (opFaultHistClear who) d)) s

/-- INJECT (R520). -/
def execInject (who : Who) (s : State) : Host.Outcome State Fault Refusal := onDie (fromHost who true true FAULT_CHECK (posted who false FAULT_CHECK 1 (opInject who))) s

/-- DORMANT_ENTRY (R518). -/
def execDormantEntry (s : State) : Host.Outcome State Fault Refusal := onAwake (opDormantEntry) s

/-- ERR_N_SENSE_FALL (R512). -/
def execErrNSenseFall (s : State) : Host.Outcome State Fault Refusal := onAwake (opErrNSenseFall) s

/-- FAST_LIMIT (R526). -/
def execFastLimit (s : State) : Host.Outcome State Fault Refusal := onAwake (opFastLimit) s

/-- THERMAL_SAMPLE (R528). -/
def execThermalSample (temps : List (Option Int)) (s : State) : Host.Outcome State Fault Refusal := onWf (temps.length == 32) (onAwake (opThermalSample temps)) s

/-- THERMAL_RESUME (R530). -/
def execThermalResume (who : Who) (v : W32) (s : State) : Host.Outcome State Fault Refusal := onDie (fromHost who true true PWR_CTRL (posted who false PWR_CTRL v (opThermalResume who v))) s

/-- THERMTRIP (R566). -/
def execThermtrip (s : State) : Host.Outcome State Fault Refusal := onAwake (opThermtrip) s

/-- SUPPLY_FAULT (R554). -/
def execSupplyFault (rail : Fin 10) (s : State) : Host.Outcome State Fault Refusal := onAwake (opSupplyFault rail) s

/-- PLL_LOCK_LOSS (R521). -/
def execPllLockLoss (pll : Fin 2) (s : State) : Host.Outcome State Fault Refusal := onAwake (opPllLockLoss pll) s

/-- REFCLK_LOSS (R561). -/
def execRefclkLoss (s : State) : Host.Outcome State Fault Refusal := onAwake (opRefclkLoss) s

/-- BOOT_START (R560). -/
def execBootStart (s : State) : Host.Outcome State Fault Refusal := onDie (opBootStart) s

/-- RESET_N_FALL (R560). -/
def execResetNFall (s : State) : Host.Outcome State Fault Refusal := onDie (opResetNFall) s

/-- POWER_REMOVAL (R560). -/
def execPowerRemoval (s : State) : Host.Outcome State Fault Refusal := onDie (opPowerRemoval) s

/-- BOOT_IMAGE_VERIFY (R534). -/
def execBootImageVerify (slots : List BootSlot) (s : State) : Host.Outcome State Fault Refusal := onWf (slots.length == 2) (onDie (opBootImageVerify slots)) s

/-- HBM_ZEROING (R358). -/
def execHbmZeroing (s : State) : Host.Outcome State Fault Refusal := onDie (opHbmZeroing) s

/-- BOOT_BIST (R536). -/
def execBootBist (fails : List Nat) (s : State) : Host.Outcome State Fault Refusal := onWf (fails.all fun c => decide (c < 128)) (onDie (opBootBist fails)) s

/-- BOOT_READY (R532). -/
def execBootReady (ms : Nat) (s : State) : Host.Outcome State Fault Refusal := onDie (opBootReady ms) s

/-- ID_FRAME_SEND (R563). -/
def execIdFrameSend (s : State) : Host.Outcome State Fault Refusal := onDie (opIdFrameSend) s

/-- ID_FRAME_RECEIVE (R563). -/
def execIdFrameReceive (die : DieIx) (pkg : PkgIx) (crcOk : Bool) (s : State) : Host.Outcome State Fault Refusal := onDie (opIdFrameReceive die pkg crcOk) s

/-- RESERVED_ACCESS (R545). -/
def execReservedAccess (who : Who) (bar2 : Bool) (off : Nat) (write : Bool) (size : Bool) (s : State) : Host.Outcome State Fault Refusal := onDie (fromHost who (!bar2) write off (inBar who bar2 off (postedReserved who bar2 off write size))) s

/-- REGISTER_WRITE (R295). -/
def execRegisterWrite (who : Who) (bar2 : Bool) (off : Nat) (v : W32) (s : State) : Host.Outcome State Fault Refusal := onDie (fromHost who (!bar2) true off (inBar who bar2 off (posted who bar2 off v (opRegisterWrite who bar2 off v)))) s

/-- I3C_PRIVATE_WRITE (R568). -/
def execI3cPrivateWrite (off : W32) (v : Option W32) (s : State) : Host.Outcome State Fault Refusal := onDie (opI3cPrivateWrite off v) s

/-- I3C_PRIVATE_READ (R568). -/
def execI3cPrivateRead (s : State) : Host.Outcome State Fault Refusal := onDie (opI3cPrivateRead) s

/-- EXTEST (R569). -/
def execExtest (s : State) : Host.Outcome State Fault Refusal := onDie (opExtest) s

/-- FUSE_PROGRAM (R569). -/
def execFuseProgram (digest : BitVec 384) (s : State) : Host.Outcome State Fault Refusal := onDie (opFuseProgram digest) s

/-- IDCODE (R569). -/
def execIdcode (s : State) : Host.Outcome State Fault Refusal := onDie (opIdcode) s

/-- BYPASS (R569). -/
def execBypass (s : State) : Host.Outcome State Fault Refusal := onDie (opBypass) s

/-- ARRAY_STREAM_COMPLETE (R86). -/
def execArrayStreamComplete (c : CoreIx) (n : Nat) (s : State) : Host.Outcome State Fault Refusal := onLive (opArrayStreamComplete c n) s

/-- OPTICAL_LINK_TRAIN (R452). -/
def execOpticalLinkTrain (n : OptIx) (lanes : BitVec 16) (s : State) : Host.Outcome State Fault Refusal := onLive (opOpticalLinkTrain n lanes) s

/-- COMPLETION_TIMEOUT (R412). -/
def execCompletionTimeout (ats : Bool) (id : Nat) (s : State) : Host.Outcome State Fault Refusal := onLive (opCompletionTimeout ats id) s

/-- CONFIGURATION_REQUEST (R480). -/
def execConfigurationRequest (fn : PartIx) (r : CfgReq) (s : State) : Host.Outcome State Fault Refusal := onDie (opConfigurationRequest fn r) s

/-- LINK_LEVEL_RETRY (R426). -/
def execLinkLevelRetry (port : Option PortIx) (kind : RetryKind) (s : State) : Host.Outcome State Fault Refusal := onPortsLive (opLinkLevelRetry port kind) s

/-- FABRIC_RAILS_APPLIED (R559). -/
def execFabricRailsApplied (s : State) : Host.Outcome State Fault Refusal := onDie (opFabricRailsApplied) s

/-- DYNAMIC_ADDRESS_ASSIGNMENT (R568). -/
def execDynamicAddressAssignment (addr : BitVec 7) (s : State) : Host.Outcome State Fault Refusal := onDie (opDynamicAddressAssignment addr) s

end Sys2Proof.Machine
end

