-- ==== Sys2Proof/Machine/Dispatch.lean ====
section
/-! DEFINITION. The dispatch of a command to its meaning. -/

namespace Sys2Proof.Machine

def exec (i : Instr) (s : State) : Host.Outcome State Fault Refusal :=
  match i with
  | .tickRun who v => Sys2Proof.Machine.execTickRun who v s
  | .beatBoundary => Sys2Proof.Machine.execBeatBoundary s
  | .tickBoundary => Sys2Proof.Machine.execTickBoundary s
  | .guardStart watts scaled => Sys2Proof.Machine.execGuardStart watts scaled s
  | .tickMsgSend => Sys2Proof.Machine.execTickMsgSend s
  | .tickMsgReceive port m offset chain => Sys2Proof.Machine.execTickMsgReceive port m offset chain s
  | .tickAckReceive a => Sys2Proof.Machine.execTickAckReceive a s
  | .memberAckLoss src => Sys2Proof.Machine.execMemberAckLoss src s
  | .tickInPulse => Sys2Proof.Machine.execTickInPulse s
  | .holdoverEnter => Sys2Proof.Machine.execHoldoverEnter s
  | .tickLost => Sys2Proof.Machine.execTickLost s
  | .linkDelayEcho port time => Sys2Proof.Machine.execLinkDelayEcho port time s
  | .echoRequest port time => Sys2Proof.Machine.execEchoRequest port time s
  | .echoReply port time now => Sys2Proof.Machine.execEchoReply port time now s
  | .modeChange pid => Sys2Proof.Machine.execModeChange pid s
  | .add c sd sa sb => Sys2Proof.Machine.execAdd c sd sa sb s
  | .sub c sd sa sb => Sys2Proof.Machine.execSub c sd sa sb s
  | .and c sd sa sb => Sys2Proof.Machine.execAnd c sd sa sb s
  | .or c sd sa sb => Sys2Proof.Machine.execOr c sd sa sb s
  | .xor c sd sa sb => Sys2Proof.Machine.execXor c sd sa sb s
  | .shl c sd sa sb => Sys2Proof.Machine.execShl c sd sa sb s
  | .shr c sd sa sb => Sys2Proof.Machine.execShr c sd sa sb s
  | .sra c sd sa sb => Sys2Proof.Machine.execSra c sd sa sb s
  | .mul c sd sa sb => Sys2Proof.Machine.execMul c sd sa sb s
  | .mulhu c sd sa sb => Sys2Proof.Machine.execMulhu c sd sa sb s
  | .slt c sd sa sb => Sys2Proof.Machine.execSlt c sd sa sb s
  | .sltu c sd sa sb => Sys2Proof.Machine.execSltu c sd sa sb s
  | .min c sd sa sb => Sys2Proof.Machine.execMin c sd sa sb s
  | .max c sd sa sb => Sys2Proof.Machine.execMax c sd sa sb s
  | .addImm c sd sa imm => Sys2Proof.Machine.execAddImm c sd sa imm s
  | .subImm c sd sa imm => Sys2Proof.Machine.execSubImm c sd sa imm s
  | .andImm c sd sa imm => Sys2Proof.Machine.execAndImm c sd sa imm s
  | .orImm c sd sa imm => Sys2Proof.Machine.execOrImm c sd sa imm s
  | .xorImm c sd sa imm => Sys2Proof.Machine.execXorImm c sd sa imm s
  | .shlImm c sd sa imm => Sys2Proof.Machine.execShlImm c sd sa imm s
  | .shrImm c sd sa imm => Sys2Proof.Machine.execShrImm c sd sa imm s
  | .sraImm c sd sa imm => Sys2Proof.Machine.execSraImm c sd sa imm s
  | .mulImm c sd sa imm => Sys2Proof.Machine.execMulImm c sd sa imm s
  | .mulhuImm c sd sa imm => Sys2Proof.Machine.execMulhuImm c sd sa imm s
  | .sltImm c sd sa imm => Sys2Proof.Machine.execSltImm c sd sa imm s
  | .sltuImm c sd sa imm => Sys2Proof.Machine.execSltuImm c sd sa imm s
  | .minImm c sd sa imm => Sys2Proof.Machine.execMinImm c sd sa imm s
  | .maxImm c sd sa imm => Sys2Proof.Machine.execMaxImm c sd sa imm s
  | .li c sd imm => Sys2Proof.Machine.execLi c sd imm s
  | .lih c sd imm => Sys2Proof.Machine.execLih c sd imm s
  | .ld c sd sa imm v => Sys2Proof.Machine.execLd c sd sa imm v s
  | .lw c sd sa imm v => Sys2Proof.Machine.execLw c sd sa imm v s
  | .sd c sd sa imm => Sys2Proof.Machine.execSd c sd sa imm s
  | .sw c sd sa imm => Sys2Proof.Machine.execSw c sd sa imm s
  | .ldc c sd sa imm => Sys2Proof.Machine.execLdc c sd sa imm s
  | .sdc c sd sa imm => Sys2Proof.Machine.execSdc c sd sa imm s
  | .csrr c sd n => Sys2Proof.Machine.execCsrr c sd n s
  | .csrw c sa n => Sys2Proof.Machine.execCsrw c sa n s
  | .amoadd c sd sa sb w => Sys2Proof.Machine.execAmoadd c sd sa sb w s
  | .amoswap c sd sa sb w => Sys2Proof.Machine.execAmoswap c sd sa sb w s
  | .amocas c sd sa sb w => Sys2Proof.Machine.execAmocas c sd sa sb w s
  | .nop c => Sys2Proof.Machine.execNop c s
  | .beq c sa sb imm => Sys2Proof.Machine.execBeq c sa sb imm s
  | .bne c sa sb imm => Sys2Proof.Machine.execBne c sa sb imm s
  | .blt c sa sb imm => Sys2Proof.Machine.execBlt c sa sb imm s
  | .bge c sa sb imm => Sys2Proof.Machine.execBge c sa sb imm s
  | .bltu c sa sb imm => Sys2Proof.Machine.execBltu c sa sb imm s
  | .bgeu c sa sb imm => Sys2Proof.Machine.execBgeu c sa sb imm s
  | .jal c sd imm => Sys2Proof.Machine.execJal c sd imm s
  | .jr c sa => Sys2Proof.Machine.execJr c sa s
  | .vadd c vd va vb m ty => Sys2Proof.Machine.execVadd c vd va vb m ty s
  | .vsub c vd va vb m ty => Sys2Proof.Machine.execVsub c vd va vb m ty s
  | .vmul c vd va vb m ty => Sys2Proof.Machine.execVmul c vd va vb m ty s
  | .vmin c vd va vb m ty => Sys2Proof.Machine.execVmin c vd va vb m ty s
  | .vmax c vd va vb m ty => Sys2Proof.Machine.execVmax c vd va vb m ty s
  | .vabs c vd va m ty => Sys2Proof.Machine.execVabs c vd va m ty s
  | .vfma c vd va vb vc m ty => Sys2Proof.Machine.execVfma c vd va vb vc m ty s
  | .vcmp c md va vb m ty op => Sys2Proof.Machine.execVcmp c md va vb m ty op s
  | .vsel c vd va vb m => Sys2Proof.Machine.execVsel c vd va vb m s
  | .vcvt c vd va vb m ty out rnd => Sys2Proof.Machine.execVcvt c vd va vb m ty out rnd s
  | .vbcast c vd sa m => Sys2Proof.Machine.execVbcast c vd sa m s
  | .vred c vd va m ty => Sys2Proof.Machine.execVred c vd va m ty s
  | .vmovs c sd va ln => Sys2Proof.Machine.execVmovs c sd va ln s
  | .vexp c vd va m => Sys2Proof.Machine.execVexp c vd va m s
  | .vlog c vd va m => Sys2Proof.Machine.execVlog c vd va m s
  | .vrcp c vd va m => Sys2Proof.Machine.execVrcp c vd va m s
  | .vrsqrt c vd va m => Sys2Proof.Machine.execVrsqrt c vd va m s
  | .vsin c vd va m => Sys2Proof.Machine.execVsin c vd va m s
  | .vcos c vd va m => Sys2Proof.Machine.execVcos c vd va m s
  | .vtanh c vd va m => Sys2Proof.Machine.execVtanh c vd va m s
  | .vsigm c vd va m => Sys2Proof.Machine.execVsigm c vd va m s
  | .vld c vd sa m imm => Sys2Proof.Machine.execVld c vd sa m imm s
  | .vst c vd sa imm => Sys2Proof.Machine.execVst c vd sa imm s
  | .vldg c vd sa m imm => Sys2Proof.Machine.execVldg c vd sa m imm s
  | .vstg c vd sa imm => Sys2Proof.Machine.execVstg c vd sa imm s
  | .loadw c fmt src => Sys2Proof.Machine.execLoadw c fmt src s
  | .pass c fmt fold arr rowsM1 acc src => Sys2Proof.Machine.execPass c fmt fold arr rowsM1 acc src s
  | .passt c fmt fold arr rowsM1 acc src => Sys2Proof.Machine.execPasst c fmt fold arr rowsM1 acc src s
  | .drain c sa sb arr rowsM1 acc out rnd dst => Sys2Proof.Machine.execDrain c sa sb arr rowsM1 acc out rnd dst s
  | .mask c sa sb => Sys2Proof.Machine.execMask c sa sb s
  | .fetch c sa sb sc v crib => Sys2Proof.Machine.execFetch c sa sb sc v crib s
  | .stow c sa sb sc crib => Sys2Proof.Machine.execStow c sa sb sc crib s
  | .signalInstr c r reg remote die obj imm => Sys2Proof.Machine.execSignalInstr c r reg remote die obj imm s
  | .waitInstr c r equal obj => Sys2Proof.Machine.execWaitInstr c r equal obj s
  | .barrierInstr c scope => Sys2Proof.Machine.execBarrierInstr c scope s
  | .sliceEnd c => Sys2Proof.Machine.execSliceEnd c s
  | .sliceEndRetire c => Sys2Proof.Machine.execSliceEndRetire c s
  | .undefinedEncoding c => Sys2Proof.Machine.execUndefinedEncoding c s
  | .programParityStop c => Sys2Proof.Machine.execProgramParityStop c s
  | .cribEccWriteback c word => Sys2Proof.Machine.execCribEccWriteback c word s
  | .fetchComplete c e => Sys2Proof.Machine.execFetchComplete c e s
  | .writeAcknowledge req id => Sys2Proof.Machine.execWriteAcknowledge req id s
  | .loadReturn c id => Sys2Proof.Machine.execLoadReturn c id s
  | .barrierRelease c => Sys2Proof.Machine.execBarrierRelease c s
  | .sysbarArrival src part inst => Sys2Proof.Machine.execSysbarArrival src part inst s
  | .sysbarRelease part inst => Sys2Proof.Machine.execSysbarRelease part inst s
  | .decodeRound => Sys2Proof.Machine.execDecodeRound s
  | .doorbell who r v => Sys2Proof.Machine.execDoorbell who r v s
  | .resume who r => Sys2Proof.Machine.execResume who r s
  | .ringEnable who r v => Sys2Proof.Machine.execRingEnable who r v s
  | .ringDisable who r v => Sys2Proof.Machine.execRingDisable who r v s
  | .ringDisableComplete r => Sys2Proof.Machine.execRingDisableComplete r s
  | .completionRecordWrite pid => Sys2Proof.Machine.execCompletionRecordWrite pid s
  | .nopPacket pid => Sys2Proof.Machine.execNopPacket pid s
  | .launchSlices pid => Sys2Proof.Machine.execLaunchSlices pid s
  | .launchStep pid => Sys2Proof.Machine.execLaunchStep pid s
  | .planTableRead key => Sys2Proof.Machine.execPlanTableRead key s
  | .coalesceDecode pid => Sys2Proof.Machine.execCoalesceDecode pid s
  | .coalesceBatchComplete key => Sys2Proof.Machine.execCoalesceBatchComplete key s
  | .copy pid => Sys2Proof.Machine.execCopy pid s
  | .copyInline pid => Sys2Proof.Machine.execCopyInline pid s
  | .fill pid => Sys2Proof.Machine.execFill pid s
  | .copyStrided pid => Sys2Proof.Machine.execCopyStrided pid s
  | .copyChunk e => Sys2Proof.Machine.execCopyChunk e s
  | .prefetchRange pid => Sys2Proof.Machine.execPrefetchRange pid s
  | .advise pid => Sys2Proof.Machine.execAdvise pid s
  | .reduceSegment pid => Sys2Proof.Machine.execReduceSegment pid s
  | .reducePartialReceive m => Sys2Proof.Machine.execReducePartialReceive m s
  | .reducePartialSend slot n => Sys2Proof.Machine.execReducePartialSend slot n s
  | .reduceSlotComplete slot => Sys2Proof.Machine.execReduceSlotComplete slot s
  | .earlyArrivalTimeout n => Sys2Proof.Machine.execEarlyArrivalTimeout n s
  | .slotTimeout slot => Sys2Proof.Machine.execSlotTimeout slot s
  | .normPartial pid => Sys2Proof.Machine.execNormPartial pid s
  | .optimizerStep pid => Sys2Proof.Machine.execOptimizerStep pid s
  | .signalPacket pid => Sys2Proof.Machine.execSignalPacket pid s
  | .waitPacket pid => Sys2Proof.Machine.execWaitPacket pid s
  | .barrierPacket pid => Sys2Proof.Machine.execBarrierPacket pid s
  | .flagWrite pid => Sys2Proof.Machine.execFlagWrite pid s
  | .timestamp pid => Sys2Proof.Machine.execTimestamp pid s
  | .mapRange pid => Sys2Proof.Machine.execMapRange pid s
  | .unmapRange pid => Sys2Proof.Machine.execUnmapRange pid s
  | .invalidateRange pid => Sys2Proof.Machine.execInvalidateRange pid s
  | .loadProgram pid => Sys2Proof.Machine.execLoadProgram pid s
  | .switchProgram pid => Sys2Proof.Machine.execSwitchProgram pid s
  | .setQos pid => Sys2Proof.Machine.execSetQos pid s
  | .selftest pid => Sys2Proof.Machine.execSelftest pid s
  | .query pid => Sys2Proof.Machine.execQuery pid s
  | .openWindow pid => Sys2Proof.Machine.execOpenWindow pid s
  | .closeWindow pid => Sys2Proof.Machine.execCloseWindow pid s
  | .preserveArm pid => Sys2Proof.Machine.execPreserveArm pid s
  | .lockWays pid => Sys2Proof.Machine.execLockWays pid s
  | .groomRound => Sys2Proof.Machine.execGroomRound s
  | .groomKick who => Sys2Proof.Machine.execGroomKick who s
  | .groomWatchdogExpire => Sys2Proof.Machine.execGroomWatchdogExpire s
  | .groomRestartDone => Sys2Proof.Machine.execGroomRestartDone s
  | .syncBankUpdate bank => Sys2Proof.Machine.execSyncBankUpdate bank s
  | .waitTimeout pid => Sys2Proof.Machine.execWaitTimeout pid s
  | .signalMsgReceive m => Sys2Proof.Machine.execSignalMsgReceive m s
  | .signalAckReceive head st => Sys2Proof.Machine.execSignalAckReceive head st s
  | .syncAdd who n v => Sys2Proof.Machine.execSyncAdd who n v s
  | .syncOwnerWrite who n v => Sys2Proof.Machine.execSyncOwnerWrite who n v s
  | .clear who n => Sys2Proof.Machine.execClear who n s
  | .syncValueLoRead who n => Sys2Proof.Machine.execSyncValueLoRead who n s
  | .tickNowLoRead who => Sys2Proof.Machine.execTickNowLoRead who s
  | .homeRequestAccept slice stop => Sys2Proof.Machine.execHomeRequestAccept slice stop s
  | .l1Invalidation stop => Sys2Proof.Machine.execL1Invalidation stop s
  | .l1Fill stop => Sys2Proof.Machine.execL1Fill stop s
  | .memoryFillReturn line => Sys2Proof.Machine.execMemoryFillReturn line s
  | .revoke stop => Sys2Proof.Machine.execRevoke stop s
  | .exclusiveRelease stop line => Sys2Proof.Machine.execExclusiveRelease stop line s
  | .releaseReceive slice stop => Sys2Proof.Machine.execReleaseReceive slice stop s
  | .farAtomicReturn line => Sys2Proof.Machine.execFarAtomicReturn line s
  | .hayloftWriteback slice => Sys2Proof.Machine.execHayloftWriteback slice s
  | .nextLinePrefetch slice => Sys2Proof.Machine.execNextLinePrefetch slice s
  | .hostSnoop kind addr => Sys2Proof.Machine.execHostSnoop kind addr s
  | .keySweep p => Sys2Proof.Machine.execKeySweep p s
  | .keySweepComplete => Sys2Proof.Machine.execKeySweepComplete s
  | .patrolScrub stack => Sys2Proof.Machine.execPatrolScrub stack s
  | .hbmOffline who v => Sys2Proof.Machine.execHbmOffline who v s
  | .hkmDataAccess who v => Sys2Proof.Machine.execHkmDataAccess who v s
  | .biasFlip who v => Sys2Proof.Machine.execBiasFlip who v s
  | .biasFlipComplete => Sys2Proof.Machine.execBiasFlipComplete s
  | .rotate who v => Sys2Proof.Machine.execRotate who v s
  | .atsCompletion id hpa r w => Sys2Proof.Machine.execAtsCompletion id hpa r w s
  | .pageRequestSend => Sys2Proof.Machine.execPageRequestSend s
  | .prgResponse fn index code => Sys2Proof.Machine.execPrgResponse fn index code s
  | .pageRequestTimeout fn index => Sys2Proof.Machine.execPageRequestTimeout fn index s
  | .priEnable fn => Sys2Proof.Machine.execPriEnable fn s
  | .atsInvalidation fn tag lo hi => Sys2Proof.Machine.execAtsInvalidation fn tag lo hi s
  | .atsInvalidationComplete tag => Sys2Proof.Machine.execAtsInvalidationComplete tag s
  | .tierRead head addr => Sys2Proof.Machine.execTierRead head addr s
  | .orphanEntry ev => Sys2Proof.Machine.execOrphanEntry ev s
  | .reattach who => Sys2Proof.Machine.execReattach who s
  | .discard who => Sys2Proof.Machine.execDiscard who s
  | .hostLinkTrain modules rate => Sys2Proof.Machine.execHostLinkTrain modules rate s
  | .hdmCommit decs => Sys2Proof.Machine.execHdmCommit decs s
  | .hdmMirrorReceive head decs => Sys2Proof.Machine.execHdmMirrorReceive head decs s
  | .cxlMemRequest hpa write mask => Sys2Proof.Machine.execCxlMemRequest hpa write mask s
  | .bar4Access tlp off n write => Sys2Proof.Machine.execBar4Access tlp off n write s
  | .cxlCacheResponse tag data => Sys2Proof.Machine.execCxlCacheResponse tag data s
  | .cxlCacheTimeout tag => Sys2Proof.Machine.execCxlCacheTimeout tag s
  | .p2pReadCompletion tag data => Sys2Proof.Machine.execP2pReadCompletion tag data s
  | .flrVf p => Sys2Proof.Machine.execFlrVf p s
  | .flrPf => Sys2Proof.Machine.execFlrPf s
  | .cxlReset => Sys2Proof.Machine.execCxlReset s
  | .hostResetEvent ev => Sys2Proof.Machine.execHostResetEvent ev s
  | .getVersion => Sys2Proof.Machine.execGetVersion s
  | .getCapabilities => Sys2Proof.Machine.execGetCapabilities s
  | .negotiateAlgorithms => Sys2Proof.Machine.execNegotiateAlgorithms s
  | .getDigests => Sys2Proof.Machine.execGetDigests s
  | .getCertificate slot off n => Sys2Proof.Machine.execGetCertificate slot off n s
  | .challenge slot nonce => Sys2Proof.Machine.execChallenge slot nonce s
  | .getMeasurements index signed nonce => Sys2Proof.Machine.execGetMeasurements index signed nonce s
  | .spdmUnsupportedRequest code => Sys2Proof.Machine.execSpdmUnsupportedRequest code s
  | .doeDiscovery index => Sys2Proof.Machine.execDoeDiscovery index s
  | .cxlTableAccess index => Sys2Proof.Machine.execCxlTableAccess index s
  | .peerLinkTrain port modules => Sys2Proof.Machine.execPeerLinkTrain port modules s
  | .linkHelloReceive port h => Sys2Proof.Machine.execLinkHelloReceive port h s
  | .linkListReceive port die links => Sys2Proof.Machine.execLinkListReceive port die links s
  | .peerModuleLoss port m => Sys2Proof.Machine.execPeerModuleLoss port m s
  | .peerLinkDown port => Sys2Proof.Machine.execPeerLinkDown port s
  | .opticalMsgReceive n m offset chain => Sys2Proof.Machine.execOpticalMsgReceive n m offset chain s
  | .peerMsgForward port m => Sys2Proof.Machine.execPeerMsgForward port m s
  | .windowWrite m => Sys2Proof.Machine.execWindowWrite m s
  | .windowRead m => Sys2Proof.Machine.execWindowRead m s
  | .readResponse m => Sys2Proof.Machine.execReadResponse m s
  | .windowOpTimeout tag => Sys2Proof.Machine.execWindowOpTimeout tag s
  | .errorReport m => Sys2Proof.Machine.execErrorReport m s
  | .managementMsgReceive m => Sys2Proof.Machine.execManagementMsgReceive m s
  | .creditReceive port units => Sys2Proof.Machine.execCreditReceive port units s
  | .creditReturnTimer port => Sys2Proof.Machine.execCreditReturnTimer port s
  | .nivikFlitReceive n crcOk tagOk seq phase ack credit => Sys2Proof.Machine.execNivikFlitReceive n crcOk tagOk seq phase ack credit s
  | .flitReplay n => Sys2Proof.Machine.execFlitReplay n s
  | .opticalLaneLoss n lane => Sys2Proof.Machine.execOpticalLaneLoss n lane s
  | .keyUpdate n => Sys2Proof.Machine.execKeyUpdate n s
  | .spdmRecordReceive n r => Sys2Proof.Machine.execSpdmRecordReceive n r s
  | .sessionTimeout n => Sys2Proof.Machine.execSessionTimeout n s
  | .creditStall n => Sys2Proof.Machine.execCreditStall n s
  | .optEnable who n v => Sys2Proof.Machine.execOptEnable who n v s
  | .admission who n v => Sys2Proof.Machine.execAdmission who n v s
  | .tickSrc who n v => Sys2Proof.Machine.execTickSrc who n v s
  | .fabricSupplyLoss => Sys2Proof.Machine.execFabricSupplyLoss s
  | .presenceChange n present => Sys2Proof.Machine.execPresenceChange n present s
  | .button n => Sys2Proof.Machine.execButton n s
  | .laserPowerFault n => Sys2Proof.Machine.execLaserPowerFault n s
  | .laserEn who n v => Sys2Proof.Machine.execLaserEn who n v s
  | .partitionEnable who p v => Sys2Proof.Machine.execPartitionEnable who p v s
  | .partitionResetRequest who p v => Sys2Proof.Machine.execPartitionResetRequest who p v s
  | .partitionClear p => Sys2Proof.Machine.execPartitionClear p s
  | .faultEvent us => Sys2Proof.Machine.execFaultEvent us s
  | .nmiAck => Sys2Proof.Machine.execNmiAck s
  | .faultForce who cls v => Sys2Proof.Machine.execFaultForce who cls v s
  | .faultHistClear who => Sys2Proof.Machine.execFaultHistClear who s
  | .inject who => Sys2Proof.Machine.execInject who s
  | .dormantEntry => Sys2Proof.Machine.execDormantEntry s
  | .errNSenseFall => Sys2Proof.Machine.execErrNSenseFall s
  | .fastLimit => Sys2Proof.Machine.execFastLimit s
  | .thermalSample temps => Sys2Proof.Machine.execThermalSample temps s
  | .thermalResume who v => Sys2Proof.Machine.execThermalResume who v s
  | .thermtrip => Sys2Proof.Machine.execThermtrip s
  | .supplyFault rail => Sys2Proof.Machine.execSupplyFault rail s
  | .pllLockLoss pll => Sys2Proof.Machine.execPllLockLoss pll s
  | .refclkLoss => Sys2Proof.Machine.execRefclkLoss s
  | .bootStart => Sys2Proof.Machine.execBootStart s
  | .resetNFall => Sys2Proof.Machine.execResetNFall s
  | .powerRemoval => Sys2Proof.Machine.execPowerRemoval s
  | .bootImageVerify slots => Sys2Proof.Machine.execBootImageVerify slots s
  | .hbmZeroing => Sys2Proof.Machine.execHbmZeroing s
  | .bootBist fails => Sys2Proof.Machine.execBootBist fails s
  | .bootReady ms => Sys2Proof.Machine.execBootReady ms s
  | .idFrameSend => Sys2Proof.Machine.execIdFrameSend s
  | .idFrameReceive die pkg crcOk => Sys2Proof.Machine.execIdFrameReceive die pkg crcOk s
  | .reservedAccess who bar2 off write size => Sys2Proof.Machine.execReservedAccess who bar2 off write size s
  | .registerWrite who bar2 off v => Sys2Proof.Machine.execRegisterWrite who bar2 off v s
  | .i3cPrivateWrite off v => Sys2Proof.Machine.execI3cPrivateWrite off v s
  | .i3cPrivateRead => Sys2Proof.Machine.execI3cPrivateRead s
  | .extest => Sys2Proof.Machine.execExtest s
  | .fuseProgram digest => Sys2Proof.Machine.execFuseProgram digest s
  | .idcode => Sys2Proof.Machine.execIdcode s
  | .bypass => Sys2Proof.Machine.execBypass s
  | .arrayStreamComplete c n => Sys2Proof.Machine.execArrayStreamComplete c n s
  | .opticalLinkTrain n lanes => Sys2Proof.Machine.execOpticalLinkTrain n lanes s
  | .completionTimeout ats id => Sys2Proof.Machine.execCompletionTimeout ats id s
  | .configurationRequest fn r => Sys2Proof.Machine.execConfigurationRequest fn r s
  | .linkLevelRetry port kind => Sys2Proof.Machine.execLinkLevelRetry port kind s
  | .fabricRailsApplied => Sys2Proof.Machine.execFabricRailsApplied s
  | .dynamicAddressAssignment addr => Sys2Proof.Machine.execDynamicAddressAssignment addr s

end Sys2Proof.Machine
end

