-- ==== Sys2Proof/Machine/Idle.lean ====
section
/-! DEFINITION. What the die does when no command waits (log entry 6). -/

namespace Sys2Proof.Machine

/-- One cycle of the die's clock passes: the clock and the cycle's place in its tick are counted (R30, R31). -/
def idle (d : Die) : Die := { d with clk := d.clk + 1, clkInTick := d.clkInTick + 1 }

end Sys2Proof.Machine
end

