-- ==== Sys2Proof/Safety.lean ====
section
/-! DEFINITION. The terms in which the statements speak: what a command answers, when a core issues an instruction, and
what a safe run is. -/

namespace Sys2Proof.Machine

/-- The step answers a next state. -/
def runs (s : State) : Prop := ∃ t, step s = .next t

/-- The command answers the next state with this die; the queue is untouched. -/
def becomes (i : Instr) (s : State) (d : Die) : Prop := exec i s = .next { s with die := d }

/-- The command answers a next state whose die satisfies `P`; the queue is untouched. -/
def answers (i : Instr) (s : State) (P : Die → Prop) : Prop := ∃ d, exec i s = .next { s with die := d } ∧ P d

/-- The sequencer of a core issues this operation (R89, R97): the die is booted, a slice runs, the word at the issue point
is the operation's, its registers are complete, nothing makes it undefined at run time, and no volatile read holds it. -/
def Issues (s : State) (c : CoreIx) (op : CoreOp) : Prop :=
  s.die.live = true ∧ (s.die.core c).issuing = true ∧ (s.die.core c).opAt = some op
    ∧ (s.die.core c).regsReady (sregsOf op) (vregsOf op) = true
    ∧ runtimeCause s.die.fuses.arrays c (s.die.core c) op = none
    ∧ (readsOf op && (s.die.core c).volatileBusy) = false

/-- The instruction changes the core as `f` says, moves to the next word, and changes nothing else of the die. -/
def retires (i : Instr) (s : State) (c : CoreIx) (f : Core → Core) : Prop :=
  becomes i s (s.die.setCore c (f (s.die.core c)).next)

/-- A register access of the host reaches its function (R398, R413, R421) and finds none of the host's earlier accesses waiting (R300); one of a
core reaches its die. -/
def Reaches (d : Die) (who : Who) (write : Bool) : Prop :=
  d.live = true ∧ d.hostBehind who = false ∧ match who with
    | .fn p tlp => d.ridOk tlp.rid = true ∧ d.fnAnswers p = true ∧ (write && tlp.poisoned) = false
    | .dev .. => True

/-- A core's scalar registers, stationary store and accumulators are in their canonical form: keys strictly rising, no entry
equal to what an unlisted key reads as. -/
def Core.canonical (k : Core) : Prop :=
  tblWf (fun _ => 0#64) none k.sreg = true ∧ tblWf k.cellDflt none k.store = true ∧ tblWf k.accDflt none k.acc = true

/-- The registers, device memory, the sync objects and the cores are in their canonical form. -/
def Die.canonical (d : Die) : Prop :=
  tblWf (fun o => BitVec.ofNat 32 (regReset o)) none d.regs = true ∧ Memory.wf d.mem.hbm = true
    ∧ tblWf (fun _ => ({} : SyncObj)) none d.sync.objs = true ∧ tblWf (fun _ => ({} : Core)) none d.cores = true ∧ ∀ c, (d.core c).canonical

/-- Every register but these reads as before. -/
def Die.keepsRegs (d t : Die) (except : List Nat) : Prop := ∀ off, off ∉ except → t.raw off = d.raw off

end Sys2Proof.Machine
end

