-- ==== Sys2Proof/Certificates/Slice0/Obligations.lean ====
section
/-! DEFINITION. The statements for the provers. Each docstring names the rules of spec/ that it rests on; what it writes out is what it says of them. -/

section

open Sys2Proof Sys2Proof.Machine

/-! ### The queue -/

/-- A step with commands waiting runs the one at the front with the queue's rest (the block form of the task). With no command waiting one reference clock
passes and nothing else changes (the model's choice, log entry 6). -/
def Obligations.FrontOfQueue : Prop :=
  (∀ (c : Instr) (rest : List Instr) (s : State), s.pending = c :: rest → step s = exec c { s with pending := rest })
  ∧ (∀ s : State, s.pending = [] → step s = .next { s with die := { s.die with clk := s.die.clk + 1, clkInTick := s.die.clkInTick + 1 } })

/-- Every command whose operands a format can carry answers a next state and leaves the queue as it is; only the others fault (log entry 12). -/
def Obligations.Commands : Prop :=
  ∀ (c : Instr) (s : State),
    (c.wf = true → ∃ t, exec c s = .next t ∧ t.pending = s.pending) ∧ (c.wf = false → exec c s = .fault .illFormed)

/-- Every run of well-formed commands goes on: after any number of steps the machine has answered a next state whose queue is what is left of the first
one. -/
def Obligations.RunsNeverStop : Prop :=
  ∀ (n : Nat) (s : State), (∀ c ∈ s.pending, c.wf = true) →
    ∃ t : State, Host.Core.run core n s = .next t ∧ t.pending = s.pending.drop n

/-! ### Cores -/

/-- Scalar registers: s0 reads as zero and discards writes; the others hold what was last written. The fourteen register forms: result of the two sources,
next word, nothing else. The fourteen immediate forms, their immediate sign-extended, and LI, LIH and NOP. -/
def Obligations.ScalarInstructions : Prop :=
  (∀ (k : Core) (r q : Reg) (v : W64), k.canonical →
      (k.setS r v).canonical ∧ (k.setS 0 v) = k ∧ k.s 0 = 0 ∧ (k.setS r v).s q = if r = q ∧ r ≠ 0 then v else k.s q)
  ∧ (∀ (s : State) (c : CoreIx) (sd sa sb : Reg),
      (Issues s c (.alu .add sd sa sb) → retires (.add c sd sa sb) s c fun k => k.setS sd (k.s sa + k.s sb))
      ∧ (Issues s c (.alu .sub sd sa sb) → retires (.sub c sd sa sb) s c fun k => k.setS sd (k.s sa - k.s sb))
      ∧ (Issues s c (.alu .and sd sa sb) → retires (.and c sd sa sb) s c fun k => k.setS sd (k.s sa &&& k.s sb))
      ∧ (Issues s c (.alu .or sd sa sb) → retires (.or c sd sa sb) s c fun k => k.setS sd (k.s sa ||| k.s sb))
      ∧ (Issues s c (.alu .xor sd sa sb) → retires (.xor c sd sa sb) s c fun k => k.setS sd (k.s sa ^^^ k.s sb))
      ∧ (Issues s c (.alu .shl sd sa sb) → retires (.shl c sd sa sb) s c fun k => k.setS sd (k.s sa <<< ((k.s sb).toNat % 64)))
      ∧ (Issues s c (.alu .shr sd sa sb) → retires (.shr c sd sa sb) s c fun k => k.setS sd (k.s sa >>> ((k.s sb).toNat % 64)))
      ∧ (Issues s c (.alu .sra sd sa sb) → retires (.sra c sd sa sb) s c fun k => k.setS sd ((k.s sa).sshiftRight ((k.s sb).toNat % 64)))
      ∧ (Issues s c (.alu .mul sd sa sb) → retires (.mul c sd sa sb) s c fun k => k.setS sd (k.s sa * k.s sb))
      ∧ (Issues s c (.alu .mulhu sd sa sb) → retires (.mulhu c sd sa sb) s c fun k =>
          k.setS sd (BitVec.ofNat 64 ((k.s sa).toNat * (k.s sb).toNat / 2 ^ 64)))
      ∧ (Issues s c (.alu .slt sd sa sb) → retires (.slt c sd sa sb) s c fun k => k.setS sd (if (k.s sa).toInt < (k.s sb).toInt then 1 else 0))
      ∧ (Issues s c (.alu .sltu sd sa sb) → retires (.sltu c sd sa sb) s c fun k => k.setS sd (if (k.s sa).toNat < (k.s sb).toNat then 1 else 0))
      ∧ (Issues s c (.alu .min sd sa sb) → retires (.min c sd sa sb) s c fun k =>
          k.setS sd (if (k.s sa).toInt < (k.s sb).toInt then k.s sa else k.s sb))
      ∧ (Issues s c (.alu .max sd sa sb) → retires (.max c sd sa sb) s c fun k =>
          k.setS sd (if (k.s sa).toInt < (k.s sb).toInt then k.s sb else k.s sa)))
  ∧ (∀ (s : State) (c : CoreIx) (sd sa : Reg) (imm : W32), let x : W64 := imm.signExtend 64
      (Issues s c (.alui .add sd sa imm) → retires (.addImm c sd sa imm) s c fun k => k.setS sd (k.s sa + x))
      ∧ (Issues s c (.alui .sub sd sa imm) → retires (.subImm c sd sa imm) s c fun k => k.setS sd (k.s sa - x))
      ∧ (Issues s c (.alui .and sd sa imm) → retires (.andImm c sd sa imm) s c fun k => k.setS sd (k.s sa &&& x))
      ∧ (Issues s c (.alui .or sd sa imm) → retires (.orImm c sd sa imm) s c fun k => k.setS sd (k.s sa ||| x))
      ∧ (Issues s c (.alui .xor sd sa imm) → retires (.xorImm c sd sa imm) s c fun k => k.setS sd (k.s sa ^^^ x))
      ∧ (Issues s c (.alui .shl sd sa imm) → retires (.shlImm c sd sa imm) s c fun k => k.setS sd (k.s sa <<< (x.toNat % 64)))
      ∧ (Issues s c (.alui .shr sd sa imm) → retires (.shrImm c sd sa imm) s c fun k => k.setS sd (k.s sa >>> (x.toNat % 64)))
      ∧ (Issues s c (.alui .sra sd sa imm) → retires (.sraImm c sd sa imm) s c fun k => k.setS sd ((k.s sa).sshiftRight (x.toNat % 64)))
      ∧ (Issues s c (.alui .mul sd sa imm) → retires (.mulImm c sd sa imm) s c fun k => k.setS sd (k.s sa * x))
      ∧ (Issues s c (.alui .mulhu sd sa imm) → retires (.mulhuImm c sd sa imm) s c fun k =>
          k.setS sd (BitVec.ofNat 64 ((k.s sa).toNat * x.toNat / 2 ^ 64)))
      ∧ (Issues s c (.alui .slt sd sa imm) → retires (.sltImm c sd sa imm) s c fun k => k.setS sd (if (k.s sa).toInt < x.toInt then 1 else 0))
      ∧ (Issues s c (.alui .sltu sd sa imm) → retires (.sltuImm c sd sa imm) s c fun k => k.setS sd (if (k.s sa).toNat < x.toNat then 1 else 0))
      ∧ (Issues s c (.alui .min sd sa imm) → retires (.minImm c sd sa imm) s c fun k => k.setS sd (if (k.s sa).toInt < x.toInt then k.s sa else x))
      ∧ (Issues s c (.alui .max sd sa imm) → retires (.maxImm c sd sa imm) s c fun k => k.setS sd (if (k.s sa).toInt < x.toInt then x else k.s sa))
      ∧ (Issues s c (.li sd imm) → retires (.li c sd imm) s c fun k => k.setS sd x)
      ∧ (Issues s c (.lih sd imm) → retires (.lih c sd imm) s c fun k => k.setS sd (BitVec.ofNat 64 (imm.toNat * 2 ^ 32 + (k.s sd).toNat % 2 ^ 32)))
      ∧ (Issues s c .nop → retires (.nop c) s c fun k => k))

/-- The six branches go to pc + 8 × imm when taken and to the next word otherwise; JAL saves the address behind it; JR goes to its register. A target
outside the bank is no completion: `Issues` excludes it (R100). LDC and SDC move 64 bits between the crib, none of whose words has an error, and a
register; CSRR reads PARTITION and TICK while a slice runs, and draws the number of one free value; CSRW writes SR_SEED, SR_TENSOR and SR_STEP. -/
def Obligations.ControlAndCrib : Prop :=
  (∀ (s : State) (c : CoreIx) (sd sa sb : Reg) (imm : W32),
      let k := s.die.core c
      let goes (cond : Prop) [Decidable cond] : Die :=
        s.die.setCore c (if cond then { k with pc := ((k.pc : Int) + 8 * imm.toInt).toNat } else { k with pc := k.pc + 8 })
      (Issues s c (.branch .eq sa sb imm) → becomes (.beq c sa sb imm) s (goes (k.s sa = k.s sb)))
      ∧ (Issues s c (.branch .ne sa sb imm) → becomes (.bne c sa sb imm) s (goes (k.s sa ≠ k.s sb)))
      ∧ (Issues s c (.branch .lt sa sb imm) → becomes (.blt c sa sb imm) s (goes ((k.s sa).toInt < (k.s sb).toInt)))
      ∧ (Issues s c (.branch .ge sa sb imm) → becomes (.bge c sa sb imm) s (goes ((k.s sb).toInt ≤ (k.s sa).toInt)))
      ∧ (Issues s c (.branch .ltu sa sb imm) → becomes (.bltu c sa sb imm) s (goes ((k.s sa).toNat < (k.s sb).toNat)))
      ∧ (Issues s c (.branch .geu sa sb imm) → becomes (.bgeu c sa sb imm) s (goes ((k.s sb).toNat ≤ (k.s sa).toNat)))
      ∧ (Issues s c (.jal sd imm) → becomes (.jal c sd imm) s
          (s.die.setCore c { k.setS sd (BitVec.ofNat 64 (k.pc + 8)) with pc := ((k.pc : Int) + 8 * imm.toInt).toNat }))
      ∧ (Issues s c (.jr sa) → becomes (.jr c sa) s (s.die.setCore c { k with pc := (k.s sa).toNat })))
  ∧ (∀ (s : State) (c : CoreIx) (sd sa : Reg) (imm : W32),
      let k := s.die.core c
      let a := (k.s sa + imm.signExtend 64).toNat
      (Issues s c (.ldc sd sa imm) → k.clear [{ dva := false, lo := a, hi := a + 8, write := false }] false = true → k.cribErr = [] →
        retires (.ldc c sd sa imm) s c fun k => k.setS sd (BitVec.ofNat 64 (leNat (memRead k.crib a 8))))
      ∧ (Issues s c (.sdc sd sa imm) → k.clear [{ dva := false, lo := a, hi := a + 8, write := true }] false = true → k.cribErr = [] →
        retires (.sdc c sd sa imm) s c fun k => { k with crib := memWrite k.crib a (leBytes 8 (k.s sd).toNat) })
      ∧ (Issues s c (.csrr sd 2) → ∀ r, k.run = some r →
        becomes (.csrr c sd 2) s ({ s.die with freeCtr := s.die.freeCtr + 1 }.setCore c (k.setS sd (BitVec.ofNat 64 r.part.val)).next))
      ∧ (Issues s c (.csrr sd 3) → k.run.isSome = true → becomes (.csrr c sd 3) s
          ({ s.die with freeCtr := s.die.freeCtr + 1 }.setCore c (k.setS sd (BitVec.ofNat 64 s.die.tick.now)).next))
      ∧ (Issues s c (.csrw sa 0x010) → retires (.csrw c sa 0x010) s c fun k => { k with srSeed := k.s sa })
      ∧ (Issues s c (.csrw sa 0x011) → retires (.csrw c sa 0x011) s c fun k => { k with srTensor := k.s sa })
      ∧ (Issues s c (.csrw sa 0x012) → retires (.csrw c sa 0x012) s c fun k => { k with srStep := k.s sa }))

/-- The lane-wise vector instructions write the lanes that the mask selects and keep the others. Lane arithmetic of R172 and R173: INT32 wraps and keeps
−2³¹ under VABS; FP32 minimum and maximum of a NaN are the canonical NaN; −0 is below +0. -/
def Obligations.VectorLanes : Prop :=
  (∀ (s : State) (c : CoreIx) (vd va vb vc sa sd : Reg) (m : BitVec 2) (ty : VType) (out : OutFmt) (rnd : Rounding) (ln : BitVec 7),
      (Issues s c (.vec2 .add vd va vb m ty) → retires (.vadd c vd va vb m ty) s c fun k =>
          k.putLanes vd m (List.zipWith (lane2 .add ty) (lanes (k.v va)) (lanes (k.v vb))))
      ∧ (Issues s c (.vec2 .sub vd va vb m ty) → retires (.vsub c vd va vb m ty) s c fun k =>
          k.putLanes vd m (List.zipWith (lane2 .sub ty) (lanes (k.v va)) (lanes (k.v vb))))
      ∧ (Issues s c (.vec2 .mul vd va vb m ty) → retires (.vmul c vd va vb m ty) s c fun k =>
          k.putLanes vd m (List.zipWith (lane2 .mul ty) (lanes (k.v va)) (lanes (k.v vb))))
      ∧ (Issues s c (.vec2 .min vd va vb m ty) → retires (.vmin c vd va vb m ty) s c fun k =>
          k.putLanes vd m (List.zipWith (lane2 .min ty) (lanes (k.v va)) (lanes (k.v vb))))
      ∧ (Issues s c (.vec2 .max vd va vb m ty) → retires (.vmax c vd va vb m ty) s c fun k =>
          k.putLanes vd m (List.zipWith (lane2 .max ty) (lanes (k.v va)) (lanes (k.v vb))))
      ∧ (Issues s c (.vabs vd va m ty) → retires (.vabs c vd va m ty) s c fun k => k.putLanes vd m ((lanes (k.v va)).map (laneAbs ty)))
      ∧ (Issues s c (.vfma vd va vb vc m ty) → retires (.vfma c vd va vb vc m ty) s c fun k =>
          k.putLanes vd m ((List.range 128).map fun i => laneFma ty (lane (k.v va) i) (lane (k.v vb) i) (lane (k.v vc) i)))
      ∧ (Issues s c (.vsel vd va vb m) → retires (.vsel c vd va vb m) s c fun k =>
          k.setV vd (ofLanes ((List.range 128).map fun i => if (k.m m).getLsbD i then (lanes (k.v va)).getD i 0 else (lanes (k.v vb)).getD i 0)))
      ∧ (Issues s c (.vcvt vd va vb m ty out rnd) → retires (.vcvt c vd va vb m ty out rnd) s c fun k =>
          k.putLanes vd m ((List.range 128).map fun i => laneCvt k ty out rnd (k.s vb + BitVec.ofNat 64 i) (lane (k.v va) i)))
      ∧ (Issues s c (.vbcast vd sa m) → retires (.vbcast c vd sa m) s c fun k => k.putLanes vd m (List.replicate 128 ((k.s sa).setWidth 32)))
      ∧ (Issues s c (.vred vd va m ty) → retires (.vred c vd va m ty) s c fun k =>
          k.putLanes vd m (vredVal ty (lanes (k.v va)) :: List.replicate 127 0))
      ∧ (Issues s c (.vmovs sd va ln) → retires (.vmovs c sd va ln) s c fun k => k.setS sd ((lane (k.v va) ln.toNat).setWidth 64)))
  ∧ ((∀ x y z : W32, lane2 .add .int32 x y = x + y ∧ lane2 .sub .int32 x y = x - y ∧ lane2 .mul .int32 x y = x * y
        ∧ laneFma .int32 x y z = x * y + z ∧ laneAbs .int32 0x80000000#32 = 0x80000000#32)
    ∧ (∀ x y : W32, (num32 x).isNan = true ∨ (num32 y).isNan = true → lane2 .min .fp32 x y = nan32 ∧ lane2 .max .fp32 x y = nan32)
    ∧ lane2 .min .fp32 0x80000000#32 0#32 = 0x80000000#32 ∧ lane2 .max .fp32 0x80000000#32 0#32 = 0#32)

/-- VCMP writes the mask bits of the lanes that its own mask selects and keeps the others; m0 stays all ones. The eight transcendental instructions apply
their function to each selected lane. VLD and VST move 512 bytes between the crib and a register. -/
def Obligations.VectorFunctions : Prop :=
  (∀ (s : State) (c : CoreIx) (md : BitVec 2) (va vb : Reg) (m : BitVec 2) (ty : VType) (op : CmpOp), Issues s c (.vcmp md va vb m ty op) →
      let k := s.die.core c
      let new := maskOf fun i => laneCmp ty op (lane (k.v va) i) (lane (k.v vb) i)
      becomes (.vcmp c md va vb m ty op) s
        (s.die.setCore c (if md = 0 then k.next else (k.setM md ((new &&& k.m m) ||| (k.m md &&& ~~~(k.m m)))).next)))
  ∧ (∀ (s : State) (c : CoreIx) (vd va : Reg) (m : BitVec 2),
      (Issues s c (.vtrans .exp vd va m) → retires (.vexp c vd va m) s c fun k => k.putLanes vd m ((lanes (k.v va)).map fnExp))
      ∧ (Issues s c (.vtrans .log vd va m) → retires (.vlog c vd va m) s c fun k => k.putLanes vd m ((lanes (k.v va)).map fnLog))
      ∧ (Issues s c (.vtrans .rcp vd va m) → retires (.vrcp c vd va m) s c fun k => k.putLanes vd m ((lanes (k.v va)).map fnRcp))
      ∧ (Issues s c (.vtrans .rsqrt vd va m) → retires (.vrsqrt c vd va m) s c fun k => k.putLanes vd m ((lanes (k.v va)).map fnRsqrt))
      ∧ (Issues s c (.vtrans .sin vd va m) → retires (.vsin c vd va m) s c fun k => k.putLanes vd m ((lanes (k.v va)).map fnSin))
      ∧ (Issues s c (.vtrans .cos vd va m) → retires (.vcos c vd va m) s c fun k => k.putLanes vd m ((lanes (k.v va)).map fnCos))
      ∧ (Issues s c (.vtrans .tanh vd va m) → retires (.vtanh c vd va m) s c fun k => k.putLanes vd m ((lanes (k.v va)).map fnTanh))
      ∧ (Issues s c (.vtrans .sigm vd va m) → retires (.vsigm c vd va m) s c fun k => k.putLanes vd m ((lanes (k.v va)).map fnSigm)))
  ∧ (∀ (s : State) (c : CoreIx) (vd sa : Reg) (m : BitVec 2) (imm : W32),
      let k := s.die.core c
      let a := (k.s sa + imm.signExtend 64).toNat
      (Issues s c (.vld vd sa m imm) → k.clear [{ dva := false, lo := a, hi := a + 512, write := false }] false = true → k.cribErr = [] →
        retires (.vld c vd sa m imm) s c fun k =>
          k.putLanes vd m ((List.range 128).map fun i => BitVec.ofNat 32 (field (memRead k.crib a 512) (4 * i) 4)))
      ∧ (Issues s c (.vst vd sa imm) → k.clear [{ dva := false, lo := a, hi := a + 512, write := true }] false = true → k.cribErr = [] →
        retires (.vst c vd sa imm) s c fun k => { k with crib := memWrite k.crib a ((lanes (k.v vd)).flatMap fun x => leBytes 4 x.toNat) }))

/-- A word that is undefined when it would issue (here a CSR number outside the table, R101) stops the slice: CORE_FAULT with cause 9, a contained fault
of the core array and the stop with ILLEGAL_OPCODE (R97, R116). A word undefined as it stands, a pc at the end of the bank, and a word of bad parity
stop the slice with their cause (R96, R100, R116). A stop for a core fault: the record under VALID, the contained event of the core array, and the
slice stopping with its status and its launch failed (R97, R116, R581). -/
def Obligations.CoreStops : Prop :=
  (∀ (s : State) (c : CoreIx) (sd : Reg) (n : BitVec 12), s.die.live = true → (s.die.core c).issuing = true →
      (s.die.core c).opAt = some (.csrr sd n) → (s.die.core c).regsReady [sd] [] = true → csrListed n = false →
      becomes (.csrr c sd n) s (s.die.coreFault c 9 (s.die.core c).pc .illegalOpcode))
  ∧ (∀ (s : State) (c : CoreIx) (w : W64) (cause : Nat), s.die.live = true → (s.die.core c).issuing = true →
      let k := s.die.core c
      (k.wordAt = some (w, false) → decodeWord w = .error cause → becomes (.undefinedEncoding c) s (s.die.coreFault c cause k.pc .illegalOpcode))
      ∧ (0x20000 ≤ k.pc → becomes (.undefinedEncoding c) s (s.die.coreFault c 8 (k.pc - 8) .illegalOpcode))
      ∧ (k.wordAt = some (w, true) → becomes (.programParityStop c) s (s.die.coreFault c 10 k.pc .eccUncorrectable)))
  ∧ (∀ (d : Die) (c : CoreIx) (cause pc : Nat) (st : Status) (run : SliceRun), d.canonical → (d.core c).run = some run → run.stopping = none →
      d.bit (CORE_FAULT_VALID c.val) = false →
      let t := d.coreFault c cause pc st
      t.get (CORE_FAULT_CAUSE c.val) = cause % 32 ∧ t.get (CORE_FAULT_PC_OFFSET c.val) = pc % 2 ^ 17 ∧ t.bit (CORE_FAULT_VALID c.val) = true
      ∧ t.fault.slots = d.fault.slots ++ [{ src := 0, cls := .contained, detail := detail c.val cause run.part.val, forced := false }]
      ∧ ((d.core c).quiet = false → (t.core c) = { d.core c with run := some { run with stopping := some st }, wait := none }) ∧ t.mem = d.mem)

/-- Loads, stores and atomics of DVA space (R89, R98, R99, R292): the access becomes outstanding, the core moves to the next word, and the access leaves
the core at once where it may. A W atomic is of 64 bits. Vector loads and stores of DVA space: 512 bytes, one outstanding operation for each line they
touch (R99). -/
def Obligations.DvaAccesses : Prop :=
  (∀ (s : State) (c : CoreIx) (sd sa sb : Reg) (imm : W32) (v w : Bool),
      let k := s.die.core c
      let a := (k.s sa + imm.signExtend 64).toNat
      let free (x n : Nat) (write : Bool) : Prop := k.clear [{ dva := true, lo := x, hi := x + n, write := write }] true = true
      let sends (x n : Nat) (vol : Bool) (acc : CoreAccess) (dest : Option LoadDest) : Die :=
        (s.die.setCore c { k with
          pc := k.pc + 8, nextOp := k.nextOp + 1,
          ops := k.ops ++ [{ id := k.nextOp, tail := false, pc := k.pc, addr := x, bytes := n, vol := vol, acc := acc, dest := dest, line := none,
                             sent := false, value := none, acked := false }] }).sendOp c k.nextOp
      let n := if w then 8 else 4
      let b := (k.s sa).toNat
      (Issues s c (.ld sd sa imm v) → free a 8 false → becomes (.ld c sd sa imm v) s (sends a 8 v .read (some (.sreg sd 8))))
      ∧ (Issues s c (.lw sd sa imm v) → free a 4 false → becomes (.lw c sd sa imm v) s (sends a 4 v .read (some (.sreg sd 4))))
      ∧ (Issues s c (.sd sd sa imm) → free a 8 true → becomes (.sd c sd sa imm) s (sends a 8 false (.write (leBytes 8 (k.s sd).toNat)) none))
      ∧ (Issues s c (.sw sd sa imm) → free a 4 true → becomes (.sw c sd sa imm) s (sends a 4 false (.write (leBytes 4 (k.s sd).toNat)) none))
      ∧ (Issues s c (.amo .add sd sa sb w) → free b n true →
          becomes (.amoadd c sd sa sb w) s (sends b n false (.amo .add (k.s sd) (k.s sb)) (some (.sreg sd n))))
      ∧ (Issues s c (.amo .swap sd sa sb w) → free b n true →
          becomes (.amoswap c sd sa sb w) s (sends b n false (.amo .swap (k.s sd) (k.s sb)) (some (.sreg sd n))))
      ∧ (Issues s c (.amo .cas sd sa sb w) → free b n true →
          becomes (.amocas c sd sa sb w) s (sends b n false (.amo .cas (k.s sd) (k.s sb)) (some (.sreg sd n)))))
  ∧ (∀ (s : State) (c : CoreIx) (vd sa : Reg) (m : BitVec 2) (imm : W32),
      let k := s.die.core c
      let a := (k.s sa + imm.signExtend 64).toNat
      let free (write : Bool) : Prop := k.clear [{ dva := true, lo := a, hi := a + 512, write := write }] true = true
      (Issues s c (.vldg vd sa m imm) → free false →
        becomes (.vldg c vd sa m imm) s
          (s.die.startAccess c k (coreParts k false (fun _ _ => .read) (fun off _ => some (.vreg vd (k.m m) off)) a 512)))
      ∧ (Issues s c (.vstg vd sa imm) → free true →
        becomes (.vstg c vd sa imm) s
          (s.die.startAccess c k (coreParts k false (fun off n => .write (((laneBytes (lanes (k.v vd))).drop off).take n)) (fun _ _ => none) a 512))))

/-- An access stays in its core behind an earlier one that has not left it, if both are writes (R277) or they have bytes in common (R92). A load that has
returned, and an atomic that has returned and whose write is performed, lands in its register (R89): the low bytes zero-extended in a scalar register,
the lanes of its mask in a vector register. A write that is acknowledged ends (R105, R273), and a SIGNAL that the core stood at issues. -/
def Obligations.AccessesEnd : Prop :=
  (∀ (d : Die) (c : CoreIx) (o x : CoreOpEntry), d.opOf c o.id = some o → x ∈ (d.core c).ops → x.id < o.id → x.sent = false →
      (o.acc ≠ .read ∧ x.acc ≠ .read) ∨ (x.addr < o.addr + o.bytes ∧ o.addr < x.addr + x.bytes) → d.sendOp c o.id = d)
  ∧ (∀ (s : State) (c : CoreIx) (o : CoreOpEntry) (r : Reg) (n off : Nat) (mask : LaneMask) (bs : List Byte),
      s.die.live = true → s.die.opOf c o.id = some o →
      let k := s.die.core c
      let rest := k.ops.filter fun x => x.id != o.id
      (o.dest = some (.sreg r n) → o.value = some bs → (o.acc = .read ∨ o.acked = true) →
        becomes (.loadReturn c o.id) s ((s.die.setCore c { k.setS r (BitVec.ofNat 64 (leNat (bs.take n))) with ops := rest }).settle c))
      ∧ (o.dest = some (.vreg r mask off) → o.value = some bs → (o.acc = .read ∨ o.acked = true) →
        becomes (.loadReturn c o.id) s ((s.die.setCore c { k.mergeLanes r mask off bs with ops := rest }).settle c))
      ∧ (o.dest = none → o.acked = true → k.wait ≠ some (.signal o.id) →
        becomes (.writeAcknowledge (.core c) o.id) s ((s.die.setCore c { k with ops := rest }).settle c))
      ∧ (o.dest = none → o.acked = true → k.wait = some (.signal o.id) →
        becomes (.writeAcknowledge (.core c) o.id) s ((s.die.setCore c { k with ops := rest, wait := none, pc := k.pc + 8 }).settle c)))

/-- FETCH and STOW give a free engine their address, row bytes, rows, stride and crib offset (R94); an engine whose rows are done, and a STOW's
acknowledged, is free again. LOADW, of a crib without errors and with no other stream than DRAINs under way, writes every stationary cell from its tile
and starts a stream (R86, R119); it moves to the next word, and changes no register, accumulator, byte of the crib, outstanding access, other core or
other part of the die. -/
def Obligations.FetchStowLoad : Prop :=
  (∀ (s : State) (c : CoreIx) (sa sb sc : Reg) (v : Bool) (crib : BitVec 22) (e : EngIx) (r : SliceRun) (x : EngOp),
      let k := s.die.core c
      let op (stow vol : Bool) : EngOp :=
        { pc := k.pc, stow := stow, v := vol, part := r.part, dva := (k.s sa).toNat, rowBytes := (k.s sb).toNat % 2 ^ 32,
          rows := (k.s sb).toNat / 2 ^ 32 % 2 ^ 16, stride := (k.s sc).toInt, crib := crib.toNat, done := 0 }
      let takes (stow vol : Bool) : Die := s.die.setCore c { k with pc := k.pc + 8, engines := assocPut k.engines e.val (op stow vol) }
      (Issues s c (.fetch sa sb sc v crib) → k.run = some r → k.freeEngine = some e → k.clear (op false v).ranges true = true →
        becomes (.fetch c sa sb sc v crib) s (takes false v))
      ∧ (Issues s c (.stow sa sb sc crib) → k.run = some r → k.freeEngine = some e → k.clear (op true false).ranges true = true →
        becomes (.stow c sa sb sc crib) s (takes true false))
      ∧ (s.die.live = true → assoc k.engines e.val = some x → x.rows ≤ x.done → (x.stow = true → s.die.unacked (.eng c e) = false) →
        becomes (.fetchComplete c e) s ((s.die.setCore c { k with engines := k.engines.filter fun y => y.1 != e.val }).settle c)))
  ∧ (∀ (s : State) (c : CoreIx) (fmt : ArrFmt) (src : BitVec 22),
      let k := s.die.core c
      let hi := src.toNat + 8192 + scaleBytes fmt 64
      Issues s c (.loadw fmt src) → (∀ x ∈ k.streams, x.kind = .drain) → k.cribErr = [] → k.canonical →
      k.clear [{ dva := false, lo := src.toNat, hi := hi, write := false }] true = true →
      answers (.loadw c fmt src) s fun t =>
        let q := t.core c
        q.streams = k.streams ++ [{ kind := .loadw, arr := 0, accLo := 0, accHi := 0, lo := src.toNat, hi := hi, fmt := BitVec.ofNat 4 fmt.code }]
        ∧ (∀ row col, row < 64 → col < 64 → q.cell row col = leNat (memRead k.crib (src.toNat + 128 * row + 2 * col) 2))
        ∧ q.pc = k.pc + 8 ∧ q.storeBad = [] ∧ q.sreg = k.sreg ∧ q.vreg = k.vreg ∧ q.crib = k.crib ∧ q.acc = k.acc ∧ q.ops = k.ops
        ∧ (∀ x, x ≠ c → t.core x = s.die.core x) ∧ s.die = { t with cores := s.die.cores })

/-- One moving row of a PASS writes the accumulator row of the lanes that the column mask keeps, with the block sum or with the old value plus it (R120,
R133), and no other element. A corrected crib word that has been written back reports no more (R88). -/
def Obligations.ArrayPasses : Prop :=
  (∀ (k : Core) (mv st : ArrFmt) (fold : Bool) (a acc i : Nat) (row scales : List Byte), acc + i < 256 → k.canonical →
      let q := passRow k false mv st fold a acc i row scales
      q.canonical ∧
      ∀ b j lane, b < 4 → j < 256 → lane < 64 → a < 4 →
        q.accGet b j lane =
          if b = a ∧ j = acc + i ∧ k.colMask.getLsbD lane = true then
            (if fold then addRne (k.accGet a (acc + i) lane) (passLane k mv st row scales i lane) else passLane k mv st row scales i lane)
          else k.accGet b j lane)
  ∧ (∀ (s : State) (c : CoreIx) (word : Nat), s.die.live = true →
      becomes (.cribEccWriteback c word) s
        (s.die.setCore c { s.die.core c with cribErr := (s.die.core c).cribErr.filter fun e => e ≠ (word, .pending) }))

/-- Where nothing they read has an error, and neither a LOADW nor a stream of their array is under way, PASS, PASST and DRAIN start their stream with its
accumulator rows and crib bytes (R86, R120, R121, R130), move to the next word, and leave the scalar and vector registers, the stationary store, the
outstanding accesses, the slice, the other cores, device memory, the launches and the fault slots as they are. MASK sets the row and column masks
(R133); a stream's completion takes it from the core, and a LOADW's makes its format that of the store (R86). -/
def Obligations.ArrayStreams : Prop :=
  (∀ (s : State) (c : CoreIx) (fmt : ArrFmt) (fold : Bool) (arr : BitVec 2) (rowsM1 acc : BitVec 8) (src : BitVec 22) (sa sb : Reg) (out : OutFmt)
      (rnd : Rounding),
      let k := s.die.core c
      let rows := rowsM1.toNat + 1
      let clean : Prop := k.cribErr = [] ∧ k.storeBad = [] ∧ k.accBad = [] ∧ k.scaleBad = []
      let free : Prop := ∀ x ∈ k.streams, x.kind ≠ .loadw ∧ x.arr ≠ arr
      let starts (i : Instr) (st : Stream) : Prop := answers i s fun t =>
        let q := t.core c
        q.streams = k.streams ++ [st] ∧ q.pc = k.pc + 8 ∧ q.sreg = k.sreg ∧ q.vreg = k.vreg ∧ q.store = k.store ∧ q.ops = k.ops ∧ q.run = k.run
        ∧ (∀ x, x ≠ c → t.core x = s.die.core x) ∧ t.mem = s.die.mem ∧ t.launches = s.die.launches ∧ t.fault = s.die.fault
      let stream (tr : Bool) : Stream :=
        { kind := .pass, arr := arr, accLo := acc.toNat, accHi := acc.toNat + (if tr && k.storeFmt.toNat != 0 then 2 * rows else rows), lo := src.toNat,
          hi := src.toNat + 128 * rows + scaleBytes fmt rows, fmt := BitVec.ofNat 4 fmt.code }
      let reads : Prop :=
        k.clear [{ dva := false, lo := src.toNat, hi := src.toNat + 128 * rows + scaleBytes fmt rows, write := false }] true = true
      (Issues s c (.pass false fmt fold arr rowsM1 acc src) → clean → free → reads → starts (.pass c fmt fold arr rowsM1 acc src) (stream false))
      ∧ (Issues s c (.pass true fmt fold arr rowsM1 acc src) → clean → free → reads → starts (.passt c fmt fold arr rowsM1 acc src) (stream true))
      ∧ (Issues s c (.drain sa sb arr rowsM1 acc out rnd src) → clean → free →
        k.clear [{ dva := false, lo := src.toNat, hi := src.toNat + rows * 64 * out.bytes, write := true }] true = true →
        starts (.drain c sa sb arr rowsM1 acc out rnd src)
          { kind := .drain, arr := arr, accLo := acc.toNat, accHi := acc.toNat + rows, lo := src.toNat,
            hi := src.toNat + rows * 64 * out.bytes, fmt := 0 }))
  ∧ (∀ (s : State) (c : CoreIx) (sa sb : Reg) (n : Nat) (x : Stream),
      let k := s.die.core c
      (Issues s c (.mask sa sb) → retires (.mask c sa sb) s c fun k => { k with rowMask := k.s sa, colMask := k.s sb })
      ∧ (s.die.live = true → k.streams[n]? = some x →
        becomes (.arrayStreamComplete c n) s
          ((s.die.setCore c { k with streams := k.streams.eraseIdx n, storeFmt := if x.kind = .loadw then x.fmt else k.storeFmt }).settle c)))

/-- SIGNAL to an object of its die fills the core's slot once its earlier writes are acknowledged (R105, R263); WAIT issues when the object meets its
condition, else the core stands at it (R106, R258); BARRIER stands until its release, and a core barrier without anything outstanding issues at once
(R108). -/
def Obligations.SyncInstructions : Prop :=
  ∀ (s : State) (c : CoreIx) (r : Reg) (reg equal : Bool) (obj : ObjIx) (imm : W32) (scope : Scope) (run : SliceRun),
    let k := s.die.core c
    let o := s.die.obj obj
    k.run = some run →
    (Issues s c (.signal r reg false 0 (BitVec.ofNat 13 obj.val) imm) → k.writesOpen k.nextOp = false → o.owner.toNat = run.part.val →
        assoc s.die.sync.slots c.val = none →
      let slot : SlotSignal := { obj := obj, inc := if reg then k.s r else imm.setWidth 64, part := run.part.val, who := some (.core c, k.nextOp), head := none }
      let d : Die := { s.die with sync := { s.die.sync with slots := assocPut s.die.sync.slots c.val slot } }
      becomes (.signalInstr c r reg false 0 obj imm) s
        (d.setCore c { k with
          pc := k.pc + 8, nextOp := k.nextOp + 1,
          ops := k.ops ++ [{ id := k.nextOp, tail := true, pc := k.pc, addr := 0, bytes := 0, vol := false, acc := .write [], dest := none,
                             line := none, sent := true, value := none, acked := false }] }))
    ∧ (Issues s c (.wait r equal (BitVec.ofNat 13 obj.val)) → o.owner.toNat = run.part.val → o.poison = false →
      becomes (.waitInstr c r equal obj) s
        (s.die.setCore c (if (if equal then o.value = k.s r else (k.s r).toNat ≤ o.value.toNat) then { k with pc := k.pc + 8 }
          else { k with wait := some (.object obj equal (k.s r)) })))
    ∧ (Issues s c (.barrier scope) → scope ≠ .system →
      becomes (.barrierInstr c scope) s
        (s.die.setCore c (if scope = .core ∧ k.streams = [] ∧ k.engines = [] ∧ k.ops = [] then { k with pc := k.pc + 8 }
          else { k with wait := some (.barrier scope 0 false) })))
    ∧ (Issues s c (.barrier .system) →
      becomes (.barrierInstr c .system) s
        (s.die.setCore c { k with wait := some (.barrier .system (s.die.sysInst run) false), run := some { run with sysbars := run.sysbars + 1 } }))

/-- A yard or die barrier issues on all its participants once each has reached it with every earlier write acknowledged (R108). The first arrival of a
system barrier of more than one die is counted at the lead, and its release passes the cores of its partition that stand at it and have arrived (R288).
SLICE_END marks its slice as ended, and the slice retires once nothing it issued is outstanding (R109). -/
def Obligations.BarriersAndSliceEnd : Prop :=
  (∀ (s : State) (c : CoreIx) (run : SliceRun) (scope : Scope) (src : Place) (part : PartIx) (inst : Nat), s.die.live = true →
      ((s.die.core c).wait = some (.barrier scope 0 false) → (s.die.core c).run = some run → (scope = .yard ∨ scope = .die) →
          (∀ x ∈ s.die.participants c run scope, (s.die.core x).standsAt scope 0 = true) →
        becomes (.barrierRelease c) s (s.die.passAll (s.die.participants c run scope)))
      ∧ (s.die.leads = true → s.die.cp.sysbars = [] → 1 < s.die.get (SYSBAR_EXPECT_DIES part.val) →
        becomes (.sysbarArrival src part inst) s
          { s.die with cp := { s.die.cp with sysbars := [{ part := part, inst := inst, dies := [src] }] } })
      ∧ (s.die.followsAsLead = false →
        becomes (.sysbarRelease part inst) s
          (s.die.passAll ((List.finRange 48).filter fun x =>
            (s.die.core x).wait = some (.barrier .system inst true) ∧ (s.die.core x).slicePart = part.val))))
  ∧ (∀ (s : State) (c : CoreIx) (run : SliceRun),
      let k := s.die.core c
      k.run = some run →
      (Issues s c .sliceEnd → becomes (.sliceEnd c) s (s.die.setCore c { k with run := some { run with ended := true } }))
      ∧ (s.die.live = true → run.ended = true → run.stopping = none → k.streams = [] → k.engines = [] → k.ops = [] →
        let d := s.die.setCore c { k with run := none, wait := none, held := [] }
        becomes (.sliceEndRetire c) s (if s.die.tick.inGuard then d.endLaunches else d)))

/-! ### The tick -/

/-- A write of 1 to RUN stores SYSTEM_LEAD and DIGEST_FENCE beside it and, on a lead that follows no other, starts the tick at 0, locked, with the die as its
own member (R37, R38); on any other die nothing else changes. A boundary: before the tick runs it is a beat, which counts and lets cores, units and power act (R39, log entry 76). Of a tick, it
ends the launches of the old tick, counts, shows the digest of the tick that ended, applies the message of the new tick, resets the cores that have
not stopped, applies a mode change, ends what spans a removed die, lets units and power act, raises the collector's interrupt, and starts batches,
chains and slices (R36, R42, R47, R53, R72, R223). The guard judges the cores, ends launches, samples the digest, acknowledges with slips, vote and
digest, and measures the power (R42, R43, R63, R82); a second guard of one tick, a beat while the tick runs and a boundary or guard before it runs do
nothing. -/
def Obligations.TickBoundaries : Prop :=
  (∀ (s : State) (who : Who) (v : W32), Reaches s.die who true → who.part = 0 → s.die.canonical → s.die.bit TICK_CTRL_RUN = false →
      v.getLsbD 0 = true →
      let follows : Prop := s.die.bit (OPT_CTRL_TICK_SRC 0) = true ∨ s.die.bit (OPT_CTRL_TICK_SRC 1) = true
      let set (t : Die) : Prop := t.bit TICK_CTRL_RUN = true ∧ t.bit TICK_CTRL_SYSTEM_LEAD = v.getLsbD 1 ∧ t.bit TICK_CTRL_DIGEST_FENCE = v.getLsbD 2
      (s.die.pins.lead = true → (v.getLsbD 1 = true ∨ ¬follows) → answers (.tickRun who v) s fun t =>
        set t ∧ t.bit TICK_STATUS_LOCKED = true
        ∧ t.get MEMBERSHIP_MEMBER = 2 ^ s.die.here.die.val ∧ s.die.keepsRegs t [TICK_CTRL, TICK_STATUS, MEMBERSHIP]
        ∧ t.tick = { s.die.tick with runs := true, now := 0, inGuard := false }
        ∧ { s.die with regs := t.regs, tick := t.tick, clkInTick := 0 } = t)
      ∧ ((s.die.pins.lead = false ∨ (v.getLsbD 1 = false ∧ follows)) → answers (.tickRun who v) s fun t =>
        set t ∧ s.die.keepsRegs t [TICK_CTRL] ∧ { s.die with regs := t.regs } = t))
  ∧ (∀ (s : State), s.die.live = true →
      (s.die.tick.runs = false → s.die.tick.beats = true →
        becomes .beatBoundary s
          (({ s.die with tick := { s.die.tick with now := s.die.tick.now + 1, count := s.die.tick.count + 1 },
                         clkInTick := 0 }.coreBoundary.unitBoundary).powerBoundary false).pump)
      ∧ (s.die.tick.runs = true →
        let a := s.die.endLaunches
        let b := if a.followsAsLead then (a.forwardAck a.tick.now false).countMisses (a.tick.now - 1) else a
        let c := { b with tick := { b.tick with now := b.tick.now + 1, count := b.tick.count + 1, inGuard := false, slipsNow := [] }, clkInTick := 0 }
        let e := (c.emit .boundary).showDigest.holdBoundary.applyMsg.coreBoundary.modeBoundary
        let f := (if e.tick.removedMask = 0 ∧ e.tick.removedPkgs = [] then e else e.endSpanning).unitBoundary.settlePlans
        let g := { f with tick := { f.tick with policies := f.policyMask } }
        becomes .tickBoundary s ((((g.powerBoundary true).faultIrq).batchBoundary.chains.startSlices).sourceBoundary.pump))
      ∧ (s.die.tick.runs = true → becomes .beatBoundary s s.die) ∧ (s.die.tick.runs = false → becomes .tickBoundary s s.die))
  ∧ (∀ (s : State) (watts scaled : Nat), s.die.live = true →
      (s.die.tick.runs = true → s.die.tick.inGuard = false →
        let a := { s.die with tick := { s.die.tick with inGuard := true } }.judgeAll.endLaunches
        let x := a.makeAck
        let b := if x.vote = .ready ∧ a.get MODE_STATE_STATE = 1 then a.put MODE_STATE_STATE 2 else a
        x.src = a.here ∧ x.tick = a.tick.now ∧ x.epoch = a.epoch ∧ x.slips = a.slipMask ∧ x.digest = a.digest ∧ x.cancels = a.tick.cancelsNow
        ∧ becomes (.guardStart watts scaled) s
            (({ b with tick := { b.tick with cancelsNow := [], sampled := some x.digest } }.sendAck x).powerGuard watts scaled))
      ∧ (s.die.tick.inGuard = true → becomes (.guardStart watts scaled) s s.die)
      ∧ (s.die.tick.runs = false → becomes (.guardStart watts scaled) s s.die))

/-- The lead sends one message in each tick: the next tick's number, its members with those removed before a message named them, the slips that fall due by then and that none has carried, the
cancellations heard of, and no mode change when none is outstanding; a package that has been removed hears that it has no member (R47, R58, R63, log
entry 74). A second send in one tick, and one on a die that leads no domain, do nothing. A message that comes on a port whose authority allows
TICK messages reaches a die that takes time from that port and its sender (R36, R58, R61), counts no tick of its own, and is not itself a second
system lead: such a die keeps the message for the next boundary, notes its phase, is locked within the bound of R57, raises a corrected
fault past WARN_LIMIT (R57), and has heard its source (R65); one that only listened takes tick number, members and epoch from it (R37). Any other die does nothing with a
message but return its credits; a system lead that hears a second one sets DUAL_LEAD, raises a contained fault, and is tick-lost if its package ID is
the higher one (R61, log entry 75); a message that the port's authority forbids is refused (R436). -/
def Obligations.TickMessages : Prop :=
  (∀ (s : State), s.die.live = true →
      (s.die.leads = true → s.die.tick.msgSent ≠ some s.die.tick.now → s.die.tick.lead = none →
        let now := s.die.tick.now
        let slips := s.die.slipsFor (now + 1)
        let d := if now = 0 then s.die else s.die.countMisses (now - 1)
        let m : TickMsg :=
          { src := s.die.here, epoch := s.die.epoch, tick := now + 1, members := BitVec.ofNat 8 (s.die.get MEMBERSHIP_MEMBER) ||| s.die.tick.unnamed,
            slips := slips.foldl (fun m x => setMask m x.part true) 0, changeId := 0, action := .none, cause := 0,
            sysLead := s.die.bit TICK_CTRL_SYSTEM_LEAD, target := 0, cancels := s.die.tick.cancelsOut, recs := [] }
        let marked := s.die.tick.slipLog.map fun x => if slips.contains x then { x with carried := true } else x
        becomes .tickMsgSend s
          ({ d with tick := { d.tick with msgSent := some now, nextMsg := some m, cancelsOut := [], unnamed := 0,
                                          slipLog := marked.filter fun x => !x.carried || decide (now ≤ x.tick + 32) } }.distribute fun dst =>
            .tick dst s.die.epoch (if s.die.tick.removedPkgs.contains dst.pkg then { m with members := 0 } else m)))
      ∧ ((s.die.leads = false ∨ s.die.tick.msgSent = some s.die.tick.now) → becomes .tickMsgSend s s.die))
  ∧ (∀ (s : State) (port : LinkPort) (m : TickMsg) (offset chain : W16),
      let d := s.die.freeUnits port 1 44
      let second : Prop := (∃ n, port = .opt n) ∧ s.die.pins.lead = true ∧ s.die.bit TICK_CTRL_SYSTEM_LEAD = true ∧ m.sysLead = true ∧ m.src.pkg ≠ s.die.here.pkg
      let ears : Prop := s.die.takesTime port m.src = true ∧ (s.die.tick.runs = false ∨ s.die.tick.adopted = true)
      s.die.live = true → m.wf = true →
      (s.die.portUp port = true → s.die.authClass 1 port = true →
        (ears → becomes (.tickMsgReceive port m offset chain) s (d.hearTick m offset chain))
        ∧ (second → becomes (.tickMsgReceive port m offset chain) s
            (let e := (d.putB TICK_STATUS_DUAL_LEAD true).raise 15 .contained (detail s.die.here.die.val 6 m.src.pkg.val)
             if m.src.pkg.val < s.die.here.pkg.val then (e.putB TICK_STATUS_HOLDOVER false).putB TICK_STATUS_TICK_LOST true else e))
        ∧ (¬ears → ¬second → becomes (.tickMsgReceive port m offset chain) s d))
      ∧ (s.die.portUp port = true → s.die.authClass 1 port = false →
        becomes (.tickMsgReceive port m offset chain) s ((s.die.refuseTick port m.src).freeUnits port 1 44))
      ∧ (s.die.portUp port = false → becomes (.tickMsgReceive port m offset chain) s s.die))
  ∧ (∀ (d : Die) (m : TickMsg) (offset chain : W16), d.canonical → m.action ≠ .cancel → d.pins.lead = false →
      let t := d.hearTick m offset chain
      let heard (u : TickUnit) : TickUnit :=
        { u with offsetOk := decide (offset.toInt.natAbs ≤ d.get TICK_ALIGN_LOSS_LIMIT), leadAt := some m.src, silent := 0,
                 nextMsg := if m.tick = u.now + 1 then some m else u.nextMsg, unnamed := if m.tick = u.now + 1 then 0 else u.unnamed }
      let limit := d.get TICK_ALIGN_WARN_LIMIT
      t.get TICK_OFFSET_OFFSET = offset.toNat
      ∧ (d.bit TICK_STATUS_HOLDOVER = false → d.bit TICK_STATUS_TICK_LOST = false → (t.bit TICK_STATUS_LOCKED = true ↔ offset.toInt.natAbs ≤ 32))
      ∧ ((d.bit TICK_STATUS_HOLDOVER = true ∨ d.bit TICK_STATUS_TICK_LOST = true) → t.raw TICK_STATUS = d.raw TICK_STATUS)
      ∧ t.fault = (if limit < offset.toInt.natAbs ∨ limit < chain.toInt.natAbs then (d.raise 15 .corrected (detail d.here.die.val 2 0)).fault else d.fault)
      ∧ (d.tick.runs = true → t.tick = heard d.tick ∧ t.epoch = d.epoch)
      ∧ (d.tick.runs = false →
          t.tick = heard { d.tick with runs := true, adopted := true, now := m.tick - 1, members := m.members, inGuard := false } ∧ t.epoch = m.epoch)
      ∧ d.keepsRegs t [TICK_OFFSET, TICK_STATUS, TICK_EPOCH] ∧ { d with regs := t.regs, tick := t.tick, fault := t.fault } = t)

/-- The lead of a tick domain merges the acknowledgement of a member: it is kept with those of the last ticks, its slips are heard of with the tick at which
each takes effect, and its cancellations go into the next message (R47, R63, R230); this for one that is not yet to be compared, with no mode change
outstanding. One with another epoch removes its sender, unless it is older than the epoch (R78). A member whose acknowledgements have been missing for
TICK_ALIGN.ACK_LOSS ticks is removed (R67); one whose have not, and a die that is no member, are left alone. A removal of a die of the
package: its bit leaves MEMBER and stands in LOST, a contained fault of the tick unit is raised, and an undecided mode change is cancelled
with cause 4 (R67, R74); one that no message has named yet is named by the next, so that the one after announces its removal (R68, log entry 29). -/
def Obligations.TickMembers : Prop :=
  (∀ (s : State) (a : TickAck), s.die.live = true → a.wf = true → s.die.leads = true → a.src ≠ s.die.here →
      s.die.wasRemoved a.src a.tick = false → s.die.isMember a.src = true →
      (a.epoch = s.die.epoch → s.die.tick.lead = none → s.die.ownAck a.tick = none →
        let new := (maskParts a.slips).filter fun p => ¬ ∃ x ∈ s.die.tick.slipLog, x.tick = a.tick ∧ x.part = p
        becomes (.tickAckReceive a) s { s.die with tick := { s.die.tick with
          acks := (s.die.tick.acks.filter fun x => ¬(x.src = a.src ∧ x.tick = a.tick) ∧ s.die.tick.now ≤ x.tick + 4) ++ [a],
          cancelsOut := s.die.tick.cancelsOut ++ a.cancels,
          slipLog := s.die.tick.slipLog ++ new.map fun p =>
            { tick := a.tick, part := p, due := a.tick + 1 + orOne (s.die.get (SLIP_CTRL_SLIP_LAG p)), carried := false } } })
      ∧ (a.epoch ≠ s.die.epoch → s.die.tick.epochTick ≤ a.tick → becomes (.tickAckReceive a) s (s.die.removeMember a.src))
      ∧ (a.epoch ≠ s.die.epoch → a.tick < s.die.tick.epochTick → becomes (.tickAckReceive a) s s.die))
  ∧ (∀ (s : State) (x : Place), s.die.live = true → (s.die.leads = true ∨ s.die.followsAsLead = true) → x ≠ s.die.here →
      let missed := (assoc s.die.tick.ackMiss (s.die.memberKey x)).getD 0
      (s.die.isMember x = true → orOne (s.die.get TICK_ALIGN_ACK_LOSS) ≤ missed → becomes (.memberAckLoss x) s (s.die.removeMember x))
      ∧ ((s.die.isMember x = false ∨ missed < orOne (s.die.get TICK_ALIGN_ACK_LOSS)) → becomes (.memberAckLoss x) s s.die))
  ∧ (∀ (d : Die) (x : DieIx), d.canonical → d.isMember { pkg := d.here.pkg, die := x } = true →
      let t := d.removeMember { pkg := d.here.pkg, die := x }
      t.get MEMBERSHIP_MEMBER = d.get MEMBERSHIP_MEMBER - 2 ^ x.val ∧ t.get MEMBERSHIP_LOST = (d.get MEMBERSHIP_LOST).lor (2 ^ x.val)
      ∧ d.keepsRegs t [MEMBERSHIP]
      ∧ t.fault = { d.fault with slots := d.fault.slots ++ [{ src := 15, cls := .contained, detail := detail x.val 4 0, forced := false }] }
      ∧ (∀ c, d.tick.lead = some c → c.decision = .none → t.tick.lead = some { c with decision := .cancel, cause := 4, unit := 0, die := x })
      ∧ (let named := match d.tick.nextMsg with | some m => if d.tick.now < m.tick then m.members else d.tick.members | none => d.tick.members
         t.tick.unnamed = if named.getLsbD x.val then d.tick.unnamed else d.tick.unnamed ||| (1#8 <<< x.val))
      ∧ { d with regs := t.regs, tick := { d.tick with lead := t.tick.lead, removedAt := t.tick.removedAt, unnamed := t.tick.unnamed }, fault := t.fault } = t)

/-- A die that follows enters holdover, unlocked, once its source's offset lies outside LOSS_LIMIT or TICK_ALIGN.HOLDOVER ticks have passed without a message
(R65), is tick-lost with a contained fault once its holdover has lasted as long (R66), and does neither otherwise. Until it tracks messages it passes
the tick pulse on (R58, R562). An echo request leaves with its time, is answered with the same time, and its reply gives half the round trip as the delay
of a peer port, in steps of 156.25 ps, saturating at 16 bits (R58); on a lead DIST_LATENCY becomes the largest of the one-way latencies in reference
clocks (R64), where members beyond the link add to its own a value that the spec does not give (log entry 77). MODE_CHANGE, once Groom has taken it: a payload
out of order ends it with its status (R245); the lead takes a change for B(A + 8) or for its own target, cancels one whose target is nearer (R71, R72), and
defers one behind an outstanding change to the tick after its target (R246); a die that follows sends it to the lead of its package (R71),
ends it with NO_AUTHORITY where the lead is in another package, since no optical port lets class 8 through (R434, R437), and leaves it waiting before the tick
runs. -/
def Obligations.TickLossAndMode : Prop :=
  (∀ (s : State),
      let d := s.die
      let limit := orOne (d.get TICK_ALIGN_HOLDOVER)
      let enters : Prop := d.tick.adopted = true ∧ d.bit TICK_STATUS_HOLDOVER = false ∧ d.bit TICK_STATUS_TICK_LOST = false ∧ (d.tick.offsetOk = false ∨ limit ≤ d.tick.silent)
      let lost : Prop := d.bit TICK_STATUS_HOLDOVER = true ∧ limit ≤ d.tick.holdTicks
      (d.live = true →
        (enters → becomes .holdoverEnter s
          { (d.putB TICK_STATUS_HOLDOVER true).putB TICK_STATUS_LOCKED false with tick := { d.tick with holdTicks := 0, gap := false } })
        ∧ (¬enters → becomes .holdoverEnter s d)
        ∧ (lost → becomes .tickLost s
          (((d.putB TICK_STATUS_HOLDOVER false).putB TICK_STATUS_TICK_LOST true).raise 15 .contained (detail d.here.die.val 3 0)))
        ∧ (¬lost → becomes .tickLost s d))
      ∧ ((d.live = true ∨ d.boot.phase = .boot) →
        (d.pins.lead = false → d.tick.runs = false → becomes .tickInPulse s { d with out := d.out ++ [.boundary] })
        ∧ ((d.pins.lead = true ∨ d.tick.runs = true) → becomes .tickInPulse s d)))
  ∧ (∀ (s : State) (port : LinkPort) (n : PortIx) (o : OptIx) (time now : W64), (s.die.live = true ∨ s.die.boot.phase = .boot) →
      let d := s.die
      let got (p : LinkPort) : Die := { d with tick := { d.tick with echo := d.tick.echo.filter fun e => e.1 != portNo p } }
      let delay := (now - time).toNat / 2
      (d.portUp port = true →
        becomes (.linkDelayEcho port time) s
          { d.sayOn port (.echo port d.epoch false time.toNat) with tick := { d.tick with echo := assocPut d.tick.echo (portNo port) time } }
        ∧ becomes (.echoRequest port time) s (d.sayOn port (.echo port d.epoch true time.toNat)))
      ∧ (d.portUp port = false → becomes (.linkDelayEcho port time) s d ∧ becomes (.echoRequest port time) s d)
      ∧ (assoc d.tick.echo (portNo port) ≠ some time → becomes (.echoReply port time now) s d)
      ∧ (d.pins.lead = false →
        (assoc d.tick.echo (1 + n.val) = some time →
          becomes (.echoReply (.peer n) time now) s ((got (.peer n)).put (PEER_DELAY_DELAY n.val) (min delay 65535)))
        ∧ (assoc d.tick.echo (5 + o.val) = some time → becomes (.echoReply (.opt o) time now) s (got (.opt o))))
      ∧ (d.pins.lead = true → d.canonical → assoc d.tick.echo (portNo port) = some time → answers (.echoReply port time now) s fun t =>
          (∀ p, port = .peer p → t.get (PEER_DELAY_DELAY p.val) = min delay 65535)
          ∧ (∃ far, t.get DIST_LATENCY_LATENCY = max (d.get DIST_LATENCY_LATENCY) (min ((delay + 63) / 64 + far) 65535) ∧ (d.beyond port = false → far = 0))
          ∧ { got port with regs := t.regs, freeCtr := d.freeCtr + 1 } = t))
  ∧ (∀ (s : State) (q : Pkt), s.die.live = true → s.die.grantedPkt q.pid 0x88 = some q →
      let target := field q.body 24 8
      let id := BitVec.ofNat 16 (field q.body 16 2)
      let now := s.die.tick.now
      (modeStatus q.body ≠ .ok → becomes (.modeChange q.pid) s (s.die.finish q.pid (modeStatus q.body) 0 0))
      ∧ (modeStatus q.body = .ok → s.die.leads = true → s.die.tick.lead = none → s.die.tick.change = none →
        let at_ := if target = 0 then now + 8 else target
        let near : Prop := at_ < now + 8
        let x : LeadChange := { id := id, accepted := now, target := at_, recs := packetRecs q.body, announced := false, votes := [],
                                decision := if near then .cancel else .none, cause := if near then 3 else 0, unit := 0, die := 0, sent := false }
        becomes (.modeChange q.pid) s
          ({ s.die with tick := { s.die.tick with lead := some x, asked := s.die.tick.asked ++ [(q.pid, id, at_)] } }.onPkt q.pid fun p =>
            { p with phase := .running, status := .ok }))
      ∧ (∀ t, modeStatus q.body = .ok → s.die.leads = true →
        ((∃ x, s.die.tick.lead = some x ∧ t = x.target) ∨ (s.die.tick.lead = none ∧ ∃ x, s.die.tick.change = some x ∧ t = x.target)) →
        becomes (.modeChange q.pid) s ((s.die.count GROOM_DEFERRED_COUNT 1).finish q.pid .deferred (BitVec.ofNat 64 (t + 1)) 0))
      ∧ (∀ lead, modeStatus q.body = .ok → s.die.leads = false → s.die.tick.runs = true → s.die.tick.leadAt = some lead →
        (lead.pkg ≠ s.die.here.pkg → becomes (.modeChange q.pid) s (s.die.finish q.pid .noAuthority 0 0))
        ∧ (lead.pkg = s.die.here.pkg →
          let sent := s.die.remote { req := .pkt q.pid, id := 0 } 0 lead none none false fun h =>
            .mgmt { head := h, seq := BitVec.ofNat 32 s.die.ports.mgmtSeq, body := .modeForward id (packetRecs q.body) target }
          (∀ st, sent.1 = some st → becomes (.modeChange q.pid) s (sent.2.finish q.pid st 0 0))
          ∧ (sent.1 = none → becomes (.modeChange q.pid) s
              ({ sent.2 with ports := { sent.2.ports with mgmtSeq := sent.2.ports.mgmtSeq + 1 } }.onPkt q.pid fun p => { p with phase := .running }))))
      ∧ (modeStatus q.body = .ok → s.die.leads = false → s.die.tick.runs = false → becomes (.modeChange q.pid) s s.die))

/-! ### Rings and packets -/

/-- A doorbell write to the page of a ring that the function may use moves TAIL of a submission ring that is enabled, when it advances TAIL without
passing HEAD + 2^SIZE_LOG2, and HEAD of a completion ring that is enabled or being disabled, when it advances HEAD without passing TAIL; any other is
ignored, sets DB_ERROR and is counted (R200, R201, R203). A VF's write to the page of another partition's ring is a reserved access (R405). -/
def Obligations.Doorbells : Prop :=
  ∀ (s : State) (who : Who) (r : RingIx) (new : W32), Reaches s.die who true →
    let ring := s.die.ring r.val
    let on : Prop := ring.enable = true ∨ ring.disabling = true
    let sub : Prop := ring.completion = false ∧ (new - ring.head).toNat ≤ 2 ^ ring.sizeLog2.toNat ∧ (new - ring.tail).toNat ≤ (new - ring.head).toNat
    let comp : Prop := ring.completion = true ∧ (ring.tail - new).toNat ≤ (ring.tail - ring.head).toNat
    ((who.part.val = 0 ∨ ring.part.toNat = who.part.val) →
      (on → sub → becomes (.doorbell who r new) s (s.die.setRing r.val { ring with tail := new }))
      ∧ (on → comp → becomes (.doorbell who r new) s (s.die.setRing r.val { ring with head := new }))
      ∧ (¬(on ∧ (sub ∨ comp)) →
        becomes (.doorbell who r new) s ((s.die.setRing r.val { ring with dbError := true }).count CP_DB_REJECT_COUNT 1)))
    ∧ (who.part.val ≠ 0 → ring.part.toNat ≠ who.part.val →
      becomes (.doorbell who r new) s (s.die.reserved who true true false (r.val * 4096)))

/-- RESUME clears HALTED of a halted ring, and a completion ring then writes the records it kept (R217, R580). A write of RING_CONFIG by a function that may
use the page stores its fields; SIZE_LOG2 out of range and IRQ_MODE 3 leave what is held (R202, R203, R544), and a VF stores only the
fields that it may (R405). ENABLE going to 1 zeroes HEAD and TAIL and clears HALTED (R203); a ring of a partition
that is not enabled stays disabled (R465). ENABLE going to 0 disables a submission ring at once, and a completion ring once no slot is reserved
(R203). A decode round considers the rings in ascending index (R210). A packet whose slots have been read has a record slot reserved, moves
HEAD past it, holds its ring if it is a WAIT, and counts in its partition's limit (R200, R210, R211, R212, R477). -/
def Obligations.RingsDecode : Prop :=
  (∀ (s : State) (who : Who) (r : RingIx) (v : W32),
      let ring := s.die.ring r.val
      let bit (i : Nat) : Bool := v.getLsbD i
      let size := sub v.toNat 4 5
      let irq := sub v.toNat 17 2
      let on : Prop := ring.enable = true ∨ ring.disabling = true
      let set := { ring with
        stopOnError := bit 2, irqMode := if irq = 3 then ring.irqMode else BitVec.ofNat 2 irq, vector := BitVec.ofNat 11 (sub v.toNat 19 11) }
      let next := if who.part.val = 0 ∧ ¬on then { set with
          completion := bit 1, sizeLog2 := if 4 ≤ size ∧ size ≤ 16 then BitVec.ofNat 5 size else ring.sizeLog2, part := BitVec.ofNat 4 (sub v.toNat 9 4),
          engine := BitVec.ofNat 4 (sub v.toNat 13 4) }
        else set
      (Reaches s.die who true → (who.part.val = 0 ∨ ring.part.toNat = who.part.val) →
        (ring.halted = true → ring.completion = false → becomes (.resume who r) s (s.die.setRing r.val { ring with halted := false }))
        ∧ (ring.halted = true → ring.completion = true →
          becomes (.resume who r) s (Die.drainRing r.val ring.kept.length (s.die.setRing r.val { ring with halted := false })))
        ∧ (ring.halted = false → becomes (.resume who r) s s.die)
        ∧ ∀ i ∈ [Instr.ringEnable who r v, Instr.ringDisable who r v], (who.part.val = 0 ∨ v.toNat.land 0xC001FFFA = 0) →
          (¬on → bit 0 = true → (next.part = 0 ∨ s.die.bit (PART_CTRL_ENABLE next.part.toNat) = true) →
            becomes i s ((s.die.setRing r.val { next with enable := true, disabling := false, head := 0, tail := 0, halted := false }).doneWith (.ring r)))
          ∧ (¬on → bit 0 = true → next.part ≠ 0 → s.die.bit (PART_CTRL_ENABLE next.part.toNat) = false → becomes i s (s.die.setRing r.val next))
          ∧ (¬on → bit 0 = false → becomes i s (s.die.setRing r.val next))
          ∧ (ring.enable = true → bit 0 = true → becomes i s (s.die.setRing r.val set))
          ∧ (ring.enable = false → ring.disabling = true → becomes i s (s.die.setRing r.val set))
          ∧ (ring.enable = true → bit 0 = false → ring.completion = false → becomes i s (s.die.setRing r.val { set with enable := false }))
          ∧ (ring.enable = true → bit 0 = false → ring.completion = true →
            becomes i s (s.die.setRing r.val { set with enable := false, disabling := decide (ring.reserved ≠ 0) })))
      ∧ (s.die.live = true →
        (ring.disabling = true → ring.reserved = 0 →
          becomes (.ringDisableComplete r) s (s.die.setRing r.val { ring with enable := false, disabling := false }))
        ∧ ((ring.disabling = false ∨ ring.reserved ≠ 0) → becomes (.ringDisableComplete r) s s.die)))
  ∧ ((∀ s : State, s.die.live = true →
      becomes .decodeRound s ((s.die.cp.rings.map (·.1)).foldl (fun e i => e.decodeRing (ringIx i)) s.die).chains)
    ∧ ∀ (d : Die) (i : RingIx) (body : List Byte) (len : Nat), d.canonical →
        let r := d.ring i.val
        let c := field body 4 2 % 8192
        let p := r.part.toNat
        r.enable = true → c ≠ i.val →
        let t := d.startPkt i body len
        (t.ring i.val).head = r.head + BitVec.ofNat 32 len ∧ (t.ring c).reserved = (d.ring c).reserved + 1
        ∧ (t.ring i.val).waitBlock = (if field body 0 1 % 256 = 0x41 then some d.cp.nextPid else none)
        ∧ (∀ j, j ≠ i.val → j ≠ c → t.ring j = d.ring j)
        ∧ t.pkts.length = d.pkts.length + 1 ∧ t.cp.nextPid = d.cp.nextPid + 1
        ∧ (assoc t.parts.started p).getD 0 = (assoc d.parts.started p).getD 0 + 1 ∧ t.mem = d.mem ∧ d.keepsRegs t [GROOM_DEFERRED_COUNT.off])

/-- COMPLETION_RECORD_WRITE of a packet that has completed: the packets that completed before it come first, and then every completion ring writes the
records it keeps (R220, R221). A packet completes once its status is decided and its writes are acknowledged; those that complete together stand in
ascending ring (R220, R221). A packet with OK and NO_RECORD frees its slot; any other, but one of a partition under a function-level
reset (R488), leaves its record for its ring (R215, R218, R222). The fields of a completion record lie where R218 puts them, PHASE is
1 − ((j >> SIZE_LOG2) & 1) (R219), and the record has 32 bytes of content. -/
def Obligations.Completion : Prop :=
  ((∀ (s : State) (pid : Nat), s.die.live = true →
      let d := s.die.noteReady
      (pid ∈ d.cp.ready → becomes (.completionRecordWrite pid) s (((d.cp.ready.takeWhile (· != pid)) ++ [pid]).foldl Die.recordOf d).drainAll)
      ∧ (pid ∉ d.cp.ready → becomes (.completionRecordWrite pid) s d.drainAll)
      ∧ d.cp.ready = s.die.cp.ready ++ (ringOrder (s.die.pkts.filter s.die.completes)).map (·.pid)
      ∧ (∀ q ∈ s.die.pkts, q.phase = .finished → s.die.unacked (.pkt q.pid) = false → q.pid ∈ d.cp.ready))
    ∧ ∀ (d : Die) (q : Pkt), d.cache.lost = [] → d.pkt? q.pid = some q → d.noRecord q.part.val q.cring.val = false → q.launch = none → q.status = .ok →
        q.cring ≠ q.ring →
        let c := d.ring q.cring.val
        (c.enable = true ∨ c.disabling = true) → (d.ring q.ring.val).enable = true →
        let t := d.recordOf q.pid
        t.ring q.cring.val = (if q.flags.getLsbD 1 = true then { c with reserved := c.reserved - 1 }
          else { c with kept := c.kept ++ [(recordBody d q, q.flags.getLsbD 2)] })
        ∧ (∀ x ∈ t.pkts, x.pid ≠ q.pid) ∧ q.pid ∉ t.cp.ready ∧ t.regs = d.regs ∧ t.mem = d.mem ∧ t.fault = d.fault)
  ∧ (∀ (d : Die) (q : Pkt) (r : Ring) (j : W32) (tick : Nat), tick < 2 ^ 64 →
      let b := stampRecord (recordBody d q) (phaseOf r j) tick
      b.length = 32 ∧ field b 0 4 = q.seq.toNat ∧ field b 4 1 = q.status.code ∧ field b 5 1 = q.opcode.toNat
      ∧ field b 6 2 = q.ring.val + phaseOf r j * 2 ^ 15 ∧ field b 8 8 = tick ∧ field b 16 8 = q.answer.toNat ∧ field b 24 4 = q.detail.toNat
      ∧ field b 28 1 = q.part.val + 16 * d.here.die.val ∧ zeroBytes b 29 3 = true
      ∧ phaseOf r j = 1 - j.toNat / 2 ^ r.sizeLog2.toNat % 2)

/-- A launch packet whose checks pass adds a launch at its plan tick with what its fields say (R225 to R227, R232); one decoded in a guard waits for the
tick in which it counts as decoded (R227); an absolute plan tick that has passed ends it with ABORTED, with a DETAIL whose core is free (R227), and a
payload out of order with its status (R213, R226). The plan entries of a launch are read for the tick to come, and not before its first one (R228): a
good entry becomes a slice of its core, unless another launch holds that core in that plan tick, of which the one decoded later is cut from there on
(R229); an entry of a later tick ends the reading for this one; a bad one cancels its launch from its plan tick on (R228, R232); and a launch without
entries left has read that tick. -/
def Obligations.Launches : Prop :=
  (∀ (s : State) (q : Pkt), s.die.live = true →
      let b := q.body
      let packet (i : Instr) (op : Byte) (step : Bool) : Prop := s.die.startedPkt q.pid op = some q →
        (s.die.launchStatus b step ≠ .ok → becomes i s (s.die.finish q.pid (s.die.launchStatus b step) 0 0))
        ∧ (s.die.launchStatus b step = .ok → q.plan = none → becomes i s s.die)
        ∧ (∀ now, s.die.launchStatus b step = .ok → q.plan = some now →
            let abs := field b 41 1 % 2 = 1
            let first := if abs then field b 24 8 else now + field b 24 8
            let l : Launch :=
              { key := s.die.cp.nextLaunch, order := q.pid, pid := some q.pid, batch := none, id := BitVec.ofNat 32 (field b 16 4), part := q.part,
                dies := BitVec.ofNat 8 (field b 40 1), first := first, plan := field b 32 8, entries := field b 20 4, readNext := 0, readTo := 0,
                lastKey := none, slices := [], cancelFrom := none, failure := none, ran := 0, chain := if step then field b 48 8 else 0,
                chainCount := if step then field b 56 4 else 0, chainNext := 0, chainRel := 0, chainOpen := [], args := none }
            (¬(abs ∧ first ≤ now) → becomes i s
              ({ s.die with launches := s.die.launches ++ [l], cp := { s.die.cp with nextLaunch := s.die.cp.nextLaunch + 1 } }.onPkt q.pid fun x =>
                { x with phase := .running }))
            ∧ (abs → first ≤ now → answers i s fun t =>
                ∃ core, core < 64 ∧ t = { s.die with freeCtr := s.die.freeCtr + 1 }.finish q.pid .aborted 0 (BitVec.ofNat 32 core)))
      packet (.launchSlices q.pid) 0x01 false ∧ packet (.launchStep q.pid) 0x02 true)
  ∧ (∀ (s : State) (l : Launch), s.die.live = true → s.die.launch? l.key = some l →
      let next := s.die.planNow l.part.val + 1
      ((next < l.first ∨ next - l.first < l.readTo) → becomes (.planTableRead l.key) s s.die)
      ∧ (l.first ≤ next → l.readTo ≤ next - l.first →
        becomes (.planTableRead l.key) s (Die.readPlan l.key (next - l.first) (l.entries - l.readNext + 1) s.die)))
  ∧ (∀ (d e : Die) (l : Launch) (to_ n : Nat) (b : List Byte), d.launch? l.key = some l →
      let upTo (x : Die) : Die := (x.onLaunch l.key fun m => { m with readTo := to_ + 1 }).doneWith (.launch l.key)
      (l.entries ≤ l.readNext → Die.readPlan l.key to_ (n + 1) d = upTo d)
      ∧ (l.readNext < l.entries → l.cancelFrom = none →
        d.readTable l.key l.part.val ((l.plan + 64 * l.readNext) % 2 ^ 64) 64 = (.ok b, e) →
          (field b 0 4 ≤ to_ → e.entryStatus l b = .ok → Die.readPlan l.key to_ (n + 1) d = Die.readPlan l.key to_ n (e.takeEntry l b))
          ∧ (to_ < field b 0 4 → e.entryStatus l b = .ok → Die.readPlan l.key to_ (n + 1) d = upTo e)
          ∧ (field b 0 4 ≤ to_ → e.entryStatus l b ≠ .ok → Die.readPlan l.key to_ (n + 1) d =
              ((e.cutLaunch l.key (field b 0 4) (field b 4 1 % 64) (e.entryStatus l b)).onLaunch l.key fun m => { m with readNext := m.entries }).doneWith
                (.launch l.key))))
  ∧ (∀ (d : Die) (l m : Launch) (b : List Byte), l.args = none →
      let rel := field b 0 4
      let core := coreIx (field b 4 1)
      let x : PlanSlice := { rel := rel, core := core, entry := field b 8 4, args := (List.range 4).map fun i => BitVec.ofNat 64 (field b (16 + 8 * i) 8) }
      let read : Die := d.onLaunch l.key fun m => { m with readNext := m.readNext + 1, lastKey := some (rel, core.val) }
      let take (e : Die) : Die := e.onLaunch l.key fun m => { m with slices := m.slices ++ [x] }
      (read.heldBy l.key l.part core (l.first + rel) = none → d.takeEntry l b = take read)
      ∧ (read.heldBy l.key l.part core (l.first + rel) = some m.key → read.launch? m.key = some m →
        d.takeEntry l b = (if read.decodedAfter l.key m.key then read.cutLaunch l.key rel core.val .aborted
          else take (read.cutLaunch m.key (l.first + rel - m.first) core.val .aborted))))

/-- A COALESCE_DECODE packet: one whose payload is out of order ends with its status (R213, R234); in the guard the first of its partition in ring order is
accepted, and any other waits (R139); it joins the open batch of its class, at the rows that follow, where it fits (R138, R235), and opens one from its
class's descriptor where there is none (R140, R233); once it has joined, its input rows are copied (R141). A batch whose launch has failed
ends each of its requests with the launch's status, the batch number and the request's row (R142), one without an outcome is not complete, and a good one writes the
output rows of a request to its destination first (R141). NOP, SIGNAL, WAIT, BARRIER, FLAG_WRITE and TIMESTAMP packets end with the status of a payload that is out of
order (R213). A signal to an object of this die fills source 48, waits while that is occupied, and fails for a foreign object (R211, R255, R257); one to
another die leaves as a message. A WAIT ends with the value when its condition holds, with NO_AUTHORITY or ECC_UNCORRECTABLE for a foreign or poisoned
object, and else waits until its time is up (R258, R261, R266, R270). A BARRIER of SCOPE 1 waits for the earlier packets of its partition (R243).
A flag and a time stamp are written by the command processor, and a time stamp without an address only ends with the tick and the cycle within it (R243). -/
def Obligations.Coalescer : Prop :=
  (∀ (s : State) (q : Pkt), s.die.live = true → s.die.pkt? q.pid = some q → q.opcode = 0x03 →
      let earlier (x : Pkt) : Prop := x.opcode = 0x03 ∧ x.phase = .started ∧ x.pid ≠ q.pid ∧ x.part = q.part ∧ coalesceStatus x.body = .ok
        ∧ (x.ring.val < q.ring.val ∨ (x.ring = q.ring ∧ x.pid < q.pid))
      (q.phase = .started → coalesceStatus q.body ≠ .ok → becomes (.coalesceDecode q.pid) s (s.die.finish q.pid (coalesceStatus q.body) 0 0))
      ∧ (q.phase = .started → coalesceStatus q.body = .ok → s.die.tick.inGuard = true → (∀ x ∈ s.die.pkts, ¬earlier x) →
        becomes (.coalesceDecode q.pid) s (s.die.acceptRequest q))
      ∧ (q.phase = .started → coalesceStatus q.body = .ok → (s.die.tick.inGuard = false ∨ ∃ x ∈ s.die.pkts, earlier x) →
        becomes (.coalesceDecode q.pid) s s.die)
      ∧ (∀ b r, q.phase ≠ .started → (s.die.cp.batches.find? fun b => b.reqs.any fun r => r.pid == q.pid && !r.copied) = some b →
          (b.reqs.find? fun r => r.pid == q.pid) = some r → becomes (.coalesceDecode q.pid) s (s.die.copyIn b r (field q.body 24 8))))
  ∧ (∀ (d e : Die) (q : Pkt) (b : Batch) (c bs : List Byte),
      let cls := field q.body 16 1 % 64
      let rows := field q.body 18 2
      let p := q.part.val
      let noted : Die := { d with cp := { d.cp with accepted := assocPut d.cp.accepted p q.ring.val } }
      let table := d.get (COALESCE_TABLE_HI_TABLE p) * 2 ^ 32 + d.get (COALESCE_TABLE_LO_TABLE p) / 4096 * 4096
      let k := (assoc e.cp.classCount (p * 64 + cls)).getD 0
      (d.cp.batches = [b] → b.part = q.part → b.cls.val = cls → b.closed = false → b.launched = false → b.rows + rows ≤ 64 →
        d.acceptRequest q = { noted with cp := { noted.cp with batches := [{ b with
          rows := b.rows + rows,
          reqs := b.reqs ++ [({ pid := q.pid, rows := rows, row := b.rows, dest := field q.body 32 8, copied := false } : BatchReq)] }] } }.onPkt
            q.pid fun x => { x with phase := .running })
      ∧ (d.cp.batches = [] → noted.readAll (srcCp (.pkt q.pid) p) ((table + 64 * cls) % 2 ^ 64) 64 false = (.ok c, e) → descOk c = true → e.cp.batches = [] →
        let n : Batch :=
          { key := e.cp.nextBatch, part := q.part, cls := ⟨cls % 64, Nat.mod_lt _ (by decide)⟩, number := k, template := field c 0 8, entries := field c 8 4,
            inRow := field c 12 4, outRow := field c 16 4, staging := field c 24 8, firstTick := (e.doneWith (.pkt q.pid)).tick.now, rows := rows, closed := false,
            launched := false, outcome := none, reqs := [{ pid := q.pid, rows := rows, row := 0, dest := field q.body 32 8, copied := false }] }
        (d.acceptRequest q).cp.batches = [n])
      ∧ (d.cp.batches = [] → noted.readAll (srcCp (.pkt q.pid) p) ((table + 64 * cls) % 2 ^ 64) 64 false = (.ok bs, e) → descOk bs = false →
        d.acceptRequest q = (e.doneWith (.pkt q.pid)).finish q.pid .reservedValue 0 0))
  ∧ (∀ (s : State) (b : Batch), s.die.live = true → (s.die.cp.batches.find? fun x => x.key == b.key) = some b →
      let fin (e : Die) (r : BatchReq) (st : Status) : Die :=
        (e.onBatch b.key fun x => { x with reqs := x.reqs.filter fun y => y.pid != r.pid }).finish r.pid st (BitVec.ofNat 64 b.number) (BitVec.ofNat 32 r.row)
      let close (e : Die) : Die := if e.cp.batches.any fun x => x.key == b.key && x.reqs.isEmpty
        then { e with cp := { e.cp with batches := e.cp.batches.filter fun x => x.key != b.key } } else e
      (b.outcome = none → becomes (.coalesceBatchComplete b.key) s s.die)
      ∧ (∀ st, b.outcome = some st → st ≠ .ok → becomes (.coalesceBatchComplete b.key) s (close (b.reqs.foldl (fun e r => fin e r st) s.die)))
      ∧ (∀ r bs xs e f, b.outcome = some .ok → b.reqs = [r] →
        let src := srcCp (.pkt r.pid) b.part.val
        s.die.readAll src ((b.output + r.row * b.outRow) % 2 ^ 64) (r.rows * b.outRow) false = (.ok bs, e) → e.writeAll src r.dest bs {} = (.ok xs, f) →
        becomes (.coalesceBatchComplete b.key) s (close (fin f r .ok))))
  ∧ (∀ (s : State) (q : Pkt), s.die.live = true →
      let b := q.body
      let obj := objIx (field b 16 2)
      let o := s.die.obj obj
      let part := q.part.val
      let inc := BitVec.ofNat 64 (field b 24 8)
      let ends (st : Status) : Die := s.die.finish q.pid st 0 0
      let bad (i : Instr) (op : Byte) (st : Status) : Prop := s.die.startedPkt q.pid op = some q → st ≠ .ok → becomes i s (ends st)
      (s.die.startedPkt q.pid 0x00 = some q → becomes (.nopPacket q.pid) s (ends .ok))
      ∧ bad (.signalPacket q.pid) 0x40 (signalStatus b) ∧ bad (.waitPacket q.pid) 0x41 (waitStatus b) ∧ bad (.barrierPacket q.pid) 0x42 (barrierStatus b)
      ∧ bad (.flagWrite q.pid) 0x43 (flagStatus b) ∧ bad (.timestamp q.pid) 0x44 (timestampStatus b)
      ∧ (s.die.startedPkt q.pid 0x40 = some q → signalStatus b = .ok →
        let die : DieIx := ⟨sub (field b 18 1) 1 3 % 8, Nat.mod_lt _ (by decide)⟩
        let away : Prop := field b 18 1 % 2 = 1 ∧ die ≠ s.die.here.die
        let sent := s.die.remote { req := .pkt q.pid, id := 0 } part { pkg := s.die.here.pkg, die := die } none none false fun h =>
          .signal { head := h, obj := obj, inc := inc }
        let x : SlotSignal := { obj := obj, inc := inc, part := part, who := some (.pkt q.pid, 0), head := none }
        (away → becomes (.signalPacket q.pid) s (sent.2.finish q.pid (sent.1.getD .ok) 0 0))
        ∧ (¬away → o.owner.toNat = part → assoc s.die.sync.slots 48 = none → becomes (.signalPacket q.pid) s
            ({ s.die with sync := { s.die.sync with slots := assocPut s.die.sync.slots 48 x } }.finish q.pid .ok 0 0))
        ∧ (¬away → o.owner.toNat = part → assoc s.die.sync.slots 48 ≠ none → becomes (.signalPacket q.pid) s s.die)
        ∧ (¬away → o.owner.toNat ≠ part → becomes (.signalPacket q.pid) s ((s.die.syncErr obj 1 48 s.die.here part true).finish q.pid .noAuthority 0 0)))
      ∧ (s.die.startedPkt q.pid 0x41 = some q → waitStatus b = .ok →
        let equal : Prop := field b 18 1 = 1
        let meet : Prop := if equal then o.value = inc else inc.toNat ≤ o.value.toNat
        let timeout := field b 32 4
        let w : PktWaiter :=
          { pid := q.pid, obj := obj, equal := decide equal, thr := inc,
            deadline := if timeout = 0 then none else some (s.die.tick.count + timeout - (s.die.tick.now - q.startTick)) }
        (o.owner ≠ BitVec.ofNat 4 part → becomes (.waitPacket q.pid) s ((s.die.syncErr obj 1 48 s.die.here part false).finish q.pid .noAuthority 0 0))
        ∧ (o.owner = BitVec.ofNat 4 part → o.poison = true →
          becomes (.waitPacket q.pid) s ((s.die.syncErr obj 3 48 s.die.here part false).finish q.pid .eccUncorrectable 0 0))
        ∧ (o.owner = BitVec.ofNat 4 part → o.poison = false → meet → becomes (.waitPacket q.pid) s (s.die.finish q.pid .ok o.value 0))
        ∧ (o.owner = BitVec.ofNat 4 part → o.poison = false → ¬meet → becomes (.waitPacket q.pid) s
            ({ s.die with sync := { s.die.sync with waiters := s.die.sync.waiters ++ [w] } }.onPkt q.pid fun p => { p with phase := .running })))
      ∧ (s.die.startedPkt q.pid 0x42 = some q → barrierStatus b = .ok →
        ((field b 16 1 = 0 ∨ ∀ x ∈ s.die.pkts, s.die.before q x = false) → becomes (.barrierPacket q.pid) s (ends .ok))
        ∧ (field b 16 1 = 1 → (∃ x ∈ s.die.pkts, s.die.before q x = true) → becomes (.barrierPacket q.pid) s s.die))
      ∧ (s.die.startedPkt q.pid 0x43 = some q → flagStatus b = .ok → becomes (.flagWrite q.pid) s
          (s.die.cpWrite q (field b 16 8) (leBytes (if field b 24 1 % 2 = 1 then 8 else 4) (field b 32 8)) 0 0))
      ∧ (s.die.startedPkt q.pid 0x44 = some q → timestampStatus b = .ok →
        let now := BitVec.ofNat 64 s.die.tick.now
        let cycle := BitVec.ofNat 32 s.die.clkInTick
        (field b 16 8 = 0 → becomes (.timestamp q.pid) s (s.die.finish q.pid .ok now cycle))
        ∧ (field b 16 8 ≠ 0 → becomes (.timestamp q.pid) s
            (s.die.cpWrite q (field b 16 8)
              (leBytes 8 s.die.tick.now ++ leBytes 4 s.die.clkInTick ++ leBytes 2 (s.die.get TICK_EPOCH_EPOCH) ++ leBytes 2 0) now cycle))))
  ∧ ∀ (d e : Die) (q : Pkt) (dva : Nat) (bs xs : List Byte) (result : W64) (det : W32),
      d.writeAll (srcCp (.pkt q.pid) q.part.val) dva bs {} = (.ok xs, e) → d.cpWrite q dva bs result det = (e.doneWith (.pkt q.pid)).finish q.pid .ok result det

/-- A packet of the copy class whose checks pass goes to the end of the engine of its ring, after the earlier ones of its ring, and waits while one of
them has not; any other ends with its status (R213, R237, R240, R381). An engine goes on with the job that waits, else with the first job
of the next higher ring that has one, else of the lowest (R237); one without a job does nothing. The bytes of a FILL are its pattern and those of an inline copy
lie in the packet (R239). A chunk is at most 64 KiB of one run and is charged once (R237, R471); a chunk that has been read and written ends the job behind the last run, with
the bytes written, and else moves on (R238, R239, R242). -/
def Obligations.Copies : Prop :=
  (∀ (s : State) (q : Pkt), s.die.live = true →
      let x := s.die.engine q.engine
      let queued : Die :=
        (s.die.setEngine q.engine { x with jobs := x.jobs ++ [{ pid := q.pid, run := 0, off := 0, written := 0, stalled := false }] }).onPkt q.pid fun p =>
          { p with phase := .running }
      let goes (i : Instr) (op : Byte) (st : Status) : Prop := s.die.startedPkt q.pid op = some q →
        (st = .ok → s.die.turn q = true → becomes i s queued) ∧ (st = .ok → s.die.turn q = false → becomes i s s.die)
        ∧ (st ≠ .ok → becomes i s (s.die.finish q.pid st 0 0))
      let copy (i : Instr) (op : Byte) : Prop := goes i op (s.die.copyStatus op q.part.val q.body (field q.body 2 1 % 16))
      copy (.copy q.pid) 0x10 ∧ copy (.copyInline q.pid) 0x11 ∧ copy (.fill q.pid) 0x12 ∧ copy (.copyStrided q.pid) 0x15
      ∧ goes (.prefetchRange q.pid) 0x13 (rangeStatus q.body 2) ∧ goes (.advise q.pid) 0x14 (rangeStatus q.body 5))
  ∧ (∀ (s : State) (e : CopyIx), s.die.live = true →
      (s.die.nextJob e.val = none → becomes (.copyChunk e) s s.die)
      ∧ ∀ (j : CopyJob) (q : Pkt), s.die.nextJob e.val = some j → s.die.pkt? j.pid = some q →
        let d := s.die.setEngine e.val { s.die.engine e.val with lastRing := q.ring.val, served := some q.ring.val }
        becomes (.copyChunk e) s (if q.opcode = 0x13 ∨ q.opcode = 0x14 then d.rangeChunk e.val j q else d.copyChunk e.val j q))
  ∧ (∀ (d : Die) (e : Nat) (i j : CopyJob), (d.engine e).jobs = [i, j] → i.stalled = false → j.stalled = false → d.jobRing i < d.jobRing j →
      ((d.engine e).served = none → d.nextJob e = some i) ∧ (∀ r, (d.engine e).served = some r →
        (r < d.jobRing i → d.nextJob e = some i) ∧ (d.jobRing i ≤ r → r < d.jobRing j → d.nextJob e = some j) ∧ (d.jobRing j ≤ r → d.nextJob e = some i)))
  ∧ (∀ (d : Die) (e : Nat) (j : CopyJob), (d.engine e).jobs.find? (·.stalled) = some j → d.nextJob e = some j)
  ∧ (∀ (d : Die) (x : Src) (q : Pkt) (k off n : Nat),
      (q.opcode = 0x11 → d.chunkRead x q (planOf q.opcode q.body) k off n = (.ok ((q.body.drop (64 + off)).take n), d))
      ∧ (q.opcode = 0x12 → ∃ bs, d.chunkRead x q (planOf q.opcode q.body) k off n = (.ok bs, d) ∧ bs.length = n
          ∧ ∀ i, i < n → bs[i]? = some (BitVec.ofNat 8 (field q.body 40 4 / 2 ^ (8 * (i % 4)) % 256))))
  ∧ ∀ (d f g : Die) (e : Nat) (j : CopyJob) (q : Pkt) (bs xs : List Byte),
      let p := planOf q.opcode q.body
      let n := min 65536 (p.bytes - j.off)
      let src : Src := { srcCopy e q.pid q.part.val with id := j.written }
      let done := (g.doneWith (.pkt q.pid)).moved e n
      d.cache.lost = [] → d.pkt? q.pid = some q → q.status = .ok → (j.stalled = true ∨ d.mayUse q.part.val 2 = true) →
      (if j.stalled then d else d.useTokens q.part.val 2 n).chunkRead src q p j.run j.off n = (.ok bs, f) →
      f.chunkWrite src q p j.run j.off j.written bs = (.ok xs, g) →
      (p.bytes ≤ j.off + n → p.runs ≤ j.run + 1 → d.copyChunk e j q = done.endJob e q.pid .ok (j.written + n))
      ∧ (p.bytes ≤ j.off + n → j.run + 1 < p.runs →
          d.copyChunk e j q = done.onJob e q.pid fun x => { x with run := x.run + 1, off := 0, written := x.written + n, stalled := false })
      ∧ (j.off + n < p.bytes → d.copyChunk e j q = done.onJob e q.pid fun x => { x with off := x.off + n, written := x.written + n, stalled := false })

/-! ### The reduce-and-update unit -/

/-- REDUCE_SEGMENT ends with the status of a payload that is out of order (R178, R213). It arms its slot with the ranges, counts and targets of its payload when the slot is
free, waits when it is not or an earlier packet waits for it, and lets a packet for the slot that started earlier arm first (R178, R179); here for a slot
that no partial has come early for (R185). Its local input, once read, enters the slot as the tree of its leaves, or ends the packet with the read's failure (R156, R180,
R186). A slot whose range is covered writes its result to DEST, gives its SCRATCH free bytes, and is released with OK when the result and every forward
have been acknowledged (R180, R184); it sends the result to each target once: to a slot of this die at once if its partition owns it, and over a port in
messages of at most 112 elements (R181, R184, R187). A slot without its whole range ends ABORTED after SLOT ticks, with SCRATCH spoiled and cause 6
(R180, R186); a partial without its slot is dropped after EARLY ticks with cause 4 (R185); neither ends earlier. -/
def Obligations.ReductionSlots : Prop :=
  (∀ (s : State) (q : Pkt), s.die.live = true → s.die.pkt? q.pid = some q → q.opcode = 0x20 →
      let b := q.body
      let n := field b 16 2 % 1024
      let d := s.die
      let slot : RuSlot :=
        { pid := q.pid, part := q.part, total := field b 20 4, lo := field b 24 4, hi := field b 28 4, localLo := field b 32 4, localHi := field b 36 4,
          inputs := field b 40 2, elements := field b 44 4, got := if field b 32 4 < field b 36 4 then [(field b 32 4, field b 36 4)] else [],
          partials := [], armTick := d.tick.count, done := decide (field b 36 4 ≤ field b 32 4),
          destDone := sub (field b 18 2) 5 1 = 0, fwd := (List.range (sub (field b 18 2) 2 3)).map (fwdOf b) }
      let running (e : Die) : Die := e.onPkt q.pid fun x => { x with phase := .running }
      let armed : Die := { d with ru := { d.ru with slots := assocPut d.ru.slots n slot, waiting := d.ru.waiting.filter (· != q.pid) } }
      let waits (w : Nat) : Prop := ∃ x, d.pkt? w = some x ∧ field x.body 16 2 % 1024 = n
      (q.phase = .started →
        (d.reduceStatus q.part.val b ≠ .ok → becomes (.reduceSegment q.pid) s (d.finish q.pid (d.reduceStatus q.part.val b) 0 0))
        ∧ (d.reduceStatus q.part.val b = .ok →
          (d.armsLater q = true → becomes (.reduceSegment q.pid) s d)
          ∧ (d.armsLater q = false → d.slot? n = none → (∀ w ∈ d.ru.waiting, ¬waits w) → (∀ e ∈ d.ru.early, e.msg.slot.val ≠ n) →
            becomes (.reduceSegment q.pid) s ((running armed).takeLocal q n slot))
          ∧ (d.armsLater q = false → (∀ x, d.slot? n = some x → x.pid ≠ q.pid) → (d.slot? n ≠ none ∨ ∃ w ∈ d.ru.waiting, waits w) →
            becomes (.reduceSegment q.pid) s { running d with ru := { d.ru with waiting := d.ru.waiting ++ [q.pid] } })))
      ∧ (∀ x, q.phase = .running → d.slot? n = some x → x.pid = q.pid → becomes (.reduceSegment q.pid) s (d.takeLocal q n x)))
  ∧ (∀ (d e : Die) (q : Pkt) (n : Nat) (x : RuSlot) (vs : List (List W32)) (st : Status) (r : DRes),
      (x.done = true → d.takeLocal q n x = d)
      ∧ (x.done = false → d.readLocal q x = (r, vs, e) →
        (r = .ok [] → e.slot? n = some x → d.takeLocal q n x =
          (e.doneWith (.pkt q.pid)).setSlot n
            { x.put { src := none, lo := x.localLo, hi := x.localHi, vals := (ctree addVals vs).getD [] } with done := true })
        ∧ (r = .wait → d.takeLocal q n x = e)
        ∧ (r = .fail st → d.takeLocal q n x = (((e.spoilScratch q.pid).releaseRu n).doneWith (.pkt q.pid)).finish q.pid st 0 0)))
  ∧ (∀ (s : State) (slot : Fin 1024) (x : RuSlot), s.die.live = true → s.die.slot? slot.val = some x →
      let slots : Nat := orOne (s.die.get RU_TIMEOUT_SLOT)
      let ends (d : Die) (pid : Nat) (st : Status) : Die := ((d.releaseRu slot.val).doneWith (.pkt pid)).finish pid st 0 0
      (∀ (r : Partial) (q : Pkt), x.root = some r → s.die.pkt? x.pid = some q →
        let src := srcRu q.pid q.part.val
        (x.destDone = false → ∀ d bs, s.die.writeAll src (field q.body 64 8) (wordBytes r.vals) {} = (.ok bs, d) →
          becomes (.reduceSlotComplete slot) s ((d.doneWith (.pkt q.pid)).setSlot slot.val { x with destDone := true }))
        ∧ (x.destDone = true → (∀ f ∈ x.fwd, f.sent = true) → s.die.unacked (.pkt q.pid) = false →
          (x.inputs * x.elements = 0 → becomes (.reduceSlotComplete slot) s (ends s.die q.pid .ok))
          ∧ (x.inputs * x.elements ≠ 0 →
            let junk := s.die.freshBytes (x.inputs * x.elements * 4)
            ∀ d bs, junk.2.writeAll src (field q.body 72 8) junk.1 {} = (.ok bs, d) → becomes (.reduceSlotComplete slot) s (ends d q.pid .ok)))
        ∧ (x.destDone = true → ((∃ f ∈ x.fwd, f.sent = false) ∨ s.die.unacked (.pkt q.pid) = true) → becomes (.reduceSlotComplete slot) s s.die))
      ∧ (x.root = none → becomes (.reduceSlotComplete slot) s s.die)
      ∧ (∀ (n : Fin 4) (r : Partial) (f : FwdSend), x.root = some r → x.fwd[n.val]? = some f →
        let msg (h : MsgHead) (first : Nat) (vals : List W32) : PartialMsg :=
          { head := h, slot := f.slot, lo := r.lo, hi := r.hi, total := x.total, elements := x.elements, first := first, vals := vals }
        let own : PartialMsg := msg { port := .peer 0, src := s.die.here, dst := s.die.here, epoch := s.die.epoch, part := x.part, tag := 0, window := none } 0 r.vals
        let sent (d : Die) : Die := match d.slot? slot.val with
          | some y => d.setSlot slot.val { y with fwd := y.fwd.set n.val { f with sent := true } }
          | none => d
        (f.sent = true → becomes (.reducePartialSend slot n) s s.die)
        ∧ (∀ d, f.sent = false → f.dst = s.die.here → s.die.slotOwner f.slot.val = some x.part.val → s.die.arrive own true = some d →
          becomes (.reducePartialSend slot n) s (sent d))
        ∧ (f.sent = false → f.dst = s.die.here → s.die.slotOwner f.slot.val ≠ some x.part.val →
          becomes (.reducePartialSend slot n) s (sent (s.die.dropPartial 7 own true)))
        ∧ (f.sent = false → f.dst ≠ s.die.here → becomes (.reducePartialSend slot n) s
            (sent (((List.range ((x.elements + 111) / 112)).map fun i => (112 * i, (r.vals.drop (112 * i)).take 112)).foldl (fun e y =>
              match e.remote { req := .pkt x.pid, id := 0 } x.part.val f.dst none none false fun h => .partial_ (msg h y.1 y.2) with
              | (none, e) => e
              | (some st, e) => e.pktError x.pid st) s.die))))
      ∧ (x.root = none → x.armTick + slots ≤ s.die.tick.count →
        becomes (.slotTimeout slot) s ((ends (s.die.spoilScratch x.pid) x.pid .aborted).ruError 6 slot.val none))
      ∧ ((x.root ≠ none ∨ s.die.tick.count < x.armTick + slots) → becomes (.slotTimeout slot) s s.die))
  ∧ ∀ (s : State) (n : Nat) (e : EarlyPartial), s.die.live = true → s.die.ru.early[n]? = some e →
      let left : Die := { s.die with ru := { s.die.ru with early := s.die.ru.early.eraseIdx n } }
      let waited : Prop := e.since + orOne (s.die.get RU_TIMEOUT_EARLY) ≤ s.die.tick.count
      (waited → becomes (.earlyArrivalTimeout n) s (if e.msg.first = 0 then left.dropPartial 4 e.msg e.viaLocal else left))
      ∧ (¬waited → becomes (.earlyArrivalTimeout n) s s.die)

/-- A REDUCE_SEGMENT message that its port admits, of the die's epoch, and for which a window with the REDUCE right is open, acts for the partition of that
window: it is delivered to its slot, or waits early for it, and is acknowledged unless it was dropped; while the early buffer has no room it stays at its port
(R181, R185, R442). Without such a window it is dropped with cause 7; one of an older epoch is rejected and one of a newer held (R79); one that
its port does not admit is refused or dropped (R431, R435, R436). A slot that refuses the first message of a partial drops it with its cause, and
every later message whose TOTAL, ELEMENTS or partition is not the slot's drops what has come of its partial (R181). A whole partial enters the slot with its
NaNs canonical, after what it has got (R165, R181). Two siblings of a node combine, the lower range first, element by element in FP32 (R156, R182). -/
def Obligations.Partials : Prop :=
  (∀ (s : State) (m : PartialMsg), s.die.live = true →
      let d := s.die
      let h := judged m.head (.partial_ m)
      let n := msgBytes (.partial_ m)
      let check := d.portCheck h 6 (match m.head.port with | .opt _ => d.slotOwner m.slot.val | .peer _ => none)
      let free (e : Die) : Die := e.freeUnits h.port 6 n
      (check ≠ .pass → becomes (.reducePartialReceive m) s (free (d.notPassed h 6 check)))
      ∧ (check = .pass → d.fenceOf m.head.epoch = .newer → becomes (.reducePartialReceive m) s d)
      ∧ (check = .pass → d.fenceOf m.head.epoch = .older → becomes (.reducePartialReceive m) s (free (d.rejectOld m.head true)))
      ∧ (check = .pass → d.fenceOf m.head.epoch = .same →
        (d.reduceWindowOf m = none → becomes (.reducePartialReceive m) s (free (if m.first = 0 then d.dropPartial 7 m false else d)))
        ∧ ∀ p, d.reduceWindowOf m = some p →
          let x : PartialMsg := { m with head := { m.head with part := ⟨p % 16, Nat.mod_lt _ (by decide)⟩ } }
          (d.arrive x false = none → becomes (.reducePartialReceive m) s d)
          ∧ ∀ e, d.arrive x false = some e →
            becomes (.reducePartialReceive m) s (free (if e.get RU_DROP_DROPPED = d.get RU_DROP_DROPPED then e.respond x.head .ok [] else e))))
  ∧ (∀ (d : Die) (m : PartialMsg) (x : RuSlot) (p : Partial) (v : Bool), d.slot? m.slot.val = some x →
      let set (y : RuSlot) : Die := { d with ru := { d.ru with slots := assocPut d.ru.slots m.slot.val y } }
      let whole (vs : List W32) : Partial := { src := some m.head.src, lo := m.lo, hi := m.hi, vals := vs.map canon32 }
      (m.first = 0 →
        (∀ cause, x.refuses m = some cause → d.arrive m v = some (d.dropPartial cause m v))
        ∧ (x.refuses m = none → m.vals.length = x.elements → x.partials = [] →
          d.arrive m v = some (set { x with got := x.got ++ [(m.lo, m.hi)], partials := [whole m.vals] }))
        ∧ (x.refuses m = none → m.vals.length < x.elements → d.arrive m v = some (set { x with
            got := x.got ++ [(m.lo, m.hi)], partials := x.partials ++ [{ src := some m.head.src, lo := m.lo, hi := m.hi, vals := m.vals }] })))
      ∧ (m.first ≠ 0 → x.partials = [p] → p.src = some m.head.src → p.lo = m.lo → p.hi = m.hi → p.vals.length = m.first → m.first < x.elements →
        let same : Prop := m.head.part = x.part ∧ m.total = x.total ∧ m.elements = x.elements
        (same → m.first + m.vals.length = x.elements → d.arrive m v = some (set { x with partials := [whole (p.vals ++ m.vals)] }))
        ∧ (¬same → ∃ cause, d.arrive m v = some ((set { x with partials := [], got := x.got.erase (p.lo, p.hi) }).dropPartial cause m v))))
  ∧ (∀ (x : RuSlot) (p q : Partial), x.partials = [p] → p.vals.length = x.elements → q.vals.length = x.elements → p.hi = q.lo →
      isNode x.total p.lo q.hi = true → q.lo = p.lo + pow2Above (q.hi - p.lo) / 2 →
      (x.put q).partials = [{ src := none, lo := p.lo, hi := q.hi, vals := List.zipWith addRne p.vals (q.vals.map canon32) }])

/-- NORM_PARTIAL reads its elements and writes their norm (R188); while either has to wait it stays in progress, and a failure of either ends it with that status.
A payload out of order ends it, or OPTIMIZER_STEP, with the status of the first check that fails. OPTIMIZER_STEP runs: the scaled norm is judged before
anything else is read, and when SKIP is set and it is not finite the packet ends ABORTED, counted in RU_DROP.SKIPPED, with nothing written (R193); else its
elements follow in ascending order, each read, computed and written before the next is read (R196), and after the last write the packet ends OK with the CRC of
the new weights as RESULT, which RU_STEP_CRC then shows (R195). For plain momentum (SGD without Nesterov) the new value of an element is that of R191. -/
def Obligations.UnitPackets : Prop :=
  (∀ (s : State) (q : Pkt), s.die.live = true → s.die.pkt? q.pid = some q → q.phase = .started ∨ q.phase = .running →
    let b := q.body
    let running := s.die.onPkt q.pid fun x => { x with phase := .running }
    let src := srcRu q.pid q.part.val
    (q.opcode = 0x22 →
      let bf16 := field b 28 4 % 2 == 1
      let read := running.readAll src (field b 40 8) (field b 24 4 * (if bf16 then 2 else 4)) false
      let write (d : Die) (bs : List Byte) := d.writeAll src (field b 48 8) (leBytes 4 (normOf (elements bf16 bs (field b 24 4))).toNat) {}
      (normStatus b ≠ .ok → becomes (.normPartial q.pid) s (s.die.finish q.pid (normStatus b) 0 0))
      ∧ (normStatus b = .ok →
        (∀ d, read = (.wait, d) → becomes (.normPartial q.pid) s d)
        ∧ (∀ d st, read = (.fail st, d) → becomes (.normPartial q.pid) s ((d.doneWith (.pkt q.pid)).finish q.pid st 0 0))
        ∧ ∀ d bs, read = (.ok bs, d) →
          (∀ e, write d bs = (.wait, e) → becomes (.normPartial q.pid) s e)
          ∧ (∀ e st, write d bs = (.fail st, e) → becomes (.normPartial q.pid) s ((e.doneWith (.pkt q.pid)).finish q.pid st 0 0))
          ∧ (∀ e out, write d bs = (.ok out, e) → becomes (.normPartial q.pid) s ((e.doneWith (.pkt q.pid)).finish q.pid .ok 0 0))))
    ∧ (q.opcode = 0x21 →
      let o := optMode b
      let x := running.step? q.pid
      (optStatus b ≠ .ok → becomes (.optimizerStep q.pid) s (s.die.finish q.pid (optStatus b) 0 0))
      ∧ (optStatus b = .ok →
        becomes (.optimizerStep q.pid) s (running.optRun q)
        ∧ (∀ d norm, running.optShared q x.norm (o.clip || o.skip) (field b 88 8) = (.ok [], norm, d) → o.skip = true → finite32 (scaledNorm b norm) = false →
            becomes (.optimizerStep q.pid) s ((d.count RU_DROP_SKIPPED 1).endStep q.pid .aborted 0))
        ∧ (∀ norm rate w d out, x.norm = some norm → x.rate = some rate → (o.skip = true → finite32 (scaledNorm b norm) = true) → x.writes = [w] →
            x.next + 1 = field b 32 4 → (running.setStep x).writeAll src w.1 w.2 {} = (.ok out, d) →
            let e := (d.doneWith (.pkt q.pid)).setStep { x with writes := [], next := x.next + 1 }
            becomes (.optimizerStep q.pid) s
              (((e.putRaw RU_STEP_CRC_LO (x.crc.toNat % 2 ^ 32)).putRaw RU_STEP_CRC_HI (x.crc.toNat / 2 ^ 32)).endStep q.pid .ok x.crc)))))
  ∧ (∀ (q : Pkt) (fuel : Nat) (d : Die) (x : OptProg), d.step? q.pid = x →
      let b := q.body
      let o := optMode b
      let src := srcRu q.pid q.part.val
      let at_ (off : Nat) : Nat × Nat := ((field b off 8 + 4 * x.next) % 2 ^ 64, 4)
      (∀ w rest e out, x.writes = w :: rest → d.writeAll src w.1 w.2 {} = (.ok out, e) →
        d.optLoop q (fuel + 1)
          = ((e.doneWith (.pkt q.pid)).setStep { x with writes := rest, next := if rest.isEmpty then x.next + 1 else x.next }).optLoop q fuel)
      ∧ (∀ g w m norm rate e, x.writes = [] → x.next < field b 32 4 → o.sgd = true → x.norm = some norm → x.rate = some rate →
        d.readMany src [at_ 48, at_ 56, at_ 64] = (.ok [], [g, w, m], e) →
          let new := optWrites b o x.next norm rate (le32 g) (le32 w) (le32 m) (le32 [])
          d.optLoop q (fuel + 1)
            = ((e.doneWith (.pkt q.pid)).setStep { x with writes := new, crc := (new.headD (0, [])).2.foldl crcByte x.crc }).optLoop q fuel))
  ∧ ∀ (b : List Byte) (lr gs bc1 bc2 g w m v : W32), (optMode b).sgd = true → (optMode b).nesterov = false →
      let mom := addRne (mulRne (fp b 140) m) (mulRne g gs)
      optElement b (optMode b) lr gs bc1 bc2 g w m v = (subRne (mulRne w (subRne one32 (mulRne lr (fp b 136)))) (mulRne lr mom), mom, v)

/-! ### Managed packets and Groom -/

/-- The managed packets of translation (R361, R376, R377, R578): a map is written leaf by leaf, or ends with BAD_LENGTH when the pool cannot hold it; an unmap
clears its leaves, an invalidation drops the clean copies of its host lines, and either discards what the die caches of the translations; it ends OK once every
source has acknowledged (an invalidation dropping the host lines again that came meanwhile), and until then stays in progress. A payload or a range out of order
ends each with the status of its first check that fails. -/
def Obligations.TranslationPackets : Prop :=
  ∀ (s : State) (q : Pkt), s.die.live = true →
    let b := q.body
    let dva := field b 16 8
    let n := field b 24 8
    let p := field b 43 1
    let bits := pageBits (field b 41 1)
    let mapped := Die.mapLeaves p dva (field b 32 8) bits (1 + 2 * field b 40 1 + 16 * field b 42 1 + 64) (n / 2 ^ bits) 0 s.die
    let busy (e : Die) := e.rangeBusy p dva (dva + n)
    let cut (e : Die) := (e.invalidate p dva (dva + n) (s.die.leaves p dva (dva + n))).onPkt q.pid fun x => { x with phase := .running }
    (s.die.grantedPkt q.pid 0x80 = some q →
      (∀ d, s.die.mapStatus q = .ok → mapped = some d → becomes (.mapRange q.pid) s ((d.forgetWalks p dva (dva + n)).finish q.pid .ok 0 0))
      ∧ (s.die.mapStatus q = .ok → mapped = none → becomes (.mapRange q.pid) s (s.die.finish q.pid .badLength 0 0))
      ∧ (s.die.mapStatus q ≠ .ok → becomes (.mapRange q.pid) s (s.die.finish q.pid (s.die.mapStatus q) 0 0)))
    ∧ (s.die.grantedPkt q.pid 0x81 = some q →
      (s.die.unmapStatus q true ≠ .ok → becomes (.unmapRange q.pid) s (s.die.finish q.pid (s.die.unmapStatus q true) 0 0))
      ∧ (s.die.unmapStatus q true = .ok →
        let c := (s.die.leaves p dva (dva + n)).foldl (fun e l => e.clearLeaf p l.1 l.2.1) s.die
        let f : Die := { c with tr := { c.tr with frames := c.tr.frames.filter fun f => !(f.part == p && decide (dva ≤ f.dva) && decide (f.dva < dva + n)) } }
        becomes (.unmapRange q.pid) s (if busy (cut f) = true then cut f else (cut f).finish q.pid .ok 0 0)))
    ∧ (s.die.grantedPkt q.pid 0x82 = some q →
      (s.die.unmapStatus q false ≠ .ok → becomes (.invalidateRange q.pid) s (s.die.finish q.pid (s.die.unmapStatus q false) 0 0))
      ∧ (s.die.unmapStatus q false = .ok →
        let e := cut (s.die.dropHostRange p dva (dva + n))
        let f := e.dropHostRange p dva (dva + n)
        becomes (.invalidateRange q.pid) s (if busy e = true then e else if busy f = true then f else f.finish q.pid .ok 0 0)))
    ∧ (s.die.grantedPkt q.pid 0x81 = none → s.die.runningPkt q.pid 0x81 = some q →
      becomes (.unmapRange q.pid) s (if busy s.die = true then s.die else s.die.finish q.pid .ok 0 0))
    ∧ (s.die.grantedPkt q.pid 0x82 = none → s.die.runningPkt q.pid 0x82 = some q →
      let f := s.die.dropHostRange p dva (dva + n)
      becomes (.invalidateRange q.pid) s (if busy s.die = true then s.die else if busy f = true then f else f.finish q.pid .ok 0 0))

/-- LOAD_PROGRAM reads its words and writes them to a bank of each core it names (R110); while the read has to wait it stays in progress, and a failed read ends
it with that status. SWITCH_PROGRAM leaves a switch pending on each (R111); either ends with the status of the first check or core that fails (R113, R244). A
word of a program as loaded is what the core then finds at its offset in the named bank (R110). -/
def Obligations.ProgramPackets : Prop :=
  (∀ (s : State) (q : Pkt), s.die.live = true →
      let b := q.body
      let all (d : Die) (f : Core → Core) : Die := (coresOf b).foldl (fun e c => e.onCore c f) d
      let running (d : Die) : Die := d.onPkt q.pid fun x => { x with phase := .running }
      let loads (d0 : Die) : Prop :=
        let read := d0.readAll (srcCp (.pkt q.pid) q.part.val) (field b 32 8) (field b 24 4) false
        let ended (d : Die) : Die := (d.endLoad q.pid).doneWith (.pkt q.pid)
        (∀ d, read = (.wait, d) → becomes (.loadProgram q.pid) s d)
        ∧ (∀ d st, read = (.fail st, d) → becomes (.loadProgram q.pid) s ((ended d).finish q.pid st 0 0))
        ∧ ∀ d bs, read = (.ok bs, d) →
          becomes (.loadProgram q.pid) s ((all (ended d) fun k => k.loadWords (field b 22 1 == 1) (field b 28 4) bs).finish q.pid .ok 0 0)
      (s.die.grantedPkt q.pid 0x84 = some q → s.die.loadStatus q = .ok → loads (running (all s.die fun k => { k with loading := k.loading ++ [q.pid] })))
      ∧ (s.die.grantedPkt q.pid 0x84 = none → s.die.runningPkt q.pid 0x84 = some q → loads s.die)
      ∧ (s.die.grantedPkt q.pid 0x84 = some q → s.die.loadStatus q ≠ .ok → becomes (.loadProgram q.pid) s (s.die.finish q.pid (s.die.loadStatus q) 0 0))
      ∧ (s.die.grantedPkt q.pid 0x85 = some q → s.die.switchStatus q = .ok →
        becomes (.switchProgram q.pid) s (running (all s.die fun k => { k with switch := some q.pid, switched := false })))
      ∧ (s.die.grantedPkt q.pid 0x85 = some q → s.die.switchStatus q ≠ .ok → becomes (.switchProgram q.pid) s (s.die.finish q.pid (s.die.switchStatus q) 0 0)))
  ∧ (∀ (k : Core) (bank : Bool) (off i : Nat) (bs : List Byte), tblWf (fun _ => 0#64) none k.prog = true → off % 8 = 0 → i < bs.length / 8 →
      (off + 8 * i < 0x20000) → let t := { k.loadWords bank off bs with active := bank, pc := off + 8 * i }
      t.wordAt = some (BitVec.ofNat 64 (field bs (8 * i) 8), false))

/-- SET_QOS, SELFTEST and QUERY (R209, R476, R537): the registers of a rate and its burst change; a test is accepted and pending, or deferred until the one before
it can be over; a query answers in RESULT, or writes its answer to DEST. OPEN_WINDOW, CLOSE_WINDOW, PRESERVE_ARM and LOCK_WAYS (R343, R344, R387, R439, R443):
a checked packet has its effect and ends with OK, a window's end waiting for the writes accepted through it, and a record's page has to be device memory of
partition 0 (a walk may have to wait, or fail). A payload out of order ends each with the status of its first check that fails. The ways that LOCK_WAYS leaves locked: EXACT locks the named ways
and no others, LOCK adds them, and without LOCK they are released (R343). -/
def Obligations.ServicePackets : Prop :=
  (∀ (s : State) (q : Pkt), s.die.live = true →
      let b := q.body
      let p := field b 16 1
      let r := field b 17 1
      let ends (i : Instr) (st : Status) : Prop := becomes i s (s.die.finish q.pid st 0 0)
      (s.die.grantedPkt q.pid 0x8A = some q →
        (firstStatus (qosPayload b) ≠ .ok → ends (.setQos q.pid) (firstStatus (qosPayload b)))
        ∧ (firstStatus (qosPayload b) = .ok →
          let d := (s.die.putRaw (QOS_RATE p r) (field b 20 4)).putRaw (QOS_BURST p r) (field b 24 4)
          becomes (.setQos q.pid) s
            ({ d with parts := { d.parts with qosNew := (d.parts.qosNew.filter (· != 5 * p + r)) ++ [5 * p + r] } }.finish q.pid .ok 0 0)))
      ∧ (s.die.grantedPkt q.pid 0x8C = some q →
        (s.die.testStatus b ≠ .ok → ends (.selftest q.pid) (s.die.testStatus b))
        ∧ (∀ t, s.die.testStatus b = .ok → s.die.boot.test = some t →
          becomes (.selftest q.pid) s
            (s.die.deferPkt q.pid (match t.start with | some n => s.die.wallOf (n + t.ticks) + 1 | none => s.die.tick.now + 16)))
        ∧ (∀ clocks units, s.die.testStatus b = .ok → s.die.boot.test = none → testInfo p = some (clocks, units) →
          let d := ((s.die.putB ST_STATUS_PENDING true).put ST_STATUS_BLOCK p).put ST_STATUS_UNIT r
          let t : SelfTest := { pid := q.pid, block := p, unit := r, maxTicks := field b 18 2, ticks := s.die.testTicks clocks,
                                accepted := s.die.tick.count, start := none, stopped := false }
          becomes (.selftest q.pid) s ({ d with boot := { s.die.boot with test := some t } }.onPkt q.pid fun x => { x with phase := .running })))
      ∧ (s.die.grantedPkt q.pid 0x8E = some q →
        let item := field b 16 2
        let known := s.die.queryBytes item
        (queryStatus b ≠ .ok → ends (.query q.pid) (queryStatus b))
        ∧ (queryStatus b = .ok → field b 24 8 = 0 → known.length = 8 →
          becomes (.query q.pid) s (s.die.finish q.pid .ok (le64 known) (BitVec.ofNat 32 item)))
        ∧ (queryStatus b = .ok → field b 24 8 = 0 → known.length ≠ 8 →
          let x := s.die.freshBytes 8
          becomes (.query q.pid) s (x.2.finish q.pid .ok (le64 x.1) (BitVec.ofNat 32 item)))
        ∧ (queryStatus b = .ok → field b 24 8 ≠ 0 →
          let x := s.die.freshBytes (64 - known.length)
          becomes (.query q.pid) s (x.2.cpWrite q (field b 24 8) (known ++ x.1) 0 (BitVec.ofNat 32 item)))))
  ∧ (∀ (s : State) (q : Pkt), s.die.live = true →
      let b := q.body
      let w := winOf (field b 16 2)
      let mask := field b 16 1
      let ends (i : Instr) (st : Status) : Prop := becomes i s (s.die.finish q.pid st 0 0)
      let closes (d : Die) : Prop := becomes (.closeWindow q.pid) s (if d.windowBusy w = true then d else d.finish q.pid .ok 0 0)
      (s.die.grantedPkt q.pid 0x90 = some q →
        (s.die.openStatus q ≠ .ok → ends (.openWindow q.pid) (s.die.openStatus q))
        ∧ (s.die.openStatus q = .ok →
          let x : Window := { part := field b 19 1, base := field b 24 8, bytes := field b 32 8, flags := BitVec.ofNat 5 (field b 18 1),
                              srcPkg := ⟨field b 40 2 % 4096, Nat.mod_lt _ (by decide)⟩, srcDies := BitVec.ofNat 8 (field b 42 1) }
          becomes (.openWindow q.pid) s ((s.die.setWindow w (some x)).finish q.pid .ok 0 0)))
      ∧ (s.die.grantedPkt q.pid 0x91 = some q →
        (s.die.closeStatus q ≠ .ok → ends (.closeWindow q.pid) (s.die.closeStatus q))
        ∧ (s.die.closeStatus q = .ok → closes ((s.die.setWindow w none).onPkt q.pid fun x => { x with phase := .running })))
      ∧ (s.die.grantedPkt q.pid 0x91 = none → s.die.runningPkt q.pid 0x91 = some q → closes s.die)
      ∧ (s.die.grantedPkt q.pid 0x94 = some q →
        (firstStatus (armPayload b) ≠ .ok → ends (.preserveArm q.pid) (firstStatus (armPayload b)))
        ∧ (firstStatus (armPayload b) = .ok →
          (mask = 0 → becomes (.preserveArm q.pid) s ((s.die.putB PRESERVE_STATUS_ARMED false).finish q.pid .ok 0 0))
          ∧ (∀ l bits d, mask = 1 → s.die.walk 0 (field b 24 8) = (.leaf l bits, d) →
            (l.attr = 0 → becomes (.preserveArm q.pid) s
              ({ d.putB PRESERVE_STATUS_ARMED true with mem := { d.mem with record := l.target / 2 ^ bits * 2 ^ bits + field b 24 8 % 2 ^ bits } }.finish q.pid .ok 0 0))
            ∧ (l.attr ≠ 0 → becomes (.preserveArm q.pid) s (d.finish q.pid .reservedValue 0 0)))
          ∧ (∀ d, mask = 1 → s.die.walk 0 (field b 24 8) = (.invalid, d) → becomes (.preserveArm q.pid) s (d.finish q.pid .reservedValue 0 0))
          ∧ (∀ d, mask = 1 → s.die.walk 0 (field b 24 8) = (.ecc, d) → becomes (.preserveArm q.pid) s (d.finish q.pid .eccUncorrectable 0 0))
          ∧ (∀ d, mask = 1 → s.die.walk 0 (field b 24 8) = (.wait, d) → becomes (.preserveArm q.pid) s d)))
      ∧ (s.die.grantedPkt q.pid 0x96 = some q →
        (s.die.lockStatus b ≠ .ok → ends (.lockWays q.pid) (s.die.lockStatus b))
        ∧ (s.die.lockStatus b = .ok →
          let lock (e : Die) (i : Nat) : Die :=
            e.put (DC_WAYS_LOCKED i) (lockedAfter (e.get (DC_WAYS_LOCKED i)) (field b 18 2) (field b 20 1 % 2 == 1) (sub (field b 20 1) 1 1 == 1))
          becomes (.lockWays q.pid) s (((List.range 8).foldl (fun e i => if sub mask i 1 == 1 then lock e i else e) s.die).finish q.pid .ok 0 0))))
  ∧ (∀ (old ways w : Nat), old < 2 ^ 16 → ways < 2 ^ 16 →
      let bit (n : Nat) : Bool := n.testBit w
      bit (lockedAfter old ways true true) = bit ways ∧ bit (lockedAfter old ways true false) = (bit old || bit ways)
      ∧ bit (lockedAfter old ways false false) = (bit old && !bit ways))

/-- Groom takes at most one packet of each partition in a round while its budget lasts (R247, R248): a packet whose cost fits is granted, and one whose cost does
not fit has its partition passed over for the rest of the tick. A kick restarts its watchdog; 64 ticks without one reset Groom alone, with a contained fault
(R250); after the restart it serves again, with what is left of the tick's budget (R251). While Groom is not serving a round and the watchdog do nothing, and a
restart's end does nothing while no restart is in progress; a kick by another function than the physical one is an access to a reserved offset (R542). -/
def Obligations.Groom : Prop :=
  (∀ (s : State), s.die.live = true →
    (becomes .groomRound s
      (if s.die.groomServes then (List.range 16).foldl (fun e k => e.groomTake ((s.die.cp.groom.nextPart + k) % 16)) s.die else s.die))
    ∧ (becomes .groomWatchdogExpire s
      (if s.die.groomServes = true ∧ 64 ≤ s.die.cp.groom.wdog then (s.die.groomReset.count GROOM_WDOG_RESETS 1).raise 14 .contained (detail 0 1 0) else s.die))
    ∧ (becomes .groomRestartDone s
      (if s.die.cp.restarting then
        { s.die.put GROOM_STATUS_STATE 1 with cp := { s.die.cp with restarting := false, groom := { s.die.cp.groom with wdog := 0 } } } else s.die))
    ∧ ∀ who : Who, Reaches s.die who true →
      becomes (.groomKick who) s (if who.part = 0 then { s.die with cp := { s.die.cp with groom := { s.die.cp.groom with wdog := 0 } } }
        else s.die.reserved who false true false GROOM_WDOG))
  ∧ ∀ (d : Die) (p : Nat) (q : Pkt),
      (d.cp.groom.skip.contains p = true → d.groomTake p = d) ∧ (d.groomHead p = none → d.groomTake p = d)
      ∧ (d.cp.groom.skip.contains p = false → d.groomHead p = some q →
        let c := opCost q.opcode.toNat
        let t := d.groomTake p
        (d.cp.groom.budgetLeft < c → t = { d with cp := { d.cp with groom := { d.cp.groom with skip := d.cp.groom.skip ++ [p] } } })
        ∧ (c ≤ d.cp.groom.budgetLeft → t.cp.groom.budgetLeft = d.cp.groom.budgetLeft - c ∧ t.cp.groom.queue = d.cp.groom.queue.filter (· != q.pid)
          ∧ t.pkts = (d.onPkt q.pid fun x => { x with phase := .granted }).pkts))

/-! ### The sync unit -/

/-- A bank adds all slotted signals of its object as one add, after a CLEAR; the satisfied waits of packets and cores end, the others and the other objects stay
(R254, R258, R263, R265, R268). Signals to a poisoned object that no CLEAR precedes end with ECC_UNCORRECTABLE and are recorded with cause 3, and the object stays
(R270). A bank with nothing slotted serves no object. -/
def Obligations.SyncBankUpdate : Prop :=
  (∀ (s : State) (bank : Fin 8), s.die.live = true →
    (s.die.bankObject bank.val = none → becomes (.syncBankUpdate bank) s s.die.afterHome)
    ∧ ∀ n, s.die.bankObject bank.val = some n → becomes (.syncBankUpdate bank) s (s.die.updateObj n).afterHome)
  ∧ ∀ (d : Die) (n : ObjIx), d.canonical →
      let cleared := d.sync.clears.any fun x => x.obj == n
      let sigs := d.sync.slots.filter fun e => e.2.obj == n
      let old : W64 := if cleared then 0 else (d.obj n).value
      let t := d.updateObj n
      (cleared = true ∨ (d.obj n).poison = false →
        t.obj n = { d.obj n with value := sigs.foldl (fun v e => v + e.2.inc) old, poison := false }
        ∧ (∀ m, m ≠ n → t.obj m = d.obj m) ∧ (∀ e ∈ t.sync.slots, e.2.obj ≠ n) ∧ (∀ x ∈ t.sync.clears, x.obj ≠ n)
        ∧ (cleared = true ∨ sigs ≠ [] →
          (∀ w ∈ t.sync.waiters, w.obj = n → meets w.equal w.thr (t.obj n).value = false)
          ∧ ∀ c eq thr, (t.core c).wait = some (.object n eq thr) → meets eq thr (t.obj n).value = false))
      ∧ (cleared = false → (d.obj n).poison = true →
        t = sigs.foldl (fun e x => (e.signalEnd x.1 x.2 .eccUncorrectable).syncErr n 3 x.1
          (match x.2.head with | some h => h.src | none => e.here) x.2.part true) d)

/-- Accesses to an object (R254, R266, R267, R268, R297, R543, R550): a function with rights adds by source 49, the write being withheld while that slot is
occupied (R264); another's is dropped, counted and recorded. The owner is changed by the PF alone, which clears the object and ends its waits; a CLEAR of a function with
rights is queued, another's is ignored. A read behind a write of its own function without its effect waits for it; else the low half is read with the high half
latched, and 0 without rights. A wait ends unsatisfied at its time, and not before (R261). A signal message that its port admits is slotted when its owner fits, at a
package port the stamp, in a window with SIGNAL set the window's partition (R256, R440); while its source's slot is occupied, or its epoch is newer, it stays at its
port (R79, R264); otherwise it is refused and recorded. An acknowledgement ends the operation that sent the signal (R255, R444), and one that no operation
waits for is dropped. -/
def Obligations.SyncAccesses : Prop :=
  (∀ (s : State) (who : Who) (n : ObjIx) (v : W32),
      let d := s.die
      let cleared (e : Die) : Die := e.onSync fun u => { u with clears := u.clears ++ [{ obj := n, fn := some who.latch }] }
      let owned : Die := (d.endWaiters n .aborted fun e c => e.coreFault c 13 (e.core c).pc .noAuthority).setObj n { value := 0, owner := v.setWidth 4, poison := false }
      let added : SlotSignal := { obj := n, inc := v.setWidth 64, part := who.part.val, who := none, head := none, posted := true, fn := some who.latch }
      (Reaches d who true →
        (assoc d.sync.slots 49 = none → d.mayObj who n = true →
          becomes (.syncAdd who n v) s (d.onSync fun u => { u with slots := assocPut u.slots 49 added }))
        ∧ (assoc d.sync.slots 49 = none → d.mayObj who n = false → becomes (.syncAdd who n v) s (d.syncErr n 5 49 d.here who.part.val true))
        ∧ (∀ x, assoc d.sync.slots 49 = some x → becomes (.syncAdd who n v) s (d.enqueueHost (.regWrite who false (objOff who n 8) v.toNat)))
        ∧ (who.part.val = 0 → v.setWidth 4 ≠ (d.obj n).owner →
          becomes (.syncOwnerWrite who n v) s (if v.getLsbD 4 then cleared owned else owned))
        ∧ (who.part.val ≠ 0 ∨ v.setWidth 4 = (d.obj n).owner →
          becomes (.syncOwnerWrite who n v) s (if v.getLsbD 4 = true ∧ d.mayObj who n = true then cleared d else d))
        ∧ becomes (.clear who n) s (if d.mayObj who n then cleared d else d))
      ∧ (Reaches d who false →
        (d.effectDue who = true →
          becomes (.syncValueLoRead who n) s (d.enqueueHost (.regRead who (.valueLo n))) ∧ becomes (.tickNowLoRead who) s (d.enqueueHost (.regRead who .tickLo)))
        ∧ (d.effectDue who = false → d.mayObj who n = true →
          becomes (.syncValueLoRead who n) s
            ((d.onSync fun u => { u with hiLatch := assocPut u.hiLatch (who.latch * 8192 + n.val) (((d.obj n).value >>> 32).setWidth 32) }).emit
              (.regData who (objBase n) ((d.obj n).value.setWidth 32))))
        ∧ (d.effectDue who = false → d.mayObj who n = false → becomes (.syncValueLoRead who n) s (d.emit (.regData who (objBase n) 0)))
        ∧ (d.effectDue who = false →
          becomes (.tickNowLoRead who) s
            ({ d with tick := { d.tick with hiLatch := assocPut d.tick.hiLatch who.latch (BitVec.ofNat 32 (d.tick.now / 2 ^ 32)) } }.emit
              (.regData who TICK_NOW_LO (BitVec.ofNat 32 d.tick.now)))))
      ∧ ∀ w t, d.live = true → (d.sync.waiters.find? fun x => x.pid == w.pid) = some w → w.deadline = some t →
        becomes (.waitTimeout w.pid) s (if t ≤ d.tick.count then
          (d.onSync fun u => { u with waiters := u.waiters.filter fun x => x.pid != w.pid }).finish w.pid .aborted (d.obj w.obj).value 0 else d))
  ∧ (∀ (s : State) (m : SignalMsg), s.die.live = true →
      let d := s.die
      let h := m.head
      let src := portSource h.port
      let check := d.portCheck h 5 none
      let takes (e : Die) : Prop := becomes (.signalMsgReceive m) s (e.freeUnits h.port 5 32)
      let stays : Prop := becomes (.signalMsgReceive m) s d
      let slots (part : Nat) : Prop :=
        (∀ x, assoc d.sync.slots src = some x → stays)
        ∧ (assoc d.sync.slots src = none →
          takes (d.onSync fun u => { u with slots := assocPut u.slots src { obj := m.obj, inc := m.inc, part := part, who := none, head := some h } }))
      let refused (check cause part : Nat) : Prop := takes (((d.winErr h check).respond h .outOfWindow []).syncErr m.obj cause src h.src part true)
      (check ≠ .pass → takes (d.notPassed h 5 check))
      ∧ (check = .pass → d.fenceOf h.epoch = .newer → stays)
      ∧ (check = .pass → d.fenceOf h.epoch = .older →
        takes (((d.winRefused h 5 2).rejectOld h true).syncErr m.obj 4 src h.src h.part.val false))
      ∧ (check = .pass → d.fenceOf h.epoch = .same → d.byStamp h = true →
        ((d.obj m.obj).owner.toNat = h.part.val → slots h.part.val)
        ∧ ((d.obj m.obj).owner.toNat ≠ h.part.val → takes ((d.respond h .noAuthority []).syncErr m.obj 1 src h.src h.part.val true)))
      ∧ (check = .pass → d.fenceOf h.epoch = .same → d.byStamp h = false →
        (∀ c, d.winOpen h = .error c → refused c 2 h.part.val)
        ∧ ∀ w, d.winOpen h = .ok w →
          (w.right 3 = false → refused 5 2 w.part)
          ∧ (w.right 3 = true → (d.obj m.obj).owner.toNat ≠ w.part → refused 8 1 w.part)
          ∧ (w.right 3 = true → (d.obj m.obj).owner.toNat = w.part → slots w.part)))
  ∧ ∀ (s : State) (head : MsgHead) (st : Status), s.die.live = true →
      let d := s.die
      let m : Response := { head := head, st := st, data := [] }
      let h := judged head (.response m)
      let check := d.portCheck h 4 none
      let takes (e : Die) : Prop := becomes (.signalAckReceive head st) s (e.freeUnits h.port 4 (msgBytes (.response m)))
      (check ≠ .pass → takes (d.notPassed h 4 check))
      ∧ (check = .pass → d.fenceOf m.head.epoch = .newer → becomes (.signalAckReceive head st) s d)
      ∧ (check = .pass → d.fenceOf m.head.epoch = .older → takes (d.rejectOld m.head false))
      ∧ (check = .pass → d.fenceOf m.head.epoch = .same →
        let op := d.ports.ops.find? fun o => o.tag == m.head.tag && o.reply.isNone
        (op = none → takes d) ∧ ∀ o, op = some o →
          takes (d.remoteEnd o m.st [])
          ∧ (∀ c, o.req = .core c → o.read = none → m.st = .ok → (d.ports.tierReads.find? fun t => t.1 == o.tag) = none →
            d.remoteEnd o m.st [] = (d.onPorts fun u => { u with ops := u.ops.filter fun x => !(x.tag == o.tag) }).ackAsker { req := o.req, id := o.id }))

/-! ### The device cache, device memory and its keys -/

/-- The home of a line takes the oldest request of a stop (R311 to R314, R316, R331). A request that can be served is served: a read whose sectors are present is
answered. Behind an MSHR of its line it waits, of which there are at most 9, and a line held in E is revoked for it. One that can be accepted neither way stays where it
is, and the slice accepts nothing of another stop until then; what a stop's L1 says of its copies is taken all the same: an eviction notice takes its holder from
the tally, a result of a near atomic is written. What waited at a home goes on (R313, R331, R332): when memory answers and when the owner releases a line, its requests
are served in order, the first that must wait again holding those behind it; a far atomic is performed at the controller and its old value returns, or fails with an
uncorrectable word. A command of the homes that finds nothing to do changes nothing there; after each of them the window and BAR4 accesses that waited go on, if
any. ADD wraps, SWAP replaces, and CAS replaces what equals its comparand. -/
def Obligations.Homes : Prop :=
  (∀ (s : State) (slice : SliceIx) (stop : Fin 64), s.die.live = true →
      let takes (e : Die) : Prop := becomes (.homeRequestAccept slice stop) s e.afterHome
      (s.die.frontReq slice stop = none → takes s.die)
      ∧ ∀ r, s.die.frontReq slice stop = some r →
        let d := (s.die.popReq r).noteRun r
        let blocked := s.die.blockedBy slice
        (∀ a n bs e, blocked = none → r.op = .read a n → r.space = .dev → s.die.mshrOf r.line false = none → s.die.excl r.line false = false → s.die.sweeping r.key = false →
            s.die.sharedBias r.line = false → s.die.hasSectors r.line r.key (sectorMask (a - r.line) n) = true → d.devRead r a n = (some bs, e) →
          takes ((e.reply r .ok bs).unblock slice))
        ∧ (r.op = .evict → s.die.excl r.line r.host = false → r.host = false → takes (((s.die.popReq r).dropHolder r.line false).settleLine r.line false))
        ∧ (∀ a bs e, r.op = .result a bs → s.die.sweeping r.key = false → d.homePerformWrite stop.val a r.key bs false .usual = (true, e) → takes (e.reply r .ok []))
        ∧ (∀ m, blocked = none → r.op = .fill → s.die.mshrOf r.line r.host = some m →
          (m.reqs.length < 9 → takes ((d.onMshr r.line r.host fun m => { m with reqs := m.reqs ++ [r] }).unblock slice))
          ∧ (9 ≤ m.reqs.length → (∀ q ∈ s.die.cache.ring, q.slice = slice → q.stop = stop → q.isNote = false) → takes (s.die.block slice stop)))
        ∧ (∀ other, blocked = some other → other ≠ stop → r.isNote = false → (∀ q ∈ s.die.cache.ring, q.slice = slice → q.stop = stop → q.isNote = false) →
          takes s.die)
        ∧ (blocked = none → r.op = .fill → s.die.mshrOf r.line r.host = none → s.die.excl r.line r.host = true → s.die.mshrsUsed slice < 64 →
          takes (((d.revokeLine r.line r.host).addMshr { slice := slice, line := r.line, host := r.host, why := .revoke, reqs := [r] }).unblock slice)))
  ∧ (∀ (s : State) (line : Nat), s.die.live = true →
      let d := s.die.dropMshr line false
      (s.die.mshrOf line false = none → becomes (.memoryFillReturn line) s s.die.afterHome ∧ becomes (.farAtomicReturn line) s s.die.afterHome)
      ∧ ∀ m, s.die.mshrOf line false = some m →
        (m.why = .memory → m.line = line → m.host = false → becomes (.memoryFillReturn line) s (Die.serve true m.reqs d).afterHome)
        ∧ (m.why ≠ .memory → becomes (.memoryFillReturn line) s s.die.afterHome)
        ∧ (m.why ≠ .far → becomes (.farAtomicReturn line) s s.die.afterHome)
        ∧ ∀ r rs op a n cmp new near, m.why = .far → m.reqs = r :: rs → r.op = .amo op a n cmp new near →
          (∀ old e f, d.hbmRead r.key a n = (some old, e) → e.hbmWrite r.key a (leBytes n (amoNew op n (leNat old) cmp.toNat new.toNat)) = (true, f) →
            becomes (.farAtomicReturn line) s (Die.serve false rs (f.reply r .ok old)).afterHome)
          ∧ (∀ e, d.hbmRead r.key a n = (none, e) → becomes (.farAtomicReturn line) s (Die.serve false rs (e.fails r .eccUncorrectable)).afterHome))
  ∧ (∀ (s : State) (slice : SliceIx) (stop : Fin 64), s.die.live = true →
      (s.die.frontReq slice stop = none → becomes (.releaseReceive slice stop) s s.die.afterHome)
      ∧ ∀ r k t, s.die.frontReq slice stop = some r → r.op = .release → (s.die.popReq r).tallyOf r.line r.host = some (k, t) → t.excl = true → t.owner = stop →
        becomes (.releaseReceive slice stop) s (((s.die.popReq r).dropTally k).settleLine r.line r.host).afterHome)
  ∧ (∀ (filled : Bool) (r : HomeReq) (rs : List HomeReq) (d e : Die),
      (d.perform r filled = .done e → e.excl r.line r.host = false → Die.serve filled (r :: rs) d = Die.serve (filled && !r.host) rs e)
      ∧ (∀ why, d.perform r filled = .park e why → Die.serve filled (r :: rs) d = e.parkIn r rs why))
  ∧ (∀ d : Die, d.ports.winOps = [] → d.host.posted = [] → d.afterHome = d)
  ∧ ∀ (w old cmp new : Nat), old < 2 ^ (8 * w) →
      amoNew .add w old cmp new = (old + new) % 2 ^ (8 * w) ∧ amoNew .swap w old cmp new = new % 2 ^ (8 * w)
      ∧ (cmp % 2 ^ (8 * w) = old → amoNew .cas w old cmp new = new % 2 ^ (8 * w)) ∧ (cmp % 2 ^ (8 * w) ≠ old → amoNew .cas w old cmp new = old)

/-- The L1 of a core (R316, R318, R330): a fill gives the waiting loads their bytes and is installed, unless an invalidation met its miss, or the L1 has the line
already: then it is given back by a notice; so is a second copy that a push brings. A line granted in E is installed and the core's atomics that waited for it are
performed on it. A failed fill ends the slice of a core whose access waited for it.
An invalidation takes the copy at once, kills a miss that waits for its fill, and is acknowledged. A revoked line is marked, and released once no result is on its
way; one that is gone has been released already. With no such message an L1 does nothing. -/
def Obligations.L1Messages : Prop :=
  ∀ (s : State) (stop : Fin 64), s.die.live = true →
    let d := s.die
    (d.frontL1 stop = none → becomes (.l1Fill stop) s d ∧ becomes (.l1Invalidation stop) s d.afterHome ∧ becomes (.revoke stop) s d)
    ∧ (∀ m c, d.frontL1 stop = some m → stopCore stop = some c →
      let popped := d.popL1 m
      let mine (x : L1Miss) : Bool := x.stop == stop && x.line == m.line && x.host == m.host
      let clear : Die := popped.onCache fun u => { u with misses := u.misses.filter fun x => !mine x }
      let install (e : Die) (data : LineData) : Die := e.l1Install stop { addr := m.line, host := m.host, excl := false, revoked := false, data := data }
      (∀ data, m.kind = .fill false data →
        let e := clear.serveLoads c m.line m.host data
        (∀ x, d.cache.misses.find? mine = some x → x.killed = false → e.l1Find stop m.line m.host = none → becomes (.l1Fill stop) s (install e data))
        ∧ (∀ x, d.cache.misses.find? mine = some x → x.killed = true → becomes (.l1Fill stop) s (e.sendEvict stop m.line m.host))
        ∧ (∀ x, e.l1Find stop m.line m.host = some x → becomes (.l1Fill stop) s (e.sendEvict stop m.line m.host)))
      ∧ (∀ data k l, m.kind = .fill true data →
        let e := clear.serveLoads c m.line m.host data
        let f := e.l1Install stop { addr := m.line, host := m.host, excl := true, revoked := false, data := data }
        e.l1Find stop m.line m.host = none → f.l1Find stop m.line m.host = some (k, l) → becomes (.l1Fill stop) s (f.nearAmos stop c k l).2)
      ∧ (∀ data, m.kind = .push data →
        (popped.l1Find stop m.line m.host = none → becomes (.l1Fill stop) s (install popped data))
        ∧ (∀ x, popped.l1Find stop m.line m.host = some x → becomes (.l1Fill stop) s (popped.sendEvict stop m.line m.host)))
      ∧ (∀ st, m.kind = .bad st → (clear.core c).ops = [] → becomes (.l1Fill stop) s clear))
    ∧ (∀ m id, d.frontL1 stop = some m → m.kind = .inval id →
      let popped := d.popL1 m
      let kill (e : Die) : Die := e.onCache fun u => { u with
        misses := u.misses.map fun x => if x.stop == stop && x.line == m.line && x.host == m.host then { x with killed := true } else x }
      (popped.l1Find stop m.line m.host = none → becomes (.l1Invalidation stop) s ((kill popped).ackInv id).afterHome)
      ∧ ∀ k l, popped.l1Find stop m.line m.host = some (k, l) →
        becomes (.l1Invalidation stop) s ((kill ((popped.l1Drop k).dropHolder m.line m.host)).ackInv id).afterHome)
    ∧ (∀ m, d.frontL1 stop = some m → m.kind = .revoke →
      (∀ k l, (d.popL1 m).l1Find stop m.line m.host = some (k, l) →
        becomes (.revoke stop) s (if l.excl then (d.popL1 m).l1Put k { l with revoked := true } else d.popL1 m))
      ∧ ((d.popL1 m).l1Find stop m.line m.host = none → becomes (.revoke stop) s (d.popL1 m)))
    ∧ ∀ line,
      let result := d.cache.ring.any fun r => r.stop == stop && r.line == line && (match r.op with | .result .. => true | _ => false)
      (d.l1Find stop line false = none → becomes (.exclusiveRelease stop line) s d)
      ∧ ∀ k l, d.l1Find stop line false = some (k, l) →
        becomes (.exclusiveRelease stop line) s
          (if l.excl = true ∧ l.revoked = true ∧ result = false then
            (d.l1Drop k).sendHome { stop := stop, slice := homeSlice false line, line := line, space := .dev, key := 0, once := false, op := .release,
                                    who := { req := .reg, id := 0 } } else d)

/-- The work of a slice beside its requests (R325, R327, R338, R339, R341): the oldest dirty hayloft entry is written back and is clean; a prefetch of a line that the
slice holds, or while more than 48 of its MSHRs are in use, is dropped, it waits while the slice waits for another request, and else it is taken in like a read of the
whole line. A sweep drops a partition's lines from the arrays and haylofts without write-back, and ends, counted, once no L1 holds a line of its key. A snoop of a line whose
atomic or invalidation is under way waits, of one held in E it has the owner revoked; else the slice drops its copy, writing back a shared-bias line, and the
host is answered, once every L1 that holds the line has acknowledged. -/
def Obligations.SliceWork : Prop :=
  (∀ (s : State) (slice : SliceIx), s.die.live = true →
    let d := s.die
    (((d.hay slice).find? fun c => c.dirty != 0) = none → becomes (.hayloftWriteback slice) s d)
    ∧ (∀ c, ((d.hay slice).find? fun c => c.dirty != 0) = some c →
      becomes (.hayloftWriteback slice) s ((d.writeBack c).setHay slice (listUpd (fun x => x == c) (fun x => { x with dirty := 0 }) (d.hay slice))))
    ∧ ((d.cache.prefetches.find? fun p => p.slice == slice) = none → becomes (.nextLinePrefetch slice) s d)
    ∧ ∀ p, (d.cache.prefetches.find? fun p => p.slice == slice) = some p →
      let gone := d.onCache fun u => { u with prefetches := u.prefetches.erase p }
      let holds := (d.findWay slice p.line false).isSome || (d.hay slice).any fun c => c.addr == p.line && !c.host
      (holds = true ∨ 48 < d.mshrsUsed slice → becomes (.nextLinePrefetch slice) s gone)
      ∧ (holds = false → d.mshrsUsed slice ≤ 48 → (d.blockedBy slice).isSome = true → becomes (.nextLinePrefetch slice) s d)
      ∧ (∀ e, holds = false → d.mshrsUsed slice ≤ 48 → d.blockedBy slice = none → gone.takeIn p.req = (true, e) → becomes (.nextLinePrefetch slice) s e)
      ∧ (∀ e, holds = false → d.mshrsUsed slice ≤ 48 → d.blockedBy slice = none → gone.takeIn p.req = (false, e) → becomes (.nextLinePrefetch slice) s d))
  ∧ (∀ (s : State) (q : PartIx), s.die.live = true →
      becomes (.keySweep q) s (if s.die.sweeping q.val then s.die.sweepKey q.val else s.die)
      ∧ (s.die.cache.sweeps = [] → becomes .keySweepComplete s s.die.afterHome)
      ∧ ∀ rest, s.die.cache.sweeps = q.val :: rest →
        let d := s.die.sweepKey q.val
        let held := d.cache.tally.any fun t => !t.2.host && t.2.key == q.val
        (held = true → becomes .keySweepComplete s d.afterHome)
        ∧ (held = false → becomes .keySweepComplete s
          (((d.onCache fun u => { u with sweeps := rest }).countWrap DC_SWEEP_COUNT 1).putB DC_SWEEP_BUSY (!rest.isEmpty)).retryTally.afterHome))
  ∧ (∀ (d : Die) (key : Nat), let t := d.sweepKey key
      (∀ e ∈ t.cache.lines, e.2.host = true ∨ e.2.key ≠ key) ∧ (∀ e ∈ d.cache.lines, e.2.host = true ∨ e.2.key ≠ key → e ∈ t.cache.lines)
      ∧ (∀ e ∈ t.cache.hay, ∀ c ∈ e.2, c.host = true ∨ c.key ≠ key) ∧ t.mem = d.mem)
  ∧ ∀ (s : State) (kind : Snoop) (addr : Nat), s.die.live = true →
      let d := s.die
      let at_ := lineOf addr
      (∀ e, d.sharedHere at_ = none → d.lineFree at_ true = (false, e) → becomes (.hostSnoop kind addr) s e)
      ∧ (∀ e, d.sharedHere at_ = none → d.lineFree at_ true = (true, e) →
        let held := e.heldLine at_ true
        let dropped := e.dropCopy at_ true
        (dropped.tallyOf at_ true = none → becomes (.hostSnoop kind addr) s (dropped.emit (.snoopResponse at_ held)))
        ∧ ∀ x, dropped.tallyOf at_ true = some x → becomes (.hostSnoop kind addr) s (dropped.broadcast at_ true (.snoop at_ held)).2)
      ∧ ∀ line, d.sharedHere at_ = some line →
        (∀ e, d.lineFree line false = (false, e) → becomes (.hostSnoop kind addr) s e)
        ∧ ∀ e, d.lineFree line false = (true, e) →
          let held := e.heldLine line false
          let dropped := ((e.cleanLine line).onCache fun u => { u with owned := u.owned.erase line }).dropCopy line false
          (dropped.tallyOf line false = none → becomes (.hostSnoop kind addr) s (dropped.emit (.snoopResponse at_ held)))
          ∧ ∀ x, dropped.tallyOf line false = some x → becomes (.hostSnoop kind addr) s (dropped.broadcast line false (.snoop at_ held)).2

/-- Registers of device memory (R351, R352, R355, R356, R365): stacks go out of service; a granule of the host key map is written or read and the index steps; a
flip of a page of device memory is taken, or recorded as dropped while another is in progress; a partition is named, and with ROTATE a new key pair drawn for it. A
flip begins once no line of its page is held in E or has an atomic or an invalidation under way: towards shared bias the dirty sectors are written back and the L1
copies invalidated, towards device bias the host is asked for every line; it ends once all that has come. A patrol read checks the four sectors of a line and moves to
the next, unless scrubbing is off or the stack does not answer. -/
def Obligations.MemoryControl : Prop :=
  (∀ (s : State) (who : Who) (v : W32), Reaches s.die who true → who.part = 0 →
    let d := s.die
    let w1c : Die := if v.getLsbD 24 then d.putB BIAS_FLIP_DROPPED false else d
    let named : Die := d.put MEMKEY_CTRL_PARTITION v.toNat
    let page := sub v.toNat 0 22
    becomes (.hbmOffline who v) s (d.put HBM_CTRL_OFFLINE v.toNat)
    ∧ becomes (.hkmDataAccess who (some v)) s
        ({ d with mem := { d.mem with hkm := tblPut (fun _ => 0#4) d.mem.hkm (d.get HKM_INDEX_GRANULE) (v.setWidth 4) } }.put HKM_INDEX_GRANULE
          ((d.get HKM_INDEX_GRANULE + 1) % 73728))
    ∧ (d.mem.flip.isSome = true → becomes (.biasFlip who v) s (w1c.putB BIAS_FLIP_DROPPED true))
    ∧ (d.mem.flip = none → 2359296 ≤ page → becomes (.biasFlip who v) s w1c)
    ∧ (d.mem.flip = none → page < 2359296 →
      let e := (w1c.put BIAS_FLIP_PAGE page).putB BIAS_FLIP_SHARED (v.getLsbD 22)
      becomes (.biasFlip who v) s { e with mem := { d.mem with flip := some { page := page, shared := v.getLsbD 22 } } })
    ∧ becomes (.rotate who v) s (if v.getLsbD 4 then named.drawKey (v.toNat % 16) else named))
  ∧ (∀ (s : State) (who : Who), Reaches s.die who false → who.part = 0 → s.die.effectDue who = false →
      let at_ := s.die.get HKM_INDEX_GRANULE
      becomes (.hkmDataAccess who none) s
        ((s.die.put HKM_INDEX_GRANULE ((at_ + 1) % 73728)).emit (.regData who HKM_DATA ((tblGet (fun _ => 0#4) s.die.mem.hkm at_).setWidth 32))))
  ∧ (∀ (s : State), s.die.live = true →
      (s.die.mem.flip = none → becomes .biasFlipComplete s s.die)
      ∧ ∀ f, s.die.mem.flip = some f →
        let lines := (List.range 512).map fun i => f.page * 65536 + 128 * i
        (f.started = false → becomes .biasFlipComplete s (s.die.startFlip f)
          ∧ ((∀ a ∈ lines, s.die.lineFree a false = (true, s.die)) →
            let e : Die := if f.shared then lines.foldl (fun e a => ((e.cleanLine a).broadcast a false .none).2) s.die else lines.foldl Die.askOwnership s.die
            s.die.startFlip f = { e with mem := { e.mem with
              flip := some { f with started := true }, shared := if f.shared then tblPut (fun _ => false) e.mem.shared f.page true else e.mem.shared } })
          ∧ ((∃ a ∈ lines, (s.die.lineFree a false).1 = false) → (s.die.startFlip f).mem = s.die.mem))
        ∧ (f.started = true → s.die.flipBusy f = true → becomes .biasFlipComplete s s.die)
        ∧ (f.started = true → s.die.flipBusy f = false → becomes .biasFlipComplete s { s.die with
          mem := { s.die.mem with flip := none, shared := tblPut (fun _ => false) s.die.mem.shared f.page f.shared },
          cache := { s.die.cache with owned := s.die.cache.owned.filter fun a => a / 65536 != f.page } }))
  ∧ (∀ (d : Die) (p : Nat), d.mem.keysHeld = false → p < 16 → tblWf (fun _ => 0) none d.mem.keyGen = true → let t := d.drawKey p
      t.keyGen p = d.keyGen p + 1 ∧ (∀ q, q ≠ p → t.keyGen q = d.keyGen q) ∧ t.sweeping p = true)
  ∧ ∀ (s : State) (stack : StackIx), s.die.live = true →
      let off := s.die.get HBM_SCRUB_HOURS = 0 ∨ s.die.offline stack.val = true ∨ s.die.bit HBM_STATUS_SELF_REFRESH = true
      (off → becomes (.patrolScrub stack) s s.die)
      ∧ (¬off →
        let i := tblGet (fun _ => 0) s.die.mem.scrub stack.val
        let d := (List.range 4).foldl (fun e k => (e.checkSector (patrolLine stack.val i / 32 + k)).2) s.die
        becomes (.patrolScrub stack) s { d with mem := { d.mem with scrub := tblPut (fun _ => 0) d.mem.scrub stack.val ((i + 1) % linesPerStack) } })

/-! ### Translation -/

/-- The host answers what the die asked (R370, R372, R374, R375, R378): a completion fills the address translation cache, and the oldest entry goes when it is full;
one whose translation an invalidation has met is discarded, and the translation is asked for anew. The oldest queued fault that may leave the queue sends a page request
with a free index, for itself and every queued fault on its page, which shows whether they read and write, or joins the group of its page. A response lets its accesses
try again or fails them with CAUSE 2 or 3, and a failure stops page requests of the function until PRI is enabled again, failing with CAUSE 5 what still waits to
be sent; a group unanswered for PR_TIMEOUT.TICKS ticks fails its accesses with CAUSE 1, and its index stays unused for as long again. An invalidation of the host takes
every translation of the function that lies in its range and no other, and is completed when no access of the function to host memory is under way (R378, R379). -/
def Obligations.HostTranslations : Prop :=
  (∀ (s : State) (fn : PartIx) (id index hpa : Nat) (r w : Bool), s.die.live = true →
      let d := s.die
      ((d.tr.ats.find? fun q => q.id == id) = none → becomes (.atsCompletion id hpa r w) s d)
      ∧ (∀ q, (d.tr.ats.find? fun q => q.id == id) = some q →
        let rest := d.tr.atc.filter fun a => !(a.part == q.part && a.page == q.page)
        let entry : AtcEntry := { part := q.part, page := q.page, hpa := hpa / 4096 * 4096, r := r, w := w }
        (q.dead = true → becomes (.atsCompletion id hpa r w) s (d.onTr fun t => { t with ats := t.ats.erase q }))
        ∧ (q.dead = false → rest.length < 4096 → becomes (.atsCompletion id hpa r w) s (d.onTr fun t => { t with ats := t.ats.erase q, atc := rest ++ [entry] }))
        ∧ (q.dead = false → rest.length = 4096 →
          becomes (.atsCompletion id hpa r w) s (d.onTr fun t => { t with ats := t.ats.erase q, atc := rest.drop 1 ++ [entry] })))
      ∧ (d.tr.faults.find? d.maySend = none → becomes .pageRequestSend s d)
      ∧ (∀ f, d.tr.faults.find? d.maySend = some f →
        let mine (x : PageFault) : Bool := x.state == .queued && x.part == f.part && x.host == f.host && x.page == f.page
        let join (i : Nat) (t : TransUnit) : TransUnit := { t with faults := t.faults.map fun x => if mine x then { x with state := .group i } else x }
        let pasid := if f.host then d.get (TRANS_PASID_HOST_PASID f.part) else d.get (TRANS_PASID_DEV_PASID f.part)
        (∀ g, d.groupOf f = some g → becomes .pageRequestSend s (d.onTr (join g.index)))
        ∧ (∀ i, d.groupOf f = none → d.freeIndex f.part = some i →
          let g : PrGroup := { index := i, part := f.part, host := f.host, page := f.page, sentTick := d.tick.count }
          becomes .pageRequestSend s ((d.onTr fun t => { join i t with groups := t.groups ++ [g] }).emit
            (.pageRequest i f.part pasid f.page ((d.tr.faults.filter mine).any (·.read)) ((d.tr.faults.filter mine).any (·.write))))))
      ∧ (∀ g, (d.tr.groups.find? fun g => g.part == fn.val && g.index == index) = some g →
        let mine (f : PageFault) : Bool := f.state == .group index && f.part == fn.val
        let fs := d.tr.faults.filter mine
        let turn (next : PageFault → PageFault) (t : TransUnit) : TransUnit := { t with
          groups := t.groups.erase g, atc := if g.host then t.atc.filter fun a => !(a.part == g.part && a.page == g.page) else t.atc,
          faults := t.faults.map fun f => if mine f then next f else f }
        let late := orOne (d.get PR_TIMEOUT_TICKS)
        becomes (.prgResponse fn index .success) s ((d.onTr (turn fun f => { f with state := .retry, tries := f.tries + 1 })).pageServed fs)
        ∧ becomes (.prgResponse fn index .invalidRequest) s ((d.onTr (turn fun f => { f with state := .failed 2 })).pageServed fs)
        ∧ becomes (.prgResponse fn index .failure) s (((d.onTr (turn fun f => { f with state := .failed 3 })).pageServed fs).onTr fun t => { t with
            prOff := (t.prOff.filter (· != fn.val)) ++ [fn.val],
            faults := t.faults.map fun f => if f.part == fn.val && f.state == .queued then { f with state := .failed 5 } else f })
        ∧ (g.sentTick + late ≤ d.tick.count → becomes (.pageRequestTimeout fn index) s ((d.pageServed fs).onTr fun t => { t with
            groups := t.groups.erase g, abandoned := t.abandoned ++ [(fn.val, index, d.tick.count)],
            faults := t.faults.map fun f => if mine f then { f with state := .failed 1 } else f }))
        ∧ (d.tick.count < g.sentTick + late → becomes (.pageRequestTimeout fn index) s d))
      ∧ ((d.tr.groups.find? fun g => g.part == fn.val && g.index == index) = none →
        (∀ code, becomes (.prgResponse fn index code) s (d.onTr fun t => { t with abandoned := t.abandoned.filter fun a => !(a.1 == fn.val && a.2.1 == index) }))
        ∧ becomes (.pageRequestTimeout fn index) s d)
      ∧ becomes (.priEnable fn) s ((d.setFn fn.val { d.fn fn.val with priEnable := true }).onTr fun t => { t with prOff := t.prOff.filter (· != fn.val) }))
  ∧ (∀ (s : State) (fn : PartIx) (tag lo hi : Nat), s.die.live = true →
      let hit (a n : Nat) : Prop := a < hi ∧ lo < a + n
      (answers (.atsInvalidation fn tag lo hi) s fun t =>
        (∀ a, a ∈ t.tr.atc ↔ a ∈ s.die.tr.atc ∧ ¬(a.part = fn.val ∧ hit (a.page * 4096) 4096))
        ∧ (∀ e, e ∈ t.tr.tlb ↔ e ∈ s.die.tr.tlb ∧ ¬(e.part = fn.val ∧ e.leaf.attr = 2 ∧ hit (e.leaf.target / 2 ^ e.bits * 2 ^ e.bits) (2 ^ e.bits)))
        ∧ (∀ q, q ∈ t.tr.ats → q.part = fn.val → hit (q.page * 4096) 4096 → q.dead = true)
        ∧ (∀ q, ¬(q.part = fn.val ∧ hit (q.page * 4096) 4096) → (q ∈ t.tr.ats ↔ q ∈ s.die.tr.ats))
        ∧ t.tr.invals = s.die.tr.invals ++ [{ tag := tag, part := fn.val, lo := lo, hi := hi }] ∧ { s.die with tr := t.tr } = t)
      ∧ ((s.die.tr.invals.find? fun i => i.tag == tag) = none → becomes (.atsInvalidationComplete tag) s s.die)
      ∧ ∀ i, (s.die.tr.invals.find? fun i => i.tag == tag) = some i →
        becomes (.atsInvalidationComplete tag) s
          (if s.die.hostBusy i.part then s.die else (s.die.onTr fun t => { t with invals := t.invals.erase i }).emit (.invalidationCompletion tag)))

/-- A walk (R367, R368): it ends at the first entry marked a leaf below level 0, is invalid at an entry whose bit 0 is clear, at a leaf of level 0 and at a table of level 3,
and goes on with the table that the entry names; an address above 2^52 is not mapped, and neither is one of a partition without a tree. A table that cannot be read yet
or has an uncorrectable error ends it so. A translation (R362, R370, R371, R372, R374, R383, R384): what the leaf permits is answered with the leaf's frame and the offset
in its page, an atomic needing R and W; a write of a page without W or into a tier window is denied; an address without a leaf is denied, fails where page requests cannot be
sent, or becomes a page fault; an address under migration waits, and so does an access whose page request is unanswered, which fails once the group has failed. -/
def Obligations.Translations : Prop :=
  ((∀ (d : Die) (p dva : Nat), 2 ^ 52 ≤ dva ∨ d.get (PT_ROOT_ROOT p) = 0 → d.walk p dva = (.invalid, d))
    ∧ (∀ (d : Die) (p dva : Nat), d.get (PT_ROOT_ROOT p) ≠ 0 → dva < 2 ^ 52 →
        d.walk p dva = Die.walkFrom p dva 4 0 (d.get (PT_ROOT_ROOT p) * 65536) d)
    ∧ (∀ (d e : Die) (p dva n level table : Nat),
        (d.levelEntry p level table dva = (.ecc, e) → Die.walkFrom p dva (n + 1) level table d = (.ecc, e))
        ∧ (d.levelEntry p level table dva = (.wait, e) → Die.walkFrom p dva (n + 1) level table d = (.wait, e))
        ∧ ∀ v, d.levelEntry p level table dva = (.val v, e) →
          (v % 2 = 0 ∨ (sub v 6 1 = 1 ∧ level = 0) ∨ (sub v 6 1 = 0 ∧ level = 3) → Die.walkFrom p dva (n + 1) level table d = (.invalid, e))
          ∧ (v % 2 = 1 → sub v 6 1 = 1 → level ≠ 0 → Die.walkFrom p dva (n + 1) level table d = (.leaf (leafOf v) (levelBits level), e))
          ∧ (v % 2 = 1 → sub v 6 1 = 0 → level < 3 → Die.walkFrom p dva (n + 1) level table d = Die.walkFrom p dva n (level + 1) (nextTable v) e))
    ∧ ∀ (l : Leaf), l.attr < 8 → l.target % 2 ^ 16 = 0 → leafOf l.entry = l)
  ∧ (∀ (d : Die) (s : Src) (dva : Nat) (write noFault : Bool),
      let r := d.translate s dva write noFault
      (∀ f, d.tr.faults.find? (heldFault s dva) = some f →
        (∀ cause, f.state = .failed cause → r = (.fail .pageFaultUnresolved, (d.onTr fun t => { t with faults := t.faults.erase f }).transFault cause s.part s.stop dva))
        ∧ ((∀ cause, f.state ≠ .failed cause) → r = (.wait, d)))
      ∧ (d.tr.faults.find? (heldFault s dva) = none →
        (∀ e, d.leaf s dva = (.wait, e) → r = (.wait, e))
        ∧ (∀ e, d.leaf s dva = (.ecc, e) → r = (.fail .eccUncorrectable, e.raise 6 .contained (detail s.stop 2 s.part)))
        ∧ (∀ l bits e, d.leaf s dva = (.leaf l bits, e) →
          let right := if write then l.w && (!s.amo || l.r) else l.r
          let ok := e.tier s.part dva = none ∨ (write = false ∧ l.attr = 2)
          let addr := l.target / 2 ^ bits * 2 ^ bits + dva % 2 ^ bits
          (¬ok → r = (.fail .translationDenied, e.transFault 8 s.part s.stop dva))
          ∧ (ok → right = false → r = (.fail .translationDenied, e.transFault 6 s.part s.stop dva))
          ∧ (ok → right = true → e.moving s.part dva = true → r = (.wait, e))
          ∧ (ok → right = true → e.moving s.part dva = false → l.attr ≠ 2 → r = (.ok l.attr addr l.once, e.faultDone s false (dva / 65536)))
          ∧ (∀ a, ok → right = true → e.moving s.part dva = false → l.attr = 2 → noFault = false →
            (e.tr.atc.find? fun a => a.part == s.part && a.page == addr / 4096) = some a → (if write then a.w && (!s.amo || a.r) else a.r) = true →
            r = (.ok 2 (a.hpa + addr % 4096) l.once, (e.faultDone s false (dva / 65536)).faultDone s true (addr / 4096))))
        ∧ (∀ e, d.leaf s dva = (.invalid, e) →
          (noFault = true → r = (.fail .translationDenied, e))
          ∧ (noFault = false → e.bit (TRANS_CTRL_FAULT_MODE s.part) = true → r = (.fail .translationDenied, e.transFault 7 s.part s.stop dva))
          ∧ (noFault = false → e.bit (TRANS_CTRL_FAULT_MODE s.part) = false → e.tr.faults.find? (sameFault s.req s.part false (dva / 65536)) = none →
            (e.noPri s.part = true → r = (.fail .pageFaultUnresolved, e.transFault 5 s.part s.stop dva))
            ∧ (e.noPri s.part = false → 256 ≤ e.tr.queued → r = (.wait, e))
            ∧ (e.noPri s.part = false → e.tr.queued < 256 → r = (.wait, e.onTr fun t => { t with faults := t.faults ++
              [{ req := s.req, part := s.part, host := false, page := dva / 65536, dva := dva, read := s.amo || !write, write := write, tries := 0, state := .queued }] }))))))

/-! ### The host port, partitions and the mailbox -/

/-- Events of the host port (R388, R390, R393, R394, R417): the link trains at a rate of its modules, counted when it had been up, and is degraded, with a fault, below
its full width or speed; without a module it is down, which counts as the loss of a link that was up. An orphaned die boots when its link trains. An event orphans the die
when preservation is armed, and else resets it; a dormant, orphaned or unpowered die ignores it. What an orphaned die keeps (R387, R388, R389): the record's
address and the frames, the keys and their generations; no core, ring, packet, window, object or host configuration is left. -/
def Obligations.HostEvents : Prop :=
  (∀ (s : State) (ev : HostEvent) (modules : BitVec 2) (rate : BitVec 3),
      let d := s.die
      let up := modules ≠ 0 ∧ rate ≠ 0 ∧ rate ≠ 7
      let awake := d.boot.phase ≠ .off ∧ d.boot.phase ≠ .dormant
      let low := modules ≠ 3 ∨ rate.toNat < 6
      let linked (low : Bool) : Die :=
        ((((if d.host.trained then d.count HOST_LINK_RETRAINS 1 else d).put HOST_LINK_MODULES_UP modules.toNat).put HOST_LINK_RATE rate.toNat).putB HOST_LINK_DEGRADED low).onHost
          fun h => { h with trained := true }
      let degraded : Die := ((linked true).raise 7 .corrected (detail 0 9 0)).emit (.aer 0 .correctable)
      let boots (e : Die) : Die :=
        { (e.putB HBM_STATUS_SELF_REFRESH false).putB PRESERVE_STATUS_ORPHANED true with dieId := none, pkgId := none, boot := { e.boot with preserved := true } }.beginBoot
      let down : Die := (({ d with host := { d.host with trained := false } }.put HOST_LINK_MODULES_UP 0).put HOST_LINK_RATE 0).putB HOST_LINK_DEGRADED false
      (¬awake → becomes (.hostLinkTrain modules rate) s d ∧ becomes (.hostResetEvent ev) s d ∧ becomes (.orphanEntry ev) s d ∧ becomes .cxlReset s d)
      ∧ (awake → ¬up → becomes (.hostLinkTrain modules rate) s (if d.host.trained then down.hostEvent .linkLoss else down))
      ∧ (awake → up → d.boot.phase ≠ .orphaned →
        (¬low → becomes (.hostLinkTrain modules rate) s (linked false)) ∧ (low → becomes (.hostLinkTrain modules rate) s degraded))
      ∧ (d.boot.phase = .orphaned →
        (up → (¬low → becomes (.hostLinkTrain modules rate) s (boots (linked false))) ∧ (low → becomes (.hostLinkTrain modules rate) s (boots degraded)))
        ∧ becomes (.hostResetEvent ev) s d ∧ becomes (.orphanEntry ev) s d ∧ becomes .cxlReset s d)
      ∧ (awake → d.boot.phase ≠ .orphaned →
        (d.bit PRESERVE_STATUS_ARMED = false → becomes (.hostResetEvent ev) s d.dieReset ∧ becomes .cxlReset s d.dieReset ∧ becomes (.orphanEntry ev) s d)
        ∧ (d.bit PRESERVE_STATUS_ARMED = true →
          becomes (.orphanEntry ev) s (d.orphan ev) ∧ becomes .cxlReset s (d.orphan .cxlReset) ∧ becomes (.hostResetEvent ev) s d)))
  ∧ (∀ (d : Die) (ev : HostEvent), d.canonical →
      let t := d.orphan ev
      t.boot.phase = .orphaned ∧ t.mem.record = d.mem.record ∧ t.tr.frames = d.tr.frames ∧ t.bit HBM_STATUS_SELF_REFRESH = true ∧ t.mem.keys = d.mem.keys
      ∧ t.mem.keyGen = d.mem.keyGen ∧ t.cores = [] ∧ t.cp = {} ∧ t.pkts = [] ∧ t.ports = {} ∧ t.sync = {} ∧ t.host = {})

/-- A partition's life (R464, R466, R482, R483, R486): enabling starts its plan offset at 0 and draws a key pair unless the kept one is used; a reset holds the
partition until nothing of it is in flight, and is ignored while one is in progress; then its tables, cores, objects and rings are cleared and RESETTING falls. The end
of an orphaned boot (R390, R391): DISCARD draws new keys for all partitions; REATTACH restores from a good record and keeps the keys of partitions 1 to
15, and acts as DISCARD on a bad one, or one that cannot be read. On a die that is not orphaned DISCARD draws keys all the same, and REATTACH does nothing. -/
def Obligations.PartitionsAndPreservation : Prop :=
  ((∀ (s : State) (who : Who) (p : PartIx) (v : W32), Reaches s.die who true → who.part = 0 →
      let d := s.die.put (PART_CTRL_SPAN p.val) (sub v.toNat 16 8)
      let on := v.getLsbD 0
      let was := p.val = 0 ∨ d.bit (PART_CTRL_ENABLE p.val) = true
      let begins (e : Die) : Die := (e.putB (PART_CTRL_ENABLE p.val) true).putRaw (PLAN_OFFSET p.val) 0
      let keyed (e : Die) : Die := if (begins e).kept p.val then (begins e).unkeep p.val else (begins e).drawKey p.val
      let both (e : Die) : Prop := becomes (.partitionEnable who p v) s e ∧ becomes (.partitionResetRequest who p v) s e
      (on = true → ¬was → both (if v.getLsbD 1 then (keyed d).startPartReset p.val false false else keyed d))
      ∧ (on = false → was → p.val ≠ 0 → both (d.startPartReset p.val false true))
      ∧ ((on = true ∧ was) ∨ (on = false ∧ ¬was) ∨ p.val = 0 → both (if v.getLsbD 1 then d.startPartReset p.val false false else d)))
    ∧ (∀ (d : Die) (p : Nat) (flr disable : Bool), d.bit (PART_CTRL_RESETTING p) = true → d.startPartReset p flr disable = d)
    ∧ (∀ (d : Die) (p : Nat), d.bit (PART_CTRL_RESETTING p) = false →
        d.startPartReset p false false = { (d.putB (PART_CTRL_RESETTING p) true).putB (PART_CTRL_FLR p) false with
          parts := { d.parts with resets := d.parts.resets ++ [{ part := p, flr := false, disable := false, past := false }] } })
    ∧ ∀ (s : State) (p : PartIx), s.die.live = true → s.die.canonical →
        ((s.die.parts.resets.find? fun r => r.part == p.val && r.past) = none ∨ s.die.partBusy p.val = true → becomes (.partitionClear p) s s.die)
        ∧ (∀ r, s.die.parts.resets = [r] → r.part = p.val → r.past = true → s.die.partBusy p.val = false → answers (.partitionClear p) s fun t =>
          t.bit (PART_CTRL_RESETTING p.val) = false ∧ t.parts.resets = [] ∧ t.get (PT_ROOT_ROOT p.val) = 0 ∧ (∀ x ∈ t.tr.tables, x.1 ≠ p.val)
          ∧ (∀ n, (s.die.obj n).owner.toNat = p.val → t.obj n = { owner := (s.die.obj n).owner })
          ∧ (∀ n, (s.die.obj n).owner.toNat ≠ p.val → t.obj n = s.die.obj n)))
  ∧ (∀ (s : State) (who : Who), Reaches s.die who true → who.part = 0 →
      let d := s.die
      let ended (e : Die) : Die := (e.putB PRESERVE_STATUS_ORPHANED false).putB PRESERVE_STATUS_ARMED false
      let keyed (e : Die) : Die := ended ((List.range 16).foldl (fun x p => x.drawKey p) e)
      let fresh (e : Die) : Die := if e.bit PRESERVE_STATUS_ORPHANED then (keyed e).onTr fun t => { t with frames := [] } else keyed e
      becomes (.discard who) s (fresh d)
      ∧ (d.bit PRESERVE_STATUS_ORPHANED = false → becomes (.reattach who) s d)
      ∧ (d.bit PRESERVE_STATUS_ORPHANED = true →
        (∀ e, d.readDev d.mem.record recordBytes 0 = (none, e) → becomes (.reattach who) s (fresh (e.putB PRESERVE_STATUS_BAD_RECORD true)))
        ∧ ∀ r e, d.readDev d.mem.record recordBytes 0 = (some r, e) →
          let good := (crc64 (r.take (recordBytes - 8))).toNat = field r (recordBytes - 8) 8
          (good → becomes (.reattach who) s ((ended (e.restore r)).put PRESERVE_STATUS_KEPT 0xFFFE))
          ∧ (¬good → becomes (.reattach who) s (fresh (e.putB PRESERVE_STATUS_BAD_RECORD true)))))

/-- The HDM decoders (R400, R401, R402, R404): a commit that does not fit shows Error Not Committed and changes nothing else; one that fits is committed at once on a
package without another die, and else copied to each other die, uncommitted until the copies are confirmed; while one is in progress, and on another die, a commit does
nothing. A subordinate die takes the copy and confirms it. A host physical address names a die and an address by its granule, and a request for a line of another die,
or of none, is refused with its cause. CXL.mem (R301, R349, R364): a line is read, or its enabled bytes are written, at the controllers under the host key map; in a
page in shared bias the die's copies are written back and dropped first, and the request waits while one is held or its invalidations are under way. BAR4 (R406,
R407): an access of more than 512 bytes or past the window is refused; another goes to the host port's queue; when its turn comes, BAR4_BASE places it, an access past
the end of memory is recorded, a read of it answering all ones, and each of its lines is asked of its slice; it waits while the memory is in self-refresh. -/
def Obligations.HostMemory : Prop :=
  ((∀ (s : State) (decs : List Hdm), s.die.live = true → decs.length ≤ 2 →
        let d := s.die
        let busy := d.dieId ≠ some 0 ∨ ∃ o ∈ d.ports.ops, o.req = .reg ∧ o.id = 1
        (busy → becomes (.hdmCommit decs) s d)
        ∧ (¬busy → d.hdmFits decs = false → becomes (.hdmCommit decs) s (d.onHost fun h => { h with hdmError := true }))
        ∧ (¬busy → d.hdmFits decs = true →
            (d.otherDies = [] → becomes (.hdmCommit decs) s (d.onHost fun h => { h with hdmError := false, hdm := decs.map fun (x : Hdm) => { x with committed := true } }))
            ∧ (d.otherDies ≠ [] → becomes (.hdmCommit decs) s (d.otherDies.foldl (Die.mirrorTo decs)
                (d.onHost fun h => { h with hdmError := false, hdm := decs.map fun (x : Hdm) => { x with committed := false } })))))
    ∧ (∀ (s : State) (head : MsgHead) (decs : List Hdm), s.die.live = true → decs.length ≤ 2 →
        let d := s.die
        let bytes := msgBytes (.mgmt { head := head, seq := head.tag, body := .hdmMirror decs })
        (∀ x, d.portCheck head 8 none = x → x ≠ .pass → becomes (.hdmMirrorReceive head decs) s ((d.notPassed head 8 x).freeUnits head.port 8 bytes))
        ∧ (d.portCheck head 8 none = .pass →
          (d.fenceOf head.epoch = .newer → becomes (.hdmMirrorReceive head decs) s d)
          ∧ (d.fenceOf head.epoch = .older → becomes (.hdmMirrorReceive head decs) s ((d.rejectOld head true).freeUnits head.port 8 bytes))
          ∧ (d.fenceOf head.epoch = .same →
            (d.dieId = some 0 → becomes (.hdmMirrorReceive head decs) s ((d.mgmtReply head head.tag 0 .ok).freeUnits head.port 8 bytes))
            ∧ (d.dieId ≠ some 0 → becomes (.hdmMirrorReceive head decs) s
                ((({ d with host := { d.host with hdm := decs } } : Die).mgmtReply head head.tag 0 .ok).freeUnits head.port 8 bytes)))))
    ∧ (∀ (d : Die) (x : Hdm) (g k : Nat), d.host.hdm = [x] → x.committed = true → 0 < x.ig → 0 < x.iw → g * x.ig + k < x.size → k < x.ig →
        d.hdmTarget (x.base + (g * x.ig + k)) = some (g % x.iw, g / x.iw * x.ig + k)))
  ∧ (∀ (s : State) (hpa : Nat) (write : Option LineData) (mask : BitVec 128), s.die.live = true →
      let d := s.die
      (∀ cause, d.hdmHere (lineOf hpa) = .error cause →
        let d := (d.hostErr cause 0 hpa).raise 7 .contained (detail 0 cause 0)
        becomes (.cxlMemRequest hpa none mask) s (d.emit (.memData hpa none)) ∧ ∀ x, becomes (.cxlMemRequest hpa (some x) mask) s d)
      ∧ (∀ a, d.hdmHere (lineOf hpa) = .ok a →
        let performs (f : Die) : Prop := match write with
          | none => ∀ r e, f.hbmRead (f.hostKey a) a 128 = (r, e) → becomes (.cxlMemRequest hpa none mask) s (e.emit (.memData hpa r))
          | some data =>
            let n := ((List.range 128).filter mask.getLsbD).length
            becomes (.cxlMemRequest hpa (some data) mask) s ((List.range 4).foldl (fun e i => e.maskedSector (f.hostKey a) (a / 32 + i)
              ((List.range 32).map fun j => mask.getLsbD (32 * i + j)) (lineBytes data (32 * i) 32)) (if n = 0 then f else f.charge (f.hostKey a) 0 n))
        (d.sharedBias a = false → performs d)
        ∧ (d.sharedBias a = true →
          (∀ e, d.lineFree a false = (false, e) → becomes (.cxlMemRequest hpa write mask) s e)
          ∧ (∀ e f, d.lineFree a false = (true, e) →
            let dropped := ((e.cleanLine a).dropCopy a false).onCache fun u => { u with owned := u.owned.erase a }
            (dropped.broadcast a false .none = (true, f) → becomes (.cxlMemRequest hpa write mask) s f)
            ∧ (dropped.broadcast a false .none = (false, f) → performs f)))))
  ∧ (∀ (s : State) (tlp : Tlp) (off n : Nat) (write : Option (List Byte)), Reaches s.die (.fn 0 tlp) write.isSome →
      let d := s.die
      let len := match write with | some bs => bs.length | none => n
      let id := d.host.nextBar
      let a := d.get BAR4_BASE_BASE * 2 ^ 21 + off
      let queued (p : List Posted) : Die := d.onHost fun h => { h with nextBar := id + 1, posted := p }
      (512 < len → becomes (.bar4Access tlp off n write) s (d.raise 7 .fatal (detail 0 0 0)))
      ∧ (len ≤ 512 → 2 ^ 28 < off + len → becomes (.bar4Access tlp off n write) s (d.unsupported 0 0))
      ∧ (len ≤ 512 → off + len ≤ 2 ^ 28 →
        (d.bit HBM_STATUS_SELF_REFRESH = true → becomes (.bar4Access tlp off n write) s (queued [.bar id off len write none]))
        ∧ (d.bit HBM_STATUS_SELF_REFRESH = false →
          (hbmTop < a + len → becomes (.bar4Access tlp off n write) s (match write with
            | some _ => ((queued []).hostErr 3 0 off).raise 7 .contained (detail 0 3 0)
            | none => ((queued []).raise 7 .contained (detail 0 3 0)).emit (.barData 0 (some (List.replicate len 0xFF)))))
          ∧ (a + len ≤ hbmTop →
            let e := (linePieces a len).foldl (fun e p => e.askHome (e.barRequest id p.1 (match write with
              | some bs => .write p.1 ((bs.drop (p.1 - a)).take p.2) | none => .read p.1 p.2))) (queued [.bar id off len write (some a)])
            becomes (.bar4Access tlp off n write) s (e.drainStep.getD e)))))
  ∧ ∀ (d : Die) (id off n a : Nat) (write : Option (List Byte)) (rest : List Posted), d.host.posted = .bar id off n write (some a) :: rest →
      d.drainStep = (d.allReplies (.bar id) (linePieces a n)).map fun xs => d.barEnd id write.isSome xs

/-- Answers to the die's requests to its host, and their absence (R385, R409, R410, R412, R419): an answer goes to the line that waits or to the die that asked for a tier
line, one to an abandoned request is discarded, and the homes go on; a request that is not answered in time is recorded with its partition and address, raises a fault,
and what waited ends with LINK_LOST. The data of a peer-to-peer read goes to its requester, and the read behind a write acknowledges it; without a completion it is
recorded and its requester fails. An ATS request without a completion is recorded with its address, and its page is marked where the request was not abandoned. A tier
read of another die becomes a current-read on the host port, or is answered LINK_LOST while the link is down. -/
def Obligations.HostAnswers : Prop :=
  (∀ (s : State) (tag : Nat) (data : LineData), s.die.live = true →
    let d := s.die
    (d.host.cxl.find? (fun x => x.tag == tag) = none →
      becomes (.cxlCacheResponse tag data) s d.afterHome ∧ becomes (.cxlCacheTimeout tag) s d.afterHome)
    ∧ (∀ x, d.host.cxl.find? (fun x => x.tag == tag) = some x →
      let e := d.dropCxl tag
      (∀ h, x.tier = some h → becomes (.cxlCacheResponse tag data) s (e.respond h .ok (lineBytes data 0 128)).afterHome)
      ∧ (x.tier = none → x.mshr = true → ∀ m, e.cxlMshr x = some m → becomes (.cxlCacheResponse tag data) s (e.cxlServed x m data).afterHome)
      ∧ (x.tier = none → x.mshr = false ∨ e.cxlMshr x = none → becomes (.cxlCacheResponse tag data) s e.afterHome)
      ∧ (∀ a, x.dva = some a → e.cxlAddr x = (a, e))
      ∧ (∀ a f, e.cxlAddr x = (a, f) →
        let t := (f.hostErr 5 x.part a).raise 7 .fatal (detail x.part 5 0)
        (∀ h, x.tier = some h → becomes (.cxlCacheTimeout tag) s (t.respond h .linkLost []).afterHome)
        ∧ (x.tier = none → x.mshr = true → ∀ m, t.cxlMshr x = some m → becomes (.cxlCacheTimeout tag) s ((t.failMshr m .linkLost).wakeUnit m.slice).afterHome)
        ∧ (x.tier = none → x.mshr = false ∨ t.cxlMshr x = none → becomes (.cxlCacheTimeout tag) s t.afterHome))))
  ∧ (∀ (s : State) (tag : Nat) (bs : List Byte), s.die.live = true →
    let d := s.die
    (d.host.p2p.find? (fun o => o.tag == tag) = none → becomes (.p2pReadCompletion tag bs) s d)
    ∧ (∀ o, d.host.p2p.find? (fun o => o.tag == tag) = some o →
      let who : Asker := { req := o.req, id := o.id }
      (bs.length ≠ o.n → becomes (.p2pReadCompletion tag bs) s d)
      ∧ (bs.length = o.n →
        (o.req = .reg → becomes (.p2pReadCompletion tag bs) s (d.dropP2p tag))
        ∧ (∀ c, o.req = .core c →
          (o.n = 0 → becomes (.p2pReadCompletion tag bs) s ((d.ackAsker who).dropP2p tag)) ∧ (o.n ≠ 0 → becomes (.p2pReadCompletion tag bs) s ((d.answer who bs).dropP2p tag)))
        ∧ (o.req ≠ .reg → (∀ c, o.req ≠ .core c) →
          (o.n = 0 → becomes (.p2pReadCompletion tag bs) s (d.dropP2p tag))
          ∧ (o.n ≠ 0 → becomes (.p2pReadCompletion tag bs) s
            (d.onHost fun h => { h with p2p := listUpd (fun y => y.tag == tag) (fun y => { y with data := some bs }) h.p2p })))))
    ∧ (d.host.p2p.find? (fun o => o.tag == tag && o.data.isNone) = none → becomes (.completionTimeout false tag) s d)
    ∧ (∀ o, d.host.p2p.find? (fun o => o.tag == tag && o.data.isNone) = some o → becomes (.completionTimeout false tag) s
        (((((d.dropP2p tag).hostErr 8 o.part o.addr).raise 7 .contained (detail o.part 8 0)).emit (.aer 0 .completionTimeout)).lostFor
          { req := o.req, id := o.id } (lineOf o.addr))))
  ∧ (∀ (s : State) (id : Nat), s.die.live = true →
    let d := s.die
    (d.tr.ats.find? (fun q => q.id == id) = none → becomes (.completionTimeout true id) s d)
    ∧ (∀ q, d.tr.ats.find? (fun q => q.id == id) = some q →
      let ended : Die := d.onTr fun t => { t with ats := t.ats.filter fun y => y.id != id, atsBad := if q.dead then t.atsBad else t.atsBad ++ [(q.part, q.page)] }
      let told (a : Nat) : Die := ((ended.hostErr 7 q.part a).raise 7 .contained (detail q.part 7 0)).emit (.aer 0 .completionTimeout)
      let fault := d.tr.faults.find? fun f => f.part == q.part && f.host && f.page == q.page
      (∀ f, fault = some f → becomes (.completionTimeout true id) s (told f.dva)) ∧ (fault = none → becomes (.completionTimeout true id) s (told q.page))))
  ∧ (∀ (s : State) (head : MsgHead) (a : Nat), s.die.live = true →
    let d := s.die
    (∀ x, d.portCheck head 9 none = x → x ≠ .pass → becomes (.tierRead head a) s ((d.notPassed head 9 x).freeUnits head.port 9 24))
    ∧ (d.portCheck head 9 none = .pass →
      (d.fenceOf head.epoch = .newer → becomes (.tierRead head a) s d)
      ∧ (d.fenceOf head.epoch = .older → becomes (.tierRead head a) s ((d.rejectOld head true).freeUnits head.port 9 24))
      ∧ (d.fenceOf head.epoch = .same →
        (d.host.trained = false → becomes (.tierRead head a) s ((d.respond head .linkLost []).freeUnits head.port 9 24))
        ∧ (d.host.trained = true →
          let x : CxlOp := { tag := d.host.nextTag, kind := .rdCurr, addr := a, slice := homeSlice true a, mshr := false, who := { req := .reg, id := 0 }, part := 0,
                             dva := none, tier := some head }
          becomes (.tierRead head a) s (((d.onHost fun h => { h with nextTag := h.nextTag + 1, cxl := h.cxl ++ [x] }).emit
            (.cxl d.host.nextTag .rdCurr a [])).freeUnits head.port 9 24)))))

/-- The functions (R395, R396, R398, R408, R413, R414, R416, R532): a configuration request reads or changes its function on a die that is ready or whose boot failed; one to a
VF that is not enabled has no effect; a booting die answers with Request Retry Status and a dormant one aborts it. The expansion ROM answers where it is enabled, on die 0. A
function-level reset resets the partition of its function, and that of the PF all of them and VF Enable.
The mailbox of the PF (R404, R424, R425, R535), on a die that is ready or whose boot failed and on no other: SPDM 1.2 negotiates in its order, a version request beginning
again; digests, portions of the one certificate chain, challenges and measurements are answered after it, and what names another slot or a measurement that does not exist
is an invalid request; any other request is unsupported. DOE Discovery names the three protocols. The CDAT of die 0 has one memory range for each committed decoder. -/
def Obligations.FunctionsAndMailbox : Prop :=
  ((∀ (s : State) (p : PartIx) (r : CfgReq),
        let d := s.die
        (d.boot.phase = .boot → becomes (.configurationRequest p r) s (d.emit (.cfg p.val 1)))
        ∧ (d.boot.phase = .dormant → becomes (.configurationRequest p r) s (d.emit (.cfg p.val 2)))
        ∧ (d.boot.phase = .off ∨ d.boot.phase = .orphaned → becomes (.configurationRequest p r) s d)
        ∧ (d.boot.phase = .ready ∨ d.boot.phase = .failed → p.val ≠ 0 → d.host.vfEnable = false → becomes (.configurationRequest p r) s d))
    ∧ (∀ (s : State) (p : PartIx) (v : Bool) (n : Nat) (c : Capability), s.die.boot.phase = .ready ∨ s.die.boot.phase = .failed → p.val = 0 ∨ s.die.host.vfEnable = true →
        let d := s.die
        let f := d.fn p.val
        let cmd (r : CfgReq) (t : Die) : Prop := becomes (.configurationRequest p r) s t
        let rom := p.val = 0 ∧ d.dieId = some 0 ∧ f.romEnable = true ∧ f.memEnable = true
        cmd .read (d.emit (.cfg p.val 0))
        ∧ cmd .readIds (d.emit (.cfgData p.val (BitVec.ofNat 64 (d.idWords p + Config.vendorId.toNat))))
        ∧ cmd .readSubsystem (d.emit (.cfgData p.val (BitVec.ofNat 64 (d.host.subVendor.toNat + d.host.subId.toNat * 2 ^ 16))))
        ∧ (p.val = 0 → cmd .readPackage (d.emit (.cfgData 0 (BitVec.ofNat 64 d.dvsec)))) ∧ (p.val ≠ 0 → cmd .readPackage (d.emit (.cfg p.val 0)))
        ∧ cmd (.readCapability c) (d.emit (.capability p.val c (d.capability p c)))
        ∧ cmd .readPending (d.emit (.cfgData p.val (if d.transPending p.val then 1 else 0)))
        ∧ (rom → ∀ w e, d.romRead n = (w, e) → cmd (.readRom n) (e.emit (.cfgData 0 w))) ∧ (¬rom → cmd (.readRom n) (d.unsupported p 0))
        ∧ cmd (.busMaster v) (d.setFn p.val { f with busMaster := v }) ∧ cmd (.memEnable v) (d.setFn p.val { f with memEnable := v })
        ∧ cmd (.d3hot v) (d.setFn p.val { f with d3 := v }) ∧ cmd (.msixEnable v) (d.setFn p.val { f with msixEnable := v })
        ∧ cmd (.funcMask v) (d.setFn p.val { f with funcMask := v }) ∧ cmd (.priAlloc n) (d.setFn p.val { f with priAlloc := n })
        ∧ (p.val = 0 ∧ d.boot.phase = .ready → cmd (.vfEnable v) (d.onHost fun h => { h with vfEnable := v }))
        ∧ (¬(p.val = 0 ∧ d.boot.phase = .ready) → cmd (.vfEnable v) d)
        ∧ (p.val = 0 ∧ d.dieId = some 0 → cmd (.romEnable v) (d.setFn 0 { f with romEnable := v })) ∧ (¬(p.val = 0 ∧ d.dieId = some 0) → cmd (.romEnable v) d))
    ∧ (∀ (s : State) (p : PartIx), s.die.live = true →
        (p.val = 0 → becomes (.flrVf p) s s.die) ∧ (p.val ≠ 0 → becomes (.flrVf p) s (s.die.startPartReset p.val true false))
        ∧ becomes .flrPf s (((List.range 16).foldl (fun e q => e.startPartReset q true false) s.die).onHost fun h => { h with vfEnable := false })))
  ∧ ((∀ (s : State) (slot off n : Nat) (signed : Bool) (nonce bs : List Byte) (code : Byte), ¬(s.die.boot.phase = .ready ∨ s.die.boot.phase = .failed) →
        nonce.length = 32 → bs.length = (if signed then 32 else 0) →
        becomes .getVersion s s.die ∧ becomes .getCapabilities s s.die ∧ becomes .negotiateAlgorithms s s.die ∧ becomes .getDigests s s.die
        ∧ becomes (.getCertificate slot off n) s s.die ∧ becomes (.challenge slot nonce) s s.die ∧ becomes (.getMeasurements n signed bs) s s.die
        ∧ becomes (.spdmUnsupportedRequest code) s s.die ∧ becomes (.doeDiscovery n) s s.die ∧ becomes (.cxlTableAccess n) s s.die)
    ∧ (∀ (s : State) (slot off n : Nat) (nonce : List Byte) (code : Byte), s.die.boot.phase = .ready ∨ s.die.boot.phase = .failed → nonce.length = 32 →
        let d := s.die
        let x := d.host.spdm
        let answer (a : DoeAnswer) : Die := d.emit (.doe a)
        let free : Die := { d with freeCtr := d.freeCtr + 1 }
        let chain := Config.certChain
        let ranges := if d.dieId = some 0 then d.host.hdm.filter fun (h : Hdm) => h.committed else []
        let all := [1, 2, 3, 4].map fun i => (i, d.measure i)
        becomes .getVersion s ((d.onSpdm fun _ => { version := true }).emit (.doe (.version 0x12)))
        ∧ (x.version = true → becomes .getCapabilities s ((d.onSpdm fun x => { x with caps := true, algs := false }).emit (.doe (.capabilities 16))))
        ∧ (x.version = false → becomes .getCapabilities s (answer (.error 0x04)))
        ∧ (x.version = true ∧ x.caps = true → becomes .negotiateAlgorithms s ((d.onSpdm fun x => { x with algs := true }).emit (.doe .algorithms)))
        ∧ (¬(x.version = true ∧ x.caps = true) → becomes .negotiateAlgorithms s (answer (.error 0x04)))
        ∧ (¬(x.version = true ∧ x.caps = true ∧ x.algs = true) →
          becomes .getDigests s (answer (.error 0x04)) ∧ becomes (.getCertificate slot off n) s (answer (.error 0x04)) ∧ becomes (.challenge slot nonce) s (answer (.error 0x04))
          ∧ becomes (.getMeasurements n false []) s (answer (.error 0x04)) ∧ becomes (.getMeasurements n true nonce) s (answer (.error 0x04)))
        ∧ (x.version = true ∧ x.caps = true ∧ x.algs = true →
          becomes .getDigests s (answer (.digests 1 (Config.sha384 chain)))
          ∧ (slot = 0 → off < chain.length → becomes (.getCertificate slot off n) s (answer (.certificate ((chain.drop off).take n) (chain.length - off - n))))
          ∧ (slot ≠ 0 ∨ chain.length ≤ off → becomes (.getCertificate slot off n) s (answer (.error 0x01)))
          ∧ (slot = 0 → becomes (.challenge slot nonce) s (free.emit (.doe (.challenge (Config.sha384 chain) (Config.spdmSignature d.freeCtr nonce)))))
          ∧ (slot ≠ 0 → becomes (.challenge slot nonce) s (answer (.error 0x01)))
          ∧ becomes (.getMeasurements 0 false []) s (answer (.measurements 4 [] none)) ∧ becomes (.getMeasurements 0xFF false []) s (answer (.measurements 4 all none))
          ∧ (1 ≤ n → n ≤ 4 → becomes (.getMeasurements n false []) s (answer (.measurements 4 [(n, d.measure n)] none))
            ∧ becomes (.getMeasurements n true nonce) s
                (free.emit (.doe (.measurements 4 [(n, d.measure n)] (some (Config.spdmSignature d.freeCtr (nonce ++ d.measure n)))))))
          ∧ becomes (.getMeasurements 0xFF true nonce) s
              (free.emit (.doe (.measurements 4 all (some (Config.spdmSignature d.freeCtr (nonce ++ all.flatMap (·.2)))))))
          ∧ becomes (.getMeasurements 0 true nonce) s (free.emit (.doe (.measurements 4 [] (some (Config.spdmSignature d.freeCtr nonce)))))
          ∧ (4 < n → n ≠ 0xFF → becomes (.getMeasurements n false []) s (answer (.error 0x01)) ∧ becomes (.getMeasurements n true nonce) s (answer (.error 0x01))))
        ∧ becomes (.spdmUnsupportedRequest code) s (answer (.error 0x07))
        ∧ becomes (.doeDiscovery 0) s (answer (.discovery 1 0 1)) ∧ becomes (.doeDiscovery 1) s (answer (.discovery 1 1 2))
        ∧ becomes (.doeDiscovery 2) s (answer (.discovery 0x1E98 2 0)) ∧ (2 < n → becomes (.doeDiscovery n) s (answer (.discovery 0xFFFF 0 0)))
        ∧ becomes (.cxlTableAccess 0) s (answer (.cdatHeader ranges.length))
        ∧ (∀ r, ranges[n]? = some r → becomes (.cxlTableAccess (n + 1)) s (answer (.cdatRange r.base r.size 450 400 (430 * r.iw))))
        ∧ (ranges[n]? = none → becomes (.cxlTableAccess (n + 1)) s (answer .cdatEnd))))

/-! ### The die ports and the optical fabric -/

/-- Package ports (R27, R427 to R430), on a die that is ready or boots: a die without an ID does not join, for good; trained modules say hello, after a link that was up has
gone down, and missing ones degrade the link; the partner's hello brings the link up with its units, or is a topology error; a lost module degrades the link, and the
last one takes it down; a link that is down does not go down again. A link list that is news travels on, and fills the routes, at the next boundary while the tick
runs. Link-level retries are counted and reported. Routes (R429): a valid entry names a port that is up and leads to a partner from which the destination can be reached;
of two such ports the one with fewer hops is taken, then the lower partner. Credits (R450): units that fit the pool come back and what waited leaves; a return above it
is ignored and counted; freed units go back in one message. A message leaves when nothing is in front of it and its class has what it needs, and else waits. -/
def Obligations.PeerLinks : Prop :=
  (∀ (s : State) (n : PortIx) (modules : BitVec 4) (h : Hello), s.die.live = true ∨ s.die.boot.phase = .boot → h.pools.length = 10 →
      let d := s.die
      (d.boot.chainBad = true → becomes (.peerLinkTrain n modules) s d)
      ∧ (d.boot.chainBad = false → d.dieId = none → becomes (.peerLinkTrain n modules) s (d.chainFails n))
      ∧ (d.boot.chainBad = false → d.dieId ≠ none →
        let e := if d.portUp (.peer n) then d.peerDown n else d
        let trained : Die := (e.put (PEER_STATE_STATE n.val) 1).put (PEER_STATE_MODULES_UP n.val) modules.toNat
        let hello (f : Die) : Die := f.emit (.hello (.peer n) f.epoch f.here pools)
        (modules = 0 → becomes (.peerLinkTrain n modules) s ((e.put (PEER_STATE_STATE n.val) 0).put (PEER_STATE_MODULES_UP n.val) 0))
        ∧ (modules = 15 → becomes (.peerLinkTrain n modules) s (hello trained))
        ∧ (modules ≠ 0 → modules ≠ 15 → becomes (.peerLinkTrain n modules) s (hello (trained.peerEvent n 2 .corrected))))
      ∧ (d.get (PEER_STATE_STATE n.val) ≠ 1 → becomes (.linkHelloReceive (.peer n) h) s d)
      ∧ (d.get (PEER_STATE_STATE n.val) = 1 →
        let e := (d.put (PEER_STATE_PARTNER_DIE n.val) h.place.die.val).put (PEER_STATE_PARTNER_PORT n.val) h.port.val
        let wrong := h.place.pkg ≠ e.here.pkg ∨ h.place.die = e.here.die ∨ ∃ m, m ≠ n ∧ e.portUp (.peer m) = true ∧ e.get (PEER_STATE_PARTNER_DIE m.val) = h.place.die.val
        (wrong → becomes (.linkHelloReceive (.peer n) h) s ((e.put (PEER_STATE_STATE n.val) 3).peerEvent n 1 .contained))
        ∧ (¬wrong →
          let p : PeerPort := { hello := some h, credits := { held := h.pools, pool := h.pools, freed := List.replicate 10 0 } }
          let f := ((e.put (PEER_STATE_STATE n.val) 2).setPeer n p).fillRoutes
          becomes (.linkHelloReceive (.peer n) h) s (f.sendLists f.here.die f.ownLinks none)))
      ∧ (∀ o : OptIx, (d.optState o = 0 ∨ d.optState o = 5 → becomes (.linkHelloReceive (.opt o) h) s d)
        ∧ (¬(d.optState o = 0 ∨ d.optState o = 5) → becomes (.linkHelloReceive (.opt o) h) s
            (d.setOpt o { d.optPort o with hello := some h, credits := { held := h.pools, pool := h.pools, freed := List.replicate 10 0 } }))))
  ∧ (∀ (s : State) (n : PortIx) (i : Fin 4) (die : DieIx) (links : List (DieIx × PortIx × Bool)) (kind : RetryKind), s.die.live = true ∨ s.die.boot.phase = .boot →
      links.length ≤ 4 →
      let d := s.die
      (d.portUp (.peer n) = true → becomes (.peerLinkDown n) s (d.peerDown n)) ∧ (d.portUp (.peer n) = false → becomes (.peerLinkDown n) s d)
      ∧ (let m := BitVec.ofNat 4 (d.get (PEER_STATE_MODULES_UP n.val))
        let left := setMask m i.val false
        let e := (d.put (PEER_STATE_MODULES_UP n.val) left.toNat).peerEvent n 2 .corrected
        (m.getLsbD i.val = false → becomes (.peerModuleLoss n i) s d)
        ∧ (m.getLsbD i.val = true → (left = 0 ∧ e.portUp (.peer n) = true → becomes (.peerModuleLoss n i) s (e.peerDown n))
          ∧ (¬(left = 0 ∧ e.portUp (.peer n) = true) → becomes (.peerModuleLoss n i) s e)))
      ∧ (let new := (links.filter fun l => l.2.2).map (·.1)
        let known := d.onPorts fun u => { u with lists := tblPut (fun _ => ([] : List DieIx)) u.lists die.val new }
        (die = d.here.die ∨ d.partnersOf die.val = new → becomes (.linkListReceive n die links) s d)
        ∧ (¬(die = d.here.die ∨ d.partnersOf die.val = new) →
          (d.tick.runs = true → becomes (.linkListReceive n die links) s ((known.onPorts fun u => { u with newRoute := true }).sendLists die links (some n)))
          ∧ (d.tick.runs = false → becomes (.linkListReceive n die links) s (known.fillRoutes.sendLists die links (some n)))))
      ∧ becomes (.linkLevelRetry none kind) s ((d.raise 7 .corrected (detail 0 10 0)).emit (.aer 0 .correctable))
      ∧ (kind = .replay → becomes (.linkLevelRetry (some n) kind) s (((d.count (PEER_STATE_RETRIES n.val) 1).markRetry (.peer n)).peerEvent n 0 .corrected))
      ∧ (kind ≠ .replay → becomes (.linkLevelRetry (some n) kind) s ((d.markRetry (.peer n)).peerEvent n 0 .corrected)))
  ∧ (∀ (d : Die) (dst : DieIx) (n : PortIx), d.portUp (.peer n) = true →
      let partner (n : PortIx) : DieIx := ⟨d.get (PEER_STATE_PARTNER_DIE n.val) % 8, Nat.mod_lt _ (by decide)⟩
      let hops (n : PortIx) : Nat := d.hops (partner n) dst
      (hops n < 8 → ∃ m : PortIx, d.routeEntry dst = 4 + m.val ∧ d.portUp (.peer m) = true ∧ hops m ≤ hops n
        ∧ (hops m = hops n → (partner m).val ≤ (partner n).val))
      ∧ ((∀ m, d.portUp (.peer m) = true → 8 ≤ hops m) → d.routeEntry dst = 0))
  ∧ ((∀ (s : State) (port : LinkPort) (units : List Nat), s.die.live = true → units.length = 10 →
      let d := s.die
      let c := d.credits port
      becomes (.creditReceive port units) s ((List.range 10).foldl (fun e i => if units.getD i 0 = 0 then e else e.giveUnits port i (units.getD i 0)) d).pump
      ∧ (c.freed.all (· == 0) = true → becomes (.creditReturnTimer port) s d)
      ∧ (c.freed.all (· == 0) = false →
        becomes (.creditReturnTimer port) s ((d.setCredits { c with freed := List.replicate 10 0 } port).sayOn port (.credit port d.epoch c.freed))))
    ∧ (∀ (d : Die) (port : LinkPort) (cls n : Nat), let c := d.credits port
        (c.held.getD cls 0 + n ≤ c.pool.getD cls 0 → d.giveUnits port cls n = d.setCredits { c with held := c.held.set cls (c.held.getD cls 0 + n) } port)
        ∧ (c.pool.getD cls 0 < c.held.getD cls 0 + n → d.giveUnits port cls n = d.count (GATE_DROP_COUNT 0) 1))
    ∧ ∀ (d : Die) (port : LinkPort) (part : Nat) (m : FabMsg),
        let behind := ∃ q ∈ d.ports.outq, q.1 = port ∧ q.2.1 = part ∧ q.2.2.cls = m.cls
        ((d.credits port).held.getD m.cls 0 < units (msgBytes m) → d.mayLeave port part m = false)
        ∧ (¬behind → d.mayLeave port part m = true → d.post port part m = d.leave port part m)
        ∧ (behind ∨ d.mayLeave port part m = false → d.post port part m = d.onPorts fun u => { u with outq := u.outq ++ [(port, part, m)] }))

/-- Window messages (R79, R277, R291, R438, R440, R441, R449). A write or read that its port does not let pass is dropped or refused; one of an older epoch is refused and
counted, one of a newer epoch is held; a write behind a held one of its source is held with it, and a read while 256 reads of the port have data to send. Of the checks
the first that fails is recorded and answered with OUT_OF_WINDOW, and nothing is read or written; an access that passes them all asks its lines of their slices, and is
answered once all have been performed; an aligned 64-bit word goes as two words unless the window carries PAIR_ATOMIC. A write to the aperture of a window with the SIGNAL
right is a signal, and the aperture is not read. Answers, error reports and management (R71, R400, R444, R458, R537): an answer ends the operation that waits; without
one it ends with LINK_LOST after OP_TICKS ticks from its leaving; an error report is recorded; a query is answered, a mirror is confirmed, and a mode change is taken by
the lead alone, or deferred behind the outstanding one. -/
def Obligations.WindowMessages : Prop :=
  (∀ (s : State) (m : WinWrite), s.die.live = true →
      let d := s.die
      let h := judged m.head (.winWrite m)
      let bytes := msgBytes (.winWrite m)
      let me := (m.head.port, m.head.src, m.head.tag)
      let kept (e : Die) : Prop := becomes (.windowWrite m) s (e.onPorts fun u => { u with held := if u.held.contains me then u.held else u.held ++ [me] })
      let gone (e : Die) : Prop := becomes (.windowWrite m) s ((e.freeUnits h.port 2 bytes).onPorts fun u => { u with held := u.held.erase me })
      (∀ x, d.portCheck h 2 none = x → x ≠ .pass → gone (d.notPassed h 2 x))
      ∧ (d.portCheck h 2 none = .pass → (d.fenceOf h.epoch = .newer → kept d) ∧ (d.fenceOf h.epoch = .older → gone ((d.winRefused h 2 2).rejectOld h true))
        ∧ (d.fenceOf h.epoch = .same → (d.heldBefore m.head = true → kept d)
          ∧ (d.heldBefore m.head = false → ∀ took, took = (if m.aperture then d.winSignal m else d.winAccess m.head m.offset m.data.length 1 (some m.data)) →
            (∀ e, took = .done e → gone e) ∧ ∀ e, took = .hold e → kept e))))
  ∧ (∀ (s : State) (m : WinRead), s.die.live = true →
      let d := s.die
      let h := judged m.head (.winRead m)
      let gone (e : Die) : Prop := becomes (.windowRead m) s (e.freeUnits h.port 3 24)
      (∀ x, d.portCheck h 3 none = x → x ≠ .pass → gone (d.notPassed h 3 x))
      ∧ (d.portCheck h 3 none = .pass → (d.fenceOf h.epoch = .newer → becomes (.windowRead m) s d) ∧ (d.fenceOf h.epoch = .older → gone ((d.winRefused h 3 2).rejectOld h true))
        ∧ (d.fenceOf h.epoch = .same → (256 ≤ d.readsWaiting m.head.port → becomes (.windowRead m) s d)
          ∧ (d.readsWaiting m.head.port < 256 →
            (m.aperture = true → (∀ check, d.winOpen m.head = .error check → gone ((d.winErr m.head check).respond m.head .outOfWindow []))
              ∧ ∀ w, d.winOpen m.head = .ok w → gone ((d.winErr m.head (if w.right 3 then 6 else 5)).respond m.head .outOfWindow []))
            ∧ (m.aperture = false → (∀ e, d.winAccess m.head m.offset m.n 0 none = .done e → gone e)
              ∧ ∀ e, d.winAccess m.head m.offset m.n 0 none = .hold e → becomes (.windowRead m) s e)))))
  ∧ (∀ (d : Die) (h : MsgHead) (offset n right : Nat) (write : Option (List Byte)) (m : WinWrite),
      let refused (e : Die) (check : Nat) : Took := .done ((e.winErr h check).respond h .outOfWindow [])
      (h.window = none → d.winOpen h = .error 3) ∧ (∀ i, h.window = some i → d.window? i = none → d.winOpen h = .error 3)
      ∧ (∀ i w, h.window = some i → d.window? i = some w → let from_ := h.src.pkg = w.srcPkg ∧ maskBit w.srcDies h.src.die.val = true
          (from_ → d.winOpen h = .ok w) ∧ (¬from_ → d.winOpen h = .error 4))
      ∧ (∀ check, d.winOpen h = .error check → d.winAccess h offset n right write = refused d check)
      ∧ (∀ w, d.winOpen h = .ok w → (w.right right = false → d.winAccess h offset n right write = refused d 5)
        ∧ (w.right right = true → w.bytes < offset + n → d.winAccess h offset n right write = refused d 6)
        ∧ (w.right right = true → offset + n ≤ w.bytes →
          let pages := Die.winPages w.part write.isSome (linePieces (w.base + offset) n) [] d
          (∀ e, pages = (.error .bad, e) → d.winAccess h offset n right write = refused e 7) ∧ (∀ e, pages = (.error .wait, e) → d.winAccess h offset n right write = .hold e)
          ∧ (∀ e, pages = (.error .ecc, e) → d.winAccess h offset n right write =
              .done ((e.raise 6 .contained (detail (portStop h.port).val 2 w.part)).respondAs w.part h .eccUncorrectable []))
          ∧ (∀ ps e, pages = (.ok ps, e) →
            let qs := splitPair w ps
            let rs := winRequests h.port w.part e.ports.nextWin write qs
            let waits := e.bit HBM_STATUS_SELF_REFRESH = true ∨ ∃ r ∈ rs, r.space = .shr ∧ r.writes = true ∧ e.shrHeld (fun q => q.stop == r.stop) r = true
            let op : WinOp := { id := e.ports.nextWin, part := w.part, head := h, write := write.isSome, pieces := qs.map fun p => (p.addr, p.n) }
            (waits → d.winAccess h offset n right write = .hold e)
            ∧ (¬waits → d.winAccess h offset n right write =
              .done (((e.charge w.part 1 n).onPorts fun u => { u with nextWin := e.ports.nextWin + 1, winOps := u.winOps ++ [op] }).winSend rs).afterHome))))
      ∧ (∀ (w : Window) (p : WinPiece), p.n = 8 → p.addr % 8 = 0 →
          splitPair w [p] = if w.right 2 then [p] else [{ p with n := 4 }, { p with addr := p.addr + 4, n := 4 }])
      ∧ (let fits := (m.data.length = 4 ∨ m.data.length = 8) ∧ m.offset < 65536 ∧ m.offset % 8 = 0
        (fits → d.winSignal m = match d.windowSignal { head := m.head, obj := objIx (m.offset / 8), inc := le64 m.data } with | some e => .done e | none => .hold d)
        ∧ (¬fits → (∀ check, d.winOpen m.head = .error check → d.winSignal m = .done ((d.winErr m.head check).respond m.head .outOfWindow []))
          ∧ ∀ w, d.winOpen m.head = .ok w → d.winSignal m = .done ((d.winErr m.head (if w.right 3 then 6 else 5)).respond m.head .outOfWindow []))))
  ∧ (∀ (s : State) (m : Response) (x : ErrorReport) (g : MgmtMsg) (tag : W32), s.die.live = true → g.body.wf = true →
      let d := s.die
      (let h := judged m.head (.response m)
        let takes (e : Die) : Prop := becomes (.readResponse m) s (e.freeUnits h.port 4 (msgBytes (.response m)))
        (∀ c, d.portCheck h 4 none = c → c ≠ .pass → takes (d.notPassed h 4 c))
        ∧ (d.portCheck h 4 none = .pass → (d.fenceOf m.head.epoch = .newer → becomes (.readResponse m) s d) ∧ (d.fenceOf m.head.epoch = .older → takes (d.rejectOld m.head false))
          ∧ (d.fenceOf m.head.epoch = .same →
            let op := d.ports.ops.find? fun o => o.tag == m.head.tag && o.reply.isNone
            (∀ o, op = some o → takes (d.remoteEnd o m.st m.data)) ∧ (op = none → takes d))))
      ∧ (let op := d.ports.ops.find? fun o => o.tag == tag && o.reply.isNone
        (op = none → becomes (.windowOpTimeout tag) s d)
        ∧ (∀ o, op = some o →
          let late := (∀ q ∈ d.ports.outq, msgTag q.2.2 = some tag → q.2.1 = otherPart) ∧ o.sentTick + orOne (d.get FAB_TIMEOUT_OP_TICKS) ≤ d.tick.count
          (late → becomes (.windowOpTimeout tag) s (d.remoteEnd o .linkLost [])) ∧ (¬late → becomes (.windowOpTimeout tag) s d)))
      ∧ (let takes (e : Die) : Prop := becomes (.errorReport x) s (e.freeUnits x.head.port 7 28)
        (∀ c, d.portCheck x.head 7 none = c → c ≠ .pass → takes (d.notPassed x.head 7 c))
        ∧ (d.portCheck x.head 7 none = .pass → (d.fenceOf x.head.epoch = .newer → becomes (.errorReport x) s d)
          ∧ (d.fenceOf x.head.epoch = .older → takes (d.rejectOld x.head false))
          ∧ (d.fenceOf x.head.epoch = .same →
            let e := (((d.put FAB_REMOTE_ERR_PACKAGE x.head.src.pkg.val).put FAB_REMOTE_ERR_DIE x.head.src.die.val).putB FAB_REMOTE_ERR_VALID true).count FAB_REMOTE_ERR_COUNT 1
            (∀ n, x.head.port = .peer n → takes (e.raise 9 .corrected (detail n.val 0x23 x.head.src.pkg.val))) ∧ ∀ n, x.head.port = .opt n → takes (e.optEvent n 0x23 .corrected))))
      ∧ (let h := g.head
        let takes (e : Die) : Prop := becomes (.managementMsgReceive g) s (e.freeUnits h.port 8 (msgBytes (.mgmt g)))
        (∀ c, d.portCheck h 8 none = c → c ≠ .pass → takes (d.notPassed h 8 c))
        ∧ (d.portCheck h 8 none = .pass → (d.fenceOf h.epoch = .newer → becomes (.managementMsgReceive g) s d)
          ∧ (d.fenceOf h.epoch = .older → takes (d.rejectOld h (match g.body with | .reply .. => false | _ => true)))
          ∧ (d.fenceOf h.epoch = .same →
            (∀ item, g.body = .query item → (4 < item → takes (d.mgmtReply h g.seq 0 .reservedValue))
              ∧ (item ≤ 4 → ∀ bs e, d.freshBytes (8 - (d.queryBytes item).length) = (bs, e) → takes (e.mgmtReply h g.seq (le64 ((d.queryBytes item ++ bs).take 8)) .ok)))
            ∧ (∀ decs, g.body = .hdmMirror decs → takes ((d.takeMirror decs).mgmtReply h g.seq 0 .ok))
            ∧ (∀ id recs target, g.body = .modeForward id recs target → (d.leads = false → takes (d.mgmtReply h g.seq 0 .noAuthority))
              ∧ (d.leads = true → (∀ t, d.outstandingChange = some t → takes (d.mgmtReply h g.seq (BitVec.ofNat 64 (t + 1)) .deferred))
                ∧ (d.outstandingChange = none → let t := if target = 0 then d.tick.now + 8 else target
                  takes ((d.acceptChange id target recs).mgmtReply h g.seq (BitVec.ofNat 64 t) .ok))))
            ∧ (∀ answer st, g.body = .reply answer st → takes (d.takeReply h answer st))))))

/-- The gate of an optical port (R431, R432, R435, R448): a port that is not admitted takes nothing in; a class above 7 or out of the port's mask, a message without a
destination and one for another die that the gate or the port's authority forbids are dropped without an answer and counted; a message for another package is dropped and
recorded; one for another die of the package goes on by the route; one for this die goes to the unit of its class. A message on a peer port for a third die of the package
(R429, R435, R436) goes on by the route if its port lets it pass, and is refused if not. -/
def Obligations.OpticalGate : Prop :=
  (∀ (s : State) (n : OptIx) (m : FabMsg) (offset chain : W16), s.die.live = true → m.wf = true →
    let d := s.die
    let x := atPort (.opt n) m
    let cmd : Instr := .opticalMsgReceive n m offset chain
    let freed (e : Die) (cls : Nat) : Prop := becomes cmd s (e.freeUnits (.opt n) cls (msgBytes x))
    let barred := 7 < x.cls ∨ d.authClass x.cls (.opt n) = false
    (d.portUp (.opt n) = false → becomes cmd s d)
    ∧ (d.portUp (.opt n) = true →
      (barred ∨ x.dst = none → freed (d.gateDrop (.opt n) x.cls) (min x.cls 9))
      ∧ (¬barred → ∀ dst, x.dst = some dst →
        (dst = d.here → becomes cmd s (d.toUnit (.opt n) x offset chain))
        ∧ (dst.pkg ≠ d.here.pkg → freed (d.optErr n 9) x.cls)
        ∧ (dst.pkg = d.here.pkg → dst ≠ d.here →
          (d.opticalPasses n x = true → freed (d.sendOn dst x) x.cls) ∧ (d.opticalPasses n x = false → freed (d.gateDrop (.opt n) x.cls) x.cls)))))
  ∧ (∀ (s : State) (port : LinkPort) (m : FabMsg), s.die.live = true → m.wf = true →
    let d := s.die
    let x := atPort port m
    let freed (e : Die) : Prop := becomes (.peerMsgForward port m) s (e.freeUnits port x.cls (msgBytes x))
    let third (dst : Place) : Prop := dst ≠ d.here ∧ dst.pkg = d.here.pkg ∧ d.portUp port = true
    (m.dst = none → becomes (.peerMsgForward port m) s d)
    ∧ (∀ dst, m.dst = some dst → (¬third dst → becomes (.peerMsgForward port m) s d)
      ∧ (third dst →
        (∀ h, msgHead x = some h → (d.portCheck h x.cls none = .pass → freed (d.sendOn dst x)) ∧ (∀ c, d.portCheck h x.cls none = c → c ≠ .pass → freed (d.notPassed h x.cls c)))
        ∧ (msgHead x = none → (d.authClass x.cls port = true → freed (d.sendOn dst x))
          ∧ (d.authClass x.cls port = false → (∀ y e t, x = .tick y e t → freed (d.refuseTick port t.src)) ∧ (∀ y a, x = .ack y a → freed (d.refuseTick port a.src))
            ∧ ∀ y c, x = .undef y c → freed (d.gateDrop port x.cls))))))

/-- An optical link in service (R446, R450, R454, R455): a flit with a bad CRC is asked for again, one with a bad tag or sequence number quarantines the port, a good one is
taken, with what it acknowledges and the credit it returns; too many replays, too few lanes and a stall of credit take the port down; half of the lanes suffice; the key
changes when the sequence number passes a multiple of 2^32. An optical link comes up (R452, R453, R456, R457): lanes lock in state 0 or 1 on a port that may train; a
session with another package in state 2 leads to state 3, and admission to state 4; a refused certificate, a partner in the own package and a time of 100 ms take it
back. A write of OPT_CTRL (R455 to R457): ENABLE 0 takes the port down and ends a quarantine; ENABLE 1 starts it; ADMIT 0 takes state 4 back to state 3, and ADMIT 1 tries
to admit; TICK_SRC is refused while the other port has it. -/
def Obligations.OpticalLinks : Prop :=
  (∀ (s : State) (n : OptIx) (lane : Fin 16) (seq : Nat) (phase ack crcOk tagOk : Bool) (credit : Option (Fin 8 × Nat)), s.die.live = true →
      let d := s.die
      let p := d.optPort n
      let cmd : Instr := .nivikFlitReceive n crcOk tagOk seq phase ack credit
      let off := d.optState n < 2 ∨ d.optState n = 5
      (off → becomes cmd s d ∧ becomes (.flitReplay n) s d)
      ∧ (¬off →
        (crcOk = false → becomes cmd s (d.sayOn (.opt n) (.replayRequest n))) ∧ (crcOk = true → p.session = none → becomes cmd s d)
        ∧ (crcOk = true → ∀ x, p.session = some x →
          let e := d.setOpt n { p with session := some { x with rxSeq := x.rxSeq + 1, rxPhase := phase }, replays := if ack then 0 else p.replays }
          (tagOk = false → becomes cmd s (d.optDown n 5 (some 5))) ∧ (tagOk = true → seq ≠ x.rxSeq % 2 ^ 32 → becomes cmd s (d.optDown n 5 (some 6)))
          ∧ (tagOk = true → seq = x.rxSeq % 2 ^ 32 → (credit = none → becomes cmd s e) ∧ ∀ c k, credit = some (c, k) → becomes cmd s (e.giveUnits (.opt n) c.val k).pump))
        ∧ (orOne (d.get (OPT_CTRL_RETRY_LIMIT n.val)) < p.replays + 1 → becomes (.flitReplay n) s (d.optDown n 0 (some 7)))
        ∧ (p.replays + 1 ≤ orOne (d.get (OPT_CTRL_RETRY_LIMIT n.val)) →
          becomes (.flitReplay n) s (((d.setOpt n { p with replays := p.replays + 1 }).markRetry (.opt n)).emit (.replay n))))
      ∧ (let idle := d.optState n = 0 ∨ d.optState n = 5 ∨ maskBit p.lanes lane.val = false
        let left := setMask p.lanes lane.val false
        let half := left &&& 0xFF = 0xFF ∨ left &&& 0xFF00 = 0xFF00
        let e := d.setOpt n { p with lanes := left }
        (idle → becomes (.opticalLaneLoss n lane) s d)
        ∧ (¬idle → (¬half → becomes (.opticalLaneLoss n lane) s (d.optDown n 0 none))
          ∧ (half → (e.bit (OPT_STATE_HALF n.val) = true → becomes (.opticalLaneLoss n lane) s e)
            ∧ (e.bit (OPT_STATE_HALF n.val) = false → becomes (.opticalLaneLoss n lane) s ((e.putB (OPT_STATE_HALF n.val) true).optEvent n 0x24 .corrected)))))
      ∧ (p.session = none → becomes (.keyUpdate n) s d)
      ∧ (∀ x, p.session = some x →
        (x.txPhase = decide (x.txSeq / 2 ^ 32 % 2 = 1) → becomes (.keyUpdate n) s d)
        ∧ (x.txPhase ≠ decide (x.txSeq / 2 ^ 32 % 2 = 1) →
          becomes (.keyUpdate n) s ((d.setOpt n { p with session := some { x with txPhase := !x.txPhase } }).sayOn (.opt n) (.keyUpdate n d.epoch))))
      ∧ (let stalls := d.starved n = true ∧ orOne (d.get FAB_TIMEOUT_STALL_TICKS) ≤ p.stall
        (stalls → becomes (.creditStall n) s (d.optDown n 0 (some 8))) ∧ (¬stalls → becomes (.creditStall n) s d)))
  ∧ (∀ (s : State) (n : OptIx) (lanes : BitVec 16) (r : SessionResult), s.die.live = true →
      let d := s.die
      let may := d.optState n ≤ 1 ∧ d.optMayTrain n = true
      let whole := lanes = 0xFFFF
      let half := lanes &&& 0xFF = 0xFF ∨ lanes &&& 0xFF00 = 0xFF00
      let up (full : Bool) : Die := ((d.put (OPT_STATE_STATE n.val) 2).putB (OPT_STATE_HALF n.val) (!full)).setOpt n { lanes := lanes }
      let starts (e : Die) : Prop := becomes (.opticalLinkTrain n lanes) s ((e.emit (.hello (.opt n) e.epoch e.here pools)).emit (.spdmRecord n e.epoch))
      (¬may → becomes (.opticalLinkTrain n lanes) s d)
      ∧ (may → (whole → starts (up true)) ∧ (¬whole → half → starts ((up false).optEvent n 0x24 .corrected))
        ∧ (¬whole → ¬half → becomes (.opticalLinkTrain n lanes) s (d.put (OPT_STATE_STATE n.val) 1)))
      ∧ (d.optState n ≠ 2 → becomes (.sessionTimeout n) s d ∧ becomes (.spdmRecordReceive n r) s d)
      ∧ (d.optState n = 2 →
        becomes (.sessionTimeout n) s (d.optDown n 0 (some 1))
        ∧ becomes (.spdmRecordReceive n .continues) s (d.sayOn (.opt n) (.spdmRecord n d.epoch))
        ∧ becomes (.spdmRecordReceive n .certRefused) s (d.optDown n 0 (some 2))
        ∧ (∀ partner, (partner.pkg = d.here.pkg → becomes (.spdmRecordReceive n (.established partner)) s (d.optDown n 0 (some 3)))
          ∧ (partner.pkg ≠ d.here.pkg →
            let e := ((d.put (OPT_PEER_PACKAGE n.val) partner.pkg.val).put (OPT_PEER_DIE n.val) partner.die.val).put (OPT_STATE_STATE n.val) 3
            becomes (.spdmRecordReceive n (.established partner)) s ((e.setOpt n { e.optPort n with session := some { partner := partner } }).tryAdmit n)))))
  ∧ (∀ (s : State) (who : Who) (n : OptIx) (v : W32), Reaches s.die who true → who.part = 0 →
        let d := s.die.writeOptCtrl n v.toNat
        let named := d.bit (OPT_CTRL_TICK_SRC 0) || d.bit (OPT_CTRL_TICK_SRC 1)
        let t := if named then d.putB TICK_STATUS_NO_SOURCE false else d
        becomes (.optEnable who n v) s t ∧ becomes (.admission who n v) s t ∧ becomes (.tickSrc who n v) s t)
  ∧ (∀ (d : Die) (n : OptIx) (v : Nat),
        let e := (((d.putB (OPT_CTRL_ENABLE n.val) (sub v 0 1 == 1)).putB (OPT_CTRL_ADMIT n.val) (sub v 1 1 == 1)).put (OPT_CTRL_QUARANTINE_DROPS n.val) (sub v 8 8)).put
          (OPT_CTRL_RETRY_LIMIT n.val) (sub v 16 4)
        let f := if sub v 2 1 = 1 ∧ d.bit (OPT_CTRL_TICK_SRC (1 - n.val)) = true then e else e.putB (OPT_CTRL_TICK_SRC n.val) (sub v 2 1 == 1)
        let ends (g : Die) : Prop := d.writeOptCtrl n v = g.setOpt n { g.optPort n with barred := false }
        (sub v 0 1 ≠ 1 → (f.optState n = 0 → ends f) ∧ (f.optState n = 5 → ends (f.put (OPT_STATE_STATE n.val) 0))
          ∧ (f.optState n ≠ 0 → f.optState n ≠ 5 → ends (f.optDown n 0 none)))
        ∧ (sub v 0 1 = 1 →
          let g := f.optStart n
          (sub v 1 1 = 1 → d.writeOptCtrl n v = g.tryAdmit n)
          ∧ (sub v 1 1 ≠ 1 → (d.bit (OPT_CTRL_ADMIT n.val) = true ∧ g.optState n = 4 →
              d.writeOptCtrl n v = (g.loseOps fun o => o.port == .opt n).put (OPT_STATE_STATE n.val) 3)
            ∧ (¬(d.bit (OPT_CTRL_ADMIT n.val) = true ∧ g.optState n = 4) → d.writeOptCtrl n v = g))))
  ∧ ∀ (d : Die) (n : OptIx),
        let admits := d.optState n = 3 ∧ d.bit (OPT_CTRL_ADMIT n.val) = true
        let known := d.get (OPT_SRC_LO n.val) ≤ d.get (OPT_PEER_PACKAGE n.val) ∧ d.get (OPT_PEER_PACKAGE n.val) ≤ d.get (OPT_SRC_HI n.val)
        (¬admits → d.tryAdmit n = d) ∧ (admits → (known → d.tryAdmit n = (d.put (OPT_STATE_STATE n.val) 4).pump) ∧ (¬known → d.tryAdmit n = d.optErr n 4))

/-- Cages and the fabric supply (R433, R459 to R462, R559, R573): a change of presence is latched and reported, and a cable that leaves puts its laser out and takes its port
down with cause 11; a button is latched and reported; a power fault of the laser takes its port down with cause 12; the loss of the fabric rails takes down the ports that are
up with cause 13, and is reported also where both were down; the rails' return lights the lasers again and the ports can train. A write of CAGE clears the latches of its
ones and sets the indicators; LASER_EN 1 lights the laser of a cage with a cable, and LASER_EN 0 puts it out and takes its port down with cause 14. -/
def Obligations.Cages : Prop :=
  (∀ (s : State) (n : OptIx) (present : Bool), s.die.live = true ∨ s.die.boot.phase = .boot →
    let d := s.die
    let e := ((d.putB (CAGE_PRESENT n.val) present).putB (CAGE_PRESENCE_CHANGED n.val) true).optEvent n 0x21 .corrected
    let f := (e.putB (CAGE_LASER_EN n.val) false).setLaserGood n
    (d.bit (CAGE_PRESENT n.val) = present → becomes (.presenceChange n present) s d)
    ∧ (d.bit (CAGE_PRESENT n.val) ≠ present →
      (present = true → becomes (.presenceChange n present) s e)
      ∧ (present = false → (f.optState n = 0 → becomes (.presenceChange n present) s f) ∧ (f.optState n ≠ 0 → becomes (.presenceChange n present) s (f.optDown n 0 (some 11))))))
  ∧ (∀ (s : State) (n : OptIx), s.die.live = true →
    let d := s.die
    becomes (.button n) s ((d.putB (CAGE_BUTTON n.val) true).optEvent n 0x22 .corrected)
    ∧ (let e := (((d.putB (CAGE_POWER_FAULT n.val) true).putB (CAGE_LASER_EN n.val) false).putB (CAGE_LASER_GOOD n.val) false).optEvent n 12 .corrected
      (e.optState n = 0 → becomes (.laserPowerFault n) s e) ∧ (e.optState n ≠ 0 → becomes (.laserPowerFault n) s (e.optDown n 0 (some 12)))))
  ∧ (∀ s : State,
      let d := s.die
      let told := if d.awake = true ∧ d.pins.fabricRails = true ∧ d.optState 0 = 0 ∧ d.optState 1 = 0 then d.optEvent 0 13 .contained else d
      let rails (x : Bool) (d : Die) : Die := { d with pins := { d.pins with fabricRails := x } }
      let down (n : OptIx) (e : Die) : Die := (if e.optState n = 0 then e else e.optDown n 0 (some 13)).setLaserGood n
      becomes .fabricSupplyLoss s (down 1 (down 0 (rails false told)))
      ∧ becomes .fabricRailsApplied s (((((rails true d).setLaserGood 0).optStart 0).setLaserGood 1).optStart 1))
  ∧ (∀ (s : State) (who : Who) (n : OptIx) (v : W32), Reaches s.die who true → who.part = 0 → becomes (.laserEn who n v) s (s.die.writeCage n v.toNat))
  ∧ ∀ (d : Die) (n : OptIx) (v : Nat),
      let clear (f : Fld) (i : Nat) (e : Die) : Die := if sub v i 1 = 1 then e.putB f false else e
      let e := clear (CAGE_POWER_FAULT n.val) 5 (clear (CAGE_BUTTON n.val) 2 (clear (CAGE_PRESENCE_CHANGED n.val) 1 d))
      let e := if sub v 6 2 = 3 then e else e.put (CAGE_PWR_IND n.val) (sub v 6 2)
      let e := if sub v 8 2 = 3 then e else e.put (CAGE_ATTN_IND n.val) (sub v 8 2)
      let off := (e.putB (CAGE_LASER_EN n.val) false).setLaserGood n
      (sub v 3 1 = 1 → (e.bit (CAGE_PRESENT n.val) = true → d.writeCage n v = ((e.putB (CAGE_LASER_EN n.val) true).setLaserGood n).optStart n)
        ∧ (e.bit (CAGE_PRESENT n.val) = false → d.writeCage n v = e))
      ∧ (sub v 3 1 ≠ 1 → (e.bit (CAGE_LASER_EN n.val) = true ∧ off.optState n ≠ 0 → d.writeCage n v = off.optDown n 0 (some 14))
        ∧ (¬(e.bit (CAGE_LASER_EN n.val) = true ∧ off.optState n ≠ 0) → d.writeCage n v = off))

/-! ### Faults, power, boot, pins and registers -/

/-- The collector (R33, R495, R496, R498 to R501, R503, R506, R507), while the die has power: what the units found is slotted, and the slotted events are taken, in each cycle
the first of every source; in reset and in the dormant state they are recorded and no more (the model's reading, log entry 73); else a die reset among the reactions
resets the die, and without one each block reset resets its block, and the interrupt is sent at once where the tick does not run. An event taken sets the bit of its source in
the word of its class and no other bit of a class word, and writes the history. Clearing a class word (R515, R509): the written bits fall, and a hold of ERR_N falls with
the last bit of its source in the three words. -/
def Obligations.Collector : Prop :=
  ((∀ (s : State) (us : List Upset), s.die.awake = true →
      let d := (us.filter fun u => s.die.running || alwaysOn u).foldl Die.upset s.die
      becomes (.faultEvent us) s (Die.collectAll d.fault.slots.length d.fault.slots (d.onFault fun u => { u with slots := [] })))
    ∧ (∀ (d : Die) (n : Nat) (e : Event) (es : List Event),
        Die.collectAll n [] d = d
        ∧ Die.collectAll (n + 1) (e :: es) d = Die.collectAll n ((cycleOf (e :: es)).foldl (fun l x => l.erase x) (e :: es)) (d.collect (cycleOf (e :: es)))
        ∧ (∀ x ∈ cycleOf (e :: es), ∀ y ∈ cycleOf (e :: es), x.src = y.src → x = y))
    ∧ (∀ (d : Die) (es : List Event),
        let t := es.foldl Die.take d
        let rs := es.map fun e => (e, d.reaction e.src e.cls)
        let blocks := rs.foldl (fun x r => if r.2.getLsbD 2 then x.blockReset r.1.src (r.1.detail.toNat % 256) else x) t
        let dies := ∃ e ∈ es, (d.reaction e.src e.cls).getLsbD 3 = true
        (t.running = false → d.collect es = t) ∧ (t.running = true → dies → d.collect es = t.dieReset)
        ∧ (t.running = true → ¬dies → (blocks.tick.runs = true → d.collect es = blocks) ∧ (blocks.tick.runs = false → d.collect es = blocks.faultIrq)))
    ∧ (∀ (d : Die) (e : Event) (c : Cls), d.canonical →
        (d.take e).raw (classWord c) = if c = e.cls then (d.raw (classWord c)).lor (2 ^ e.src.val) else d.raw (classWord c))
    ∧ ∀ (d : Die) (e : Event), d.canonical → d.fault.hist = [] → d.get FAULT_HIST_CTRL_COUNT = 0 → d.bit FAULT_HIST_CTRL_FIRST_VALID = false → d.tick.runs = true →
        let i := d.get FAULT_HIST_CTRL_NEXT
        let t := d.writeHist e
        t.histAt i = { tick := d.tick.now, src := e.src, cls := clsCode e.cls, first := true, forced := e.forced, noTick := false, valid := true, repeat_ := 0, detail := e.detail,
                       order := d.fault.order + 1 }
        ∧ t.get FAULT_HIST_CTRL_COUNT = 1 ∧ t.get FAULT_HIST_CTRL_NEXT = (i + 1) % 16 ∧ t.get FAULT_HIST_CTRL_FIRST = i ∧ t.bit FAULT_HIST_CTRL_FIRST_VALID = true
        ∧ d.keepsRegs t [FAULT_HIST_CTRL])
  ∧ (∀ (d : Die) (c : Cls) (v i : Nat), d.canonical → i < 20 → let t := d.clearClass c v
      ((t.raw (classWord c)).testBit i = ((d.raw (classWord c)).testBit i && !v.testBit i))
      ∧ (∀ x, x ≠ c → t.raw (classWord x) = d.raw (classWord x))
      ∧ ((t.raw FAULT_PIN_HOLD).testBit i = ((d.raw FAULT_PIN_HOLD).testBit i && t.faultStatus.testBit i)))

/-- Registers and pins of the collector (R505, R512, R513, R516 to R520): Groom, serving on a die that runs, acknowledges its trap, and without a trap nothing happens; the
fall of ERR_N that another drives is latched, and traps where it should; a failed check makes the die dormant, and one that is dormant stays so, while in reset the state
is left at once; forced events are slotted, and an injected error fails the next check. -/
def Obligations.CollectorControl : Prop :=
  (∀ (s : State), s.die.awake = true →
    let d := s.die
    let fell : Die := ({ d with pins := { d.pins with errSense := false } } : Die).putB FAULT_PIN_SENSE_FELL true
    let acks := d.bit FAULT_IRQ_NMI_HELD = true ∧ d.cp.restarting = false ∧ d.running = true
    (acks → becomes .nmiAck s ((d.putB FAULT_IRQ_NMI_HELD false).onFault fun u => { u with readOrder := u.order }))
    ∧ (¬acks → becomes .nmiAck s d)
    ∧ (d.errDrive = true → becomes .errNSenseFall s d)
    ∧ (d.errDrive = false → becomes .errNSenseFall s (if fell.bit FAULT_PIN_SENSE_NMI then fell.putB FAULT_IRQ_NMI_HELD true else fell))
    ∧ (d.fault.check = none → becomes .dormantEntry s d)
    ∧ (∀ c, d.fault.check = some c → (d.running = true → becomes .dormantEntry s (d.enterDormant c))
      ∧ (d.boot.phase = .dormant → becomes .dormantEntry s d)
      ∧ (d.boot.phase = .off → becomes .dormantEntry s (d.dormantCause c).leaveDormant)))
  ∧ ∀ (s : State) (who : Who) (cls : Cls) (v : W32), Reaches s.die who true → who.part = 0 →
      let d := s.die
      becomes (.faultForce who cls v) s (d.onFault fun u => { u with slots := u.slots ++ (((List.finRange 20).filter fun i => v.getLsbD i.val).map fun i =>
        { src := i, cls := cls, detail := 0, forced := true }) })
      ∧ becomes (.inject who) s (d.onFault fun u => { u with check := some { word := 0, injected := true, mismatch := false } })

/-- FAULT_HIST_CTRL.CLEAR sets VALID and FIRST to 0 in every entry, sets COUNT to 0 and leaves NEXT, the class words and FAULT_PIN_HOLD unchanged (R516). -/
def Obligations.HistoryClear : Prop :=
  ∀ (s : State) (who : Who), Reaches s.die who true → who.part = 0 → s.die.canonical →
    answers (.faultHistClear who) s fun t =>
      (∀ i, (t.histAt i).valid = false ∧ (t.histAt i).first = false) ∧ t.get FAULT_HIST_CTRL_COUNT = 0
      ∧ t.get FAULT_HIST_CTRL_NEXT = s.die.get FAULT_HIST_CTRL_NEXT
      ∧ (∀ c, t.raw (classWord c) = s.die.raw (classWord c)) ∧ t.raw FAULT_PIN_HOLD = s.die.raw FAULT_PIN_HOLD

/-- Power and temperature (R526, R528 to R530): the duty in force is 0 in a halt, 8 at 105 degrees, FAST_K in a fast limit, else the controller's; a
sample decides warning, throttling and halt by the hottest sensor in use; a write of PWR_CTRL stores its fields, and its RESUME ends a halt at P5 once every sensor reads
below WARN, and else nothing. Failures of supplies and clocks (R521, R554, R561, R566), while the die has power: each is recorded and raised as a fatal fault of the power
controller with its cause; the over-temperature pin goes low. -/
def Obligations.PowerAndClocks : Prop :=
  ((∀ (s : State) (temps : List (Option Int)), s.die.awake = true → temps.length = 32 →
        becomes .fastLimit s (s.die.onPower fun u => { u with fast := true }).setDuty
        ∧ becomes (.thermalSample temps) s (((List.range 32).foldl (fun e i => e.sensor i ((temps[i]?).getD none)) s.die).thermal))
    ∧ (∀ (d : Die), d.canonical → let t := d.setDuty
        d.keepsRegs t [PWR_STATUS] ∧ (d.power.haltDue = true ∨ d.bit PWR_CTRL_THERMAL_HALT = true → t.get PWR_STATUS_K = 0)
        ∧ (d.power.haltDue = false → d.bit PWR_CTRL_THERMAL_HALT = false →
          (d.power.hot = true → t.get PWR_STATUS_K = 8)
          ∧ (d.power.hot = false → d.power.fast = true → t.get PWR_STATUS_K = d.get PWR_CTRL_FAST_K)
          ∧ (d.power.hot = false → d.power.fast = false → d.power.k ≤ 16 → t.get PWR_STATUS_K = d.power.k)))
    ∧ (∀ (d : Die), d.canonical → let t := d.thermal
        let hot := (hottest d.readings).2
        (t.power.hot = true ↔ 105 ≤ hot) ∧ (t.power.warned = true ↔ (d.get THERM_LIMITS_WARN : Int) ≤ hot)
        ∧ ((d.get THERM_LIMITS_THROTTLE : Int) ≤ hot → t.power.throttled = true)
        ∧ (d.readings.length < 28 → t.power.throttled = true)
        ∧ (110 ≤ hot → t.power.haltDue = true ∨ d.bit PWR_CTRL_THERMAL_HALT = true)
        ∧ (hot < 110 → t.power.haltDue = d.power.haltDue))
    ∧ (∀ (s : State) (who : Who) (v : W32) (r : RegRow), Reaches s.die who true → who.part = 0 → findRow PWR_CTRL = some r →
        let e := s.die.store r PWR_CTRL v.toNat
        let cool := e.bit PWR_CTRL_THERMAL_HALT = true ∧ ∀ x ∈ e.readings, x.2 < (e.get THERM_LIMITS_WARN : Int)
        let resumed := ((((e.putB PWR_CTRL_THERMAL_HALT false).setPoint 5).setVid 5).putB HBM_STATUS_SELF_REFRESH false).setDuty
        (v.getLsbD 9 = true ∧ cool → becomes (.thermalResume who v) s resumed) ∧ (¬(v.getLsbD 9 = true ∧ cool) → becomes (.thermalResume who v) s e))
    ∧ ∀ (s : State) (who : Who) (v : W32), Reaches s.die who true → who.part = 0 → s.die.canonical → v.getLsbD 9 = true → s.die.bit PWR_CTRL_THERMAL_HALT = true →
        (∀ r ∈ s.die.readings, r.2 < (s.die.get THERM_LIMITS_WARN : Int)) →
        answers (.thermalResume who v) s fun t => t.bit PWR_CTRL_THERMAL_HALT = false ∧ t.get PWR_STATUS_POINT = 5 ∧ t.pins.vid = 0x1E
          ∧ t.bit HBM_STATUS_SELF_REFRESH = false)
  ∧ (∀ (s : State) (rail : Fin 10) (pll : Fin 2), s.die.awake = true →
      let d := s.die
      becomes (.supplyFault rail) s (d.pwrEvent 6 rail.val 0 .fatal)
      ∧ becomes (.pllLockLoss pll) s (d.pwrEvent 7 pll.val 0 .fatal)
      ∧ becomes .refclkLoss s (d.pwrEvent 8 0 0 .fatal)
      ∧ becomes .thermtrip s { d with pins := { d.pins with thermtrip := true } }
      ∧ ∀ (e : Die) (cause unit extra : Nat) (cls : Cls), e.canonical → cause < 16 → let t := e.pwrEvent cause unit extra cls
          t.fault.slots = e.fault.slots ++ [{ src := 18, cls := cls, detail := detail unit cause extra, forced := false }] ∧ e.keepsRegs t [PWR_ERR]
          ∧ t.bit PWR_ERR_VALID = true ∧ (e.bit PWR_ERR_VALID = true → t = e.raise 18 cls (detail unit cause extra))
          ∧ (e.bit PWR_ERR_VALID = false → t.get PWR_ERR_CAUSE = cause))

/-- Power, reset and boot (R33, R358, R492, R519, R532 to R536, R560): the pins start, reset and end the die; the slot with the higher SVN is tried first, a read that had to
be repeated is reported, and a die without a good image fails in stage 15; a cold boot zeroes memory, or tests it where the image asks for it; the die is ready when an
image is verified, memory is ready and the host link is up. What does not apply in the die's state does nothing. The ID chain, the I3C target and the JTAG port (R26, R27,
R546, R563, R564, R568, R569): three equal frames with good parity give a die its place, unless its links have begun to train without one, and a lead that gets an ID does
not join; the board controller sets an offset and reads from it; EXTEST and the fuse act only while RESET_N is low. -/
def Obligations.BootAndPins : Prop :=
  (∀ (s : State) (a b : BootSlot) (ms : Nat) (fails : List Nat), (∀ c ∈ fails, c < 128) →
      let d := s.die
      let stage (e : Die) (n : Nat) : Die := e.put BOOT_STATUS_STAGE n
      (d.boot.phase = .off → becomes .bootStart s ({ d with pins := { d.pins with pwrGood := true, resetN := true } } : Die).beginBoot)
      ∧ (d.boot.phase ≠ .off → becomes .bootStart s d)
      ∧ (d.pins.pwrGood = true ∧ d.pins.resetN = true →
        let e : Die := { d with pins := { d.pins with resetN := false } }
        becomes .resetNFall s (if d.boot.phase = .dormant then e.leaveDormant else e.dieReset))
      ∧ (¬(d.pins.pwrGood = true ∧ d.pins.resetN = true) → becomes .resetNFall s d)
      ∧ becomes .powerRemoval s { fuses := d.fuses, freeCtr := d.freeCtr, out := d.out, boot := { phase := .off, cold := true },
                                  pins := { pwrGood := false, resetN := false, lead := d.pins.lead, pkgStrap := d.pins.pkgStrap, fabricRails := d.pins.fabricRails } }
      ∧ (¬(d.boot.phase = .boot ∧ d.boot.verified = false) → becomes (.bootImageVerify [a, b]) s d)
      ∧ (d.boot.phase = .boot ∧ d.boot.verified = false → ∀ r e, Die.trySlots (slotOrder [a, b]) false (stage d 1) = (r, e) →
        (r = none → becomes (.bootImageVerify [a, b]) s ({ stage ((stage e 2).secEvent 1 .fatal) 15 with boot := { ((stage e 2).secEvent 1 .fatal).boot with phase := .failed } }))
        ∧ (∀ slot x aFailed, r = some (slot, x, aFailed) →
          let f := if slot = true ∧ aFailed = true then (stage e 2).secEvent 2 .corrected else stage e 2
          let f := (stage (((f.putB BOOT_STATUS_SLOT slot).putB BOOT_STATUS_OWNER_KEY (!x.genfeson)).put BOOT_STATUS_SVN x.svn) 3).putB BOOT_STATUS_PRESERVED f.boot.preserved
          let f := (f.put PWR_CAP_BOARD_MAX x.boardMax).putB ST_CTRL_BOOT_BIST x.bootBist
          becomes (.bootImageVerify [a, b]) s { f with host := { f.host with subVendor := x.subVendor, subId := x.subId, rom := x.romPresent },
                                                       boot := { f.boot with verified := true, altRoot := x.altRoot } }))
      ∧ (a.svn < b.svn → slotOrder [a, b] = [(true, b), (false, a)]) ∧ (b.svn ≤ a.svn → slotOrder [a, b] = [(false, a), (true, b)])
      ∧ (let zeroes := d.mustZero = true ∧ d.bit ST_CTRL_BOOT_BIST = false
        (zeroes → becomes .hbmZeroing s d.zeroDone) ∧ (¬zeroes → becomes .hbmZeroing s d))
      ∧ (let tests := d.mustZero = true ∧ d.bit ST_CTRL_BOOT_BIST = true
        (tests → becomes (.bootBist fails) s ((fails.foldl Die.bistFails d).zeroDone.putB BOOT_STATUS_BIST_RAN true)) ∧ (¬tests → becomes (.bootBist fails) s d))
      ∧ (d.zeroDone.mem.hbm = [] ∧ d.zeroDone.mem.tag = [] ∧ d.zeroDone.boot.zeroed = true)
      ∧ (let ready := d.boot.phase = .boot ∧ d.boot.verified = true ∧ d.mustZero = false ∧ d.host.trained = true
        let e := ((stage d 6).put BOOT_STATUS_MS (ms / 2)).put GROOM_STATUS_STATE 1
        (ready → becomes (.bootReady ms) s { e with boot := { e.boot with phase := .ready }, tick := { e.tick with beats := true },
                                                    cp := { e.cp with groom := { e.cp.groom with budgetLeft := e.get GROOM_BUDGET_UNITS, skip := [], served := none, wdog := 0 } } })
        ∧ (¬ready → becomes (.bootReady ms) s d)))
  ∧ (∀ (slot aFailed : Bool) (x : BootSlot) (rest : List (Bool × BootSlot)) (d : Die),
      let e := if x.retried then d.secEvent 3 .corrected else d
      Die.trySlots [] aFailed d = (none, d)
      ∧ Die.trySlots ((slot, x) :: rest) aFailed d = if e.imageOk x then (some (slot, x, aFailed), e) else Die.trySlots rest (aFailed || !slot) e)
  ∧ (∀ (s : State) (die : DieIx) (pkg : PkgIx) (ok : Bool) (off : W32) (v : Option W32) (addr : BitVec 7) (digest : BitVec 384),
      let d := s.die
      let ir (x : JtagIr) (w : Nat) : Die := { d with boot := { d.boot with jtag := x } }.emit (.tdo w)
      (d.running = false → becomes (.idFrameReceive die pkg ok) s d ∧ becomes .idFrameSend s d)
      ∧ (d.running = true →
        (let kept := if ok then (if d.pins.idFrames.head? = some (die, pkg) then ((die, pkg) :: d.pins.idFrames).take 3 else [(die, pkg)]) else []
          let e : Die := { d with pins := { d.pins with idFrames := kept } }
          (kept.length ≠ 3 → becomes (.idFrameReceive die pkg ok) s e)
          ∧ (kept.length = 3 → (d.pins.lead = true → becomes (.idFrameReceive die pkg ok) s (e.chainFails 0))
            ∧ (d.pins.lead = false → (d.dieId = none ∧ d.boot.chainBad = false → becomes (.idFrameReceive die pkg ok) s { e with dieId := some die, pkgId := some pkg })
              ∧ (¬(d.dieId = none ∧ d.boot.chainBad = false) → becomes (.idFrameReceive die pkg ok) s e))))
        ∧ (let sends (x : DieIx) (p : PkgIx) : Prop := becomes .idFrameSend s ({ d with pins := { d.pins with idSending := true } }.emit (.idFrame x p))
          (d.pins.lead = true → sends 0 d.pins.pkgStrap)
          ∧ (d.pins.lead = false → (∀ (x y : DieIx) p, d.dieId = some x → d.pkgId = some p → y.val = x.val + 1 → sends y p)
            ∧ (d.dieId = none ∨ d.pkgId = none ∨ d.dieId = some 7 → becomes .idFrameSend s d))))
      ∧ (d.pins.pwrGood = true →
        becomes (.i3cPrivateWrite off v) s { d with boot := { d.boot with i3cOffset := off } }
        ∧ becomes .i3cPrivateRead s ({ d with boot := { d.boot with i3cOffset := d.boot.i3cOffset + 4 } }.emit
            (.i3c (BitVec.ofNat 32 (d.i3cWord d.boot.i3cOffset.toNat))))
        ∧ becomes (.dynamicAddressAssignment addr) s { d with boot := { d.boot with i3cAddr := some addr } }
        ∧ becomes .idcode s (ir .idcode d.idcode) ∧ becomes .bypass s (ir .bypass 0)
        ∧ becomes .extest s (if d.pins.resetN then ir .bypass 0 else ir .extest 0)
        ∧ (d.pins.resetN = true → becomes (.fuseProgram digest) s (ir .bypass 0))
        ∧ (d.pins.resetN = false → (d.fuses.ownerKey = none → becomes (.fuseProgram digest) s { ir .fuseProgram 0 with fuses := { d.fuses with ownerKey := some digest } })
          ∧ (d.fuses.ownerKey ≠ none → becomes (.fuseProgram digest) s (ir .fuseProgram 0))))
      ∧ (d.pins.pwrGood = false →
        becomes (.i3cPrivateWrite off v) s d ∧ becomes .i3cPrivateRead s d ∧ becomes (.dynamicAddressAssignment addr) s d ∧ becomes .idcode s d ∧ becomes .bypass s d
        ∧ becomes .extest s d ∧ becomes (.fuseProgram digest) s d))

/-- Register accesses (R264, R295, R297, R300, R404, R542, R544, R545, R547): an access of the host outside its BAR is not supported; a write inside is performed, unless it is
a SYNC_ADD that is withheld, which waits in the host's order; an access to no register reads zero, writes nothing, and is counted, and so is a write with the wrong size; a
read waits for the effects of its function's writes. A write of a register without side effects stores its RW fields, clears what is written as 1 of its RW1C fields and
changes no other register. Memory (R273): what is written at an address is read there, and every other address reads as before; the canonical form is kept. -/
def Obligations.RegisterAccesses : Prop :=
  ((∀ (s : State) (who : Who) (bar2 size : Bool) (off : Nat) (v : W32) (write : Bool), Reaches s.die who write →
      let d := s.die
      let top := if bar2 then 0x2000000 else if who.part = 0 then 0x4000000 else 0x100000
      let inside := (∃ p x, who = .dev p x) ∨ off < top
      (∀ p tlp, who = .fn p tlp → top ≤ off → becomes (.reservedAccess who bar2 off write size) s (d.unsupported p 0)
        ∧ (write = true → becomes (.registerWrite who bar2 off v) s (d.unsupported p 0)))
      ∧ (inside → write = true →
        (bar2 = false ∧ d.addHeld who.part.val off = true → becomes (.registerWrite who bar2 off v) s (d.enqueueHost (.regWrite who bar2 off v.toNat)))
        ∧ (¬(bar2 = false ∧ d.addHeld who.part.val off = true) →
          becomes (.registerWrite who bar2 off v) s (if bar2 then d.writePage who off v.toNat else d.writeBar0 who off v.toNat)))
      ∧ (inside → write = false ∧ d.effectDue who = true → becomes (.reservedAccess who bar2 off write size) s (d.enqueueHost (.reserved who bar2 off write size)))
      ∧ (inside → ¬(write = false ∧ d.effectDue who = true) →
        (write = true ∧ size = true → becomes (.reservedAccess who bar2 off write size) s (d.reserved who bar2 true true off))
        ∧ (¬(write = true ∧ size = true) →
          (d.isReserved who bar2 off write = true → becomes (.reservedAccess who bar2 off write size) s
            (if write then d.reserved who bar2 write false off else (d.reserved who bar2 write false off).emit (.regData who off 0)))
          ∧ (d.isReserved who bar2 off write = false → becomes (.reservedAccess who bar2 off write size) s d))))
    ∧ (∀ (d : Die) (who : Who) (off v : Nat), off < 0x2000000 →
        (off % 4 ≠ 0 → d.writeBar0 who off v = d.reserved who false true true off)
        ∧ (who.part = 0 → off % 4 = 0 → isReg off = false → d.writeBar0 who off v = d.reserved who false true false off
          ∧ d.isReserved who false off true = true ∧ d.isReserved who false off false = true))
    ∧ (∀ (s : State) (who : Who) (k : Nat) (v : W32), Reaches s.die who true → who.part = 0 → k < 8 → s.die.canonical →
        answers (.registerWrite who false (P2P_BASE_LO k) v) s fun t =>
          s.die.keepsRegs t [P2P_BASE_LO k] ∧ t.raw (P2P_BASE_LO k) = v.toNat ∧ { s.die with regs := t.regs } = t)
    ∧ ∀ (d : Die) (r : RegRow) (off v i : Nat), d.canonical → i < 32 → d.inRange off v = v →
        ((d.store r off v).raw off).testBit i = ((if r.rw.testBit i then v.testBit i else (d.raw off).testBit i) && !(r.w1c.testBit i && v.testBit i))
        ∧ d.keepsRegs (d.store r off v) [off])
  ∧ (∀ (m : Memory) (a b : Nat) (x : Byte), Memory.wf m = true →
      Memory.wf (memPut m a x) = true ∧ memGet (memPut m a x) b = if b = a then x else memGet m b)

/-! ### The whole machine -/

/-- Right after a cold power-on no command waits, the die boots, memory lists nothing, no core runs, and every register holds its reset value; a lead of
package 0 has die ID 0 (R26, R492, R576; the straps are the model's choice, log entry 5). The registers, memory, the sync objects and the cores are in
their canonical form at reset. -/
def Obligations.ResetState : Prop :=
  (State.reset.pending = [] ∧ State.reset.die.boot.phase = .boot ∧ State.reset.die.mem.hbm = [] ∧ State.reset.die.dieId = some 0 ∧ State.reset.die.pkgId = some 0
    ∧ (∀ c, (State.reset.die.core c).run = none) ∧ (∀ off, State.reset.die.raw off = regReset off % 2 ^ 32)
    ∧ State.reset.die.get TICK_PERIOD_PERIOD = 1000 ∧ State.reset.die.get PWR_CAP_WATTS = 600 ∧ State.reset.die.bit TICK_CTRL_RUN = false)
  ∧ (State.reset.die.canonical)

/-- Every step keeps the canonical forms: equal registers, memories, objects and cores stay equal data. -/
def Obligations.StepsKeepCanonicalForms : Prop :=
  ∀ s t : State, s.die.canonical → step s = .next t → t.die.canonical

/-- A die in reset acts on nothing but its pins and straps, the collector and the power controller, its I3C target and its JTAG port (R33, R519, R560); without power it
acts on nothing but the return of its pins and its fabric supply (R33, R392, R559, R560, R568, R569). A dormant die changes nothing in answer to any command but its reset,
the loss of its power, its fabric supply, the collector and the power controller, and its test and management ports; it may send an answer (R33, R518, R519). -/
def Obligations.SilentDies : Prop :=
  let pins : Instr → Bool
    | .bootStart | .resetNFall | .powerRemoval | .fabricRailsApplied | .fabricSupplyLoss => true
    | _ => false
  let alwaysOn : Instr → Bool
    | .faultEvent .. | .errNSenseFall | .dormantEntry | .fastLimit | .thermalSample .. | .thermtrip | .supplyFault .. | .pllLockLoss .. | .refclkLoss
    | .i3cPrivateWrite .. | .i3cPrivateRead | .dynamicAddressAssignment .. | .extest | .fuseProgram .. | .idcode | .bypass => true
    | _ => false
  (∀ (i : Instr) (s : State), i.wf = true → s.die.boot.phase = .off → pins i = false → alwaysOn i = false → exec i s = .next s)
  ∧ (∀ (i : Instr) (s : State), i.wf = true → s.die.boot.phase = .off → s.die.pins.pwrGood = false →
      i = .resetNFall ∨ pins i = false → exec i s = .next s)
  ∧ (∀ (i : Instr) (s : State), i.wf = true → s.die.boot.phase = .dormant → i = .bootStart ∨ i = .dormantEntry ∨ (pins i = false ∧ alwaysOn i = false) →
      answers i s fun t => t = { s.die with out := t.out })

end
end

