-- ==== Sys2Proof/Laws/Commands.lean ====
section
/-! SUPPORT. What the shared frames of a command do: issue of a core instruction, the phases of the die, and an access that reaches its register. -/

namespace Sys2Proof.Machine

/-- Everything an attempt to issue can do: nothing, the stop for an undefined encoding, or the instruction's effect (R89, R97). -/
theorem Die.issue_cases (d : Die) (c : CoreIx) (op : CoreOp) (ready : Core → Bool) (run : Die → Core → Die) :
    d.issue c op ready run = d
    ∨ (∃ cause, runtimeCause d.fuses.arrays c (d.core c) op = some cause ∧ d.issue c op ready run = d.coreFault c cause (d.core c).pc .illegalOpcode)
    ∨ (runtimeCause d.fuses.arrays c (d.core c) op = none ∧ ready (d.core c) = true ∧ d.issue c op ready run = run d (d.core c)) := by
  unfold Die.issue
  dsimp only
  split
  · cases h : runtimeCause d.fuses.arrays c (d.core c) op with
    | some cause => exact .inr (.inl ⟨cause, rfl, rfl⟩)
    | none =>
      dsimp only
      split
      · rename_i hr
        exact .inr (.inr ⟨rfl, (Bool.and_eq_true _ _ ▸ hr).1, rfl⟩)
      · exact .inl rfl
  · exact .inl rfl

/-- An instruction that issues has its effect. -/
theorem Die.issue_of_issues {s : State} {c : CoreIx} {op : CoreOp} {ready : Core → Bool} {run : Die → Core → Die} (h : Issues s c op)
    (hr : ready (s.die.core c) = true) : s.die.issue c op ready run = run s.die (s.die.core c) := by
  obtain ⟨-, h2, h3, h4, h5, h6⟩ := h
  simp [Die.issue, h2, h3, h4, h5, h6, hr]

/-! ### Phases -/

/-- A command on the die answers a next state with the queue as it was. -/
theorem onDie_eq (f : Die → Die) (s : State) : onDie f s = .next { s with die := f s.die } := rfl

theorem onLive_live {s : State} (f : Die → Die) (h : s.die.live = true) : onLive f s = .next { s with die := f s.die } := by simp [onLive, onDie, h]

theorem onLive_not {s : State} (f : Die → Die) (h : s.die.live = false) : onLive f s = .next s := by
  have : ({ s with die := s.die } : State) = s := rfl
  simp [onLive, onDie, h]

theorem onAwake_awake {s : State} (f : Die → Die) (h : s.die.awake = true) : onAwake f s = .next { s with die := f s.die } := by simp [onAwake, onDie, h]

theorem onWf_wf {ok : Bool} (f : State → Host.Outcome State Fault Refusal) (s : State) (h : ok = true) : onWf ok f s = f s := by simp [onWf, h]

theorem Die.phase_of_live {d : Die} (h : d.live = true) : d.boot.phase = .ready := by simpa [Die.live] using h

/-- An access that reaches its function is performed. -/
theorem fromHost_reaches {d : Die} {who : Who} {bar0 write : Bool} {off : Nat} {f : Die → Die} (h : Reaches d who write) :
    fromHost who bar0 write off f d = f d := by
  obtain ⟨h1, -, h2⟩ := h
  have hp := Die.phase_of_live h1
  cases who with
  | dev p x => simp [fromHost, hp]
  | fn p t => obtain ⟨h3, h4, h5⟩ := h2; simp [fromHost, hp, Die.hostRequest, h3, h4, h5]

/-- A register write that reaches its function is performed at once, unless it is a SYNC_ADD that is withheld (R264, R300). -/
theorem posted_reaches {d : Die} {who : Who} {bar2 : Bool} {off : Nat} {v : W32} {f : Die → Die} (h : Reaches d who true)
    (ha : (!bar2 && d.addHeld who.part.val off) = false) : posted who bar2 off v f d = f d := by
  obtain ⟨-, h2, -⟩ := h
  simp only [posted, h2, ha, Bool.or_self, Bool.false_eq_true, if_false]

/-- No register outside the sync objects is withheld from the physical function (R264). -/
theorem addHeld_low (d : Die) (off : Nat) (h : off < 0x2000000) : d.addHeld 0 off = false := by
  have : ¬ 0x2000000 ≤ off := by omega
  simp [Die.addHeld, this]

/-- A write by the physical function of a register outside the MSI-X table that the tick does not hold has the register's effect (R70, R541). -/
theorem Die.writeBar0_pf {d : Die} {who : Who} {off v : Nat} {r : RegRow} (hp : who.part = 0) (ho : off < 0x3000000) (ha : off % 4 = 0)
    (hr : findRow off = some r) (hd : r.digested = false) (hm : r.modeOnly = false) : d.writeBar0 who off v = d.effect who r off v := by
  have h1 : ¬ 0x3000000 ≤ off := by omega
  have h2 : ¬ 0x3008000 ≤ off := by omega
  simp [Die.writeBar0, hp, ha, h1, h2, Die.writePf, hr, hd, hm]

/-- A message of another die is worked on by a die in service. -/
theorem fromDie_live {d : Die} {m : MsgHead} {f : Die → Die} (h : d.live = true) : fromDie m f d = f d := by
  simp [fromDie, Die.phase_of_live h]

end Sys2Proof.Machine
end

