-- ==== Sys2Proof/Laws/Memory.lean ====
section
/-! SUPPORT. Tables and memory: what a read after an update gives, and that every operation keeps the canonical form. -/

namespace Sys2Proof.Machine

variable {α : Type} [DecidableEq α] {dflt : Nat → α}

/-- The key lies above the bound. -/
def above (lo : Option Nat) (k : Nat) : Prop := ∀ l, lo = some l → l < k

theorem tblWf_cons {lo : Option Nat} {j : Nat} {v : α} {t : List (Nat × α)} :
    tblWf dflt lo ((j, v) :: t) = true ↔ above lo j ∧ v ≠ dflt j ∧ tblWf dflt (some j) t = true := by
  cases lo <;> simp [tblWf, above, and_assoc]

/-- A key that is not above the bound is not listed. -/
theorem tblGet_low {l k : Nat} {t : List (Nat × α)} (h : tblWf dflt (some l) t = true) (hk : k ≤ l) : tblGet dflt t k = dflt k := by
  cases t with
  | nil => rfl
  | cons e t =>
    obtain ⟨j, v⟩ := e
    have hj : l < j := (tblWf_cons.mp h).1 l rfl
    simp [tblGet, show ¬ k = j by omega, show k < j by omega]

theorem tblWf_weaken {lo : Option Nat} {l : Nat} {t : List (Nat × α)} (h : tblWf dflt (some l) t = true) (hl : above lo l) : tblWf dflt lo t = true := by
  cases t with
  | nil => rfl
  | cons e t =>
    obtain ⟨j, v⟩ := e
    obtain ⟨h1, h2, h3⟩ := tblWf_cons.mp h
    exact tblWf_cons.mpr ⟨fun m hm => lt_trans (hl m hm) (h1 l rfl), h2, h3⟩

theorem tblPut_wf {lo : Option Nat} {t : List (Nat × α)} (k : Nat) (v : α) (h : tblWf dflt lo t = true) (hk : above lo k) :
    tblWf dflt lo (tblPut dflt t k v) = true := by
  induction t generalizing lo with
  | nil =>
    simp only [tblPut]
    split
    · rfl
    · exact tblWf_cons.mpr ⟨hk, ‹_›, rfl⟩
  | cons e t ih =>
    obtain ⟨j, u⟩ := e
    obtain ⟨h1, h2, h3⟩ := tblWf_cons.mp h
    simp only [tblPut, beq_iff_eq]
    split
    · subst_vars
      split
      · exact tblWf_weaken h3 h1
      · exact tblWf_cons.mpr ⟨h1, ‹_›, h3⟩
    · split
      · split
        · exact h
        · exact tblWf_cons.mpr ⟨hk, ‹_›, tblWf_cons.mpr ⟨fun l hl => by cases hl; assumption, h2, h3⟩⟩
      · exact tblWf_cons.mpr ⟨h1, h2, ih h3 fun l hl => by cases hl; omega⟩

theorem tblGet_put {lo : Option Nat} {t : List (Nat × α)} (k : Nat) (v : α) (q : Nat) (h : tblWf dflt lo t = true) :
    tblGet dflt (tblPut dflt t k v) q = if q = k then v else tblGet dflt t q := by
  induction t generalizing lo with
  | nil => by_cases hv : v = dflt k <;> by_cases hq : q = k <;> simp_all [tblPut, tblGet]
  | cons e t ih =>
    obtain ⟨j, u⟩ := e
    obtain ⟨h1, h2, h3⟩ := tblWf_cons.mp h
    have low : ∀ x, x ≤ j → tblGet dflt t x = dflt x := fun x hx => tblGet_low h3 hx
    simp only [tblPut, beq_iff_eq]
    split
    · subst_vars
      split
      · subst_vars
        by_cases hq : q = j
        · subst hq; simp [low]
        · by_cases hlt : q < j <;> simp [tblGet, hq, hlt]
          exact low q (by omega)
      · by_cases hq : q = j <;> simp [tblGet, hq]
    · split
      · split
        · subst_vars
          by_cases hq : q = k
          · subst hq; simp [tblGet, *]
          · simp [hq]
        · by_cases hq : q = k
          · simp [tblGet, hq]
          · by_cases hlt : q < k
            · simp [tblGet, hq, hlt, show ¬ q = j by omega, show q < j by omega]
            · simp [tblGet, hq, hlt]
      · by_cases hq : q = j
        · subst hq
          have : q ≠ k := by omega
          simp [tblGet, this]
        · by_cases hlt : q < j
          · have : q ≠ k := by omega
            simp [tblGet, hq, hlt, this]
          · simp [tblGet, hq, hlt, ih h3]

theorem tblDrop_wf {lo : Option Nat} {t : List (Nat × α)} (a b : Nat) (h : tblWf dflt lo t = true) : tblWf dflt lo (tblDrop t a b) = true := by
  induction t generalizing lo with
  | nil => rfl
  | cons e t ih =>
    obtain ⟨j, u⟩ := e
    obtain ⟨h1, h2, h3⟩ := tblWf_cons.mp h
    simp only [tblDrop, List.filter_cons]
    split
    · exact tblWf_cons.mpr ⟨h1, h2, ih h3⟩
    · exact ih (tblWf_weaken h3 h1)

/-! ### Memory -/

theorem memPut_wf (m : Memory) (a : Nat) (b : Byte) (h : Memory.wf m = true) : Memory.wf (memPut m a b) = true :=
  tblPut_wf a b h fun _ hl => by cases hl

theorem memGet_memPut (m : Memory) (a q : Nat) (b : Byte) (h : Memory.wf m = true) : memGet (memPut m a b) q = if q = a then b else memGet m q :=
  tblGet_put a b q h

theorem memWrite_wf (m : Memory) (a : Nat) (bs : List Byte) (h : Memory.wf m = true) : Memory.wf (memWrite m a bs) = true := by
  induction bs generalizing m a with
  | nil => exact h
  | cons b bs ih => exact ih _ _ (memPut_wf m a b h)

/-- A write of bytes leaves every address outside them as it was, and an address of them reads its byte. -/
theorem memGet_memWrite (m : Memory) (a q : Nat) (bs : List Byte) (h : Memory.wf m = true) :
    memGet (memWrite m a bs) q = if a ≤ q ∧ q < a + bs.length then bs.getD (q - a) 0 else memGet m q := by
  induction bs generalizing m a with
  | nil => simp [memWrite, show ¬ (a ≤ q ∧ q < a) by omega]
  | cons b bs ih =>
    rw [memWrite, ih _ _ (memPut_wf m a b h), memGet_memPut m a q b h]
    by_cases hq : q = a
    · subst hq; simp
    · by_cases hin : a + 1 ≤ q ∧ q < a + 1 + bs.length
      · rw [if_pos hin, if_pos (by simp; omega), show q - a = (q - (a + 1)) + 1 by omega, List.getD_cons_succ]
      · rw [if_neg hin, if_neg hq, if_neg (by simp; omega)]

theorem memZero_wf (m : Memory) (lo hi : Nat) (h : Memory.wf m = true) : Memory.wf (memZero m lo hi) = true := tblDrop_wf lo hi h

/-! ### Registers and cores -/

/-- A register reads what was last written to it; the others as before. -/
theorem Die.raw_putRaw (d : Die) (off v q : Nat) (h : tblWf (fun o => BitVec.ofNat 32 (regReset o)) none d.regs = true) :
    (d.putRaw off v).raw q = if q = off then v % 2 ^ 32 else d.raw q := by
  unfold Die.raw Die.putRaw
  rw [tblGet_put off _ q h]
  split <;> simp

theorem Die.putRaw_wf (d : Die) (off v : Nat) (h : tblWf (fun o => BitVec.ofNat 32 (regReset o)) none d.regs = true) :
    tblWf (fun o => BitVec.ofNat 32 (regReset o)) none (d.putRaw off v).regs = true :=
  tblPut_wf off _ h fun _ hl => by cases hl

/-- Writing one core's state leaves the others. -/
theorem Die.core_setCore (d : Die) (c x : CoreIx) (k : Core) (h : tblWf (fun _ => ({} : Core)) none d.cores = true) :
    (d.setCore c k).core x = if x = c then k else d.core x := by
  unfold Die.core Die.setCore
  rw [tblGet_put c.val k x.val h]
  simp [Fin.ext_iff]

end Sys2Proof.Machine
end

