-- ==== Sys2Proof/Laws/State.lean ====
section
/-! SUPPORT. What each update of the die leaves as it is: one lemma for each field and update, true by unfolding. -/

namespace Sys2Proof.Machine

variable (d : Die)

/-! ### Die.putRaw -/

@[simp] theorem Die.putRaw_fuses (off v : Nat) : (d.putRaw off v).fuses = d.fuses := rfl
@[simp] theorem Die.putRaw_dieId (off v : Nat) : (d.putRaw off v).dieId = d.dieId := rfl
@[simp] theorem Die.putRaw_pkgId (off v : Nat) : (d.putRaw off v).pkgId = d.pkgId := rfl
@[simp] theorem Die.putRaw_freeCtr (off v : Nat) : (d.putRaw off v).freeCtr = d.freeCtr := rfl
@[simp] theorem Die.putRaw_clk (off v : Nat) : (d.putRaw off v).clk = d.clk := rfl
@[simp] theorem Die.putRaw_clkInTick (off v : Nat) : (d.putRaw off v).clkInTick = d.clkInTick := rfl
@[simp] theorem Die.putRaw_tick (off v : Nat) : (d.putRaw off v).tick = d.tick := rfl
@[simp] theorem Die.putRaw_cores (off v : Nat) : (d.putRaw off v).cores = d.cores := rfl
@[simp] theorem Die.putRaw_ru (off v : Nat) : (d.putRaw off v).ru = d.ru := rfl
@[simp] theorem Die.putRaw_sync (off v : Nat) : (d.putRaw off v).sync = d.sync := rfl
@[simp] theorem Die.putRaw_launches (off v : Nat) : (d.putRaw off v).launches = d.launches := rfl
@[simp] theorem Die.putRaw_pkts (off v : Nat) : (d.putRaw off v).pkts = d.pkts := rfl
@[simp] theorem Die.putRaw_cp (off v : Nat) : (d.putRaw off v).cp = d.cp := rfl
@[simp] theorem Die.putRaw_cache (off v : Nat) : (d.putRaw off v).cache = d.cache := rfl
@[simp] theorem Die.putRaw_mem (off v : Nat) : (d.putRaw off v).mem = d.mem := rfl
@[simp] theorem Die.putRaw_tr (off v : Nat) : (d.putRaw off v).tr = d.tr := rfl
@[simp] theorem Die.putRaw_host (off v : Nat) : (d.putRaw off v).host = d.host := rfl
@[simp] theorem Die.putRaw_ports (off v : Nat) : (d.putRaw off v).ports = d.ports := rfl
@[simp] theorem Die.putRaw_parts (off v : Nat) : (d.putRaw off v).parts = d.parts := rfl
@[simp] theorem Die.putRaw_fault (off v : Nat) : (d.putRaw off v).fault = d.fault := rfl
@[simp] theorem Die.putRaw_power (off v : Nat) : (d.putRaw off v).power = d.power := rfl
@[simp] theorem Die.putRaw_boot (off v : Nat) : (d.putRaw off v).boot = d.boot := rfl
@[simp] theorem Die.putRaw_pins (off v : Nat) : (d.putRaw off v).pins = d.pins := rfl
@[simp] theorem Die.putRaw_out (off v : Nat) : (d.putRaw off v).out = d.out := rfl

/-! ### Die.put -/

@[simp] theorem Die.put_fuses (f : Fld) (v : Nat) : (d.put f v).fuses = d.fuses := rfl
@[simp] theorem Die.put_dieId (f : Fld) (v : Nat) : (d.put f v).dieId = d.dieId := rfl
@[simp] theorem Die.put_pkgId (f : Fld) (v : Nat) : (d.put f v).pkgId = d.pkgId := rfl
@[simp] theorem Die.put_freeCtr (f : Fld) (v : Nat) : (d.put f v).freeCtr = d.freeCtr := rfl
@[simp] theorem Die.put_clk (f : Fld) (v : Nat) : (d.put f v).clk = d.clk := rfl
@[simp] theorem Die.put_clkInTick (f : Fld) (v : Nat) : (d.put f v).clkInTick = d.clkInTick := rfl
@[simp] theorem Die.put_tick (f : Fld) (v : Nat) : (d.put f v).tick = d.tick := rfl
@[simp] theorem Die.put_cores (f : Fld) (v : Nat) : (d.put f v).cores = d.cores := rfl
@[simp] theorem Die.put_ru (f : Fld) (v : Nat) : (d.put f v).ru = d.ru := rfl
@[simp] theorem Die.put_sync (f : Fld) (v : Nat) : (d.put f v).sync = d.sync := rfl
@[simp] theorem Die.put_launches (f : Fld) (v : Nat) : (d.put f v).launches = d.launches := rfl
@[simp] theorem Die.put_pkts (f : Fld) (v : Nat) : (d.put f v).pkts = d.pkts := rfl
@[simp] theorem Die.put_cp (f : Fld) (v : Nat) : (d.put f v).cp = d.cp := rfl
@[simp] theorem Die.put_cache (f : Fld) (v : Nat) : (d.put f v).cache = d.cache := rfl
@[simp] theorem Die.put_mem (f : Fld) (v : Nat) : (d.put f v).mem = d.mem := rfl
@[simp] theorem Die.put_tr (f : Fld) (v : Nat) : (d.put f v).tr = d.tr := rfl
@[simp] theorem Die.put_host (f : Fld) (v : Nat) : (d.put f v).host = d.host := rfl
@[simp] theorem Die.put_ports (f : Fld) (v : Nat) : (d.put f v).ports = d.ports := rfl
@[simp] theorem Die.put_parts (f : Fld) (v : Nat) : (d.put f v).parts = d.parts := rfl
@[simp] theorem Die.put_fault (f : Fld) (v : Nat) : (d.put f v).fault = d.fault := rfl
@[simp] theorem Die.put_power (f : Fld) (v : Nat) : (d.put f v).power = d.power := rfl
@[simp] theorem Die.put_boot (f : Fld) (v : Nat) : (d.put f v).boot = d.boot := rfl
@[simp] theorem Die.put_pins (f : Fld) (v : Nat) : (d.put f v).pins = d.pins := rfl
@[simp] theorem Die.put_out (f : Fld) (v : Nat) : (d.put f v).out = d.out := rfl

/-! ### Die.putB -/

@[simp] theorem Die.putB_fuses (f : Fld) (v : Bool) : (d.putB f v).fuses = d.fuses := rfl
@[simp] theorem Die.putB_dieId (f : Fld) (v : Bool) : (d.putB f v).dieId = d.dieId := rfl
@[simp] theorem Die.putB_pkgId (f : Fld) (v : Bool) : (d.putB f v).pkgId = d.pkgId := rfl
@[simp] theorem Die.putB_freeCtr (f : Fld) (v : Bool) : (d.putB f v).freeCtr = d.freeCtr := rfl
@[simp] theorem Die.putB_clk (f : Fld) (v : Bool) : (d.putB f v).clk = d.clk := rfl
@[simp] theorem Die.putB_clkInTick (f : Fld) (v : Bool) : (d.putB f v).clkInTick = d.clkInTick := rfl
@[simp] theorem Die.putB_tick (f : Fld) (v : Bool) : (d.putB f v).tick = d.tick := rfl
@[simp] theorem Die.putB_cores (f : Fld) (v : Bool) : (d.putB f v).cores = d.cores := rfl
@[simp] theorem Die.putB_ru (f : Fld) (v : Bool) : (d.putB f v).ru = d.ru := rfl
@[simp] theorem Die.putB_sync (f : Fld) (v : Bool) : (d.putB f v).sync = d.sync := rfl
@[simp] theorem Die.putB_launches (f : Fld) (v : Bool) : (d.putB f v).launches = d.launches := rfl
@[simp] theorem Die.putB_pkts (f : Fld) (v : Bool) : (d.putB f v).pkts = d.pkts := rfl
@[simp] theorem Die.putB_cp (f : Fld) (v : Bool) : (d.putB f v).cp = d.cp := rfl
@[simp] theorem Die.putB_cache (f : Fld) (v : Bool) : (d.putB f v).cache = d.cache := rfl
@[simp] theorem Die.putB_mem (f : Fld) (v : Bool) : (d.putB f v).mem = d.mem := rfl
@[simp] theorem Die.putB_tr (f : Fld) (v : Bool) : (d.putB f v).tr = d.tr := rfl
@[simp] theorem Die.putB_host (f : Fld) (v : Bool) : (d.putB f v).host = d.host := rfl
@[simp] theorem Die.putB_ports (f : Fld) (v : Bool) : (d.putB f v).ports = d.ports := rfl
@[simp] theorem Die.putB_parts (f : Fld) (v : Bool) : (d.putB f v).parts = d.parts := rfl
@[simp] theorem Die.putB_fault (f : Fld) (v : Bool) : (d.putB f v).fault = d.fault := rfl
@[simp] theorem Die.putB_power (f : Fld) (v : Bool) : (d.putB f v).power = d.power := rfl
@[simp] theorem Die.putB_boot (f : Fld) (v : Bool) : (d.putB f v).boot = d.boot := rfl
@[simp] theorem Die.putB_pins (f : Fld) (v : Bool) : (d.putB f v).pins = d.pins := rfl
@[simp] theorem Die.putB_out (f : Fld) (v : Bool) : (d.putB f v).out = d.out := rfl

/-! ### Die.count -/

@[simp] theorem Die.count_fuses (f : Fld) (n : Nat) : (d.count f n).fuses = d.fuses := rfl
@[simp] theorem Die.count_dieId (f : Fld) (n : Nat) : (d.count f n).dieId = d.dieId := rfl
@[simp] theorem Die.count_pkgId (f : Fld) (n : Nat) : (d.count f n).pkgId = d.pkgId := rfl
@[simp] theorem Die.count_freeCtr (f : Fld) (n : Nat) : (d.count f n).freeCtr = d.freeCtr := rfl
@[simp] theorem Die.count_clk (f : Fld) (n : Nat) : (d.count f n).clk = d.clk := rfl
@[simp] theorem Die.count_clkInTick (f : Fld) (n : Nat) : (d.count f n).clkInTick = d.clkInTick := rfl
@[simp] theorem Die.count_tick (f : Fld) (n : Nat) : (d.count f n).tick = d.tick := rfl
@[simp] theorem Die.count_cores (f : Fld) (n : Nat) : (d.count f n).cores = d.cores := rfl
@[simp] theorem Die.count_ru (f : Fld) (n : Nat) : (d.count f n).ru = d.ru := rfl
@[simp] theorem Die.count_sync (f : Fld) (n : Nat) : (d.count f n).sync = d.sync := rfl
@[simp] theorem Die.count_launches (f : Fld) (n : Nat) : (d.count f n).launches = d.launches := rfl
@[simp] theorem Die.count_pkts (f : Fld) (n : Nat) : (d.count f n).pkts = d.pkts := rfl
@[simp] theorem Die.count_cp (f : Fld) (n : Nat) : (d.count f n).cp = d.cp := rfl
@[simp] theorem Die.count_cache (f : Fld) (n : Nat) : (d.count f n).cache = d.cache := rfl
@[simp] theorem Die.count_mem (f : Fld) (n : Nat) : (d.count f n).mem = d.mem := rfl
@[simp] theorem Die.count_tr (f : Fld) (n : Nat) : (d.count f n).tr = d.tr := rfl
@[simp] theorem Die.count_host (f : Fld) (n : Nat) : (d.count f n).host = d.host := rfl
@[simp] theorem Die.count_ports (f : Fld) (n : Nat) : (d.count f n).ports = d.ports := rfl
@[simp] theorem Die.count_parts (f : Fld) (n : Nat) : (d.count f n).parts = d.parts := rfl
@[simp] theorem Die.count_fault (f : Fld) (n : Nat) : (d.count f n).fault = d.fault := rfl
@[simp] theorem Die.count_power (f : Fld) (n : Nat) : (d.count f n).power = d.power := rfl
@[simp] theorem Die.count_boot (f : Fld) (n : Nat) : (d.count f n).boot = d.boot := rfl
@[simp] theorem Die.count_pins (f : Fld) (n : Nat) : (d.count f n).pins = d.pins := rfl
@[simp] theorem Die.count_out (f : Fld) (n : Nat) : (d.count f n).out = d.out := rfl

/-! ### Die.setCore -/

@[simp] theorem Die.setCore_fuses (c : CoreIx) (k : Core) : (d.setCore c k).fuses = d.fuses := rfl
@[simp] theorem Die.setCore_dieId (c : CoreIx) (k : Core) : (d.setCore c k).dieId = d.dieId := rfl
@[simp] theorem Die.setCore_pkgId (c : CoreIx) (k : Core) : (d.setCore c k).pkgId = d.pkgId := rfl
@[simp] theorem Die.setCore_regs (c : CoreIx) (k : Core) : (d.setCore c k).regs = d.regs := rfl
@[simp] theorem Die.setCore_freeCtr (c : CoreIx) (k : Core) : (d.setCore c k).freeCtr = d.freeCtr := rfl
@[simp] theorem Die.setCore_clk (c : CoreIx) (k : Core) : (d.setCore c k).clk = d.clk := rfl
@[simp] theorem Die.setCore_clkInTick (c : CoreIx) (k : Core) : (d.setCore c k).clkInTick = d.clkInTick := rfl
@[simp] theorem Die.setCore_tick (c : CoreIx) (k : Core) : (d.setCore c k).tick = d.tick := rfl
@[simp] theorem Die.setCore_ru (c : CoreIx) (k : Core) : (d.setCore c k).ru = d.ru := rfl
@[simp] theorem Die.setCore_sync (c : CoreIx) (k : Core) : (d.setCore c k).sync = d.sync := rfl
@[simp] theorem Die.setCore_launches (c : CoreIx) (k : Core) : (d.setCore c k).launches = d.launches := rfl
@[simp] theorem Die.setCore_pkts (c : CoreIx) (k : Core) : (d.setCore c k).pkts = d.pkts := rfl
@[simp] theorem Die.setCore_cp (c : CoreIx) (k : Core) : (d.setCore c k).cp = d.cp := rfl
@[simp] theorem Die.setCore_cache (c : CoreIx) (k : Core) : (d.setCore c k).cache = d.cache := rfl
@[simp] theorem Die.setCore_mem (c : CoreIx) (k : Core) : (d.setCore c k).mem = d.mem := rfl
@[simp] theorem Die.setCore_tr (c : CoreIx) (k : Core) : (d.setCore c k).tr = d.tr := rfl
@[simp] theorem Die.setCore_host (c : CoreIx) (k : Core) : (d.setCore c k).host = d.host := rfl
@[simp] theorem Die.setCore_ports (c : CoreIx) (k : Core) : (d.setCore c k).ports = d.ports := rfl
@[simp] theorem Die.setCore_parts (c : CoreIx) (k : Core) : (d.setCore c k).parts = d.parts := rfl
@[simp] theorem Die.setCore_fault (c : CoreIx) (k : Core) : (d.setCore c k).fault = d.fault := rfl
@[simp] theorem Die.setCore_power (c : CoreIx) (k : Core) : (d.setCore c k).power = d.power := rfl
@[simp] theorem Die.setCore_boot (c : CoreIx) (k : Core) : (d.setCore c k).boot = d.boot := rfl
@[simp] theorem Die.setCore_pins (c : CoreIx) (k : Core) : (d.setCore c k).pins = d.pins := rfl
@[simp] theorem Die.setCore_out (c : CoreIx) (k : Core) : (d.setCore c k).out = d.out := rfl

/-! ### Die.emit -/

@[simp] theorem Die.emit_fuses (o : Out) : (d.emit o).fuses = d.fuses := rfl
@[simp] theorem Die.emit_dieId (o : Out) : (d.emit o).dieId = d.dieId := rfl
@[simp] theorem Die.emit_pkgId (o : Out) : (d.emit o).pkgId = d.pkgId := rfl
@[simp] theorem Die.emit_regs (o : Out) : (d.emit o).regs = d.regs := rfl
@[simp] theorem Die.emit_freeCtr (o : Out) : (d.emit o).freeCtr = d.freeCtr := rfl
@[simp] theorem Die.emit_clk (o : Out) : (d.emit o).clk = d.clk := rfl
@[simp] theorem Die.emit_clkInTick (o : Out) : (d.emit o).clkInTick = d.clkInTick := rfl
@[simp] theorem Die.emit_tick (o : Out) : (d.emit o).tick = d.tick := rfl
@[simp] theorem Die.emit_cores (o : Out) : (d.emit o).cores = d.cores := rfl
@[simp] theorem Die.emit_ru (o : Out) : (d.emit o).ru = d.ru := rfl
@[simp] theorem Die.emit_sync (o : Out) : (d.emit o).sync = d.sync := rfl
@[simp] theorem Die.emit_launches (o : Out) : (d.emit o).launches = d.launches := rfl
@[simp] theorem Die.emit_pkts (o : Out) : (d.emit o).pkts = d.pkts := rfl
@[simp] theorem Die.emit_cp (o : Out) : (d.emit o).cp = d.cp := rfl
@[simp] theorem Die.emit_cache (o : Out) : (d.emit o).cache = d.cache := rfl
@[simp] theorem Die.emit_mem (o : Out) : (d.emit o).mem = d.mem := rfl
@[simp] theorem Die.emit_tr (o : Out) : (d.emit o).tr = d.tr := rfl
@[simp] theorem Die.emit_host (o : Out) : (d.emit o).host = d.host := rfl
@[simp] theorem Die.emit_ports (o : Out) : (d.emit o).ports = d.ports := rfl
@[simp] theorem Die.emit_parts (o : Out) : (d.emit o).parts = d.parts := rfl
@[simp] theorem Die.emit_fault (o : Out) : (d.emit o).fault = d.fault := rfl
@[simp] theorem Die.emit_power (o : Out) : (d.emit o).power = d.power := rfl
@[simp] theorem Die.emit_boot (o : Out) : (d.emit o).boot = d.boot := rfl
@[simp] theorem Die.emit_pins (o : Out) : (d.emit o).pins = d.pins := rfl
@[simp] theorem Die.emit_out (o : Out) : (d.emit o).out = d.out ++ [o] := rfl

/-! ### Die.raise -/

@[simp] theorem Die.raise_fuses (src : Fin 20) (cls : Cls) (det : W32) : (d.raise src cls det).fuses = d.fuses := rfl
@[simp] theorem Die.raise_dieId (src : Fin 20) (cls : Cls) (det : W32) : (d.raise src cls det).dieId = d.dieId := rfl
@[simp] theorem Die.raise_pkgId (src : Fin 20) (cls : Cls) (det : W32) : (d.raise src cls det).pkgId = d.pkgId := rfl
@[simp] theorem Die.raise_regs (src : Fin 20) (cls : Cls) (det : W32) : (d.raise src cls det).regs = d.regs := rfl
@[simp] theorem Die.raise_freeCtr (src : Fin 20) (cls : Cls) (det : W32) : (d.raise src cls det).freeCtr = d.freeCtr := rfl
@[simp] theorem Die.raise_clk (src : Fin 20) (cls : Cls) (det : W32) : (d.raise src cls det).clk = d.clk := rfl
@[simp] theorem Die.raise_clkInTick (src : Fin 20) (cls : Cls) (det : W32) : (d.raise src cls det).clkInTick = d.clkInTick := rfl
@[simp] theorem Die.raise_tick (src : Fin 20) (cls : Cls) (det : W32) : (d.raise src cls det).tick = d.tick := rfl
@[simp] theorem Die.raise_cores (src : Fin 20) (cls : Cls) (det : W32) : (d.raise src cls det).cores = d.cores := rfl
@[simp] theorem Die.raise_ru (src : Fin 20) (cls : Cls) (det : W32) : (d.raise src cls det).ru = d.ru := rfl
@[simp] theorem Die.raise_sync (src : Fin 20) (cls : Cls) (det : W32) : (d.raise src cls det).sync = d.sync := rfl
@[simp] theorem Die.raise_launches (src : Fin 20) (cls : Cls) (det : W32) : (d.raise src cls det).launches = d.launches := rfl
@[simp] theorem Die.raise_pkts (src : Fin 20) (cls : Cls) (det : W32) : (d.raise src cls det).pkts = d.pkts := rfl
@[simp] theorem Die.raise_cp (src : Fin 20) (cls : Cls) (det : W32) : (d.raise src cls det).cp = d.cp := rfl
@[simp] theorem Die.raise_cache (src : Fin 20) (cls : Cls) (det : W32) : (d.raise src cls det).cache = d.cache := rfl
@[simp] theorem Die.raise_mem (src : Fin 20) (cls : Cls) (det : W32) : (d.raise src cls det).mem = d.mem := rfl
@[simp] theorem Die.raise_tr (src : Fin 20) (cls : Cls) (det : W32) : (d.raise src cls det).tr = d.tr := rfl
@[simp] theorem Die.raise_host (src : Fin 20) (cls : Cls) (det : W32) : (d.raise src cls det).host = d.host := rfl
@[simp] theorem Die.raise_ports (src : Fin 20) (cls : Cls) (det : W32) : (d.raise src cls det).ports = d.ports := rfl
@[simp] theorem Die.raise_parts (src : Fin 20) (cls : Cls) (det : W32) : (d.raise src cls det).parts = d.parts := rfl
@[simp] theorem Die.raise_power (src : Fin 20) (cls : Cls) (det : W32) : (d.raise src cls det).power = d.power := rfl
@[simp] theorem Die.raise_boot (src : Fin 20) (cls : Cls) (det : W32) : (d.raise src cls det).boot = d.boot := rfl
@[simp] theorem Die.raise_pins (src : Fin 20) (cls : Cls) (det : W32) : (d.raise src cls det).pins = d.pins := rfl
@[simp] theorem Die.raise_out (src : Fin 20) (cls : Cls) (det : W32) : (d.raise src cls det).out = d.out := rfl

/-! ### Die.onPkt -/

@[simp] theorem Die.onPkt_fuses (pid : Nat) (f : Pkt → Pkt) : (d.onPkt pid f).fuses = d.fuses := rfl
@[simp] theorem Die.onPkt_dieId (pid : Nat) (f : Pkt → Pkt) : (d.onPkt pid f).dieId = d.dieId := rfl
@[simp] theorem Die.onPkt_pkgId (pid : Nat) (f : Pkt → Pkt) : (d.onPkt pid f).pkgId = d.pkgId := rfl
@[simp] theorem Die.onPkt_regs (pid : Nat) (f : Pkt → Pkt) : (d.onPkt pid f).regs = d.regs := rfl
@[simp] theorem Die.onPkt_freeCtr (pid : Nat) (f : Pkt → Pkt) : (d.onPkt pid f).freeCtr = d.freeCtr := rfl
@[simp] theorem Die.onPkt_clk (pid : Nat) (f : Pkt → Pkt) : (d.onPkt pid f).clk = d.clk := rfl
@[simp] theorem Die.onPkt_clkInTick (pid : Nat) (f : Pkt → Pkt) : (d.onPkt pid f).clkInTick = d.clkInTick := rfl
@[simp] theorem Die.onPkt_tick (pid : Nat) (f : Pkt → Pkt) : (d.onPkt pid f).tick = d.tick := rfl
@[simp] theorem Die.onPkt_cores (pid : Nat) (f : Pkt → Pkt) : (d.onPkt pid f).cores = d.cores := rfl
@[simp] theorem Die.onPkt_ru (pid : Nat) (f : Pkt → Pkt) : (d.onPkt pid f).ru = d.ru := rfl
@[simp] theorem Die.onPkt_sync (pid : Nat) (f : Pkt → Pkt) : (d.onPkt pid f).sync = d.sync := rfl
@[simp] theorem Die.onPkt_launches (pid : Nat) (f : Pkt → Pkt) : (d.onPkt pid f).launches = d.launches := rfl
@[simp] theorem Die.onPkt_cp (pid : Nat) (f : Pkt → Pkt) : (d.onPkt pid f).cp = d.cp := rfl
@[simp] theorem Die.onPkt_cache (pid : Nat) (f : Pkt → Pkt) : (d.onPkt pid f).cache = d.cache := rfl
@[simp] theorem Die.onPkt_mem (pid : Nat) (f : Pkt → Pkt) : (d.onPkt pid f).mem = d.mem := rfl
@[simp] theorem Die.onPkt_tr (pid : Nat) (f : Pkt → Pkt) : (d.onPkt pid f).tr = d.tr := rfl
@[simp] theorem Die.onPkt_host (pid : Nat) (f : Pkt → Pkt) : (d.onPkt pid f).host = d.host := rfl
@[simp] theorem Die.onPkt_ports (pid : Nat) (f : Pkt → Pkt) : (d.onPkt pid f).ports = d.ports := rfl
@[simp] theorem Die.onPkt_parts (pid : Nat) (f : Pkt → Pkt) : (d.onPkt pid f).parts = d.parts := rfl
@[simp] theorem Die.onPkt_fault (pid : Nat) (f : Pkt → Pkt) : (d.onPkt pid f).fault = d.fault := rfl
@[simp] theorem Die.onPkt_power (pid : Nat) (f : Pkt → Pkt) : (d.onPkt pid f).power = d.power := rfl
@[simp] theorem Die.onPkt_boot (pid : Nat) (f : Pkt → Pkt) : (d.onPkt pid f).boot = d.boot := rfl
@[simp] theorem Die.onPkt_pins (pid : Nat) (f : Pkt → Pkt) : (d.onPkt pid f).pins = d.pins := rfl
@[simp] theorem Die.onPkt_out (pid : Nat) (f : Pkt → Pkt) : (d.onPkt pid f).out = d.out := rfl

/-! ### Die.onLaunch -/

@[simp] theorem Die.onLaunch_fuses (key : Nat) (f : Launch → Launch) : (d.onLaunch key f).fuses = d.fuses := rfl
@[simp] theorem Die.onLaunch_dieId (key : Nat) (f : Launch → Launch) : (d.onLaunch key f).dieId = d.dieId := rfl
@[simp] theorem Die.onLaunch_pkgId (key : Nat) (f : Launch → Launch) : (d.onLaunch key f).pkgId = d.pkgId := rfl
@[simp] theorem Die.onLaunch_regs (key : Nat) (f : Launch → Launch) : (d.onLaunch key f).regs = d.regs := rfl
@[simp] theorem Die.onLaunch_freeCtr (key : Nat) (f : Launch → Launch) : (d.onLaunch key f).freeCtr = d.freeCtr := rfl
@[simp] theorem Die.onLaunch_clk (key : Nat) (f : Launch → Launch) : (d.onLaunch key f).clk = d.clk := rfl
@[simp] theorem Die.onLaunch_clkInTick (key : Nat) (f : Launch → Launch) : (d.onLaunch key f).clkInTick = d.clkInTick := rfl
@[simp] theorem Die.onLaunch_tick (key : Nat) (f : Launch → Launch) : (d.onLaunch key f).tick = d.tick := rfl
@[simp] theorem Die.onLaunch_cores (key : Nat) (f : Launch → Launch) : (d.onLaunch key f).cores = d.cores := rfl
@[simp] theorem Die.onLaunch_ru (key : Nat) (f : Launch → Launch) : (d.onLaunch key f).ru = d.ru := rfl
@[simp] theorem Die.onLaunch_sync (key : Nat) (f : Launch → Launch) : (d.onLaunch key f).sync = d.sync := rfl
@[simp] theorem Die.onLaunch_pkts (key : Nat) (f : Launch → Launch) : (d.onLaunch key f).pkts = d.pkts := rfl
@[simp] theorem Die.onLaunch_cp (key : Nat) (f : Launch → Launch) : (d.onLaunch key f).cp = d.cp := rfl
@[simp] theorem Die.onLaunch_cache (key : Nat) (f : Launch → Launch) : (d.onLaunch key f).cache = d.cache := rfl
@[simp] theorem Die.onLaunch_mem (key : Nat) (f : Launch → Launch) : (d.onLaunch key f).mem = d.mem := rfl
@[simp] theorem Die.onLaunch_tr (key : Nat) (f : Launch → Launch) : (d.onLaunch key f).tr = d.tr := rfl
@[simp] theorem Die.onLaunch_host (key : Nat) (f : Launch → Launch) : (d.onLaunch key f).host = d.host := rfl
@[simp] theorem Die.onLaunch_ports (key : Nat) (f : Launch → Launch) : (d.onLaunch key f).ports = d.ports := rfl
@[simp] theorem Die.onLaunch_parts (key : Nat) (f : Launch → Launch) : (d.onLaunch key f).parts = d.parts := rfl
@[simp] theorem Die.onLaunch_fault (key : Nat) (f : Launch → Launch) : (d.onLaunch key f).fault = d.fault := rfl
@[simp] theorem Die.onLaunch_power (key : Nat) (f : Launch → Launch) : (d.onLaunch key f).power = d.power := rfl
@[simp] theorem Die.onLaunch_boot (key : Nat) (f : Launch → Launch) : (d.onLaunch key f).boot = d.boot := rfl
@[simp] theorem Die.onLaunch_pins (key : Nat) (f : Launch → Launch) : (d.onLaunch key f).pins = d.pins := rfl
@[simp] theorem Die.onLaunch_out (key : Nat) (f : Launch → Launch) : (d.onLaunch key f).out = d.out := rfl

/-! ### Die.onSync -/

@[simp] theorem Die.onSync_fuses (f : SyncUnit → SyncUnit) : (d.onSync f).fuses = d.fuses := rfl
@[simp] theorem Die.onSync_dieId (f : SyncUnit → SyncUnit) : (d.onSync f).dieId = d.dieId := rfl
@[simp] theorem Die.onSync_pkgId (f : SyncUnit → SyncUnit) : (d.onSync f).pkgId = d.pkgId := rfl
@[simp] theorem Die.onSync_regs (f : SyncUnit → SyncUnit) : (d.onSync f).regs = d.regs := rfl
@[simp] theorem Die.onSync_freeCtr (f : SyncUnit → SyncUnit) : (d.onSync f).freeCtr = d.freeCtr := rfl
@[simp] theorem Die.onSync_clk (f : SyncUnit → SyncUnit) : (d.onSync f).clk = d.clk := rfl
@[simp] theorem Die.onSync_clkInTick (f : SyncUnit → SyncUnit) : (d.onSync f).clkInTick = d.clkInTick := rfl
@[simp] theorem Die.onSync_tick (f : SyncUnit → SyncUnit) : (d.onSync f).tick = d.tick := rfl
@[simp] theorem Die.onSync_cores (f : SyncUnit → SyncUnit) : (d.onSync f).cores = d.cores := rfl
@[simp] theorem Die.onSync_ru (f : SyncUnit → SyncUnit) : (d.onSync f).ru = d.ru := rfl
@[simp] theorem Die.onSync_sync (f : SyncUnit → SyncUnit) : (d.onSync f).sync = f d.sync := rfl
@[simp] theorem Die.onSync_launches (f : SyncUnit → SyncUnit) : (d.onSync f).launches = d.launches := rfl
@[simp] theorem Die.onSync_pkts (f : SyncUnit → SyncUnit) : (d.onSync f).pkts = d.pkts := rfl
@[simp] theorem Die.onSync_cp (f : SyncUnit → SyncUnit) : (d.onSync f).cp = d.cp := rfl
@[simp] theorem Die.onSync_cache (f : SyncUnit → SyncUnit) : (d.onSync f).cache = d.cache := rfl
@[simp] theorem Die.onSync_mem (f : SyncUnit → SyncUnit) : (d.onSync f).mem = d.mem := rfl
@[simp] theorem Die.onSync_tr (f : SyncUnit → SyncUnit) : (d.onSync f).tr = d.tr := rfl
@[simp] theorem Die.onSync_host (f : SyncUnit → SyncUnit) : (d.onSync f).host = d.host := rfl
@[simp] theorem Die.onSync_ports (f : SyncUnit → SyncUnit) : (d.onSync f).ports = d.ports := rfl
@[simp] theorem Die.onSync_parts (f : SyncUnit → SyncUnit) : (d.onSync f).parts = d.parts := rfl
@[simp] theorem Die.onSync_fault (f : SyncUnit → SyncUnit) : (d.onSync f).fault = d.fault := rfl
@[simp] theorem Die.onSync_power (f : SyncUnit → SyncUnit) : (d.onSync f).power = d.power := rfl
@[simp] theorem Die.onSync_boot (f : SyncUnit → SyncUnit) : (d.onSync f).boot = d.boot := rfl
@[simp] theorem Die.onSync_pins (f : SyncUnit → SyncUnit) : (d.onSync f).pins = d.pins := rfl
@[simp] theorem Die.onSync_out (f : SyncUnit → SyncUnit) : (d.onSync f).out = d.out := rfl

/-! ### Die.onCache -/

@[simp] theorem Die.onCache_fuses (f : CacheUnit → CacheUnit) : (d.onCache f).fuses = d.fuses := rfl
@[simp] theorem Die.onCache_dieId (f : CacheUnit → CacheUnit) : (d.onCache f).dieId = d.dieId := rfl
@[simp] theorem Die.onCache_pkgId (f : CacheUnit → CacheUnit) : (d.onCache f).pkgId = d.pkgId := rfl
@[simp] theorem Die.onCache_regs (f : CacheUnit → CacheUnit) : (d.onCache f).regs = d.regs := rfl
@[simp] theorem Die.onCache_freeCtr (f : CacheUnit → CacheUnit) : (d.onCache f).freeCtr = d.freeCtr := rfl
@[simp] theorem Die.onCache_clk (f : CacheUnit → CacheUnit) : (d.onCache f).clk = d.clk := rfl
@[simp] theorem Die.onCache_clkInTick (f : CacheUnit → CacheUnit) : (d.onCache f).clkInTick = d.clkInTick := rfl
@[simp] theorem Die.onCache_tick (f : CacheUnit → CacheUnit) : (d.onCache f).tick = d.tick := rfl
@[simp] theorem Die.onCache_cores (f : CacheUnit → CacheUnit) : (d.onCache f).cores = d.cores := rfl
@[simp] theorem Die.onCache_ru (f : CacheUnit → CacheUnit) : (d.onCache f).ru = d.ru := rfl
@[simp] theorem Die.onCache_sync (f : CacheUnit → CacheUnit) : (d.onCache f).sync = d.sync := rfl
@[simp] theorem Die.onCache_launches (f : CacheUnit → CacheUnit) : (d.onCache f).launches = d.launches := rfl
@[simp] theorem Die.onCache_pkts (f : CacheUnit → CacheUnit) : (d.onCache f).pkts = d.pkts := rfl
@[simp] theorem Die.onCache_cp (f : CacheUnit → CacheUnit) : (d.onCache f).cp = d.cp := rfl
@[simp] theorem Die.onCache_cache (f : CacheUnit → CacheUnit) : (d.onCache f).cache = f d.cache := rfl
@[simp] theorem Die.onCache_mem (f : CacheUnit → CacheUnit) : (d.onCache f).mem = d.mem := rfl
@[simp] theorem Die.onCache_tr (f : CacheUnit → CacheUnit) : (d.onCache f).tr = d.tr := rfl
@[simp] theorem Die.onCache_host (f : CacheUnit → CacheUnit) : (d.onCache f).host = d.host := rfl
@[simp] theorem Die.onCache_ports (f : CacheUnit → CacheUnit) : (d.onCache f).ports = d.ports := rfl
@[simp] theorem Die.onCache_parts (f : CacheUnit → CacheUnit) : (d.onCache f).parts = d.parts := rfl
@[simp] theorem Die.onCache_fault (f : CacheUnit → CacheUnit) : (d.onCache f).fault = d.fault := rfl
@[simp] theorem Die.onCache_power (f : CacheUnit → CacheUnit) : (d.onCache f).power = d.power := rfl
@[simp] theorem Die.onCache_boot (f : CacheUnit → CacheUnit) : (d.onCache f).boot = d.boot := rfl
@[simp] theorem Die.onCache_pins (f : CacheUnit → CacheUnit) : (d.onCache f).pins = d.pins := rfl
@[simp] theorem Die.onCache_out (f : CacheUnit → CacheUnit) : (d.onCache f).out = d.out := rfl

/-! ### Die.onTr -/

@[simp] theorem Die.onTr_fuses (f : TransUnit → TransUnit) : (d.onTr f).fuses = d.fuses := rfl
@[simp] theorem Die.onTr_dieId (f : TransUnit → TransUnit) : (d.onTr f).dieId = d.dieId := rfl
@[simp] theorem Die.onTr_pkgId (f : TransUnit → TransUnit) : (d.onTr f).pkgId = d.pkgId := rfl
@[simp] theorem Die.onTr_regs (f : TransUnit → TransUnit) : (d.onTr f).regs = d.regs := rfl
@[simp] theorem Die.onTr_freeCtr (f : TransUnit → TransUnit) : (d.onTr f).freeCtr = d.freeCtr := rfl
@[simp] theorem Die.onTr_clk (f : TransUnit → TransUnit) : (d.onTr f).clk = d.clk := rfl
@[simp] theorem Die.onTr_clkInTick (f : TransUnit → TransUnit) : (d.onTr f).clkInTick = d.clkInTick := rfl
@[simp] theorem Die.onTr_tick (f : TransUnit → TransUnit) : (d.onTr f).tick = d.tick := rfl
@[simp] theorem Die.onTr_cores (f : TransUnit → TransUnit) : (d.onTr f).cores = d.cores := rfl
@[simp] theorem Die.onTr_ru (f : TransUnit → TransUnit) : (d.onTr f).ru = d.ru := rfl
@[simp] theorem Die.onTr_sync (f : TransUnit → TransUnit) : (d.onTr f).sync = d.sync := rfl
@[simp] theorem Die.onTr_launches (f : TransUnit → TransUnit) : (d.onTr f).launches = d.launches := rfl
@[simp] theorem Die.onTr_pkts (f : TransUnit → TransUnit) : (d.onTr f).pkts = d.pkts := rfl
@[simp] theorem Die.onTr_cp (f : TransUnit → TransUnit) : (d.onTr f).cp = d.cp := rfl
@[simp] theorem Die.onTr_cache (f : TransUnit → TransUnit) : (d.onTr f).cache = d.cache := rfl
@[simp] theorem Die.onTr_mem (f : TransUnit → TransUnit) : (d.onTr f).mem = d.mem := rfl
@[simp] theorem Die.onTr_tr (f : TransUnit → TransUnit) : (d.onTr f).tr = f d.tr := rfl
@[simp] theorem Die.onTr_host (f : TransUnit → TransUnit) : (d.onTr f).host = d.host := rfl
@[simp] theorem Die.onTr_ports (f : TransUnit → TransUnit) : (d.onTr f).ports = d.ports := rfl
@[simp] theorem Die.onTr_parts (f : TransUnit → TransUnit) : (d.onTr f).parts = d.parts := rfl
@[simp] theorem Die.onTr_fault (f : TransUnit → TransUnit) : (d.onTr f).fault = d.fault := rfl
@[simp] theorem Die.onTr_power (f : TransUnit → TransUnit) : (d.onTr f).power = d.power := rfl
@[simp] theorem Die.onTr_boot (f : TransUnit → TransUnit) : (d.onTr f).boot = d.boot := rfl
@[simp] theorem Die.onTr_pins (f : TransUnit → TransUnit) : (d.onTr f).pins = d.pins := rfl
@[simp] theorem Die.onTr_out (f : TransUnit → TransUnit) : (d.onTr f).out = d.out := rfl

/-! ### Die.onHost -/

@[simp] theorem Die.onHost_fuses (f : HostUnit → HostUnit) : (d.onHost f).fuses = d.fuses := rfl
@[simp] theorem Die.onHost_dieId (f : HostUnit → HostUnit) : (d.onHost f).dieId = d.dieId := rfl
@[simp] theorem Die.onHost_pkgId (f : HostUnit → HostUnit) : (d.onHost f).pkgId = d.pkgId := rfl
@[simp] theorem Die.onHost_regs (f : HostUnit → HostUnit) : (d.onHost f).regs = d.regs := rfl
@[simp] theorem Die.onHost_freeCtr (f : HostUnit → HostUnit) : (d.onHost f).freeCtr = d.freeCtr := rfl
@[simp] theorem Die.onHost_clk (f : HostUnit → HostUnit) : (d.onHost f).clk = d.clk := rfl
@[simp] theorem Die.onHost_clkInTick (f : HostUnit → HostUnit) : (d.onHost f).clkInTick = d.clkInTick := rfl
@[simp] theorem Die.onHost_tick (f : HostUnit → HostUnit) : (d.onHost f).tick = d.tick := rfl
@[simp] theorem Die.onHost_cores (f : HostUnit → HostUnit) : (d.onHost f).cores = d.cores := rfl
@[simp] theorem Die.onHost_ru (f : HostUnit → HostUnit) : (d.onHost f).ru = d.ru := rfl
@[simp] theorem Die.onHost_sync (f : HostUnit → HostUnit) : (d.onHost f).sync = d.sync := rfl
@[simp] theorem Die.onHost_launches (f : HostUnit → HostUnit) : (d.onHost f).launches = d.launches := rfl
@[simp] theorem Die.onHost_pkts (f : HostUnit → HostUnit) : (d.onHost f).pkts = d.pkts := rfl
@[simp] theorem Die.onHost_cp (f : HostUnit → HostUnit) : (d.onHost f).cp = d.cp := rfl
@[simp] theorem Die.onHost_cache (f : HostUnit → HostUnit) : (d.onHost f).cache = d.cache := rfl
@[simp] theorem Die.onHost_mem (f : HostUnit → HostUnit) : (d.onHost f).mem = d.mem := rfl
@[simp] theorem Die.onHost_tr (f : HostUnit → HostUnit) : (d.onHost f).tr = d.tr := rfl
@[simp] theorem Die.onHost_host (f : HostUnit → HostUnit) : (d.onHost f).host = f d.host := rfl
@[simp] theorem Die.onHost_ports (f : HostUnit → HostUnit) : (d.onHost f).ports = d.ports := rfl
@[simp] theorem Die.onHost_parts (f : HostUnit → HostUnit) : (d.onHost f).parts = d.parts := rfl
@[simp] theorem Die.onHost_fault (f : HostUnit → HostUnit) : (d.onHost f).fault = d.fault := rfl
@[simp] theorem Die.onHost_power (f : HostUnit → HostUnit) : (d.onHost f).power = d.power := rfl
@[simp] theorem Die.onHost_boot (f : HostUnit → HostUnit) : (d.onHost f).boot = d.boot := rfl
@[simp] theorem Die.onHost_pins (f : HostUnit → HostUnit) : (d.onHost f).pins = d.pins := rfl
@[simp] theorem Die.onHost_out (f : HostUnit → HostUnit) : (d.onHost f).out = d.out := rfl

/-! ### Die.onPorts -/

@[simp] theorem Die.onPorts_fuses (f : PortUnit → PortUnit) : (d.onPorts f).fuses = d.fuses := rfl
@[simp] theorem Die.onPorts_dieId (f : PortUnit → PortUnit) : (d.onPorts f).dieId = d.dieId := rfl
@[simp] theorem Die.onPorts_pkgId (f : PortUnit → PortUnit) : (d.onPorts f).pkgId = d.pkgId := rfl
@[simp] theorem Die.onPorts_regs (f : PortUnit → PortUnit) : (d.onPorts f).regs = d.regs := rfl
@[simp] theorem Die.onPorts_freeCtr (f : PortUnit → PortUnit) : (d.onPorts f).freeCtr = d.freeCtr := rfl
@[simp] theorem Die.onPorts_clk (f : PortUnit → PortUnit) : (d.onPorts f).clk = d.clk := rfl
@[simp] theorem Die.onPorts_clkInTick (f : PortUnit → PortUnit) : (d.onPorts f).clkInTick = d.clkInTick := rfl
@[simp] theorem Die.onPorts_tick (f : PortUnit → PortUnit) : (d.onPorts f).tick = d.tick := rfl
@[simp] theorem Die.onPorts_cores (f : PortUnit → PortUnit) : (d.onPorts f).cores = d.cores := rfl
@[simp] theorem Die.onPorts_ru (f : PortUnit → PortUnit) : (d.onPorts f).ru = d.ru := rfl
@[simp] theorem Die.onPorts_sync (f : PortUnit → PortUnit) : (d.onPorts f).sync = d.sync := rfl
@[simp] theorem Die.onPorts_launches (f : PortUnit → PortUnit) : (d.onPorts f).launches = d.launches := rfl
@[simp] theorem Die.onPorts_pkts (f : PortUnit → PortUnit) : (d.onPorts f).pkts = d.pkts := rfl
@[simp] theorem Die.onPorts_cp (f : PortUnit → PortUnit) : (d.onPorts f).cp = d.cp := rfl
@[simp] theorem Die.onPorts_cache (f : PortUnit → PortUnit) : (d.onPorts f).cache = d.cache := rfl
@[simp] theorem Die.onPorts_mem (f : PortUnit → PortUnit) : (d.onPorts f).mem = d.mem := rfl
@[simp] theorem Die.onPorts_tr (f : PortUnit → PortUnit) : (d.onPorts f).tr = d.tr := rfl
@[simp] theorem Die.onPorts_host (f : PortUnit → PortUnit) : (d.onPorts f).host = d.host := rfl
@[simp] theorem Die.onPorts_ports (f : PortUnit → PortUnit) : (d.onPorts f).ports = f d.ports := rfl
@[simp] theorem Die.onPorts_parts (f : PortUnit → PortUnit) : (d.onPorts f).parts = d.parts := rfl
@[simp] theorem Die.onPorts_fault (f : PortUnit → PortUnit) : (d.onPorts f).fault = d.fault := rfl
@[simp] theorem Die.onPorts_power (f : PortUnit → PortUnit) : (d.onPorts f).power = d.power := rfl
@[simp] theorem Die.onPorts_boot (f : PortUnit → PortUnit) : (d.onPorts f).boot = d.boot := rfl
@[simp] theorem Die.onPorts_pins (f : PortUnit → PortUnit) : (d.onPorts f).pins = d.pins := rfl
@[simp] theorem Die.onPorts_out (f : PortUnit → PortUnit) : (d.onPorts f).out = d.out := rfl

/-! ### Die.onRu -/

@[simp] theorem Die.onRu_fuses (f : RuUnit → RuUnit) : (d.onRu f).fuses = d.fuses := rfl
@[simp] theorem Die.onRu_dieId (f : RuUnit → RuUnit) : (d.onRu f).dieId = d.dieId := rfl
@[simp] theorem Die.onRu_pkgId (f : RuUnit → RuUnit) : (d.onRu f).pkgId = d.pkgId := rfl
@[simp] theorem Die.onRu_regs (f : RuUnit → RuUnit) : (d.onRu f).regs = d.regs := rfl
@[simp] theorem Die.onRu_freeCtr (f : RuUnit → RuUnit) : (d.onRu f).freeCtr = d.freeCtr := rfl
@[simp] theorem Die.onRu_clk (f : RuUnit → RuUnit) : (d.onRu f).clk = d.clk := rfl
@[simp] theorem Die.onRu_clkInTick (f : RuUnit → RuUnit) : (d.onRu f).clkInTick = d.clkInTick := rfl
@[simp] theorem Die.onRu_tick (f : RuUnit → RuUnit) : (d.onRu f).tick = d.tick := rfl
@[simp] theorem Die.onRu_cores (f : RuUnit → RuUnit) : (d.onRu f).cores = d.cores := rfl
@[simp] theorem Die.onRu_ru (f : RuUnit → RuUnit) : (d.onRu f).ru = f d.ru := rfl
@[simp] theorem Die.onRu_sync (f : RuUnit → RuUnit) : (d.onRu f).sync = d.sync := rfl
@[simp] theorem Die.onRu_launches (f : RuUnit → RuUnit) : (d.onRu f).launches = d.launches := rfl
@[simp] theorem Die.onRu_pkts (f : RuUnit → RuUnit) : (d.onRu f).pkts = d.pkts := rfl
@[simp] theorem Die.onRu_cp (f : RuUnit → RuUnit) : (d.onRu f).cp = d.cp := rfl
@[simp] theorem Die.onRu_cache (f : RuUnit → RuUnit) : (d.onRu f).cache = d.cache := rfl
@[simp] theorem Die.onRu_mem (f : RuUnit → RuUnit) : (d.onRu f).mem = d.mem := rfl
@[simp] theorem Die.onRu_tr (f : RuUnit → RuUnit) : (d.onRu f).tr = d.tr := rfl
@[simp] theorem Die.onRu_host (f : RuUnit → RuUnit) : (d.onRu f).host = d.host := rfl
@[simp] theorem Die.onRu_ports (f : RuUnit → RuUnit) : (d.onRu f).ports = d.ports := rfl
@[simp] theorem Die.onRu_parts (f : RuUnit → RuUnit) : (d.onRu f).parts = d.parts := rfl
@[simp] theorem Die.onRu_fault (f : RuUnit → RuUnit) : (d.onRu f).fault = d.fault := rfl
@[simp] theorem Die.onRu_power (f : RuUnit → RuUnit) : (d.onRu f).power = d.power := rfl
@[simp] theorem Die.onRu_boot (f : RuUnit → RuUnit) : (d.onRu f).boot = d.boot := rfl
@[simp] theorem Die.onRu_pins (f : RuUnit → RuUnit) : (d.onRu f).pins = d.pins := rfl
@[simp] theorem Die.onRu_out (f : RuUnit → RuUnit) : (d.onRu f).out = d.out := rfl

/-! ### Die.onTick -/

@[simp] theorem Die.onTick_fuses (f : TickUnit → TickUnit) : (d.onTick f).fuses = d.fuses := rfl
@[simp] theorem Die.onTick_dieId (f : TickUnit → TickUnit) : (d.onTick f).dieId = d.dieId := rfl
@[simp] theorem Die.onTick_pkgId (f : TickUnit → TickUnit) : (d.onTick f).pkgId = d.pkgId := rfl
@[simp] theorem Die.onTick_regs (f : TickUnit → TickUnit) : (d.onTick f).regs = d.regs := rfl
@[simp] theorem Die.onTick_freeCtr (f : TickUnit → TickUnit) : (d.onTick f).freeCtr = d.freeCtr := rfl
@[simp] theorem Die.onTick_clk (f : TickUnit → TickUnit) : (d.onTick f).clk = d.clk := rfl
@[simp] theorem Die.onTick_clkInTick (f : TickUnit → TickUnit) : (d.onTick f).clkInTick = d.clkInTick := rfl
@[simp] theorem Die.onTick_tick (f : TickUnit → TickUnit) : (d.onTick f).tick = f d.tick := rfl
@[simp] theorem Die.onTick_cores (f : TickUnit → TickUnit) : (d.onTick f).cores = d.cores := rfl
@[simp] theorem Die.onTick_ru (f : TickUnit → TickUnit) : (d.onTick f).ru = d.ru := rfl
@[simp] theorem Die.onTick_sync (f : TickUnit → TickUnit) : (d.onTick f).sync = d.sync := rfl
@[simp] theorem Die.onTick_launches (f : TickUnit → TickUnit) : (d.onTick f).launches = d.launches := rfl
@[simp] theorem Die.onTick_pkts (f : TickUnit → TickUnit) : (d.onTick f).pkts = d.pkts := rfl
@[simp] theorem Die.onTick_cp (f : TickUnit → TickUnit) : (d.onTick f).cp = d.cp := rfl
@[simp] theorem Die.onTick_cache (f : TickUnit → TickUnit) : (d.onTick f).cache = d.cache := rfl
@[simp] theorem Die.onTick_mem (f : TickUnit → TickUnit) : (d.onTick f).mem = d.mem := rfl
@[simp] theorem Die.onTick_tr (f : TickUnit → TickUnit) : (d.onTick f).tr = d.tr := rfl
@[simp] theorem Die.onTick_host (f : TickUnit → TickUnit) : (d.onTick f).host = d.host := rfl
@[simp] theorem Die.onTick_ports (f : TickUnit → TickUnit) : (d.onTick f).ports = d.ports := rfl
@[simp] theorem Die.onTick_parts (f : TickUnit → TickUnit) : (d.onTick f).parts = d.parts := rfl
@[simp] theorem Die.onTick_fault (f : TickUnit → TickUnit) : (d.onTick f).fault = d.fault := rfl
@[simp] theorem Die.onTick_power (f : TickUnit → TickUnit) : (d.onTick f).power = d.power := rfl
@[simp] theorem Die.onTick_boot (f : TickUnit → TickUnit) : (d.onTick f).boot = d.boot := rfl
@[simp] theorem Die.onTick_pins (f : TickUnit → TickUnit) : (d.onTick f).pins = d.pins := rfl
@[simp] theorem Die.onTick_out (f : TickUnit → TickUnit) : (d.onTick f).out = d.out := rfl

/-! ### Die.onFault -/

@[simp] theorem Die.onFault_fuses (f : FaultUnit → FaultUnit) : (d.onFault f).fuses = d.fuses := rfl
@[simp] theorem Die.onFault_dieId (f : FaultUnit → FaultUnit) : (d.onFault f).dieId = d.dieId := rfl
@[simp] theorem Die.onFault_pkgId (f : FaultUnit → FaultUnit) : (d.onFault f).pkgId = d.pkgId := rfl
@[simp] theorem Die.onFault_regs (f : FaultUnit → FaultUnit) : (d.onFault f).regs = d.regs := rfl
@[simp] theorem Die.onFault_freeCtr (f : FaultUnit → FaultUnit) : (d.onFault f).freeCtr = d.freeCtr := rfl
@[simp] theorem Die.onFault_clk (f : FaultUnit → FaultUnit) : (d.onFault f).clk = d.clk := rfl
@[simp] theorem Die.onFault_clkInTick (f : FaultUnit → FaultUnit) : (d.onFault f).clkInTick = d.clkInTick := rfl
@[simp] theorem Die.onFault_tick (f : FaultUnit → FaultUnit) : (d.onFault f).tick = d.tick := rfl
@[simp] theorem Die.onFault_cores (f : FaultUnit → FaultUnit) : (d.onFault f).cores = d.cores := rfl
@[simp] theorem Die.onFault_ru (f : FaultUnit → FaultUnit) : (d.onFault f).ru = d.ru := rfl
@[simp] theorem Die.onFault_sync (f : FaultUnit → FaultUnit) : (d.onFault f).sync = d.sync := rfl
@[simp] theorem Die.onFault_launches (f : FaultUnit → FaultUnit) : (d.onFault f).launches = d.launches := rfl
@[simp] theorem Die.onFault_pkts (f : FaultUnit → FaultUnit) : (d.onFault f).pkts = d.pkts := rfl
@[simp] theorem Die.onFault_cp (f : FaultUnit → FaultUnit) : (d.onFault f).cp = d.cp := rfl
@[simp] theorem Die.onFault_cache (f : FaultUnit → FaultUnit) : (d.onFault f).cache = d.cache := rfl
@[simp] theorem Die.onFault_mem (f : FaultUnit → FaultUnit) : (d.onFault f).mem = d.mem := rfl
@[simp] theorem Die.onFault_tr (f : FaultUnit → FaultUnit) : (d.onFault f).tr = d.tr := rfl
@[simp] theorem Die.onFault_host (f : FaultUnit → FaultUnit) : (d.onFault f).host = d.host := rfl
@[simp] theorem Die.onFault_ports (f : FaultUnit → FaultUnit) : (d.onFault f).ports = d.ports := rfl
@[simp] theorem Die.onFault_parts (f : FaultUnit → FaultUnit) : (d.onFault f).parts = d.parts := rfl
@[simp] theorem Die.onFault_fault (f : FaultUnit → FaultUnit) : (d.onFault f).fault = f d.fault := rfl
@[simp] theorem Die.onFault_power (f : FaultUnit → FaultUnit) : (d.onFault f).power = d.power := rfl
@[simp] theorem Die.onFault_boot (f : FaultUnit → FaultUnit) : (d.onFault f).boot = d.boot := rfl
@[simp] theorem Die.onFault_pins (f : FaultUnit → FaultUnit) : (d.onFault f).pins = d.pins := rfl
@[simp] theorem Die.onFault_out (f : FaultUnit → FaultUnit) : (d.onFault f).out = d.out := rfl

/-! ### Die.onPower -/

@[simp] theorem Die.onPower_fuses (f : PowerUnit → PowerUnit) : (d.onPower f).fuses = d.fuses := rfl
@[simp] theorem Die.onPower_dieId (f : PowerUnit → PowerUnit) : (d.onPower f).dieId = d.dieId := rfl
@[simp] theorem Die.onPower_pkgId (f : PowerUnit → PowerUnit) : (d.onPower f).pkgId = d.pkgId := rfl
@[simp] theorem Die.onPower_regs (f : PowerUnit → PowerUnit) : (d.onPower f).regs = d.regs := rfl
@[simp] theorem Die.onPower_freeCtr (f : PowerUnit → PowerUnit) : (d.onPower f).freeCtr = d.freeCtr := rfl
@[simp] theorem Die.onPower_clk (f : PowerUnit → PowerUnit) : (d.onPower f).clk = d.clk := rfl
@[simp] theorem Die.onPower_clkInTick (f : PowerUnit → PowerUnit) : (d.onPower f).clkInTick = d.clkInTick := rfl
@[simp] theorem Die.onPower_tick (f : PowerUnit → PowerUnit) : (d.onPower f).tick = d.tick := rfl
@[simp] theorem Die.onPower_cores (f : PowerUnit → PowerUnit) : (d.onPower f).cores = d.cores := rfl
@[simp] theorem Die.onPower_ru (f : PowerUnit → PowerUnit) : (d.onPower f).ru = d.ru := rfl
@[simp] theorem Die.onPower_sync (f : PowerUnit → PowerUnit) : (d.onPower f).sync = d.sync := rfl
@[simp] theorem Die.onPower_launches (f : PowerUnit → PowerUnit) : (d.onPower f).launches = d.launches := rfl
@[simp] theorem Die.onPower_pkts (f : PowerUnit → PowerUnit) : (d.onPower f).pkts = d.pkts := rfl
@[simp] theorem Die.onPower_cp (f : PowerUnit → PowerUnit) : (d.onPower f).cp = d.cp := rfl
@[simp] theorem Die.onPower_cache (f : PowerUnit → PowerUnit) : (d.onPower f).cache = d.cache := rfl
@[simp] theorem Die.onPower_mem (f : PowerUnit → PowerUnit) : (d.onPower f).mem = d.mem := rfl
@[simp] theorem Die.onPower_tr (f : PowerUnit → PowerUnit) : (d.onPower f).tr = d.tr := rfl
@[simp] theorem Die.onPower_host (f : PowerUnit → PowerUnit) : (d.onPower f).host = d.host := rfl
@[simp] theorem Die.onPower_ports (f : PowerUnit → PowerUnit) : (d.onPower f).ports = d.ports := rfl
@[simp] theorem Die.onPower_parts (f : PowerUnit → PowerUnit) : (d.onPower f).parts = d.parts := rfl
@[simp] theorem Die.onPower_fault (f : PowerUnit → PowerUnit) : (d.onPower f).fault = d.fault := rfl
@[simp] theorem Die.onPower_power (f : PowerUnit → PowerUnit) : (d.onPower f).power = f d.power := rfl
@[simp] theorem Die.onPower_boot (f : PowerUnit → PowerUnit) : (d.onPower f).boot = d.boot := rfl
@[simp] theorem Die.onPower_pins (f : PowerUnit → PowerUnit) : (d.onPower f).pins = d.pins := rfl
@[simp] theorem Die.onPower_out (f : PowerUnit → PowerUnit) : (d.onPower f).out = d.out := rfl

/-! ### Die.onCp -/

@[simp] theorem Die.onCp_fuses (f : CpUnit → CpUnit) : (d.onCp f).fuses = d.fuses := rfl
@[simp] theorem Die.onCp_dieId (f : CpUnit → CpUnit) : (d.onCp f).dieId = d.dieId := rfl
@[simp] theorem Die.onCp_pkgId (f : CpUnit → CpUnit) : (d.onCp f).pkgId = d.pkgId := rfl
@[simp] theorem Die.onCp_regs (f : CpUnit → CpUnit) : (d.onCp f).regs = d.regs := rfl
@[simp] theorem Die.onCp_freeCtr (f : CpUnit → CpUnit) : (d.onCp f).freeCtr = d.freeCtr := rfl
@[simp] theorem Die.onCp_clk (f : CpUnit → CpUnit) : (d.onCp f).clk = d.clk := rfl
@[simp] theorem Die.onCp_clkInTick (f : CpUnit → CpUnit) : (d.onCp f).clkInTick = d.clkInTick := rfl
@[simp] theorem Die.onCp_tick (f : CpUnit → CpUnit) : (d.onCp f).tick = d.tick := rfl
@[simp] theorem Die.onCp_cores (f : CpUnit → CpUnit) : (d.onCp f).cores = d.cores := rfl
@[simp] theorem Die.onCp_ru (f : CpUnit → CpUnit) : (d.onCp f).ru = d.ru := rfl
@[simp] theorem Die.onCp_sync (f : CpUnit → CpUnit) : (d.onCp f).sync = d.sync := rfl
@[simp] theorem Die.onCp_launches (f : CpUnit → CpUnit) : (d.onCp f).launches = d.launches := rfl
@[simp] theorem Die.onCp_pkts (f : CpUnit → CpUnit) : (d.onCp f).pkts = d.pkts := rfl
@[simp] theorem Die.onCp_cp (f : CpUnit → CpUnit) : (d.onCp f).cp = f d.cp := rfl
@[simp] theorem Die.onCp_cache (f : CpUnit → CpUnit) : (d.onCp f).cache = d.cache := rfl
@[simp] theorem Die.onCp_mem (f : CpUnit → CpUnit) : (d.onCp f).mem = d.mem := rfl
@[simp] theorem Die.onCp_tr (f : CpUnit → CpUnit) : (d.onCp f).tr = d.tr := rfl
@[simp] theorem Die.onCp_host (f : CpUnit → CpUnit) : (d.onCp f).host = d.host := rfl
@[simp] theorem Die.onCp_ports (f : CpUnit → CpUnit) : (d.onCp f).ports = d.ports := rfl
@[simp] theorem Die.onCp_parts (f : CpUnit → CpUnit) : (d.onCp f).parts = d.parts := rfl
@[simp] theorem Die.onCp_fault (f : CpUnit → CpUnit) : (d.onCp f).fault = d.fault := rfl
@[simp] theorem Die.onCp_power (f : CpUnit → CpUnit) : (d.onCp f).power = d.power := rfl
@[simp] theorem Die.onCp_boot (f : CpUnit → CpUnit) : (d.onCp f).boot = d.boot := rfl
@[simp] theorem Die.onCp_pins (f : CpUnit → CpUnit) : (d.onCp f).pins = d.pins := rfl
@[simp] theorem Die.onCp_out (f : CpUnit → CpUnit) : (d.onCp f).out = d.out := rfl

/-! ### Die.finish -/

/-- The end of a packet changes the packets, and what the command processor has ready to record. -/
theorem Die.finish_eq (pid : Nat) (st : Status) (r : W64) (x : W32) :
    ∃ ps cp, d.finish pid st r x = { d with pkts := ps, cp := cp } := by
  unfold Die.finish
  dsimp only
  split
  · split
    · exact ⟨_, _, rfl⟩
    · exact ⟨_, d.cp, rfl⟩
  · exact ⟨_, d.cp, rfl⟩

@[simp] theorem Die.finish_fuses (pid : Nat) (st : Status) (r : W64) (x : W32) : (d.finish pid st r x).fuses = d.fuses := by
  obtain ⟨_, _, h⟩ := d.finish_eq pid st r x; rw [h]
@[simp] theorem Die.finish_dieId (pid : Nat) (st : Status) (r : W64) (x : W32) : (d.finish pid st r x).dieId = d.dieId := by
  obtain ⟨_, _, h⟩ := d.finish_eq pid st r x; rw [h]
@[simp] theorem Die.finish_pkgId (pid : Nat) (st : Status) (r : W64) (x : W32) : (d.finish pid st r x).pkgId = d.pkgId := by
  obtain ⟨_, _, h⟩ := d.finish_eq pid st r x; rw [h]
@[simp] theorem Die.finish_regs (pid : Nat) (st : Status) (r : W64) (x : W32) : (d.finish pid st r x).regs = d.regs := by
  obtain ⟨_, _, h⟩ := d.finish_eq pid st r x; rw [h]
@[simp] theorem Die.finish_freeCtr (pid : Nat) (st : Status) (r : W64) (x : W32) : (d.finish pid st r x).freeCtr = d.freeCtr := by
  obtain ⟨_, _, h⟩ := d.finish_eq pid st r x; rw [h]
@[simp] theorem Die.finish_clk (pid : Nat) (st : Status) (r : W64) (x : W32) : (d.finish pid st r x).clk = d.clk := by
  obtain ⟨_, _, h⟩ := d.finish_eq pid st r x; rw [h]
@[simp] theorem Die.finish_clkInTick (pid : Nat) (st : Status) (r : W64) (x : W32) : (d.finish pid st r x).clkInTick = d.clkInTick := by
  obtain ⟨_, _, h⟩ := d.finish_eq pid st r x; rw [h]
@[simp] theorem Die.finish_tick (pid : Nat) (st : Status) (r : W64) (x : W32) : (d.finish pid st r x).tick = d.tick := by
  obtain ⟨_, _, h⟩ := d.finish_eq pid st r x; rw [h]
@[simp] theorem Die.finish_cores (pid : Nat) (st : Status) (r : W64) (x : W32) : (d.finish pid st r x).cores = d.cores := by
  obtain ⟨_, _, h⟩ := d.finish_eq pid st r x; rw [h]
@[simp] theorem Die.finish_ru (pid : Nat) (st : Status) (r : W64) (x : W32) : (d.finish pid st r x).ru = d.ru := by
  obtain ⟨_, _, h⟩ := d.finish_eq pid st r x; rw [h]
@[simp] theorem Die.finish_sync (pid : Nat) (st : Status) (r : W64) (x : W32) : (d.finish pid st r x).sync = d.sync := by
  obtain ⟨_, _, h⟩ := d.finish_eq pid st r x; rw [h]
@[simp] theorem Die.finish_launches (pid : Nat) (st : Status) (r : W64) (x : W32) : (d.finish pid st r x).launches = d.launches := by
  obtain ⟨_, _, h⟩ := d.finish_eq pid st r x; rw [h]
@[simp] theorem Die.finish_cache (pid : Nat) (st : Status) (r : W64) (x : W32) : (d.finish pid st r x).cache = d.cache := by
  obtain ⟨_, _, h⟩ := d.finish_eq pid st r x; rw [h]
@[simp] theorem Die.finish_mem (pid : Nat) (st : Status) (r : W64) (x : W32) : (d.finish pid st r x).mem = d.mem := by
  obtain ⟨_, _, h⟩ := d.finish_eq pid st r x; rw [h]
@[simp] theorem Die.finish_tr (pid : Nat) (st : Status) (r : W64) (x : W32) : (d.finish pid st r x).tr = d.tr := by
  obtain ⟨_, _, h⟩ := d.finish_eq pid st r x; rw [h]
@[simp] theorem Die.finish_host (pid : Nat) (st : Status) (r : W64) (x : W32) : (d.finish pid st r x).host = d.host := by
  obtain ⟨_, _, h⟩ := d.finish_eq pid st r x; rw [h]
@[simp] theorem Die.finish_ports (pid : Nat) (st : Status) (r : W64) (x : W32) : (d.finish pid st r x).ports = d.ports := by
  obtain ⟨_, _, h⟩ := d.finish_eq pid st r x; rw [h]
@[simp] theorem Die.finish_parts (pid : Nat) (st : Status) (r : W64) (x : W32) : (d.finish pid st r x).parts = d.parts := by
  obtain ⟨_, _, h⟩ := d.finish_eq pid st r x; rw [h]
@[simp] theorem Die.finish_fault (pid : Nat) (st : Status) (r : W64) (x : W32) : (d.finish pid st r x).fault = d.fault := by
  obtain ⟨_, _, h⟩ := d.finish_eq pid st r x; rw [h]
@[simp] theorem Die.finish_power (pid : Nat) (st : Status) (r : W64) (x : W32) : (d.finish pid st r x).power = d.power := by
  obtain ⟨_, _, h⟩ := d.finish_eq pid st r x; rw [h]
@[simp] theorem Die.finish_boot (pid : Nat) (st : Status) (r : W64) (x : W32) : (d.finish pid st r x).boot = d.boot := by
  obtain ⟨_, _, h⟩ := d.finish_eq pid st r x; rw [h]
@[simp] theorem Die.finish_pins (pid : Nat) (st : Status) (r : W64) (x : W32) : (d.finish pid st r x).pins = d.pins := by
  obtain ⟨_, _, h⟩ := d.finish_eq pid st r x; rw [h]
@[simp] theorem Die.finish_out (pid : Nat) (st : Status) (r : W64) (x : W32) : (d.finish pid st r x).out = d.out := by
  obtain ⟨_, _, h⟩ := d.finish_eq pid st r x; rw [h]

end Sys2Proof.Machine
end

