-- ==== Sys2Proof/Tests/Slice0.lean ====
section
/-! SUPPORT. Tests on fixed values, and one witness theorem for the hypotheses of each statement. The words and values come from the spec's tables. -/

namespace Sys2Proof.Tests

open Sys2Proof Sys2Proof.Machine

set_option maxRecDepth 100000
set_option Elab.async false

/-- A ready die, changed by `f`. -/
def live (f : Die → Die) : State := { pending := [], die := f { State.reset.die with boot := { phase := .ready } } }

/-- The PF of the host. -/
def pf : Who := .fn 0 { rid := 0, poisoned := false }

def run0 : SliceRun := { part := 1, launch := 0, planTick := 0, startTick := 0, args := [] }

/-- Core 0 of a ready die runs a slice of partition 1 and stands at this word. -/
def coreAt (w : W64) (f : Core → Core) : State :=
  live fun d => { d with cores := [(0, f { run := some run0, prog := [(0, w)] })] }

/-- A word: opcode, the register fields at 51, 46 and 41, and the low 41 bits. -/
def word (op a b c low : Nat) : W64 := BitVec.ofNat 64 (op * 2 ^ 56 + a * 2 ^ 51 + b * 2 ^ 46 + c * 2 ^ 41 + low)

/-- The PF reaches a ready die. -/
theorem reaches_pf (d : Die) (write : Bool) (h : d.live = true) (b : d.hostBehind pf = false) (r : d.ridOk 0 = true) (a : d.fnAnswers 0 = true) : Reaches d pf write :=
  ⟨h, b, r, a, by cases write <;> rfl⟩

/-! ### Instruction words (the encodings of spec 03) -/

def aluOps : List AluOp := [.add, .sub, .and, .or, .xor, .shl, .shr, .sra, .mul, .mulhu, .slt, .sltu, .min, .max]

def brOps : List BrOp := [.eq, .ne, .lt, .ge, .ltu, .geu]

def transOps : List TransOp := [.exp, .log, .rcp, .rsqrt, .sin, .cos, .tanh, .sigm]

/-- A word and the operation it stands for. -/
def row (op a b c low : Nat) (x : CoreOp) : W64 × CoreOp := (word op a b c low, x)

def words0 : List (W64 × CoreOp) :=
  [row 0x20 3 0 0 0x80000000 (.li 3 0x80000000#32),
   row 0x21 3 0 0 0x1 (.lih 3 1#32),
   row 0x24 3 1 0 0x10000000008 (.ld 3 1 8#32 true),
   row 0x25 3 1 0 0x4 (.lw 3 1 4#32 false),
   row 0x26 3 1 0 0x8 (.sd 3 1 8#32),
   row 0x27 3 1 0 0x4 (.sw 3 1 4#32),
   row 0x28 3 1 0 0x8 (.ldc 3 1 8#32),
   row 0x29 3 1 0 0x2FFFF8 (.sdc 3 1 0x2FFFF8#32)]

def words1 : List (W64 × CoreOp) :=
  [row 0x2C 3 0 0 0x2 (.csrr 3 2#12),
   row 0x2C 3 0 0 0x3 (.csrr 3 3#12),
   row 0x2D 0 1 0 0x10 (.csrw 1 0x010#12),
   row 0x2D 0 1 0 0x11 (.csrw 1 0x011#12),
   row 0x2D 0 1 0 0x12 (.csrw 1 0x012#12),
   row 0x2E 3 1 2 0x8000000000 (.amo .add 3 1 2 true),
   row 0x2F 3 1 2 0x0 (.amo .swap 3 1 2 false),
   row 0x30 3 1 2 0x0 (.amo .cas 3 1 2 false)]

def words2 : List (W64 × CoreOp) :=
  [row 0x3F 0 0 0 0x0 .nop,
   row 0x46 3 0 0 0x1 (.jal 3 1#32),
   row 0x47 0 1 0 0x0 (.jr 1),
   row 0x55 3 1 0 0x0 (.vabs 3 1 0#2 .fp32),
   row 0x56 3 1 2 0x4800000000 (.vfma 3 1 2 4 2#2 .fp32),
   row 0x57 1 1 2 0x200000003 (.vcmp 1 1 2 0#2 .int32 .le),
   row 0x58 3 1 2 0xC00000000 (.vsel 3 1 2 3#2),
   row 0x59 3 1 2 0x28000000 (.vcvt 3 1 2 0#2 .fp32 .e4m3 .sr)]

def words3 : List (W64 × CoreOp) :=
  [row 0x5A 3 1 0 0x0 (.vbcast 3 1 0#2),
   row 0x5B 3 1 0 0x0 (.vred 3 1 0#2 .fp32),
   row 0x5C 3 1 0 0x7F (.vmovs 3 1 127#7),
   row 0x70 3 1 0 0x40 (.vld 3 1 0#2 64#32),
   row 0x71 3 1 0 0x2FFE00 (.vst 3 1 0x2FFE00#32),
   row 0x72 3 1 0 0x40 (.vldg 3 1 0#2 64#32),
   row 0x73 3 1 0 0x40 (.vstg 3 1 64#32),
   row 0x80 0 0 0 0x80 (.loadw .bf16 0x80#22)]

def words4 : List (W64 × CoreOp) :=
  [row 0x81 0 0 0 0x3FC00000000 (.pass false .bf16 false 0#2 63#8 192#8 0#22),
   row 0x82 1 0 0 0x0 (.pass true .bf16 true 0#2 0#8 0#8 0#22),
   row 0x83 1 2 0 0x1000040 (.drain 1 2 0#2 0#8 0#8 .bf16 .rne 64#22),
   row 0x84 1 2 0 0x0 (.mask 1 2),
   row 0xA0 1 16 0 0x800000000 (.signal 1 true false 0#3 8#13 0#32),
   row 0xA0 0 0 0 0x800000005 (.signal 0 false false 0#3 8#13 5#32),
   row 0xA1 1 4 0 0x800000000 (.wait 1 true 8#13),
   row 0xB0 0 0 0 0x0 (.barrier .core)]

def words5 : List (W64 × CoreOp) :=
  [row 0xB0 0 0 0 0x1 (.barrier .yard),
   row 0xB0 0 0 0 0x2 (.barrier .die),
   row 0xB0 0 0 0 0x3 (.barrier .system),
   row 0xBF 0 0 0 0x0 .sliceEnd,
   row 0x50 3 1 2 0x0 (.vec2 .add 3 1 2 0#2 .fp32),
   row 0x51 3 1 2 0x100000000 (.vec2 .sub 3 1 2 0#2 .bf16),
   row 0x52 3 1 2 0x200000000 (.vec2 .mul 3 1 2 0#2 .int32),
   row 0x53 3 1 2 0x0 (.vec2 .min 3 1 2 0#2 .fp32)]

def words6 : List (W64 × CoreOp) :=
  [row 0x54 3 1 2 0x0 (.vec2 .max 3 1 2 0#2 .fp32)]

/-- Words written out from the tables of spec 03, each with the operation it stands for. -/
def wordTable : List (W64 × CoreOp) :=
  words0 ++ words1 ++ words2 ++ words3 ++ words4 ++ words5 ++ words6
  ++ (aluOps.zipIdx.map fun p => row (p.2 + 1) 3 1 2 0 (.alu p.1 3 1 2)) ++ (aluOps.zipIdx.map fun p => row (p.2 + 0x11) 3 1 0 0xFFFFFFFF (.alui p.1 3 1 0xFFFFFFFF#32))
  ++ (brOps.zipIdx.map fun p => row (p.2 + 0x40) 0 1 2 1 (.branch p.1 1 2 1#32)) ++ (transOps.zipIdx.map fun p => row (p.2 + 0x60) 3 1 0 0xC00000000 (.vtrans p.1 3 1 3#2))

/-- Each word of the table is read as its operation, and a core that stands at it issues it: the hypothesis of the statements about instructions. -/
theorem test_words_issue : ∀ p ∈ wordTable, Issues (coreAt p.1 id) 0 p.2 := by
  simp only [Issues]; decide +kernel

/-- Undefined encodings (R96): the lowest cause that applies; an all-zero word never executes. -/
theorem test_undefined_words :
    decodeWord 0 = .error 1 ∧ decodeWord (word 0x01 3 1 2 1) = .error 2 ∧ decodeWord (word 0x50 0 0 0 (2 ^ 32 * 3)) = .error 3
    ∧ decodeWord (word 0x57 0 1 2 0) = .error 3 ∧ decodeWord (word 0x80 20 0 0 0) = .error 3 ∧ decodeWord (word 0x85 0 0 0 0) = .error 1 := by decide +kernel

/-! ### Cores -/

theorem wit_scalar_instructions : ({} : Core).canonical := by unfold Core.canonical; decide +kernel

theorem wit_control_and_crib :
    let k := (coreAt (word 0x28 3 1 0 8) id).die.core 0
    k.clear [{ dva := false, lo := 8, hi := 16, write := false }] false = true ∧ k.clear [{ dva := false, lo := 0x2FFFF8, hi := 0x300000, write := true }] false = true
    ∧ k.cribErr = [] ∧ k.run = some run0 := by decide +kernel

theorem wit_vector_lanes : (num32 0x7FC00000#32).isNan = true := by decide +kernel

theorem wit_vector_functions :
    let k := (coreAt (word 0x70 3 1 0 64) id).die.core 0
    k.clear [{ dva := false, lo := 64, hi := 576, write := false }] false = true ∧ k.clear [{ dva := false, lo := 0x2FFE00, hi := 0x300000, write := true }] false = true
    ∧ k.cribErr = [] := by decide +kernel

/-- An operation of a core that is acknowledged. -/
def opOut (id : Nat) (acc : CoreAccess) (dest : Option LoadDest) (value : Option (List Byte)) : CoreOpEntry :=
  { id := id, tail := false, pc := 0, addr := 64, bytes := 8, vol := false, acc := acc, dest := dest, line := none, sent := false, value := value, acked := true }

/-- A CSR number outside the table, a word undefined as it stands, the end of the bank, bad parity, and a slice that a fault stops. -/
theorem wit_core_stops :
    let s := coreAt (word 0x2C 3 0 0 7) id
    s.die.live = true ∧ (s.die.core 0).issuing = true ∧ (s.die.core 0).opAt = some (.csrr 3 7#12) ∧ (s.die.core 0).regsReady [3] [] = true ∧ csrListed 7#12 = false
    ∧ ((coreAt 0 id).die.core 0).wordAt = some (0, false) ∧ ((coreAt 0 fun k => { k with pc := 0x20000 }).die.core 0).issuing = true
    ∧ ((coreAt 0 fun k => { k with progBad := [0] }).die.core 0).wordAt = some (0, true)
    ∧ (s.die.core 0).run = some run0 ∧ run0.stopping = none ∧ s.die.bit (CORE_FAULT_VALID 0) = false
    ∧ ((coreAt 0 fun k => { k with ops := [opOut 0 (.write []) none none] }).die.core 0).quiet = false := by decide +kernel

theorem wit_dva_accesses :
    let k := (coreAt (word 0x24 3 1 0 8) id).die.core 0
    k.clear [{ dva := true, lo := 8, hi := 16, write := false }] true = true ∧ k.clear [{ dva := true, lo := 4, hi := 8, write := true }] true = true
    ∧ k.clear [{ dva := true, lo := 64, hi := 576, write := true }] true = true := by decide +kernel

theorem wit_accesses_end :
    let o (id : Nat) := opOut id (.write []) none none
    let at_ (l : List CoreOpEntry) (w : Option CoreWait) := (coreAt 0 fun k => { k with ops := l, wait := w }).die
    let bs := List.replicate 8 1#8
    (at_ [o 0, o 1] none).opOf 0 1 = some (o 1) ∧ o 0 ∈ ((at_ [o 0, o 1] none).core 0).ops ∧ (o 0).sent = false ∧ (o 0).acc ≠ .read
    ∧ (at_ [opOut 0 .read (some (.sreg 3 8)) (some bs)] none).opOf 0 0 = some (opOut 0 .read (some (.sreg 3 8)) (some bs))
    ∧ (at_ [opOut 0 .read (some (.vreg 3 1 0)) (some bs)] none).opOf 0 0 = some (opOut 0 .read (some (.vreg 3 1 0)) (some bs))
    ∧ (at_ [o 0] none).live = true ∧ ((at_ [o 0] none).core 0).wait ≠ some (.signal 0) ∧ ((at_ [o 0] (some (.signal 0))).core 0).wait = some (.signal 0) := by decide +kernel

/-- FETCH and STOW of one row of 64 bytes, an engine whose rows are done, and LOADW. -/
theorem wit_fetch_stow_load :
    let f (k : Core) := { k with sreg := [(1, 0#64), (2, 0x100000040#64)].drop 1 }
    let x : EngOp := { pc := 0, stow := true, v := false, part := 1, dva := 0, rowBytes := 64, rows := 1, stride := 0, crib := 0, done := 1 }
    let s := coreAt (word 0x90 1 2 3 (2 ^ 40)) f
    Issues s 0 (.fetch 1 2 3 true 0) ∧ Issues (coreAt (word 0x91 1 2 3 0x2FFFC0) f) 0 (.stow 1 2 3 0x2FFFC0) ∧ (s.die.core 0).run = some run0
    ∧ (s.die.core 0).freeEngine = some 0 ∧ (s.die.core 0).clear { x with stow := false, v := true, done := 0 }.ranges true = true
    ∧ assoc ((coreAt 0 fun k => { k with engines := [(3, x)] }).die.core 0).engines 3 = some x
    ∧ (coreAt 0 fun k => { k with engines := [(3, x)] }).die.unacked (.eng 0 3) = false
    ∧ (s.die.core 0).clear [{ dva := false, lo := 0, hi := 8192, write := false }] true = true ∧ (s.die.core 0).cribErr = [] ∧ (s.die.core 0).streams = [] := by
  simp only [Issues]; decide +kernel

theorem wit_array_passes : 255 + 0 < 256 ∧ ({} : Core).canonical ∧ (live id).die.live = true := by unfold Core.canonical; decide +kernel

theorem wit_array_streams :
    let k := (coreAt (word 0x81 0 0 0 0) id).die.core 0
    (k.cribErr = [] ∧ k.storeBad = [] ∧ k.accBad = [] ∧ k.scaleBad = [] ∧ k.streams = [])
    ∧ k.clear [{ dva := false, lo := 0, hi := 8192, write := false }] true = true ∧ k.clear [{ dva := false, lo := 64, hi := 192, write := true }] true = true
    ∧ (let x : Stream := { kind := .loadw, arr := 0, accLo := 0, accHi := 0, lo := 0, hi := 8192, fmt := 3 }
       ((coreAt 0 fun k => { k with streams := [x] }).die.core 0).streams[0]? = some x) := by decide +kernel

/-- An object of partition 1, its value 7 above and below a threshold. -/
theorem wit_sync_instructions :
    let s := coreAt (word 0xA0 1 16 0 (2 ^ 32 * 8)) id
    let d := { s.die with sync := { objs := [(8, { value := 7, owner := 1, poison := false })] } }
    (s.die.core 0).run = some run0 ∧ (d.core 0).writesOpen (d.core 0).nextOp = false ∧ (d.obj 8).owner.toNat = 1 ∧ assoc d.sync.slots 0 = none ∧ (d.obj 8).poison = false
    ∧ (8 : ObjIx).val = 8 := by decide +kernel

theorem wit_barriers_and_slice_end :
    let s := coreAt 0 fun k => { k with wait := some (.barrier .die 0 false) }
    s.die.live = true ∧ (s.die.core 0).wait = some (.barrier .die 0 false) ∧ (∀ x ∈ s.die.participants 0 run0 .die, (s.die.core x).standsAt .die 0 = true)
    ∧ s.die.participants 0 run0 .die = [0] ∧ s.die.cp.sysbars = [] ∧ (live fun d => { d with tick := { d.tick with runs := true } }).die.followsAsLead = false
    ∧ (let d := (live fun d => (d.put (SYSBAR_EXPECT_DIES 1) 2).putB TICK_CTRL_SYSTEM_LEAD true).die; ({ d with tick := { d.tick with runs := true } } : Die).leads = true ∧ 1 < d.get (SYSBAR_EXPECT_DIES 1)) := by
  decide +kernel

/-! ### The tick -/

/-- The ready die with its tick running; a lead when nothing was adopted. -/
def ticking (f : TickUnit → TickUnit) : Die := (live fun d => { d with tick := f { d.tick with runs := true } }).die

theorem wit_tick_boundaries :
    let d := (live id).die
    Reaches d pf true ∧ d.canonical ∧ pf.part = 0 ∧ d.bit TICK_CTRL_RUN = false ∧ d.pins.lead = true
    ∧ { d with pins := { d.pins with lead := false } }.pins.lead = false
    ∧ (live fun d => { d with tick := { d.tick with beats := true } }).die.tick.runs = false ∧ (ticking id).tick.inGuard = false ∧ (ticking id).live = true := by
  unfold Die.canonical Core.canonical; refine ⟨reaches_pf _ _ ?_ ?_ ?_ ?_, ?_⟩ <;> decide +kernel

def msg0 : TickMsg :=
  { src := { pkg := 0, die := 1 }, epoch := 0, tick := 1, members := 3, slips := 0, changeId := 0, action := .none, cause := 0, sysLead := true, target := 0, cancels := [], recs := [] }

/-- A die that follows: not the lead, its package port 2 up. -/
def follower (f : TickUnit → TickUnit) : Die :=
  (live fun d => ({ d with pins := { d.pins with lead := false }, dieId := some 1, tick := f d.tick }.putB TICK_CTRL_RUN true).put (PEER_STATE_STATE 2) 2).die

/-- The lead that sends, and a follower at the bounds of the phase and the message that starts its tick. -/
theorem wit_tick_messages :
    (ticking id).leads = true ∧ (ticking id).tick.msgSent ≠ some (ticking id).tick.now ∧ (ticking id).tick.lead = none ∧ (ticking id).tick.slipLog = []
    ∧ (let d := follower fun t => { t with runs := true, adopted := true }
       d.canonical ∧ msg0.wf = true ∧ msg0.action ≠ .cancel ∧ d.portUp (.peer 2) = true ∧ d.authClass 1 (.peer 2) = true ∧ d.pins.lead = false ∧ d.bit TICK_CTRL_RUN = true
       ∧ d.bit TICK_STATUS_HOLDOVER = false ∧ d.bit TICK_STATUS_TICK_LOST = false ∧ d.tick.adopted = true
       ∧ d.takesTime (.peer 2) msg0.src = true ∧ (BitVec.ofNat 16 (d.get TICK_ALIGN_WARN_LIMIT)).toInt.natAbs ≤ d.get TICK_ALIGN_WARN_LIMIT)
    ∧ (follower id).tick.runs = false ∧ (ticking id).portUp (.peer 2) = false
    ∧ (let d := ((ticking id).put (OPT_STATE_STATE 0) 4).putB TICK_CTRL_SYSTEM_LEAD true
       d.portUp (.opt 0) = true ∧ d.authClass 1 (.opt 0) = true ∧ d.pins.lead = true ∧ d.bit TICK_CTRL_SYSTEM_LEAD = true ∧ msg0.sysLead = true ∧ (9 : PkgIx) ≠ d.here.pkg
       ∧ d.takesTime (.opt 0) msg0.src = false ∧ (d.put (OPT_AUTH_CLASS_CLASS 0) 0).authClass 1 (.opt 0) = false) := by
  unfold Die.canonical Core.canonical; decide +kernel

/-- An acknowledgement of a member of the same and of another epoch, and one that has been missed too often. -/
theorem wit_tick_members :
    let d : Die := (ticking fun t => { t with ackMiss := [(1, 100)] }).put MEMBERSHIP_MEMBER 3
    let a : TickAck := { src := { pkg := 0, die := 1 }, epoch := 0, tick := 0, slips := 0, changeId := 0, vote := .ready, digest := 0, mismatch := false, cancels := [] }
    d.live = true ∧ a.wf = true ∧ d.leads = true ∧ a.src ≠ d.here ∧ d.wasRemoved a.src a.tick = false ∧ d.isMember a.src = true ∧ a.epoch = d.epoch ∧ d.tick.lead = none
    ∧ d.ownAck a.tick = none ∧ { a with epoch := 1 }.epoch ≠ d.epoch ∧ d.tick.epochTick ≤ a.tick ∧ assoc d.tick.ackMiss (d.memberKey a.src) = some 100
    ∧ orOne (d.get TICK_ALIGN_ACK_LOSS) ≤ 100 ∧ d.canonical ∧ (1 : Nat) < 2 ∧ d.isMember { pkg := 0, die := 5 } = false := by
  unfold Die.canonical Core.canonical; decide +kernel

/-! ### Packets -/

def putField (bs : List Byte) (f : Nat × Nat × Nat) : List Byte := bs.take f.1 ++ leBytes f.2.1 f.2.2 ++ bs.drop (f.1 + f.2.1)

/-- A packet of 256 bytes whose fields (offset, bytes, value) are as listed; the rest is zero. -/
def body (fs : List (Nat × Nat × Nat)) : List Byte := fs.foldl putField (List.replicate 256 0)

def pkt (op : Byte) (phase : PktPhase) (fs : List (Nat × Nat × Nat)) : Pkt :=
  { pid := 1, ring := 2, index := 0, launch := none, part := 1, cring := 3, opcode := op, flags := 0, seq := 0, body := body fs, startTick := 0, phase := phase }

def withPkt (q : Pkt) (f : Die → Die) : Die := (live fun d => f { d with pkts := [q] }).die

/-- Holdover at its end, an echo of a port that is up, and mode changes. -/
theorem wit_tick_loss_and_mode :
    (let d := follower fun t => { t with runs := true, adopted := true, offsetOk := false, holdTicks := 10000000 }
     d.tick.adopted = true ∧ d.bit TICK_STATUS_HOLDOVER = false ∧ d.bit TICK_STATUS_TICK_LOST = false ∧ d.tick.offsetOk = false ∧ d.portUp (.peer 2) = true
     ∧ (d.putB TICK_STATUS_HOLDOVER true).get TICK_ALIGN_HOLDOVER ≤ (d.putB TICK_STATUS_HOLDOVER true).tick.holdTicks ∧ (follower id).tick.runs = false)
    ∧ (let q := pkt 0x88 .granted [(16, 2, 7), (18, 1, 1), (32, 1, 1)]
       let d := withPkt q fun d => { d with tick := { d.tick with runs := true } }
       d.grantedPkt 1 0x88 = some q ∧ d.leads = true ∧ d.tick.lead = none ∧ d.tick.change = none ∧ modeStatus (pkt 0x88 .granted [(16, 2, 0xFFFF), (18, 1, 255)]).body ≠ .ok) := by
  decide +kernel

/-! ### Rings and packets -/

def ringOn (r : Ring) (f : Die → Die) : Die := (live fun d => f { d with cp := { d.cp with rings := [(2, r)] } }).die

/-- Doorbells at and beyond the bounds of R201: a full ring, one entry too many, and the same of a completion ring. -/
theorem wit_doorbells :
    let r : Ring := { enable := true, head := 0xFFFFFFF8, tail := 0, part := 1 }
    Reaches (ringOn r id) pf true ∧ (ringOn r id).ring 2 = r ∧ (8#32 - r.head).toNat ≤ 16 ∧ (8#32 - r.tail).toNat ≤ (8#32 - r.head).toNat
    ∧ 16 < (9#32 - r.head).toNat ∧ (0xFFFFFFFF#32 - r.head).toNat < (0xFFFFFFFF#32 - r.tail).toNat
    ∧ (let c := { r with completion := true }
       (c.tail - 0xFFFFFFF8#32).toNat ≤ (c.tail - c.head).toNat ∧ (c.tail - c.head).toNat < (c.tail - 0xFFFFFFF7#32).toNat) := by
  refine ⟨reaches_pf _ _ ?_ ?_ ?_ ?_, ?_⟩ <;> decide +kernel

theorem wit_rings_decode :
    let r : Ring := { enable := true, halted := true, part := 1 }
    Reaches (ringOn r id) pf true ∧ ((ringOn r id).ring 2).halted = true ∧ ((ringOn {} id).ring 2).enable = false ∧ (1#32).getLsbD 0 = true
    ∧ (ringOn {} fun d => d.putB (PART_CTRL_ENABLE 1) true).bit (PART_CTRL_ENABLE 1) = true ∧ (live id).die.bit (PART_CTRL_ENABLE 1) = false
    ∧ ((ringOn { r with completion := true, reserved := 1 } id).ring 2).reserved ≠ 0 ∧ ((ringOn { completion := true, disabling := true } id).ring 2).disabling = true
    ∧ (ringOn r id).startStatus (body [(0, 1, 0x41), (1, 1, 255)]) 1 0 ≠ .ok ∧ field (body [(4, 2, 3)]) 4 2 % 8192 ≠ 2 := by
  refine ⟨reaches_pf _ _ ?_ ?_ ?_ ?_, ?_⟩ <;> decide +kernel

theorem wit_completion :
    let q := { pkt 0x00 .finished [] with flags := 2 }
    let d := withPkt q fun d => { d with cp := { d.cp with rings := [(2, { enable := true, part := 1 }), (3, { enable := true, completion := true, part := 1 })] } }
    d.live = true ∧ d.pkt? 1 = some q ∧ d.unacked (.pkt 1) = false ∧ d.cache.lost = [] ∧ d.noRecord 1 3 = false ∧ q.launch = none ∧ q.status = .ok ∧ q.cring ≠ q.ring
    ∧ (d.ring 3).enable = true ∧ (d.ring 2).enable = true ∧ 5 < 2 ^ 64 := by decide +kernel

/-- Launches of one entry, one whose absolute plan tick has passed, one out of order, and plan entries that are read: a good one and a bad one. -/
theorem wit_launches :
    let f := [(16, 4, 9), (20, 4, 1), (24, 8, 3), (32, 8, 0x10000), (40, 1, 1)]
    let q := { pkt 0x01 .started f with plan := some 5 }
    let l : Launch :=
      { key := 0, order := 1, pid := some 1, batch := none, id := 9, part := 1, dies := 1, first := 1, plan := 0x10000, entries := 1, readNext := 0, readTo := 0, lastKey := none, slices := [],
        cancelFrom := none, failure := none, ran := 0, chain := 0, chainCount := 0, chainNext := 0, chainRel := 0, chainOpen := [], args := none }
    let on (g : Die → Die) := (live fun d => g { d with launches := [{ l with readNext := 1 }] }).die
    ((withPkt q id).startedPkt 1 0x01 = some q ∧ (withPkt q id).launchStatus q.body false = .ok)
    ∧ (let p := pkt 0x01 .started [(16, 4, 9), (20, 4, 1), (24, 8, 5), (32, 8, 0x10000), (40, 2, 0x0101)]
       p.plan = none ∧ (withPkt p id).launchStatus p.body false = .ok ∧ field p.body 41 1 % 2 = 1 ∧ field p.body 24 8 ≤ 5)
    ∧ (let p := pkt 0x02 .started (f ++ [(48, 8, 0x20000), (56, 4, 1)]); (withPkt p id).startedPkt 1 0x02 = some p ∧ (withPkt p id).launchStatus p.body true = .ok)
    ∧ (withPkt (pkt 0x01 .started []) id).launchStatus (body []) false ≠ .ok
    ∧ (on id).launch? 0 = some { l with readNext := 1 } ∧ l.first ≤ (on id).planNow 1 + 1 ∧ l.readTo ≤ (on id).planNow 1 + 1 - l.first
    ∧ (on fun d => (d.put (CORE_ASSIGN_PARTITION 0) 1).putB (CORE_ASSIGN_ASSIGNED 0) true).entryStatus l (List.replicate 64 0) = .ok
    ∧ (on id).entryStatus l (List.replicate 64 0) ≠ .ok
    ∧ (let lf : Leaf := { attr := 0, r := true, w := true, migrated := false, prefHost := false, once := false, target := 0x30000 }
       let at_ := on fun d => d.onTr fun t => { t with
         tlb := [⟨tlbCp, 1, 0x10000, 16, lf⟩], reads := [{ req := .launch 0, addr := 0x10000, n := 64, got := List.replicate 64 0 }] }
       (at_.readTable 0 1 0x10000 64).1 = .ok (List.replicate 64 0))
    ∧ (let m := { l with key := 1, order := 2, slices := [{ rel := 0, core := 0, entry := 0, args := [] }] }
       let two := (live fun d => { d with launches := [{ l with readNext := 1 }, m] }).die
       two.heldBy 0 1 0 1 = some 1 ∧ two.launch? 1 = some m ∧ two.decodedAfter 0 1 = false ∧ two.heldBy 0 1 0 2 = none) := by decide +kernel

/-- A coalesced request with its open batch, and one that opens a batch, a batch that failed, and the packets that end at once. -/
theorem wit_coalescer :
    let q := pkt 0x03 .started [(16, 1, 5), (18, 2, 63)]
    let b : Batch :=
      { key := 0, part := 1, cls := 5, number := 1, template := 0, entries := 1, inRow := 1, outRow := 1, staging := 0, firstTick := 0, rows := 1, closed := false, launched := false,
        outcome := none, reqs := [] }
    let d := withPkt q fun d => { d with tick := { d.tick with inGuard := true }, cp := { d.cp with batches := [b] } }
    let o : List (Nat × SyncObj) := [(8, { value := 7, owner := 1, poison := false })]
    let sync (q : Pkt) := withPkt q fun d => { d with sync := { d.sync with objs := o } }
    let sig := pkt 0x40 .started [(16, 2, 8), (24, 8, 5)]
    let wt := pkt 0x41 .started [(16, 2, 8), (18, 1, 1), (24, 8, 7)]
    let r : BatchReq := { pid := 1, rows := 1, row := 0, dest := 0x20000, copied := false }
    let c := body [(8, 4, 1), (12, 4, 64), (16, 4, 64), (20, 1, 1)] |>.take 64
    let op : Die := (withPkt q fun d => { d with tick := { d.tick with inGuard := true } }).onTr fun t => { t with reads := [{ req := .pkt 1, addr := 320, n := 64, got := c }] }
    let b1 := { b with outcome := some .ok, reqs := [r], outRow := 64 }
    let out : Die := (withPkt q fun d => { d with cp := { d.cp with batches := [b1] } }).onTr fun t => { t with
      reads := [{ req := .pkt 1, addr := b1.output, n := 64, got := List.replicate 64 1 }], writes := [{ req := .pkt 1, addr := 0x20000, n := 64, done := 64 }] }
    (({ q with phase := .running }.phase ≠ .started ∧ ({ d with cp := { d.cp with batches := [{ b with reqs := [r] }] } }.cp.batches.find? fun b =>
        b.reqs.any fun r => r.pid == q.pid && !r.copied) = some { b with reqs := [r] })
      ∧ (op.readAll (srcCp (.pkt 1) 1) 320 64 false).1 = .ok c ∧ descOk c = true ∧ descOk (List.replicate 64 0) = false ∧ op.cp.batches = []
      ∧ (out.readAll (srcCp (.pkt 1) 1) (b1.output + 0 * 64) 64 false).1 = .ok (List.replicate 64 1)
      ∧ (out.writeAll (srcCp (.pkt 1) 1) 0x20000 (List.replicate 64 1) {}).1 = .ok [])
    ∧ (d.pkt? 1 = some q ∧ coalesceStatus q.body = .ok ∧ d.tick.inGuard = true ∧ d.cp.batches = [b] ∧ b.part = q.part ∧ b.cls.val = field q.body 16 1 % 64
      ∧ b.rows + field q.body 18 2 ≤ 64 ∧ (∀ x ∈ d.pkts, x.opcode = 0x03 → x.phase = .started → x.pid = q.pid))
    ∧ { b with outcome := some .aborted, reqs := [{ pid := 1, rows := 1, row := 0, dest := 0, copied := true }] }.outcome = some .aborted
    ∧ ((sync sig).startedPkt 1 0x40 = some sig ∧ signalStatus sig.body = .ok ∧ ((sync sig).obj 8).owner.toNat = 1 ∧ assoc (sync sig).sync.slots 48 = none)
    ∧ ((sync wt).startedPkt 1 0x41 = some wt ∧ waitStatus wt.body = .ok ∧ ((sync wt).obj 8).owner = 1#4 ∧ ((sync wt).obj 8).poison = false)
    ∧ (let p := pkt 0x42 .started [(16, 1, 1)]; (withPkt p id).startedPkt 1 0x42 = some p ∧ barrierStatus p.body = .ok ∧ ∀ x ∈ (withPkt p id).pkts, (withPkt p id).before p x = false)
    ∧ (let p := pkt 0x00 .started []; (withPkt p id).startedPkt 1 0x00 = some p)
    ∧ (let p := pkt 0x43 .started [(16, 8, 64)]; (withPkt p id).startedPkt 1 0x43 = some p ∧ flagStatus p.body = .ok)
    ∧ (let p := pkt 0x44 .started []; (withPkt p id).startedPkt 1 0x44 = some p ∧ timestampStatus p.body = .ok ∧ field p.body 16 8 = 0) := by decide +kernel

/-- A fill, a prefetch and an advise that queue, each out of order, and a chunk of an engine's only job. -/
theorem wit_copies :
    let q := pkt 0x12 .started [(16, 4, 64), (32, 8, 0x10000)]
    let r := pkt 0x14 .started [(16, 8, 0x10000), (24, 8, 0x10000), (32, 1, 4)]
    let j : CopyJob := { pid := 1, run := 0, off := 0, written := 0, stalled := false }
    let d := withPkt q fun d => { d with cp := { d.cp with engines := [(0, { jobs := [j] })] } }
    let w := d.onTr fun t => { t with writes := [{ req := .pkt 1, addr := 0x10000, n := 64, done := 64 }] }
    let p2 := { q with pid := 2, ring := 6 }
    let two : Die := { d with pkts := [q, p2], cp := { d.cp with engines := [(0, { jobs := [j, { j with pid := 2 }], served := some 2 })] } }
    ((d.mayUse 1 2 = true ∧ d.cache.lost = [] ∧ (w.chunkRead (srcCopy 0 1 1) q (planOf q.opcode q.body) 0 0 64).1 = .ok (List.replicate 64 0)
        ∧ (w.chunkWrite { srcCopy 0 1 1 with id := 0 } q (planOf q.opcode q.body) 0 0 0 (List.replicate 64 0)).1 = .ok []
        ∧ (planOf q.opcode q.body).bytes = 64 ∧ (planOf q.opcode q.body).runs = 1)
      ∧ (two.engine 0).jobs = [j, { j with pid := 2 }] ∧ two.jobRing j = 2 ∧ two.jobRing { j with pid := 2 } = 6 ∧ (two.engine 0).served = some 2
      ∧ (withPkt q id).nextJob 0 = none ∧ ({ two with pkts := [p2] } : Die).turn q = true)
    ∧ ((withPkt q id).startedPkt 1 0x12 = some q ∧ (withPkt q id).copyStatus 0x12 1 q.body (field q.body 2 1 % 16) = .ok ∧ (withPkt q id).turn q = true)
    ∧ (withPkt q id).copyStatus 0x10 1 (body []) 0 ≠ .ok
    ∧ ((withPkt r id).startedPkt 1 0x14 = some r ∧ rangeStatus r.body 5 = .ok ∧ rangeStatus r.body 2 ≠ .ok)
    ∧ (d.nextJob 0 = some j ∧ d.pkt? j.pid = some q ∧ (d.engine 0).jobs = [j]) := by decide +kernel
/-! ### The reduce-and-update unit -/

def slot0 : RuSlot :=
  { pid := 1, part := 1, total := 4, lo := 0, hi := 4, localLo := 0, localHi := 0, inputs := 4, elements := 1, got := [], partials := [], armTick := 0, done := true, destDone := false, fwd := [] }

def reduceBody : List (Nat × Nat × Nat) := [(16, 2, 5), (18, 2, 32), (20, 4, 4), (28, 4, 4), (40, 2, 4), (44, 4, 1)]

/-- Partition 1 owns the slots 0 to 15. -/
def ruDie (q : Pkt) (u : RuUnit) (f : Die → Die) : Die :=
  withPkt q fun d => f ((({ d with ru := u } : Die).put (RU_SLOTS_COUNT 1) 16).put RU_TIMEOUT_SLOT 1000)

/-- A segment that arms, one that waits, one out of order; a slot with its root, one that has sent it, one whose time is up, an early partial. -/
theorem wit_reduction_slots :
    let q := pkt 0x20 .started reduceBody
    let d := ruDie q {} id
    let r : Partial := { src := none, lo := 0, hi := 4, vals := [0] }
    let x := { slot0 with partials := [r] }
    let w : DvaWrite := { req := .pkt 1, addr := 0, n := 4, done := 4 }
    let t := ruDie q { slots := [(5, x)] } fun d => { d with tr := { d.tr with writes := [w] } }
    (d.pkt? 1 = some q ∧ d.reduceStatus 1 q.body = .ok ∧ field q.body 32 4 = field q.body 36 4 ∧ (ruDie q { slots := [(5, { slot0 with pid := 9 })] } id).slot? 5 = some { slot0 with pid := 9 }
      ∧ d.reduceStatus 1 (body []) ≠ .ok
      ∧ d.armsLater q = false ∧ (ruDie q {} fun d => { d with pkts := d.pkts ++ [{ q with pid := 0 }] }).armsLater q = true ∧ d.ru.early = [])
    ∧ (let z := { slot0 with localLo := 0, localHi := 1, done := false }
       let e := ruDie q { slots := [(5, z)] } fun d => { d with tr := { d.tr with reads := [{ req := .pkt 1, addr := 0, n := 4, got := [0, 0, 0, 0] }] } }
       z.done = false ∧ (e.readLocal q z).1 = .ok [] ∧ e.slot? 5 = some z)
    ∧ (t.slot? 5 = some x ∧ x.root = some r ∧ t.pkt? x.pid = some q ∧ (t.writeAll (srcRu 1 1) (field q.body 64 8) (wordBytes r.vals) {}).1 = .ok [])
    ∧ ({ x with destDone := true, inputs := 0 }.root = some r ∧ t.unacked (.pkt 1) = false ∧ { x with inputs := 0 }.inputs * x.elements = 0)
    ∧ (let f : FwdSend := { dst := d.here, slot := 6, sent := false }
       let y := { x with fwd := [f] }
       let e := ruDie q { slots := [(5, y), (6, { slot0 with pid := 8 })] } id
       let m : PartialMsg := { head := { port := .peer 0, src := e.here, dst := e.here, epoch := e.epoch, part := 1, tag := 0, window := none }, slot := 6, lo := 0, hi := 4, total := 4,
                               elements := 1, first := 0, vals := [0] }
       y.fwd[0]? = some f ∧ e.slotOwner 6 = some 1 ∧ ((e.arrive m true).bind fun t => t.slot? 5) = some y)
    ∧ (x.armTick + t.get RU_TIMEOUT_SLOT ≤ 100000 ∧ 0 < t.get RU_TIMEOUT_SLOT ∧ 0 < (live id).die.get RU_TIMEOUT_EARLY) := by decide +kernel

theorem wit_partials :
    let d := ruDie (pkt 0x20 .running []) { slots := [(5, slot0)] } fun d => d.put (PEER_STATE_STATE 2) 2
    let h : MsgHead := { port := .peer 2, src := { pkg := 0, die := 1 }, dst := d.here, epoch := d.epoch, part := 1, tag := 0, window := none }
    let m : PartialMsg := { head := h, slot := 5, lo := 0, hi := 2, total := 4, elements := 1, first := 0, vals := [0] }
    let p : Partial := { src := none, lo := 0, hi := 1, vals := [0] }
    let w := d.setWindow 5 (some { part := 1, base := 0, bytes := 0x10000, flags := 31, srcPkg := 0, srcDies := 2 })
    let half : Partial := { src := some h.src, lo := 0, hi := 2, vals := [0] }
    w.reduceWindowOf m = some 1 ∧ d.reduceWindowOf m = none ∧ d.fenceOf (d.epoch + 1) = .newer ∧ d.fenceOf (d.epoch - 1) = .older ∧ (d.put (PEER_AUTH_CLASS_CLASS 2) 0).portCheck (judged h (.partial_ m)) 6 none ≠ .pass
    ∧ half.src = some m.head.src ∧ half.vals.length = 1 ∧ 1 < { slot0 with elements := 2 }.elements ∧
    d.live = true ∧ m.head.src.pkg = d.here.pkg ∧ d.portCheck (judged h (.partial_ m)) 6 none = .pass ∧ d.fenceOf h.epoch = .same ∧ (d.arrive m false).isSome = true
    ∧ d.slot? 5 = some slot0 ∧ m.vals.length = slot0.elements ∧ slot0.refuses m = none ∧ slot0.refuses { m with hi := 3 } = some 1 ∧ slot0.partials = []
    ∧ isNode 4 p.lo 2 = true ∧ 1 = p.lo + pow2Above (2 - p.lo) / 2 ∧ isNode 3 2 3 = true := by decide +kernel

theorem wit_unit_packets :
    let n := pkt 0x22 .started [(24, 4, 1), (32, 8, 1)]
    let o := pkt 0x21 .started [(16, 4, 1), (20, 4, 1), (32, 4, 1)]
    let rd : DvaRead := { req := .pkt 1, addr := 0, n := 4, got := [0, 0, 0, 0] }
    let io (q : Pkt) := withPkt q fun d => { d with tr := { d.tr with reads := [rd], writes := [{ req := .pkt 1, addr := 0, n := 4, done := 4 }] } }
    ((io n).pkt? 1 = some n ∧ normStatus n.body = .ok ∧ ((io n).readAll (srcRu 1 1) 0 4 false).1 = .ok [0, 0, 0, 0] ∧ ((io n).writeAll (srcRu 1 1) 0 [0, 0, 0, 0] {}).1 = .ok []
      ∧ normStatus (body []) ≠ .ok)
    ∧ ((io o).pkt? 1 = some o ∧ optStatus o.body = .ok ∧ field o.body 16 4 = 1 ∧ ((io o).readMany (srcRu 1 1) [(0, 4), (0, 4), (0, 4)]).1 = .ok [] ∧ optStatus (body []) ≠ .ok)
    ∧ (let x : OptProg := { pid := 1, norm := some 0, rate := some 0, next := 0, writes := [(0, [0, 0, 0, 0])], crc := 0 }
       x.next + 1 = field o.body 32 4 ∧ ((io o).setStep x).step? 1 = x ∧ (((io o).setStep x).writeAll (srcRu 1 1) 0 [0, 0, 0, 0] {}).1 = .ok [])
    ∧ ((io o).optShared o none true 0).1 = .ok [] ∧ (optMode (body [(16, 4, 17)])).skip = true ∧ finite32 (scaledNorm (body [(16, 4, 17), (116, 4, 0x7F800000)]) 0x7F800000#32) = false
    ∧ (optMode o.body).sgd = true ∧ (optMode o.body).nesterov = false := by decide +kernel

/-! ### Managed packets and Groom -/

theorem wit_translation_packets :
    let m := pkt 0x80 .granted [(24, 8, 0x10000), (42, 1, 3), (43, 1, 1)]
    let u := pkt 0x81 .granted [(24, 8, 0x10000), (43, 1, 1)]
    let i := pkt 0x82 .granted [(24, 8, 0x10000), (43, 1, 1)]
    ((withPkt m id).grantedPkt 1 0x80 = some m ∧ (withPkt m id).mapStatus m = .ok ∧ (withPkt m id).mapStatus (pkt 0x80 .granted []) ≠ .ok)
    ∧ ((withPkt u id).grantedPkt 1 0x81 = some u ∧ (withPkt u id).unmapStatus u true = .ok)
    ∧ ((withPkt i id).grantedPkt 1 0x82 = some i ∧ (withPkt i id).unmapStatus i false = .ok)
    ∧ (let r := { u with phase := .running }; (withPkt r id).grantedPkt 1 0x81 = none ∧ (withPkt r id).runningPkt 1 0x81 = some r)
    ∧ (let r := { i with phase := .running }; (withPkt r id).grantedPkt 1 0x82 = none ∧ (withPkt r id).runningPkt 1 0x82 = some r) := by decide +kernel

theorem wit_program_packets :
    let l := pkt 0x84 .granted [(16, 6, 1), (22, 1, 1), (24, 4, 8), (28, 4, 0x1FFF8)]
    let s := pkt 0x85 .granted [(16, 6, 1)]
    let mine (d : Die) : Die := (d.put (CORE_ASSIGN_PARTITION 0) 1).putB (CORE_ASSIGN_ASSIGNED 0) true
    let rd : DvaRead := { req := .pkt 1, addr := 0, n := 8, got := List.replicate 8 1 }
    ((withPkt l mine).grantedPkt 1 0x84 = some l ∧ (withPkt l mine).loadStatus l = .ok ∧ (withPkt l id).loadStatus l ≠ .ok)
    ∧ ((withPkt s mine).grantedPkt 1 0x85 = some s ∧ (withPkt s mine).switchStatus s = .ok ∧ (withPkt s id).switchStatus s ≠ .ok)
    ∧ ((withPkt l fun d => { d with tr := { d.tr with reads := [rd] } }).readAll (srcCp (.pkt 1) 1) 0 8 false).1 = .ok rd.got
    ∧ tblWf (fun _ => 0#64) none ({} : Core).prog = true ∧ 0x1FFF8 % 8 = 0 ∧ 0x1FFF8 + 8 * 0 < 0x20000 := by decide +kernel

theorem wit_service_packets :
    let q (op : Byte) (fs : List (Nat × Nat × Nat)) := pkt op .granted fs
    (let p := q 0x8A [(16, 1, 15), (17, 1, 4), (20, 4, 9)]; (withPkt p id).grantedPkt 1 0x8A = some p ∧ zeroBytes p.body 18 2 = true ∧ zeroBytes p.body 28 36 = true)
    ∧ (let p := q 0x8C [(16, 1, 11)]; (withPkt p id).testStatus p.body = .ok ∧ (withPkt p id).boot.test = none ∧ testInfo 11 = some (4000, 1))
    ∧ (let p := q 0x8E [(16, 2, 4)]; (withPkt p id).grantedPkt 1 0x8E = some p ∧ queryStatus p.body = .ok ∧ field p.body 16 2 = 4 ∧ field p.body 24 8 = 0)
    ∧ (let p := q 0x90 [(16, 2, 1023), (18, 1, 31), (19, 1, 1), (32, 8, 0x10000), (40, 2, 1), (42, 1, 1)]
       (withPkt p id).grantedPkt 1 0x90 = some p ∧ (withPkt p id).openStatus p = .ok ∧ (withPkt p id).openStatus (q 0x90 []) ≠ .ok)
    ∧ (let p := q 0x91 [(16, 2, 1023)]
       let x : Window := { part := 1, base := 0, bytes := 0x10000, flags := 31, srcPkg := 1, srcDies := 1 }
       let d := withPkt p fun d => d.setWindow (winOf 1023) (some x)
       d.grantedPkt 1 0x91 = some p ∧ d.window? (winOf 1023) = some x ∧ zeroBytes p.body 18 46 = true ∧ d.windowBusy (winOf 1023) = false)
    ∧ (let p := q 0x94 []; (withPkt p id).grantedPkt 1 0x94 = some p ∧ field p.body 16 1 = 0 ∧ zeroBytes p.body 17 7 = true ∧ zeroBytes p.body 32 32 = true)
    ∧ (let p := q 0x96 [(16, 1, 255), (18, 2, 0x0FFF), (20, 1, 3)]
       (withPkt p id).grantedPkt 1 0x96 = some p ∧ (withPkt p id).lockStatus p.body = .ok ∧ (withPkt p id).lockStatus (body [(16, 1, 1), (18, 2, 0x1FFF), (20, 1, 3)]) ≠ .ok) := by
  decide +kernel

/-- PRESERVE_ARM: its address lies in a leaf of partition 0 in device memory. -/
theorem wit_preserve_arm :
    let l : Leaf := { attr := 0, r := true, w := true, migrated := false, prefHost := false, once := false, target := 0 }
    let d : Die := (withPkt (pkt 0x94 .granted [(16, 1, 1)]) fun d => { d with tr := { d.tr with walk := [⟨0, 0, 0, 1⟩, ⟨0, 1, 0, l.entry⟩] } }).put (PT_ROOT_ROOT 0) 1
    ∃ bits e, d.walk 0 0 = (.leaf l bits, e) ∧ l.attr = 0 := ⟨30, _, rfl, rfl⟩

/-- Groom serves, its watchdog at its limit, a restart, and a packet that does and one that does not fit in its budget. -/
theorem wit_groom :
    let q := pkt 0x8A .queued []
    let d := withPkt q fun d => { d with cp := { d.cp with groom := { d.cp.groom with wdog := 64, queue := [1], budgetLeft := opCost 0x8A } } }
    let s := d.put GROOM_STATUS_STATE 1
    Reaches d pf true ∧ s.groomServes = true ∧ 64 ≤ s.cp.groom.wdog ∧ { s.cp with restarting := true }.restarting = true ∧ s.cp.groom.skip.contains 1 = false ∧ s.groomHead 1 = some q
    ∧ opCost q.opcode.toNat ≤ s.cp.groom.budgetLeft ∧ 0 < opCost q.opcode.toNat := by
  refine ⟨reaches_pf _ _ ?_ ?_ ?_ ?_, ?_⟩ <;> decide +kernel

/-! ### The sync unit -/

def objDie (f : SyncUnit → SyncUnit) : Die :=
  (live fun d => { d with sync := f { d.sync with objs := [(8, { value := 7, owner := 1, poison := false })], slots := [(3, { obj := 8, inc := 5, part := 1, who := none, head := none })] } }).die

theorem wit_sync_bank_update :
    let d := objDie fun u => { u with clears := [{ obj := 8 }] }
    d.canonical ∧ d.live = true ∧ d.bankObject 0 = some 8 ∧ (live id).die.bankObject 0 = none ∧ (d.sync.clears.any fun x => x.obj == 8) = true ∧ ((objDie id).obj 8).poison = false := by
  unfold Die.canonical Core.canonical; decide +kernel

/-- Accesses with and without rights, a slot taken, a wait whose time is up, and signal messages at a package port and in a window. -/
theorem wit_sync_accesses :
    let d := objDie id
    let vf : Who := .dev 2 0
    let w : PktWaiter := { pid := 1, obj := 8, equal := false, thr := 9, deadline := some 0 }
    let p := objDie fun u => { u with waiters := [w] }
    let e : Die := d.put (PEER_STATE_STATE 2) 2
    let h : MsgHead := { port := .peer 2, src := { pkg := 0, die := 1 }, dst := d.here, epoch := d.epoch, part := 1, tag := 0, window := none }
    let o : RemoteOp := { tag := 7, req := .pkt 1, id := 0, part := 1, dst := d.here, port := .peer 2, sentTick := 0, read := none, aperture := false, reply := none }
    Reaches d pf true ∧ d.mayObj pf 8 = true ∧ assoc d.sync.slots 49 = none ∧ assoc (objDie fun u => { u with slots := [(49, { obj := 8, inc := 5, part := 1, who := none, head := none })] }).sync.slots 49 = some { obj := 8, inc := 5, part := 1, who := none, head := none }
    ∧ d.mayObj vf 8 = false ∧ (3#32).getLsbD 4 = false ∧ (3#32).setWidth 4 ≠ (d.obj 8).owner ∧ d.sync.waiters = [] ∧ p.sync.waiters = [w] ∧ (0 : Nat) ≤ p.tick.count
    ∧ e.portCheck h 5 none = .pass ∧ e.fenceOf h.epoch = .same ∧ (e.obj 8).owner.toNat = h.part.val ∧ (e.obj 9).owner.toNat ≠ h.part.val ∧ assoc e.sync.slots (portSource h.port) = none
    ∧ e.fenceOf (e.epoch + 1) = .newer ∧ e.fenceOf (e.epoch - 1) = .older ∧ (e.winOpen { h with window := some 5 }).isOk = false
    ∧ ((e.setWindow 5 (some { part := 1, base := 0, bytes := 0x10000, flags := 31, srcPkg := 0, srcDies := 2 })).winOpen { h with window := some 5 }).isOk = true
    ∧ (e.onPorts fun u => { u with ops := [o] }).ports.tierReads = [] ∧ o.reply = none ∧ o.read = none := by
  refine ⟨reaches_pf _ _ ?_ ?_ ?_ ?_, ?_⟩ <;> decide +kernel

/-! ### The device cache, device memory and its keys -/

def req0 (op : HomeOp) : HomeReq := { stop := 5, slice := 0, line := 0, space := .dev, key := 1, once := false, op := op, who := { req := .reg, id := 0 } }

def cacheDie (f : CacheUnit → CacheUnit) : Die := (live fun d => { d with cache := f d.cache }).die

def cline0 : CLine := { addr := 0, host := false, key := 1, valid := 15, dirty := 1, poison := 0, data := 0 }

def mshr0 (why : MshrWait) (reqs : List HomeReq) : Mshr := { slice := 0, line := 0, host := false, why := why, reqs := reqs }

def tally0 (excl : Bool) : List (Nat × TallyEntry) := [(0, { addr := 0, host := false, key := 1, excl := excl, count := 1, owner := 5, revoked := true })]

/-- A read that hits, an eviction notice, a result, fills behind 8 and 9 requests of their line, a fill of a line held in E, and what waited at a home. -/
theorem wit_homes :
    let r := req0 (.read 0 4)
    let d := cacheDie fun u => { u with ring := [r], lines := [(0, cline0)] }
    let fill (n : Nat) := cacheDie fun u => { u with ring := [req0 .fill], mshrs := [mshr0 .memory (List.replicate n (req0 .fill))] }
    let held := cacheDie fun u => { u with ring := [req0 .fill], tally := tally0 true }
    let evict := cacheDie fun u => { u with ring := [req0 .evict], tally := tally0 false }
    let rel := cacheDie fun u => { u with ring := [req0 .release], tally := tally0 true, mshrs := [mshr0 .revoke [req0 .fill]] }
    let amo := req0 (.amo .add 0 4 0 1 none)
    (d.frontReq 0 5 = some r ∧ (d.popReq r).mshrOf 0 false = none ∧ (d.popReq r).excl 0 false = false ∧ (d.popReq r).sweeping 1 = false ∧ (d.popReq r).sharedBias 0 = false
      ∧ (d.popReq r).hasSectors 0 1 (sectorMask 0 4) = true ∧ (((d.popReq r).noteRun r).devRead r 0 4).1 = some [0, 0, 0, 0] ∧ d.blockedBy 0 = none)
    ∧ (((cacheDie id).homePerformWrite 5 0 1 (List.replicate 4 0) false .usual).1 = true)
    ∧ ((fill 8).frontReq 0 5 = some (req0 .fill) ∧ (fill 8).mshrOf 0 false = some (mshr0 .memory (List.replicate 8 (req0 .fill))) ∧ ((fill 9).mshrOf 0 false).isSome = true ∧ (∀ q ∈ (fill 9).cache.ring, q.isNote = false)
      ∧ ((fill 9).block 0 5).blockedBy 0 = some 5 ∧ (7 : Fin 64) ≠ 5)
    ∧ (held.mshrOf 0 false = none ∧ held.excl 0 false = true ∧ held.mshrsUsed 0 < 64 ∧ held.blockedBy 0 = none)
    ∧ (((cacheDie fun u => { u with mshrs := [mshr0 .far [amo]] }).mshrOf 0 false) = some (mshr0 .far [amo]) ∧ ((cacheDie id).hbmRead 1 0 4).1.isSome = true
      ∧ ((cacheDie id).hbmWrite 1 0 [1, 0, 0, 0]).1 = true)
    ∧ (((rel.popReq (req0 .release)).tallyOf 0 false).isSome = true ∧ ((rel.popReq (req0 .release)).dropTally 0).mshrOf 0 false = some (mshr0 .revoke [req0 .fill]))
    ∧ evict.excl 0 false = false ∧ (cacheDie id).ports.winOps = [] ∧ (cacheDie id).host.posted = []
    ∧ (0xFFFFFFFF : Nat) < 2 ^ (8 * 4) := by decide +kernel

def l1msg (kind : L1Kind) : L1Msg := { stop := 5, slice := 0, line := 0, host := false, kind := kind }

def l1Die (kind : L1Kind) (lines : List (Nat × L1Line)) : Die := cacheDie fun u => { u with toL1 := [l1msg kind], l1 := lines, invs := [⟨3, 0, 0, false, 1, .none⟩] }

theorem wit_l1_messages :
    let l : L1Line := { addr := 0, host := false, excl := true, revoked := true, data := 0 }
    let d (k : L1Kind) (ls : List (Nat × L1Line)) := l1Die k ls
    ((d (.fill false 0) []).frontL1 5 = some (l1msg (.fill false 0)) ∧ stopCore 5 = some 5 ∧ (d (.fill false 0) []).cache.misses = []
      ∧ (((d (.fill false 0) []).popL1 (l1msg (.fill false 0))).serveLoads 5 0 false 0).l1Find 5 0 false = none)
    ∧ (let s := { l with excl := false }
       (d (.inval 3) [(2560, s)]).frontL1 5 = some (l1msg (.inval 3)) ∧ ((d (.inval 3) [(2560, s)]).popL1 (l1msg (.inval 3))).l1Find 5 0 false = some (2560, s)
       ∧ (d (.inval 3) [(2560, s)]).cache.invs = [⟨3, 0, 0, false, 1, .none⟩] ∧ (d (.inval 3) [(2560, s)]).ports.winOps = [])
    ∧ ((d .revoke []).frontL1 5 = some (l1msg .revoke) ∧ ((d .revoke []).popL1 (l1msg .revoke)).l1Find 5 0 false = none
      ∧ (d .revoke [(2560, l)]).l1Find 5 0 false = some (2560, l) ∧ (d .revoke [(2560, l)]).cache.ring = []) := by decide +kernel

theorem wit_slice_work :
    let p : Prefetch := { slice := 0, line := 1024, key := 1, once := false }
    let d := cacheDie fun u => { u with hay := [(0, [cline0])] }
    let e := cacheDie fun u => { u with prefetches := [p] }
    let held := cacheDie fun u => { u with sweeps := [1], tally := tally0 true }
    (d.hay 0).find? (fun c => c.dirty != 0) = some cline0 ∧ e.cache.prefetches = [p] ∧ e.findWay 0 1024 false = none ∧ e.hay 0 = [] ∧ e.cache.mshrs = [] ∧ e.mshrsUsed 0 ≤ 48 ∧ e.blockedBy 0 = none ∧
    (let g := e.onCache fun u => { u with prefetches := [] }; (g.takeIn p.req).1 = true) ∧
    (d.mshrsUsed 0 = 0 ∧ ((e.onCache fun u => { u with ring := [req0 .fill] }).block 0 5).blockedBy 0 = some 5) ∧ e.sharedHere (lineOf 5) = none ∧ (e.lineFree 0 true).1 = true ∧ (held.lineFree 0 false).1 = false ∧
    (held.cache.tally.any fun t => !t.2.host && t.2.key == 1) = true ∧ (cacheDie fun u => { u with sweeps := [3] }).sweeping 3 = true ∧ e.hdmHere (lineOf 5) = .error 1 ∧ e.cache.invs = [] ∧ e.tallyOf 0 true = none := by
  decide +kernel

theorem wit_memory_control :
    let d := (live id).die
    let f : Flip := { page := 2359295, shared := true }
    let fl : Die := { d with mem := { d.mem with flip := some f } }
    Reaches d pf true ∧ d.mem.flip = none ∧ fl.mem.flip.isSome = true ∧ f.started = false ∧ (fl.lineFree (f.page * 65536) false).1 = true ∧ fl.flipBusy { f with started := true } = false
    ∧ d.effectDue pf = false ∧ tblWf (fun _ => 0) none d.mem.keyGen = true ∧ (0x23FFFF#32).getLsbD 24 = false ∧ sub (0x23FFFF#32).toNat 0 22 < 2359296 ∧ (0x1F#32).getLsbD 4 = true
    ∧ fl.cache.mshrs = [] ∧ fl.cache.invs = [] ∧ fl.cache.tally = [] ∧ d.mem.keysHeld = false
    ∧ (let e := (d.put HBM_STATUS_ONLINE 15).put HBM_SCRUB_HOURS 24; e.get HBM_SCRUB_HOURS ≠ 0 ∧ e.offline 3 = false ∧ e.bit HBM_STATUS_SELF_REFRESH = false) := by
  refine ⟨reaches_pf _ _ ?_ ?_ ?_ ?_, ?_⟩ <;> decide +kernel

/-! ### Translation -/

def fault0 (st : FaultState) : PageFault := { req := .reg, part := 1, host := false, page := 3, dva := 0x30000, read := false, write := true, tries := 0, state := st }

def trDie (f : TransUnit → TransUnit) : Die := (live fun d => { d with tr := f d.tr }).die

/-- A full cache of 4,096 translations and one with room, a queued fault, a group that is answered or forgotten, and an invalidation with nothing under way. -/
theorem wit_host_translations :
    let q : AtsReq := { id := 0, part := 1, page := 9999 }
    let full : List AtcEntry := (List.range 4096).map fun n => { part := 2, page := n, hpa := 0, r := true, w := true }
    let g : PrGroup := { index := 4, part := 1, host := false, page := 3, sentTick := 0 }
    let b := trDie fun t => { t with faults := [fault0 .queued] }
    let d := b.setFn 1 { b.fn 1 with priEnable := true }
    let e := trDie fun t => { t with groups := [g], faults := [fault0 (.group 4)] }
    (full.filter fun a => !(a.part == q.part && a.page == q.page)).length = 4096 ∧ (trDie fun t => { t with ats := [q] }).tr.ats = [q]
    ∧ d.bit (PART_CTRL_RESETTING 1) = false ∧ d.tr.groups = [] ∧ 0 < (d.fn 1).priAlloc ∧ d.freeIndex 1 = some 0
    ∧ e.tr.groups = [g] ∧ e.tr.faults = [fault0 (.group 4)] ∧ e.tr.prOff = [] ∧ g.sentTick + orOne (e.get PR_TIMEOUT_TICKS) ≤ 1000000 ∧ e.hostBusy 1 = false
    ∧ (cacheDie fun u => { u with ring := [{ req0 (.read 0 4) with space := .host, part := 1 }] }).hostBusy 1 = true ∧ { q with dead := true }.dead = true
    ∧ d.tr.faults.find? d.maySend = some (fault0 .queued) ∧ d.groupOf (fault0 .queued) = none ∧ (d.onTr fun t => { t with groups := [g] }).groupOf (fault0 .queued) = some g := by
  decide +kernel

/-- A table entry at its bounds, a leaf in a TLB, a tier window, an address without a leaf, and a page under migration. -/
theorem wit_translations :
    let l : Leaf := { attr := 0, r := true, w := true, migrated := false, prefHost := false, once := false, target := 0x30000 }
    let s : Src := { req := .reg, stop := 58, tlb := tlbCp, part := 1 }
    let d := trDie fun t => { t with tlb := [⟨tlbCp, 1, 0x30000, 16, l⟩] }
    let w := trDie fun t => { t with walk := [⟨1, 1, 0, l.entry⟩, ⟨1, 2, 1, 2⟩] }
    (d.tr.faults.find? (heldFault s 0x30008)).isNone = true ∧ d.tier 1 0x30008 = none ∧ d.moving 1 0x30008 = false
    ∧ (trDie fun t => { t with moves := [⟨1, 1, 0x30000, 0, false⟩] }).moving 1 0x30008 = true ∧ (d.put (TIER_SIZE_GIB 1 0) 1).tier 1 0x30008 = some 0
    ∧ (match (w.levelEntry 1 1 0 5).1 with | .val v => v == l.entry | _ => false) = true ∧ l.entry % 2 = 1 ∧ sub l.entry 6 1 = 1 ∧ l.attr < 8 ∧ l.target % 2 ^ 16 = 0
    ∧ (d.put (PT_ROOT_ROOT 1) 1).get (PT_ROOT_ROOT 1) ≠ 0 ∧ d.get (PT_ROOT_ROOT 1) = 0
    ∧ (trDie id).bit (TRANS_CTRL_FAULT_MODE 1) = false ∧ ((trDie id).putB (TRANS_CTRL_FAULT_MODE 1) true).bit (TRANS_CTRL_FAULT_MODE 1) = true ∧ (trDie id).noPri 1 = true
    ∧ ((trDie id).setFn 1 { (trDie id).fn 1 with priEnable := true }).noPri 1 = false ∧ (trDie id).tr.queued < 256
    ∧ (trDie fun t => { t with faults := [{ fault0 (.failed 2) with req := .reg, page := 3 }] }).tr.faults.find? (heldFault s 0x30008) = some { fault0 (.failed 2) with req := .reg, page := 3 }
    ∧ (let a : AtcEntry := { part := 1, page := 48, hpa := 0x9000, r := true, w := true }
       let h := trDie fun t => { t with tlb := [⟨tlbCp, 1, 0x30000, 16, { l with attr := 2 }⟩], atc := [a] }
       h.tr.atc.find? (fun a => a.part == s.part && a.page == (0x30000 + 8) / 4096) = some a) := by decide +kernel

theorem wit_leaf :
    let l : Leaf := { attr := 0, r := true, w := true, migrated := false, prefHost := false, once := false, target := 0x30000 }
    let s : Src := { req := .reg, stop := 58, tlb := tlbCp, part := 1 }
    let d := trDie fun t => { t with tlb := [⟨tlbCp, 1, 0x30000, 16, l⟩] }
    d.leaf s 0x30008 = (.leaf l 16, d) ∧ (trDie id).leaf s 0x30008 = (.invalid, trDie id) := ⟨rfl, rfl⟩

/-! ### The host port, partitions and the mailbox -/

theorem wit_host_events :
    let d := (live id).die
    d.boot.phase = .ready ∧ d.host.trained = false ∧ d.bit PRESERVE_STATUS_ARMED = false ∧ (d.putB PRESERVE_STATUS_ARMED true).bit PRESERVE_STATUS_ARMED = true ∧ d.live = true
    ∧ 0 < (5#3).toNat ∧ (5#3).toNat < 7 ∧ { d.boot with phase := .orphaned }.phase = .orphaned ∧ { d.boot with phase := .dormant }.phase = .dormant ∧ d.canonical := by
  unfold Die.canonical Core.canonical; decide +kernel

/-- A partition that is enabled, reset and cleared, and an orphaned die whose record is bad or good. -/
theorem wit_partitions_and_preservation :
    let d := (live id).die
    let e := d.putB (PART_CTRL_ENABLE 1) true
    let r : Die := { (e.putB (PART_CTRL_RESETTING 1) true) with parts := { e.parts with resets := [⟨1, false, false, true⟩] } }
    let o := d.putB PRESERVE_STATUS_ORPHANED true
    Reaches d pf true ∧ (1 : PartIx).val ≠ 0 ∧ (1#32).getLsbD 0 = true ∧ (1#32).getLsbD 1 = false ∧ d.bit (PART_CTRL_ENABLE 1) = false ∧ e.bit (PART_CTRL_ENABLE 1) = true
    ∧ (3#32).getLsbD 1 = true ∧ r.bit (PART_CTRL_RESETTING 1) = true ∧ d.bit (PART_CTRL_RESETTING 1) = false ∧ r.canonical ∧ r.parts.resets = [⟨1, false, false, true⟩]
    ∧ r.partBusy 1 = false ∧ { r with cores := [(0, { run := some run0 })] }.partBusy 1 = true ∧ o.bit PRESERVE_STATUS_ORPHANED = true ∧ d.bit PRESERVE_STATUS_ORPHANED = false
    ∧ (o.putB PRESERVE_STATUS_BAD_RECORD true).bit PRESERVE_STATUS_ORPHANED = true := by
  unfold Die.canonical Core.canonical; refine ⟨reaches_pf _ _ ?_ ?_ ?_ ?_, ?_⟩ <;> decide +kernel

theorem wit_host_memory :
    let a : Hdm := { base := 0, size := 2 ^ 38, iw := 2, ig := 256, committed := true }
    let two (n : Byte) : Die := (live fun d => { d with ports := { d.ports with lists := [(1, [0])] }, tick := { d.tick with removedMask := n } }).die
    let d := two 0
    let h : MsgHead := { port := .peer 2, src := { pkg := 0, die := 1 }, dst := d.here, epoch := d.epoch, part := 0, tag := 0, window := none }
    Reaches d (.fn 0 { rid := 0, poisoned := false }) true ∧ d.dieId = some 0 ∧ d.ports.ops = [] ∧ d.hdmOk 0 a = true ∧ (two 2).otherDies = [] ∧ (two 2).hdmFits [a] = true ∧ d.otherDies ≠ []
    ∧ d.hdmFits [{ a with ig := 128 }] = false ∧ hdmOverlap a { a with base := 2 ^ 38 - 1 } = true ∧ d.portCheck h 8 none = .pass ∧ { d with dieId := some (1 : DieIx) }.dieId ≠ some 0
    ∧ (let x : Die := { d with host := { d.host with hdm := [a] } }
       x.host.hdm = [a] ∧ 3 * a.ig + 255 < a.size ∧ x.hdmHere (lineOf 128) = .ok 128 ∧ x.hdmHere (lineOf 256) = .error 2 ∧ x.sharedBias 128 = false)
    ∧ 0x1000 + 512 ≤ 2 ^ 28 ∧ d.bit HBM_STATUS_SELF_REFRESH = false ∧ 0x1000 + 512 ≤ hbmTop
    ∧ (d.onHost fun h => { h with posted := [.bar 0 64 64 none (some 64)] }).host.posted = [.bar 0 64 64 none (some 64)]
    ∧ (let m : Die := { d with mem := { d.mem with shared := [(0, true)] } }; m.sharedBias 128 = true ∧ (m.lineFree 128 false).1 = true ∧ (m.broadcast 128 false .none).1 = false)
    ∧ d.fenceOf (h.epoch + 1) = .newer ∧ d.fenceOf (h.epoch - 1) = .older ∧ d.fenceOf h.epoch = .same
    ∧ (let t := d.put BAR4_BASE_BASE 73727; hbmTop < t.get BAR4_BASE_BASE * 2 ^ 21 + (2 ^ 21 - 4) + 8) := by
  refine ⟨reaches_pf _ _ ?_ ?_ ?_ ?_, ?_⟩ <;> decide +kernel

theorem wit_host_answers :
    let h : MsgHead := { port := .peer 2, src := { pkg := 0, die := 1 }, dst := { pkg := 0, die := 0 }, epoch := 0, part := 1, tag := 0, window := none }
    let x : CxlOp := { tag := 0, kind := .rdShared, addr := 0, slice := 0, mshr := true, who := { req := .reg, id := 0 }, part := 1, dva := some 0x30000, tier := none }
    let d : Die := (live fun d => { d with host := { d.host with cxl := [x] }, cache := { d.cache with mshrs := [{ mshr0 .host [] with host := true }] } }).die
    let y := { x with mshr := false, who := { req := .core 0, id := 0 } }
    let c := (coreAt 0 fun k => { k with ops := [opOut 0 .read none none] }).die
    d.live = true ∧ d.host.cxl = [x] ∧ (d.dropCxl 0).cxlMshr x = some { mshr0 .host [] with host := true } ∧ { x with tier := some h }.tier = some h
    ∧ y.who.req = .core 0 ∧ (c.core 0).ops.find? (fun o => o.id == y.who.id) = some (opOut 0 .read none none) ∧ (live id).die.tr.faults = []
    ∧ (live id).die.portCheck h 9 none = .pass ∧ (live id).die.fenceOf h.epoch = .same ∧ (live id).die.host.trained = false ∧ (live id).die.host.cxl = [] := by
  decide +kernel

theorem wit_functions_and_mailbox :
    let d := (live id).die
    d.live = true ∧ d.host.vfEnable = false ∧ State.reset.die.boot.phase = .boot ∧ d.dieId = some 0 ∧ (List.replicate 32 0#8).length = 32 ∧ d.host.spdm.version = false
    ∧ (let x : Spdm := { version := true, caps := true, algs := true }; x.version = true ∧ x.caps = true ∧ x.algs = true) := by decide +kernel

/-! ### The die ports and the optical fabric -/

def peerDie (f : Die → Die) : Die := (live fun d => f ((({ d with pins := { d.pins with lead := false } } : Die).put (PEER_STATE_STATE 2) 2).put (PEER_STATE_PARTNER_DIE 2) 1)).die

def head0 : MsgHead := { port := .peer 2, src := { pkg := 0, die := 1 }, dst := { pkg := 0, die := 0 }, epoch := 0, part := 1, tag := 0, window := some 5 }

theorem wit_peer_links :
    let d := peerDie id
    let h : Hello := { place := { pkg := 0, die := 1 }, port := 3, modules := 15, pools := List.replicate 10 4 }
    let first := (live fun d => d.put (PEER_STATE_STATE 2) 1).die
    let c : Credits := { held := List.replicate 10 3, pool := List.replicate 10 4, freed := 1 :: List.replicate 9 0 }
    let e := d.setCredits c (.peer 2)
    d.live = true ∧ { d with dieId := none }.dieId = none ∧ d.dieId ≠ none ∧ d.pins.lead = false ∧ first.get (PEER_STATE_STATE 2) = 1 ∧ h.pools.length = 10 ∧ h.place.pkg = first.here.pkg
    ∧ h.place.die ≠ first.here.die ∧ (∀ m : PortIx, m ≠ 2 → first.portUp (.peer m) = false) ∧ d.portUp (.peer 2) = true ∧ d.portUp (.peer 1) = false
    ∧ (BitVec.ofNat 4 ((d.put (PEER_STATE_MODULES_UP 2) 8).get (PEER_STATE_MODULES_UP 2))).getLsbD 3 = true ∧ d.hops 1 1 < 8 ∧ d.hops 1 5 = 8
    ∧ (∀ m : PortIx, d.portUp (.peer m) = true → 8 ≤ d.hops ⟨d.get (PEER_STATE_PARTNER_DIE m.val) % 8, Nat.mod_lt _ (by decide)⟩ 5)
    ∧ (e.credits (.peer 2)).held.getD 0 0 + 1 ≤ (e.credits (.peer 2)).pool.getD 0 0 ∧ (e.credits (.peer 2)).pool.getD 0 0 < (e.credits (.peer 2)).held.getD 0 0 + 2
    ∧ (e.credits (.peer 2)).freed.all (· == 0) = false ∧ e.ports.outq = [] ∧ e.mayLeave (.peer 2) 0 (.mgmt { head := head0, seq := 0, body := .query 0 }) = true
    ∧ (d.credits (.peer 2)).held.getD 8 0 < units (msgBytes (.mgmt { head := head0, seq := 0, body := .query 0 })) := by decide +kernel

def window0 (flags : BitVec 5) : Window := { part := 1, base := 0, bytes := 128, flags := flags, srcPkg := 0, srcDies := 2 }

/-- Writes and reads in a window that grants them and in one that does not, at its end and past it, of each epoch; answers and reports. -/
theorem wit_window_messages :
    let d := (peerDie id).setWindow 5 (some (window0 31))
    let z := (peerDie id).setWindow 5 (some (window0 0))
    let m : WinWrite := { head := head0, aperture := false, offset := 64, data := List.replicate 64 0 }
    let o : RemoteOp := { tag := 0, req := .pkt 1, id := 0, part := 1, dst := d.here, port := .peer 2, sentTick := 0, read := none, aperture := false, reply := none }
    let hit : Die := (d.put (PT_ROOT_ROOT 1) 1).onTr fun t => { t with walk := [⟨1, 0, 0, 1⟩, ⟨1, 1, 0, 1 + 16 + 32 + 64⟩] }
    d.portCheck (judged m.head (.winWrite m)) 2 none = .pass ∧ d.fenceOf m.head.epoch = .same ∧ d.winOpen m.head = .ok (window0 31) ∧ (peerDie id).winOpen m.head = .error 3
    ∧ z.winOpen m.head = .ok (window0 0) ∧ (window0 0).right 1 = false ∧ (window0 0).right 0 = false ∧ (window0 31).right 1 = true ∧ m.offset + m.data.length ≤ 128 ∧ 128 < 65 + 64
    ∧ (match Die.winPages 1 true (linePieces 64 64) [] hit with | (.ok _, _) => true | _ => false) = true
    ∧ (match Die.winPages 1 false (linePieces 64 64) [] hit with | (.ok _, _) => true | _ => false) = true
    ∧ d.heldBefore m.head = false ∧ (d.onPorts fun u => { u with held := [(.peer 2, { pkg := 0, die := 1 }, 7)] }).heldBefore m.head = true
    ∧ (splitPair (window0 0) [{ space := .dev, once := false, addr := 8, n := 8 }]).map (fun p => (p.addr, p.n)) = [(8, 4), (12, 4)]
    ∧ d.fenceOf (d.epoch + 1) = .newer ∧ d.fenceOf (d.epoch - 1) = .older ∧ d.readsWaiting (.peer 2) < 256
    ∧ (d.onPorts fun u => { u with ops := [o] }).ports.ops = [o] ∧ o.tag = head0.tag ∧ d.ports.ops = [] ∧ o.sentTick + orOne (d.get FAB_TIMEOUT_OP_TICKS) ≤ 1000000
    ∧ d.tick.count < o.sentTick + orOne (d.get FAB_TIMEOUT_OP_TICKS) ∧ d.portCheck head0 7 none = .pass ∧ d.portCheck head0 8 none = .pass ∧ (Mgmt.modeForward 1 [] 0).wf = true
    ∧ d.leads = false ∧ (ticking id).leads = true ∧ (ticking id).outstandingChange = none := by decide +kernel

def optDie (state : Nat) (f : Die → Die) : Die := (live fun d => f (d.put (OPT_STATE_STATE 1) state)).die

theorem wit_optical_gate :
    let d := optDie 4 id
    let at_ (die : DieIx) (pkg : PkgIx) : FabMsg := .mgmt { head := { head0 with dst := { pkg := pkg, die := die }, window := none }, seq := 0, body := .query 0 }
    let x : FabMsg := .tick { pkg := 0, die := 1 } 0 msg0
    (at_ 1 0).wf = true ∧ (at_ 1 0).dst = some { pkg := 0, die := 1 } ∧ (live id).die.portUp (.opt 1) = false ∧ d.portUp (.opt 1) = true ∧ 7 < (atPort (.opt 1) (at_ 1 0)).cls
    ∧ x.wf = true ∧ x.cls ≤ 7 ∧ d.authClass 1 (.opt 1) = true ∧ ({ pkg := 9, die := 1 } : Place).pkg ≠ d.here.pkg ∧ ({ pkg := 0, die := 1 } : Place) ≠ d.here
    ∧ d.opticalPasses 1 (atPort (.opt 1) x) = true ∧ (peerDie id).portUp (.peer 2) = true ∧ (msgHead (atPort (.peer 2) (at_ 1 0))).isSome = true
    ∧ (peerDie id).portCheck head0 8 none = .pass := by decide +kernel

theorem wit_optical_links :
    let s : Session := { partner := { pkg := 9, die := 1 }, rxSeq := 2 ^ 32, txSeq := 2 ^ 32 }
    let d := optDie 4 fun d => d.setOpt 1 { d.optPort 1 with session := some s }
    let half := optDie 4 fun d => d.setOpt 1 { d.optPort 1 with lanes := 0x00FF }
    let full := optDie 4 fun d => d.onPorts fun u => { u with outq := [(.opt 1, 1, .mgmt { head := head0, seq := 0, body := .query 0 })] }
    let ready := optDie 1 fun d => { ((d.putB (OPT_CTRL_ENABLE 1) true).putB (CAGE_PRESENT 1) true).putB (CAGE_LASER_EN 1) true with pins := { d.pins with fabricRails := true } }
    let third := optDie 3 fun d => ((d.putB (OPT_CTRL_ADMIT 1) true).put (OPT_SRC_HI 1) 9).put (OPT_PEER_PACKAGE 1) 9
    Reaches d pf true ∧ (d.optPort 1).session = some s ∧ (1 : Nat) ≠ s.rxSeq % 2 ^ 32 ∧ s.txPhase ≠ decide (s.txSeq / 2 ^ 32 % 2 = 1) ∧ 2 ≤ d.optState 1 ∧ d.optState 1 ≠ 5
    ∧ (d.optPort 1).replays + 1 ≤ orOne (d.get (OPT_CTRL_RETRY_LIMIT 1)) ∧ orOne (d.get (OPT_CTRL_RETRY_LIMIT 1)) < 256 + 1 ∧ (d.optPort 1).lanes = 0xFFFF ∧ d.bit (OPT_STATE_HALF 1) = false
    ∧ (half.optPort 1).lanes = 0x00FF ∧ full.starved 1 = true ∧ d.starved 1 = false ∧ orOne (d.get FAB_TIMEOUT_STALL_TICKS) ≤ 1000000 ∧ ready.optState 1 = 1 ∧ ready.optMayTrain 1 = true
    ∧ (optDie 2 id).optState 1 = 2 ∧ d.optState 1 ≠ 2 ∧ third.optState 1 = 3 ∧ third.bit (OPT_CTRL_ADMIT 1) = true ∧ third.get (OPT_SRC_LO 1) ≤ third.get (OPT_PEER_PACKAGE 1)
    ∧ third.get (OPT_PEER_PACKAGE 1) ≤ third.get (OPT_SRC_HI 1) ∧ (third.put (OPT_SRC_HI 1) 8).get (OPT_SRC_HI 1) < (third.put (OPT_SRC_HI 1) 8).get (OPT_PEER_PACKAGE 1) := by
  refine ⟨reaches_pf _ _ ?_ ?_ ?_ ?_, ?_⟩ <;> decide +kernel

theorem wit_cages :
    let d := (live id).die
    let seated := d.putB (CAGE_PRESENT 1) true
    let on := (optDie 4 fun d => (d.putB (CAGE_PRESENT 1) true).putB (CAGE_LASER_EN 1) true)
    Reaches d pf true ∧ seated.bit (CAGE_PRESENT 1) = true ∧ d.bit (CAGE_PRESENT 1) = false ∧ d.optState 0 = 0 ∧ d.optState 1 = 0 ∧ on.optState 1 ≠ 0 ∧ on.bit (CAGE_PRESENT 1) = true
    ∧ ((on.put (CAGE_PWR_IND 1) 0).put (CAGE_ATTN_IND 1) 0).bit (CAGE_LASER_EN 1) = true
    ∧ ((((on.put (CAGE_PWR_IND 1) 0).put (CAGE_ATTN_IND 1) 0).putB (CAGE_LASER_EN 1) false).setLaserGood 1).optState 1 ≠ 0 := by
  refine ⟨reaches_pf _ _ ?_ ?_ ?_ ?_, ?_⟩ <;> decide +kernel

/-! ### Faults, power, boot, pins and registers -/

def event0 : Event := { src := 0, cls := .fatal, detail := 0, forced := false }

theorem wit_collector :
    let d : Die := (ticking id).onFault fun u => { u with slots := [event0] }
    d.awake = true ∧ d.running = true ∧ d.fault.slots = [event0] ∧ ((d.put (FAULT_REACT_FATAL 0) 8).reaction 0 .fatal).getLsbD 3 = true ∧ ((d.put (FAULT_REACT_FATAL 0) 0).reaction 0 .fatal) = 0
    ∧ (({ d with fault := { d.fault with slots := [] } } : Die).take event0).tick.runs = true ∧ d.canonical ∧ d.fault.hist = [] ∧ d.get FAULT_HIST_CTRL_COUNT = 0
    ∧ d.bit FAULT_HIST_CTRL_FIRST_VALID = false ∧ d.tick.runs = true := by
  unfold Die.canonical Core.canonical; decide +kernel

theorem wit_collector_control :
    let d := (live id).die
    Reaches d pf true ∧ d.awake = true ∧ d.running = true ∧ (d.putB FAULT_IRQ_NMI_HELD true).bit FAULT_IRQ_NMI_HELD = true ∧ d.cp.restarting = false ∧ d.bit FAULT_IRQ_NMI_HELD = false
    ∧ (d.putRaw FAULT_PIN_HOLD 1).errDrive = true ∧ d.errDrive = false ∧ d.fault.check = none := by
  refine ⟨reaches_pf _ _ ?_ ?_ ?_ ?_, ?_⟩ <;> decide +kernel

theorem wit_history_clear : Reaches (live id).die pf true ∧ pf.part = 0 ∧ (live id).die.canonical := by
  unfold Die.canonical Core.canonical; refine ⟨reaches_pf _ _ ?_ ?_ ?_ ?_, ?_⟩ <;> decide +kernel

/-- The thermal clauses: a sensor at 110 degrees halts; a halted die whose sensors all read below WARN resumes. -/
theorem wit_power_and_clocks :
    let d := (live id).die
    let halted := d.putB PWR_CTRL_THERMAL_HALT true
    Reaches d pf true ∧ d.awake = true ∧ (List.replicate 32 (none : Option Int)).length = 32 ∧ d.canonical ∧ d.power.haltDue = false ∧ d.bit PWR_CTRL_THERMAL_HALT = false
    ∧ d.power.k ≤ 16 ∧ halted.bit PWR_CTRL_THERMAL_HALT = true ∧ halted.canonical ∧ (0x200#32).getLsbD 9 = true ∧ (∀ r ∈ halted.readings, r.2 < (halted.get THERM_LIMITS_WARN : Int))
    ∧ (hottest (d.put (THERM_SENSOR_TEMP 3) 110).readings).2 = 110 ∧ d.pins.pwrGood = true ∧ d.bit PWR_ERR_VALID = false
    ∧ (findRow PWR_CTRL).isSome = true := by
  unfold Die.canonical Core.canonical; refine ⟨reaches_pf _ _ ?_ ?_ ?_ ?_, ?_⟩ <;> decide +kernel

def goodSlot : BootSlot :=
  { present := true, retried := false, magicOk := true, sizeOk := true, rsvdZero := true, genfeson := true, key := 0, sigOk := true, svn := 0, bootBist := false, romPresent := false,
    subVendor := 1, subId := 2, boardMax := 900, altRoot := 0 }

/-- Boot: a good image, none, memory to zero with and without the test, and a die that is ready to be; pins at their values. -/
theorem wit_boot_and_pins :
    let d := State.reset.die
    let v : Die := { d with boot := { d.boot with verified := true } }
    let r : Die := { v with boot := { v.boot with zeroed := true }, host := { v.host with trained := true } }
    d.boot.phase = .boot ∧ { d.boot with phase := .off }.phase = .off ∧ d.pins.pwrGood = true ∧ d.pins.resetN = true ∧ d.boot.verified = false ∧ (d.put BOOT_STATUS_STAGE 1).imageOk goodSlot = true
    ∧ (d.put BOOT_STATUS_STAGE 1).imageOk { goodSlot with boardMax := 901 } = false ∧ d.canonical ∧ v.mustZero = true ∧ v.bit ST_CTRL_BOOT_BIST = false
    ∧ (v.putB ST_CTRL_BOOT_BIST true).bit ST_CTRL_BOOT_BIST = true ∧ r.mustZero = false ∧ r.host.trained = true
    ∧ (let p : Die := { d with pins := { d.pins with idFrames := [(1, 2), (1, 2)], lead := false }, dieId := none }
       p.running = true ∧ p.boot.chainBad = false ∧ p.pins.idFrames = [(1, 2), (1, 2)] ∧ p.dieId = none) ∧ d.pins.idFrames = [] ∧ d.pins.lead = true ∧ d.fuses.ownerKey = none := by
  unfold Die.canonical Core.canonical; decide +kernel

theorem wit_register_accesses :
    let d := (live id).die
    Reaches d pf true ∧ pf.part = 0 ∧ isReg 0x1FFFFFC = false ∧ 0x1FFFFFC % 4 = 0 ∧ 0x1FFFFFE % 4 ≠ 0 ∧ P2P_BASE_LO 7 < 0x4000000 ∧ d.canonical ∧ d.inRange (P2P_BASE_LO 0) 5 = 5
    ∧ d.addHeld 0 0x100 = false ∧ d.effectDue pf = false ∧ d.isReserved pf false 0x1FFFFFC true = true
    ∧ Memory.wf [(0, 1#8), (5, 2#8)] = true := by
  unfold Die.canonical Core.canonical; refine ⟨reaches_pf _ _ ?_ ?_ ?_ ?_, ?_⟩ <;> decide +kernel

/-! ### The whole machine -/

/-- Queues with a well-formed and an ill-formed command, an empty one, and the phases in which a die stays silent. -/
theorem wit_queue :
    ({ (live id) with pending := [.tickBoundary] } : State).pending = .tickBoundary :: [] ∧ (live id).pending = [] ∧ Instr.wf .tickBoundary = true ∧ Instr.wf (.creditReceive (.peer 0) []) = false
    ∧ (∀ c ∈ [Instr.tickBoundary, .guardStart 0 0], c.wf = true) := by decide +kernel

/-- A step from a canonical state, and dies that are off and dormant. -/
theorem wit_invariant_and_silence :
    (live id).die.canonical ∧ (∃ t, step (live id) = .next t) ∧ (live fun d => { d with boot := { d.boot with phase := .off } }).die.boot.phase = .off
    ∧ (live fun d => { d with pins := { d.pins with pwrGood := false } }).die.pins.pwrGood = false
    ∧ (live fun d => { d with boot := { d.boot with phase := .dormant } }).die.boot.phase = .dormant := by
  refine ⟨?_, ⟨_, rfl⟩, rfl, rfl, rfl⟩; unfold Die.canonical Core.canonical; decide +kernel

/-! ### Well-formedness and boot -/

/-- Operands that no format carries are refused; those at the bound are not. -/
theorem test_ill_formed :
    Instr.wf (.creditReceive (.peer 0) (List.replicate 9 1)) = false ∧ Instr.wf (.creditReceive (.peer 0) (List.replicate 10 1)) = true
    ∧ Instr.wf (.linkHelloReceive (.peer 0) ⟨⟨0, 1⟩, 0, 15, []⟩) = false ∧ Instr.wf (.hdmCommit (List.replicate 3 ⟨0, 0, 2, 256, false⟩)) = false
    ∧ Instr.wf (.hdmMirrorReceive head0 (List.replicate 3 ⟨0, 0, 2, 256, false⟩)) = false ∧ Instr.wf (.linkListReceive 0 1 (List.replicate 5 (0, 0, true))) = false
    ∧ Instr.wf (.challenge 0 []) = false ∧ Instr.wf (.getMeasurements 1 true []) = false ∧ Instr.wf (.getMeasurements 1 false [0]) = false ∧ Instr.wf (.thermalSample []) = false
    ∧ Instr.wf (.bootImageVerify [goodSlot]) = false ∧ Instr.wf (.bootBist [128]) = false ∧ Instr.wf (.bootBist [127]) = true := by decide +kernel

theorem test_ill_formed_messages :
    let m : TickMsg := { msg0 with tick := 2 ^ 64 }
    let a : TickAck := { src := { pkg := 0, die := 1 }, epoch := 0, tick := 2 ^ 64, slips := 0, changeId := 0, vote := .ready, digest := 0, mismatch := false, cancels := [] }
    Instr.wf (.tickMsgReceive (.peer 0) m 0 0) = false ∧ Instr.wf (.tickAckReceive a) = false
    ∧ Instr.wf (.managementMsgReceive { head := head0, seq := 0, body := .hdmMirror (List.replicate 3 ⟨0, 0, 2, 256, false⟩) }) = false
    ∧ Instr.wf (.opticalMsgReceive 0 (.undef ⟨0, 1⟩ 9) 0 0) = false ∧ Instr.wf (.peerMsgForward (.peer 0) (.undef ⟨0, 1⟩ 16)) = false
    ∧ Instr.wf (.peerMsgForward (.peer 0) (.undef ⟨0, 1⟩ 15)) = true := by decide +kernel

/-- An ill-formed command faults by name. -/
theorem test_ill_formed_faults : exec (.bootBist [128]) State.reset = .fault .illFormed := by rfl

/-! ### The spec's worked examples -/

/-- Group partials of spec 05 (after R158): the canonical tree gives 4.0 whoever adds. Contributions of spec 06: 16,777,218. -/
theorem test_canonical_tree :
    ctree addRne [0x4B800000#32, 0x3F800000#32, 0x3F800000#32, 0xCB800000#32, 0x3F400000#32, 0x3F400000#32, 0x3F400000#32, 0x3F400000#32] = some 0x40800000#32
    ∧ ctree addRne [0x4B800000#32, 0x3F800000#32, 0x3F800000#32, 0x3F800000#32] = some 0x4B800001#32 ∧ addRne 0x4B800000#32 0x40000000#32 = 0x4B800001#32 := by decide +kernel

/-- The BF16 block of spec 05 (before R150): products 2^40, −2^40 and 2^−10 give +0; with 2^−8 for the last they give 2^−8. -/
theorem test_block_sum :
    let t (a b : Nat) := term .bf16 .bf16 a b 0 0
    blockSum (windowOf .bf16) [t 0x4980 0x4980, t 0xC980 0x4980, t 0x3D00 0x3D00] = 0#32
    ∧ blockSum (windowOf .bf16) [t 0x4980 0x4980, t 0xC980 0x4980, t 0x3D80 0x3D80] = 0x3B800000#32 := by decide +kernel

/-- Home slice and set of spec 10 (after R307), and the locked ways of its LOCK_WAYS example (after R344). -/
theorem test_cache_examples :
    homeSlice false 0x0123456780 = 4 ∧ setOf 0x0123456780 = 0x159 ∧ lockedAfter (lockedAfter 0 0xFFF0 true false) 0x000F true true = 0x000F := by decide +kernel

/-- The HDM decoder of spec 12 (after R404): die 5, device address 0x2678. -/
theorem test_hdm_example :
    (live fun d => { d with host := { d.host with hdm := [{ base := 0x2000000000, size := 1152 * 2 ^ 30, iw := 8, ig := 4096, committed := true }] } }).die.hdmTarget 0x2000015678
      = some (5, 0x2678) := by decide +kernel

/-- The fuses of spec 17 (after R554): array 2 of core 13 and all of core 40 are lost. -/
theorem test_fuse_registers :
    let d : Die := (live fun d => { d with fuses := { d.fuses with arrays := ~~~(BitVec.ofNat 192 (2 ^ 54 + 15 * 2 ^ 160)) } }).die
    d.view (FUSE_ARRAYS 1) = 0xFFBFFFFF ∧ d.view (FUSE_ARRAYS 5) = 0xFFFFFFF0 ∧ d.view (FUSE_ARRAYS 0) = 0xFFFFFFFF ∧ d.view CORES_ENABLED_LO = 0xFFFFFFFF
    ∧ d.view CORES_ENABLED_HI = 0xFEFF ∧ d.view GOOD_COUNT = 0x2FBB := by decide +kernel

/-- Epochs of spec 00 (after R31): 0x0002 is newer than 0xFFFE. Costs of spec 07: a LOAD_PROGRAM 8 units, a MAP_RANGE 2. -/
theorem test_epoch_and_costs : ((live fun d => d.put TICK_EPOCH_EPOCH 0xFFFE).die.fenceOf 2) = .newer ∧ opCost 0x84 = 8 ∧ opCost 0x80 = 2 := by decide +kernel

/-- One step: a verified die with zeroed memory and a host link is ready, and a doorbell past the ring is rejected and counted (R201, R535). -/
theorem test_steps :
    let r : Die := { State.reset.die with boot := { verified := true, zeroed := true }, host := { trained := true } }
    let d := ringOn { enable := true, part := 1 } id
    (match step { pending := [.bootReady 0], die := r } with | .next t => t.die.live && t.pending.isEmpty | _ => false) = true
    ∧ (match step { pending := [.doorbell pf 2 17], die := d } with | .next t => (t.die.ring 2).dbError && t.die.get CP_DB_REJECT_COUNT == 1 && (t.die.ring 2).tail == 0 | _ => false) = true
    ∧ (match step { pending := [.doorbell pf 2 16], die := d } with | .next t => !(t.die.ring 2).dbError && (t.die.ring 2).tail == 16 | _ => false) = true := by decide +kernel

/-- One step of a core: ADD wraps at 64 bits, and a word into s0 is discarded (spec 03). -/
theorem test_core_steps :
    let k (w : W64) := (coreAt w fun k => { k with sreg := [(1, 0xFFFFFFFFFFFFFFFF#64), (2, 2#64)] }).die
    (match step { pending := [.add 0 3 1 2], die := k (word 1 3 1 2 0) } with | .next t => (t.die.core 0).s 3 == 1#64 && (t.die.core 0).pc == 8 | _ => false) = true
    ∧ (match step { pending := [.add 0 0 1 2], die := k (word 1 0 1 2 0) } with | .next t => (t.die.core 0).s 0 == 0#64 && (t.die.core 0).pc == 8 | _ => false) = true := by decide +kernel

end Sys2Proof.Tests
end

section
/-! PROOF. Command rings (spec 07): doorbells (R200, R201), the packets that complete together and what a completed one leaves (R215, R220 to R222), and the
fields of its record (R218, R219). -/

namespace Sys2Proof.Machine

/-! ### Rings -/

/-- What a table holds after a write that is not the key's default; its order does not matter. -/
theorem tblGet_put_of_ne_dflt {α : Type} [DecidableEq α] {dflt : Nat → α} (t : List (Nat × α)) {k : Nat} {v : α} (q : Nat) (hv : v ≠ dflt k) :
    tblGet dflt (tblPut dflt t k v) q = if q = k then v else tblGet dflt t q := by
  induction t with
  | nil => by_cases hq : q = k <;> simp [tblPut, tblGet, hv, hq]
  | cons e t ih =>
    obtain ⟨j, u⟩ := e
    rcases lt_trichotomy k j with hkj | rfl | hjk
    · have hne : k ≠ j := by omega
      by_cases hq : q = k
      · simp [tblPut, tblGet, hv, hkj, hne, hq]
      · by_cases hlt : q < k
        · simp [tblPut, tblGet, hv, hkj, hne, hq, hlt, show q ≠ j by omega, show q < j by omega]
        · simp [tblPut, tblGet, hv, hkj, hne, hq, hlt]
    · by_cases hq : q = k <;> simp [tblPut, tblGet, hv, hq]
    · have hne : k ≠ j := by omega
      have hput : tblPut dflt ((j, u) :: t) k v = (j, u) :: tblPut dflt t k v := by simp [tblPut, hne, show ¬k < j by omega]
      rw [hput]
      by_cases hq : q = j
      · simp [tblGet, hq, hne.symm]
      · by_cases hlt : q < j
        · simp [tblGet, hq, hlt, show q ≠ k by omega]
        · simp [tblGet, hq, hlt, ih]

/-- The ring is enabled, or a completion ring on its way to disabled (R203). -/
def Ring.on (r : Ring) : Prop := r.enable = true ∨ r.disabling = true

theorem Ring.on_iff {r : Ring} : r.on ↔ (r.enable || r.disabling) = true := by simp [Ring.on]

theorem Ring.on.ne_default {r : Ring} (h : r.on) : r ≠ {} := by
  rintro rfl
  simp [Ring.on] at h

theorem Die.ring_setRing (d : Die) (i j : Nat) {r : Ring} (h : r.on) : (d.setRing i r).ring j = if j = i then r else d.ring j :=
  tblGet_put_of_ne_dflt d.cp.rings j h.ne_default

/-! ### Doorbells (R200, R201, R203, R405) -/

/-- R201 accepts the value as the TAIL of a submission ring. -/
def Ring.tailTakes (r : Ring) (new : W32) : Prop :=
  r.completion = false ∧ (new - r.head).toNat ≤ 2 ^ r.sizeLog2.toNat ∧ (new - r.tail).toNat ≤ (new - r.head).toNat

/-- R201 accepts the value as the HEAD of a completion ring. -/
def Ring.headTakes (r : Ring) (new : W32) : Prop := r.completion = true ∧ (r.tail - new).toNat ≤ (r.tail - r.head).toNat

theorem Die.doorbell_of_tailTakes {d : Die} {i : Nat} {new : W32} (hon : (d.ring i).on) (h : (d.ring i).tailTakes new) :
    d.doorbell i new = d.setRing i { d.ring i with tail := new } := by
  obtain ⟨hsub, hsize, hadvance⟩ := h
  simp [-BitVec.toNat_sub, Die.doorbell, Ring.size, Ring.on_iff.mp hon, hsub, hsize, hadvance]

theorem Die.doorbell_of_headTakes {d : Die} {i : Nat} {new : W32} (hon : (d.ring i).on) (h : (d.ring i).headTakes new) :
    d.doorbell i new = d.setRing i { d.ring i with head := new } := by
  obtain ⟨hcomp, hadvance⟩ := h
  simp [-BitVec.toNat_sub, Die.doorbell, Ring.on_iff.mp hon, hcomp, hadvance]

theorem Die.doorbell_rejects {d : Die} {i : Nat} {new : W32}
    (h : ¬((d.ring i).on ∧ ((d.ring i).tailTakes new ∨ (d.ring i).headTakes new))) :
    d.doorbell i new = (d.setRing i { d.ring i with dbError := true }).count CP_DB_REJECT_COUNT 1 := by
  change d.doorbell i new = d.dbReject i
  by_cases hon : (d.ring i).on
  · obtain ⟨hno_tail, hno_head⟩ : ¬(d.ring i).tailTakes new ∧ ¬(d.ring i).headTakes new := by simpa [hon] using h
    cases hcomp : (d.ring i).completion with
    | true =>
      have hback : ¬((d.ring i).tail - new).toNat ≤ ((d.ring i).tail - (d.ring i).head).toNat := fun hle => hno_head ⟨hcomp, hle⟩
      simp [-BitVec.toNat_sub, Die.doorbell, Ring.on_iff.mp hon, hcomp, hback]
    | false =>
      have hback : (new - (d.ring i).head).toNat ≤ (d.ring i).size → ¬(new - (d.ring i).tail).toNat ≤ (new - (d.ring i).head).toNat :=
        fun hsize hadvance => hno_tail ⟨hcomp, hsize, hadvance⟩
      simp +contextual [-BitVec.toNat_sub, -not_le, Die.doorbell, Ring.on_iff.mp hon, hcomp, hback]
  · have hoff : ((d.ring i).enable || (d.ring i).disabling) = false := by simpa [Ring.on_iff] using hon
    simp [Die.doorbell, hoff]

/-- The first word of a ring's page is its DOORBELL, for a function that may use the page (R200). -/
theorem Die.writePage_doorbell {d : Die} {who : Who} {r : RingIx} {new : W32}
    (h : who.part.val = 0 ∨ (d.ring r.val).part.toNat = who.part.val) : d.writePage who (r.val * 4096) new.toNat = d.doorbell r.val new := by
  have halign : r.val * 4096 % 4 = 0 := by omega
  have huse : (who.part.val != 0 && (d.ring r.val).part.toNat != who.part.val) = false := by
    rcases h with h | h <;> simp [h]
  simp [Die.writePage, halign, huse, show ¬8192 ≤ r.val from by omega]

/-- Another partition's page is reserved for a VF (R405). -/
theorem Die.writePage_foreign {d : Die} {who : Who} {r : RingIx} {new : W32} (hvf : who.part.val ≠ 0)
    (h : (d.ring r.val).part.toNat ≠ who.part.val) :
    d.writePage who (r.val * 4096) new.toNat = d.reserved who true true false (r.val * 4096) := by
  have halign : r.val * 4096 % 4 = 0 := by omega
  simp [Die.writePage, halign, hvf, h]

/-- A doorbell write that reaches its function is a write of the page's first word. -/
theorem becomes_doorbell {s : State} {who : Who} {r : RingIx} {new : W32} (h : Reaches s.die who true) :
    becomes (.doorbell who r new) s (s.die.writePage who (r.val * 4096) new.toNat) := by
  change onDie _ s = _
  rw [onDie_eq, fromHost_reaches h, posted_reaches h (by simp)]
  rfl

/-- Settles O20: the page's first word is the doorbell, which R201's three cases decide. -/
theorem doorbells : Obligations.Doorbells := by
  intro s who r new hreach
  have hwrite := becomes_doorbell (r := r) (new := new) hreach
  refine ⟨fun huse => ?_, fun hvf hforeign => ?_⟩
  · rw [Die.writePage_doorbell huse] at hwrite
    refine ⟨fun hon hsub => ?_, fun hon hcomp => ?_, fun hno => ?_⟩
    · rwa [Die.doorbell_of_tailTakes hon hsub] at hwrite
    · rwa [Die.doorbell_of_headTakes hon hcomp] at hwrite
    · rwa [Die.doorbell_rejects hno] at hwrite
  · rwa [Die.writePage_foreign hvf hforeign] at hwrite

/-! ### Byte fields (R14) -/

@[simp] theorem length_leBytes (n v : Nat) : (leBytes n v).length = n := by
  induction n generalizing v with
  | zero => rfl
  | succ n ih => simp [leBytes, ih]

theorem leNat_leBytes (n v : Nat) : leNat (leBytes n v) = v % 256 ^ n := by
  induction n generalizing v with
  | zero => simp [leBytes, leNat, Nat.mod_one]
  | succ n ih => simp [leBytes, leNat, ih, Nat.pow_succ', Nat.mod_mul]

/-- A field that starts a byte list. -/
theorem field_leBytes_append {n v : Nat} (h : v < 256 ^ n) (bs : List Byte) : field (leBytes n v ++ bs) 0 n = v := by
  simp [field, leNat_leBytes, Nat.mod_eq_of_lt h]

/-- A field behind the one that starts a byte list. -/
theorem field_behind_leBytes {k off : Nat} (h : k ≤ off) (v n : Nat) (bs : List Byte) : field (leBytes k v ++ bs) off n = field bs (off - k) n := by
  simp [field, List.drop_append, List.drop_of_length_le, h]

theorem zeroBytes_behind_leBytes {k off : Nat} (h : k ≤ off) (v n : Nat) (bs : List Byte) :
    zeroBytes (leBytes k v ++ bs) off n = zeroBytes bs (off - k) n := by
  simp [zeroBytes, List.drop_append, List.drop_of_length_le, h]

/-! ### The fields of a completion record (R218, R219) -/

theorem status_code_lt (st : Status) : st.code < 256 := by cases st <;> decide

theorem phaseOf_le_one (r : Ring) (j : W32) : phaseOf r j ≤ 1 := by unfold phaseOf; omega

/-- A stamped record, field by field. -/
theorem stampRecord_recordBody (d : Die) (q : Pkt) (phase tick : Nat) :
    stampRecord (recordBody d q) phase tick =
      leBytes 4 q.seq.toNat ++ (leBytes 1 q.status.code ++ (leBytes 1 q.opcode.toNat ++ (leBytes 2 (q.ring.val + phase * 2 ^ 15) ++ (leBytes 8 tick
        ++ (leBytes 8 q.answer.toNat ++ (leBytes 4 q.detail.toNat ++ (leBytes 1 (q.part.val + 16 * d.here.die.val) ++ leBytes 3 0))))))) := by
  have hring : field (recordBody d q) 6 2 = q.ring.val := by
    have := q.ring.isLt
    simp [recordBody, field_behind_leBytes, field_leBytes_append (n := 2) (v := q.ring.val) (by omega)]
  have hlow : q.ring.val % 2 ^ 15 = q.ring.val := Nat.mod_eq_of_lt (by have := q.ring.isLt; omega)
  rw [stampRecord, hring, hlow]
  simp [recordBody, List.take_append, List.drop_append, List.take_of_length_le, List.drop_of_length_le]

theorem stampRecord_fields (d : Die) (q : Pkt) (r : Ring) (j : W32) (tick : Nat) (htick : tick < 2 ^ 64) :
    let b := stampRecord (recordBody d q) (phaseOf r j) tick
    b.length = 32 ∧ field b 0 4 = q.seq.toNat ∧ field b 4 1 = q.status.code ∧ field b 5 1 = q.opcode.toNat
    ∧ field b 6 2 = q.ring.val + phaseOf r j * 2 ^ 15 ∧ field b 8 8 = tick ∧ field b 16 8 = q.answer.toNat ∧ field b 24 4 = q.detail.toNat
    ∧ field b 28 1 = q.part.val + 16 * d.here.die.val ∧ zeroBytes b 29 3 = true
    ∧ phaseOf r j = 1 - j.toNat / 2 ^ r.sizeLog2.toNat % 2 := by
  have hphase := phaseOf_le_one r j
  have hstatus := status_code_lt q.status
  simp only [stampRecord_recordBody, field_behind_leBytes, zeroBytes_behind_leBytes, Nat.reduceLeDiff, Nat.reduceSub, Nat.le_refl]
  refine ⟨by simp, field_leBytes_append ?_ _, field_leBytes_append ?_ _, field_leBytes_append ?_ _, field_leBytes_append ?_ _, field_leBytes_append ?_ _,
    field_leBytes_append ?_ _, field_leBytes_append ?_ _, field_leBytes_append ?_ _, by decide, rfl⟩ <;> omega

/-! ### A table walk does not see who asks (R367, R368) -/

/-- The invalidation, acknowledged to nobody when its requester is gone. -/
def InvPend.relieved (gone : HomeReq → Bool) (v : InvPend) : InvPend :=
  match v.done with
  | .ack r => if gone r then { v with done := .none } else v
  | _ => v

/-- Who asks a die for something: what a table walk never looks at. `gone` are the requesters that no invalidation is acknowledged to any more. -/
structure Askers where
  pkts : List Pkt
  cp : CpUnit
  reads : List DvaRead
  writes : List DvaWrite
  ring : List HomeReq
  mshrs : List Mshr
  replies : List Reply
  lost : List (Asker × Nat × Status)
  gone : HomeReq → Bool

/-- The die with other askers. -/
def Die.askedBy (w : Askers) (d : Die) : Die :=
  { d with
    pkts := w.pkts, cp := w.cp, tr := { d.tr with reads := w.reads, writes := w.writes },
    cache := { d.cache with ring := w.ring, mshrs := w.mshrs, replies := w.replies, lost := w.lost, invs := d.cache.invs.map (·.relieved w.gone) } }

/-- An answer with the die that gives it, the die with other askers. -/
def Askers.on {α : Type} (w : Askers) (p : α × Die) : α × Die := (p.1, p.2.askedBy w)

@[simp] theorem Askers.on_mk {α : Type} (w : Askers) (a : α) (d : Die) : w.on (a, d) = (a, d.askedBy w) := rfl

section
variable (w : Askers) (d : Die)

@[simp] theorem Die.raw_askedBy (off : Nat) : (d.askedBy w).raw off = d.raw off := rfl
@[simp] theorem Die.bit_askedBy (f : Fld) : (d.askedBy w).bit f = d.bit f := rfl
@[simp] theorem Die.cline_askedBy (k : Nat) : (d.askedBy w).cline k = d.cline k := rfl
@[simp] theorem Die.hay_askedBy (s : SliceIx) : (d.askedBy w).hay s = d.hay s := rfl
@[simp] theorem Die.findWay_askedBy (s : SliceIx) (l : Nat) (h : Bool) : (d.askedBy w).findWay s l h = d.findWay s l h := rfl
@[simp] theorem Die.tallyOf_askedBy (l : Nat) (h : Bool) : (d.askedBy w).tallyOf l h = d.tallyOf l h := rfl
@[simp] theorem Die.holders_askedBy (l : Nat) (h : Bool) : (d.askedBy w).holders l h = d.holders l h := rfl
@[simp] theorem Die.wayFree_askedBy : (d.askedBy w).wayFree = d.wayFree := rfl
@[simp] theorem Die.tree_askedBy (s : SliceIx) (i : Nat) : (d.askedBy w).tree s i = d.tree s i := rfl
@[simp] theorem Die.secTag_askedBy (s : Nat) : (d.askedBy w).secTag s = d.secTag s := rfl
@[simp] theorem Die.secErrs_askedBy (s : Nat) : (d.askedBy w).secErrs s = d.secErrs s := rfl
@[simp] theorem Die.offline_askedBy (s : Nat) : (d.askedBy w).offline s = d.offline s := rfl
@[simp] theorem Die.unmetered_askedBy (p r : Nat) : (d.askedBy w).unmetered p r = d.unmetered p r := rfl
@[simp] theorem Die.biasAsk_askedBy (r : HomeReq) : (d.askedBy w).biasAsk r = d.biasAsk r := rfl
@[simp] theorem Die.root_askedBy (p : Nat) : (d.askedBy w).root p = d.root p := rfl

@[simp] theorem Die.count_askedBy (f : Fld) (v : Nat) : (d.askedBy w).count f v = (d.count f v).askedBy w := rfl
@[simp] theorem Die.countWrap_askedBy (f : Fld) (v : Nat) : (d.askedBy w).countWrap f v = (d.countWrap f v).askedBy w := rfl
@[simp] theorem Die.raise_askedBy (s : Fin 20) (c : Cls) (v : W32) : (d.askedBy w).raise s c v = (d.raise s c v).askedBy w := rfl
@[simp] theorem Die.emit_askedBy (o : Out) : (d.askedBy w).emit o = (d.emit o).askedBy w := rfl
@[simp] theorem Die.setTag_askedBy (s : Nat) (t : SecTag) : (d.askedBy w).setTag s t = (d.setTag s t).askedBy w := rfl
@[simp] theorem Die.dropErrs_askedBy (s : Nat) : (d.askedBy w).dropErrs s = (d.dropErrs s).askedBy w := rfl
@[simp] theorem Die.setHay_askedBy (s : SliceIx) (h : List CLine) : (d.askedBy w).setHay s h = (d.setHay s h).askedBy w := rfl
@[simp] theorem Die.setCline_askedBy (k : Nat) (c : CLine) : (d.askedBy w).setCline k c = (d.setCline k c).askedBy w := rfl
@[simp] theorem Die.dropCline_askedBy (k : Nat) : (d.askedBy w).dropCline k = (d.dropCline k).askedBy w := rfl
@[simp] theorem Die.touch_askedBy (s : SliceIx) (a b : Nat) (t : Bool) : (d.askedBy w).touch s a b t = (d.touch s a b t).askedBy w := rfl

/-- What commutes with every step of a fold commutes with the fold. -/
theorem Die.foldl_askedBy {β : Type} (f : Die → β → Die) (h : ∀ e b, f (e.askedBy w) b = (f e b).askedBy w) (l : List β) :
    l.foldl f (d.askedBy w) = (l.foldl f d).askedBy w :=
  List.foldl_hom (Die.askedBy w) h

/-- A fold that also carries a value. -/
theorem Die.foldl_pair_askedBy {α β : Type} (f : α × Die → β → α × Die) (h : ∀ p b, f (w.on p) b = w.on (f p b)) (l : List β) (p : α × Die) :
    l.foldl f (w.on p) = w.on (l.foldl f p) :=
  List.foldl_hom w.on h

@[simp] theorem Die.record_askedBy (v : Fld) (fs : List (Fld × Nat)) : (d.askedBy w).record v fs = (d.record v fs).askedBy w := by
  unfold Die.record
  rw [Die.bit_askedBy]
  split
  · rfl
  · rw [Die.foldl_askedBy _ _ _ (fun _ _ => rfl)]; rfl

@[simp] theorem Die.charge_askedBy (p r n : Nat) : (d.askedBy w).charge p r n = (d.charge p r n).askedBy w := by
  unfold Die.charge
  rw [Die.unmetered_askedBy]
  split <;> rfl

@[simp] theorem Die.hbmOutcome_askedBy (a c : Nat) : (d.askedBy w).hbmOutcome a c = (d.hbmOutcome a c).askedBy w := by simp [Die.hbmOutcome]

@[simp] theorem Die.dcError_askedBy (s : SliceIx) (way set c : Nat) (cls : Cls) :
    (d.askedBy w).dcError s way set c cls = (d.dcError s way set c cls).askedBy w := by
  simp [Die.dcError, Die.dcRecord]

@[simp] theorem Die.checkSector_askedBy (s : Nat) : (d.askedBy w).checkSector s = w.on (d.checkSector s) := by
  unfold Die.checkSector
  simp only [Die.offline_askedBy, Die.secTag_askedBy, Die.secErrs_askedBy, Die.dropErrs_askedBy, Die.hbmOutcome_askedBy, Die.setTag_askedBy]
  split
  · rfl
  split
  · rfl
  split
  · rfl
  · simp [Die.foldl_askedBy]

@[simp] theorem Die.readSector_askedBy (p s : Nat) : (d.askedBy w).readSector p s = w.on (d.readSector p s) := by
  unfold Die.readSector
  rw [Die.checkSector_askedBy]
  rcases d.checkSector s with ⟨_ | _, e⟩ <;> rfl

@[simp] theorem Die.writeSector_askedBy (p s off : Nat) (bs : List Byte) :
    (d.askedBy w).writeSector p s off bs = w.on (d.writeSector p s off bs) := by
  unfold Die.writeSector
  split
  · rw [Die.offline_askedBy]
    split
    · simp
    · rfl
  · rw [Die.checkSector_askedBy]
    rcases d.checkSector s with ⟨_ | _, e⟩ <;> rfl

@[simp] theorem Die.poisonSector_askedBy (s : Nat) : (d.askedBy w).poisonSector s = (d.poisonSector s).askedBy w := by
  unfold Die.poisonSector
  rw [Die.offline_askedBy]
  split <;> simp

@[simp] theorem Die.writeBack_askedBy (c : CLine) : (d.askedBy w).writeBack c = (d.writeBack c).askedBy w := by
  unfold Die.writeBack
  rw [← Die.foldl_askedBy]
  · split <;> simp
  · intro e i
    split
    · split <;> simp [Askers.on]
    · rfl

@[simp] theorem Die.tally_askedBy : (d.askedBy w).cache.tally = d.cache.tally := rfl
@[simp] theorem Die.walkCache_askedBy : (d.askedBy w).tr.walk = d.tr.walk := rfl

@[simp] theorem Die.cleanGone_askedBy (c : CLine) : (d.askedBy w).cleanGone c = (d.cleanGone c).askedBy w := by
  unfold Die.cleanGone
  rw [Die.tally_askedBy]
  split <;> simp

@[simp] theorem Die.evict_askedBy (s : SliceIx) (c : CLine) : (d.askedBy w).evict s c = (d.evict s c).askedBy w := by
  unfold Die.evict
  simp only [Die.hay_askedBy, Die.setHay_askedBy, Die.cleanGone_askedBy, Die.writeBack_askedBy, Die.count_askedBy]
  split
  · rfl
  · split <;> rfl

@[simp] theorem Die.takeWay_askedBy (s : SliceIx) (set : Nat) : (d.askedBy w).takeWay s set = w.on (d.takeWay s set) := by
  unfold Die.takeWay
  simp only [Die.wayFree_askedBy, Die.cline_askedBy, Die.tree_askedBy, Die.dropCline_askedBy, Die.evict_askedBy]
  split
  · rfl
  split
  · rfl
  split <;> rfl

/-- A broadcast that nobody waits for. -/
@[simp] theorem Die.broadcast_askedBy (l : Nat) (h : Bool) : (d.askedBy w).broadcast l h .none = w.on (d.broadcast l h .none) := by
  unfold Die.broadcast
  rw [Die.tallyOf_askedBy]
  split
  · rfl
  · dsimp only
    rw [Askers.on_mk, ← Die.foldl_askedBy _ _ _ fun e b => rfl]
    simp only [Die.onCache, Die.askedBy, List.map_append, List.map_cons, List.map_nil, InvPend.relieved]
    rfl

@[simp] theorem Die.locate_askedBy (s : SliceIx) (l : Nat) (h : Bool) (k : Nat) : (d.askedBy w).locate s l h k = w.on (d.locate s l h k) := by
  unfold Die.locate
  simp only [Die.findWay_askedBy, Die.cline_askedBy, Die.hay_askedBy, Die.writeBack_askedBy, Die.dropCline_askedBy, Die.broadcast_askedBy,
    Die.setHay_askedBy, Die.takeWay_askedBy]
  split
  · split
    · split <;> rfl
    · rfl
  · split
    · rfl
    · split
      · rcases Die.takeWay _ _ _ with ⟨_ | _, e⟩ <;> simp
      · rfl

@[simp] theorem Die.fetchSectors_askedBy (s : SliceIx) (l way : Nat) (m : BitVec 4) :
    (d.askedBy w).fetchSectors s l way m = w.on (d.fetchSectors s l way m) := by
  unfold Die.fetchSectors
  rw [← Die.foldl_pair_askedBy]
  · simp only [Die.cline_askedBy]
    split
    · split <;> simp
    · rfl
  · rintro ⟨v, e⟩ i
    simp only [Askers.on_mk, Die.cline_askedBy]
    split
    · rfl
    · split
      · rw [Die.readSector_askedBy]
        rcases e.readSector _ _ with ⟨_ | _, e'⟩ <;> rfl
      · rfl

@[simp] theorem Die.allocLine_askedBy (s : SliceIx) (l : Nat) (h : Bool) (k : Nat) (o : Bool) :
    (d.askedBy w).allocLine s l h k o = w.on (d.allocLine s l h k o) := by
  unfold Die.allocLine
  rw [Die.takeWay_askedBy]
  rcases d.takeWay _ _ with ⟨_ | _, e⟩ <;> rfl

@[simp] theorem Die.sendPrefetch_askedBy (l k : Nat) (o : Bool) : (d.askedBy w).sendPrefetch l k o = (d.sendPrefetch l k o).askedBy w := by
  unfold Die.sendPrefetch
  rw [Die.bit_askedBy]
  split <;> rfl

@[simp] theorem Die.haveSectors_askedBy (l k : Nat) (m : BitVec 4) (o dem : Bool) :
    (d.askedBy w).haveSectors l k m o dem = w.on (d.haveSectors l k m o dem) := by
  unfold Die.haveSectors
  simp only [Die.locate_askedBy]
  rcases d.locate _ _ _ _ with ⟨_ | i, e⟩
  · simp only [Askers.on_mk, Die.countWrap_askedBy, Die.allocLine_askedBy]
    rcases Die.allocLine _ _ _ _ _ _ with ⟨_ | j, e'⟩
    · rfl
    · simp only [Askers.on_mk, Die.fetchSectors_askedBy]
      rcases Die.fetchSectors _ _ _ _ _ with ⟨_ | _, f⟩ <;> cases dem <;> simp
  · simp only [Askers.on_mk, Die.cline_askedBy]
    split
    · split
      · rfl
      · simp only [Die.countWrap_askedBy, Die.fetchSectors_askedBy]
        rcases Die.fetchSectors _ _ _ _ _ with ⟨ok, f⟩
        rfl
    · rfl

@[simp] theorem Die.hbmRead_askedBy (p a n : Nat) : (d.askedBy w).hbmRead p a n = w.on (d.hbmRead p a n) := by
  unfold Die.hbmRead
  rw [Die.charge_askedBy, ← Askers.on_mk, Die.foldl_pair_askedBy]
  · rfl
  · rintro ⟨v, e⟩ s
    simp [Askers.on]

@[simp] theorem Die.homeRead_askedBy (a n k : Nat) (o : Bool) : (d.askedBy w).homeRead a n k o = w.on (d.homeRead a n k o) := by
  unfold Die.homeRead
  simp only [Die.haveSectors_askedBy]
  rcases d.haveSectors _ _ _ _ _ with ⟨i | _ | _, e⟩
  · simp only [Askers.on_mk, Die.cline_askedBy]
    split
    · rfl
    · split <;> simp
  · rfl
  · simp

@[simp] theorem Die.tableRead_askedBy (a : Nat) : (d.askedBy w).tableRead a = w.on (d.tableRead a) := by
  unfold Die.tableRead
  simp only [Die.raw_askedBy, Die.homeRead_askedBy]
  rcases d.homeRead _ _ _ _ with ⟨_ | _, e⟩ <;> rfl

/-- A table entry is read alike, or waits alike for the host. -/
theorem Die.readEntry_askedBy (a : Nat) :
    (d.askedBy w).readEntry a = w.on (d.readEntry a) ∨ ∃ e f, (d.askedBy w).readEntry a = (.wait, e) ∧ d.readEntry a = (.wait, f) := by
  unfold Die.readEntry
  simp only [Die.biasAsk_askedBy]
  split
  · next h => simp [h]
  · next h => simp [h]

theorem Die.levelEntry_askedBy (p level table dva : Nat) :
    (d.askedBy w).levelEntry p level table dva = w.on (d.levelEntry p level table dva)
    ∨ ∃ e f, (d.askedBy w).levelEntry p level table dva = (.wait, e) ∧ d.levelEntry p level table dva = (.wait, f) := by
  unfold Die.levelEntry
  simp only [Die.walkCache_askedBy]
  split
  · exact .inl rfl
  · rcases Die.readEntry_askedBy w d (table + 8 * levelIndex level dva) with h | ⟨e, f, hw, hd⟩
    · left
      rw [h]
      rcases d.readEntry _ with ⟨_ | _ | _, e⟩
      · simp only [Askers.on_mk]
        split
        · simp [Die.onTr, Die.askedBy]
        · rfl
      · rfl
      · rfl
    · rw [hw, hd]
      exact .inr ⟨e, f, rfl, rfl⟩

theorem Die.walkFrom_askedBy (p dva n level table : Nat) :
    (Die.walkFrom p dva n level table (d.askedBy w)).1 = (Die.walkFrom p dva n level table d).1 := by
  induction n generalizing level table d with
  | zero => rfl
  | succ n ih =>
    unfold Die.walkFrom
    rcases Die.levelEntry_askedBy w d p level table dva with h | ⟨e, f, hw, hd⟩
    · rw [h]
      rcases d.levelEntry _ _ _ _ with ⟨_ | _ | _, e⟩
      · simp only [Askers.on_mk]
        split
        · rfl
        split
        · split <;> rfl
        split
        · rfl
        · exact ih e (level + 1) _
      · rfl
      · rfl
    · rw [hw, hd]

/-- Who asks is nothing to the leaf that a walk finds. -/
theorem Die.walk_askedBy (p dva : Nat) : ((d.askedBy w).walk p dva).1 = (d.walk p dva).1 := by
  unfold Die.walk
  rw [Die.root_askedBy]
  split
  · split
    · exact Die.walkFrom_askedBy w d p dva 4 0 _
    · rfl
  · rfl

end

/-! ### The end of a packet (R215, R220, R222) -/

/-- A packet without errors from its acknowledgements learns nothing. -/
theorem Die.takeErrors_of_no_lost {d : Die} (h : d.cache.lost = []) (pid : Nat) : d.takeErrors pid = d := by
  have hdrop : (d.cache.lost.filter fun l => l.1.req != .pkt pid) = d.cache.lost := by simp [h]
  rw [Die.takeErrors, h, List.foldl_nil, Die.dropLost, Die.onCache, hdrop]

/-- The packet is no longer among those under way, before its record or its slot. -/
def Die.withoutPkt (d : Die) (q : Pkt) : Die :=
  ((({ d with pkts := d.pkts.filter fun x => x.pid != q.pid }).doneWith (.pkt q.pid)).dropLost (.pkt q.pid)).onCp
    fun u => { u with ready := u.ready.filter (· != q.pid) }

/-- The request reads for the packet. -/
def Pkt.reads (q : Pkt) (r : HomeReq) : Bool := r.who.req == .pkt q.pid && !r.writes

/-- Who asks the die once the packet is gone. -/
def Die.askersWithout (d : Die) (q : Pkt) : Askers where
  pkts := d.pkts.filter fun x => x.pid != q.pid
  cp := { d.cp with ready := d.cp.ready.filter (· != q.pid) }
  reads := d.tr.reads.filter fun x => x.req != .pkt q.pid
  writes := d.tr.writes.filter fun x => x.req != .pkt q.pid
  ring := (d.forget q.reads).cache.ring
  mshrs := (d.forget q.reads).cache.mshrs
  replies := d.cache.replies.filter fun x => x.who.req != .pkt q.pid
  lost := d.cache.lost.filter fun l => l.1.req != .pkt q.pid
  gone := q.reads

theorem Die.withoutPkt_eq_askedBy (d : Die) (q : Pkt) : d.withoutPkt q = d.askedBy (d.askersWithout q) := by
  simp only [Die.askersWithout, Die.askedBy, Die.withoutPkt, Die.doneWith, Die.dropLost, Die.onCp, Die.onCache, Die.onTr, Die.forget]
  rfl

@[simp] theorem Die.ring_withoutPkt (d : Die) (q : Pkt) (c : Nat) : (d.withoutPkt q).ring c = d.ring c := by
  rw [Die.withoutPkt_eq_askedBy]; rfl

@[simp] theorem recordBody_withoutPkt (d : Die) (q x : Pkt) : recordBody (d.withoutPkt q) x = recordBody d x := by
  rw [Die.withoutPkt_eq_askedBy]; rfl

/-- That a packet is gone is nothing to the rule of R488. -/
theorem Die.noRecord_withoutPkt (d : Die) (q : Pkt) (p c : Nat) : (d.withoutPkt q).noRecord p c = d.noRecord p c := by
  rw [Die.noRecord, Die.noRecord, Die.ring_withoutPkt, Die.withoutPkt_eq_askedBy, Die.walk_askedBy, Die.bit_askedBy, Die.bit_askedBy]

/-- What an OK packet leaves its completion ring: a free slot with NO_RECORD, else its record (R215, R218, R222). -/
def Die.ringAfterOk (d : Die) (q : Pkt) : Ring :=
  let c := d.ring q.cring.val
  if q.flags.getLsbD 1 = true then { c with reserved := c.reserved - 1 } else { c with kept := c.kept ++ [(recordBody d q, q.flags.getLsbD 2)] }

theorem Die.ringAfterOk_on {d : Die} {q : Pkt} (h : (d.ring q.cring.val).on) : (d.ringAfterOk q).on := by
  unfold Die.ringAfterOk
  dsimp only
  split <;> exact h

/-- The ring no longer waits for the packet (R211). -/
def Ring.passed (r : Ring) (pid : Nat) : Ring := { r with waitBlock := if r.waitBlock == some pid then none else r.waitBlock }

/-- An OK packet leaves its completion ring its slot or its record. -/
theorem Die.leaves_ringAfterOk {d : Die} {q : Pkt} (hrec : d.noRecord q.part.val q.cring.val = false) :
    (if (true && q.flags.getLsbD 1 || (d.withoutPkt q).noRecord q.part.val q.cring.val) = true then (d.withoutPkt q).releaseSlot q.cring.val
      else (d.withoutPkt q).onRing q.cring.val fun r => { r with kept := r.kept ++ [(recordBody (d.withoutPkt q) q, q.flags.getLsbD 2 || !true)] })
      = (d.withoutPkt q).setRing q.cring.val (d.ringAfterOk q) := by
  rw [Die.noRecord_withoutPkt, hrec, Die.ringAfterOk, Bool.true_and, Bool.or_false, Bool.not_true, Bool.or_false, Die.releaseSlot, Die.onRing, Die.onRing,
    Die.ring_withoutPkt, recordBody_withoutPkt]
  split <;> rfl

/-- An OK packet that no launch chained leaves its record or its slot, and its ring goes on. -/
theorem Die.completePkt_ok {d : Die} {q : Pkt} (hrec : d.noRecord q.part.val q.cring.val = false) (hlaunch : q.launch = none) (hok : q.status = .ok) :
    let e := (d.withoutPkt q).setRing q.cring.val (d.ringAfterOk q)
    d.completePkt q = e.setRing q.ring.val ((e.ring q.ring.val).passed q.pid) := by
  have hgood : (q.status == .ok) = true := by rw [hok]; rfl
  unfold Die.completePkt
  simp only [hgood, hlaunch, Bool.not_true, Bool.and_false, Bool.false_and, Bool.false_eq_true, if_false]
  exact congrArg (fun e : Die => e.setRing q.ring.val ((e.ring q.ring.val).passed q.pid)) (Die.leaves_ringAfterOk hrec)

/-- The record of an OK packet: its ring has it or the slot back, the packet is gone, and registers, memory and faults are as before. -/
theorem Die.recordOf_ok {d : Die} {q : Pkt} (hlost : d.cache.lost = []) (hpkt : d.pkt? q.pid = some q)
    (hrec : d.noRecord q.part.val q.cring.val = false) (hlaunch : q.launch = none) (hok : q.status = .ok) (hne : q.cring ≠ q.ring)
    (hcomp : (d.ring q.cring.val).on) (hsub : (d.ring q.ring.val).on) :
    let t := d.recordOf q.pid
    t.ring q.cring.val = d.ringAfterOk q ∧ (∀ x ∈ t.pkts, x.pid ≠ q.pid) ∧ q.pid ∉ t.cp.ready ∧ t.regs = d.regs ∧ t.mem = d.mem ∧ t.fault = d.fault := by
  have hval : q.cring.val ≠ q.ring.val := fun h => hne (Fin.ext h)
  have hafter := Die.ringAfterOk_on hcomp
  have hring : ((d.withoutPkt q).setRing q.cring.val (d.ringAfterOk q)).ring q.ring.val = d.ring q.ring.val := by
    rw [Die.ring_setRing _ _ _ hafter, if_neg hval.symm, Die.ring_withoutPkt]
  have ht : d.recordOf q.pid = ((d.withoutPkt q).setRing q.cring.val (d.ringAfterOk q)).setRing q.ring.val ((d.ring q.ring.val).passed q.pid) := by
    rw [Die.recordOf, Die.takeErrors_of_no_lost hlost, hpkt]
    exact (Die.completePkt_ok hrec hlaunch hok).trans (by rw [hring])
  intro t
  refine ⟨?_, ?_⟩
  · have hpassed : ((d.ring q.ring.val).passed q.pid).on := hsub
    rw [show t = _ from ht, Die.ring_setRing _ _ _ hpassed, if_neg hval, Die.ring_setRing _ _ _ hafter, if_pos rfl]
  · rw [show t = _ from ht, Die.withoutPkt_eq_askedBy]
    refine ⟨?_, ?_, rfl, rfl, rfl⟩
    · intro x hx
      have hx : x ∈ d.pkts.filter fun x => x.pid != q.pid := hx
      simpa using (List.mem_filter.mp hx).2
    · intro h
      have h : q.pid ∈ d.cp.ready.filter (· != q.pid) := h
      simp at h

/-! ### The packets that complete together (R220, R221) -/

theorem mem_inRing {x q : Pkt} {l : List Pkt} : x ∈ inRing q l ↔ x = q ∨ x ∈ l := by
  induction l with
  | nil => simp [inRing]
  | cons y l ih =>
    unfold inRing
    split
    · simp
    · simp only [List.mem_cons, ih]
      tauto

theorem mem_ringOrder {x : Pkt} {l : List Pkt} : x ∈ ringOrder l ↔ x ∈ l := by
  induction l with
  | nil => simp [ringOrder]
  | cons q l ih => rw [ringOrder, List.foldr_cons, mem_inRing, List.mem_cons, ← ih, ringOrder]

/-- A packet whose status is decided and whose writes are acknowledged is due (R220). -/
theorem Die.mem_ready_of_finished {d : Die} {q : Pkt} (hq : q ∈ d.pkts) (hphase : q.phase = .finished) (hacked : d.unacked (.pkt q.pid) = false) :
    q.pid ∈ d.noteReady.cp.ready := by
  change q.pid ∈ d.cp.ready ++ (ringOrder (d.pkts.filter d.completes)).map (·.pid)
  by_cases hin : q.pid ∈ d.cp.ready
  · exact List.mem_append_left _ hin
  · have hc : d.completes q = true := by simp [Die.completes, hphase, hacked, hin]
    exact List.mem_append_right _ (List.mem_map_of_mem (mem_ringOrder.mpr (List.mem_filter.mpr ⟨hq, hc⟩)))

theorem opRecordWrite_of_ready {d : Die} {pid : Nat} (h : pid ∈ d.noteReady.cp.ready) :
    opRecordWrite pid d = (((d.noteReady.cp.ready.takeWhile (· != pid)) ++ [pid]).foldl Die.recordOf d.noteReady).drainAll := by
  simp [opRecordWrite, h]

theorem opRecordWrite_of_not_ready {d : Die} {pid : Nat} (h : pid ∉ d.noteReady.cp.ready) : opRecordWrite pid d = d.noteReady.drainAll := by
  simp [opRecordWrite, h]

theorem becomes_completionRecordWrite {s : State} (pid : Nat) (h : s.die.live = true) :
    becomes (.completionRecordWrite pid) s (opRecordWrite pid s.die) := onLive_live _ h

/-- Settles O22: the order of R221, the end of an OK packet, and the record's fields. -/
theorem completion : Obligations.Completion := by
  refine ⟨⟨fun s pid hlive => ?_, ?_⟩, stampRecord_fields⟩
  · have hnext := becomes_completionRecordWrite pid hlive
    refine ⟨fun hready => ?_, fun hready => ?_, rfl, fun q hq hphase hacked => Die.mem_ready_of_finished hq hphase hacked⟩
    · rwa [opRecordWrite_of_ready hready] at hnext
    · rwa [opRecordWrite_of_not_ready hready] at hnext
  · intro d q hlost hpkt hrec hlaunch hok hne c hcomp hsub
    exact Die.recordOf_ok hlost hpkt hrec hlaunch hok hne hcomp (.inl hsub)

end Sys2Proof.Machine
end

section
/-! PROOF. The fault collector (spec 15): what is left of a register word and its fields by writes, what FAULT_HIST_CTRL.CLEAR leaves of the history (R516). -/

namespace Sys2Proof.Machine

/-! ### Fields of a word -/

theorem testBit_sub (v lo w i : Nat) : (sub v lo w).testBit i = (decide (i < w) && v.testBit (i + lo)) := by
  rw [sub, Nat.testBit_mod_two_pow, Nat.testBit_div_two_pow]

/-- A word with a field replaced, as what lies above the field, the field, and what lies below. -/
theorem setBits_eq (v lo w x : Nat) : setBits v lo w x = 2 ^ lo * (2 ^ w * (v / 2 ^ lo / 2 ^ w) + x % 2 ^ w) + v % 2 ^ lo := by
  have hlow : v = 2 ^ lo * (v / 2 ^ lo) + v % 2 ^ lo := (Nat.div_add_mod v (2 ^ lo)).symm
  have hfield : 2 ^ lo * (v / 2 ^ lo) = 2 ^ lo * (2 ^ w * (v / 2 ^ lo / 2 ^ w)) + sub v lo w * 2 ^ lo := by
    rw [sub, Nat.mul_comm _ (2 ^ lo), ← Nat.mul_add, Nat.div_add_mod]
  rw [setBits, Nat.mul_add, Nat.mul_comm (x % 2 ^ w)]
  omega

theorem testBit_setBits (v lo w x i : Nat) :
    (setBits v lo w x).testBit i = if lo ≤ i ∧ i < lo + w then x.testBit (i - lo) else v.testBit i := by
  rw [setBits_eq, Nat.testBit_two_pow_mul_add _ (Nat.mod_lt _ (Nat.two_pow_pos lo)),
    Nat.testBit_two_pow_mul_add _ (Nat.mod_lt _ (Nat.two_pow_pos w))]
  by_cases hlow : i < lo
  · simp [hlow, Nat.testBit_mod_two_pow, show ¬lo ≤ i by omega]
  · by_cases hin : i - lo < w
    · simp [hlow, hin, Nat.testBit_mod_two_pow, show lo ≤ i by omega, show i < lo + w by omega]
    · have hback : i - lo - w + w + lo = i := by omega
      simp [hlow, hin, Nat.testBit_div_two_pow, hback, show ¬i < lo + w by omega]

/-- The two fields share no bit of a register. -/
def Fld.apart (f g : Fld) : Prop := f.off ≠ g.off ∨ f.lo + f.w ≤ g.lo ∨ g.lo + g.w ≤ f.lo

/-! ### Fields of the registers -/

/-- The registers are in their canonical form. -/
def Die.regsWf (d : Die) : Prop := tblWf (fun o => BitVec.ofNat 32 (regReset o)) none d.regs = true

section
variable {d : Die}

theorem Die.canonical.regsWf (h : d.canonical) : d.regsWf := by
  obtain ⟨hregs, -⟩ := h
  exact hregs

theorem Die.put_eq_putRaw (f : Fld) (v : Nat) : d.put f v = d.putRaw f.off (setBits (d.raw f.off) f.lo f.w v) := rfl

theorem Die.regsWf.put (h : d.regsWf) (f : Fld) (v : Nat) : (d.put f v).regsWf := Die.putRaw_wf d _ _ h

theorem Die.regsWf.store (h : d.regsWf) (r : RegRow) (off v : Nat) : (d.store r off v).regsWf := Die.putRaw_wf d _ _ h

/-- A write of a field leaves the other registers. -/
theorem Die.raw_put_of_ne (h : d.regsWf) {f : Fld} {q : Nat} (v : Nat) (hq : q ≠ f.off) : (d.put f v).raw q = d.raw q := by
  rw [Die.put_eq_putRaw, Die.raw_putRaw d _ _ q h, if_neg hq]

/-- A field reads what was last written to it. -/
theorem Die.get_put (h : d.regsWf) {f : Fld} (v : Nat) (hf : f.lo + f.w ≤ 32) : (d.put f v).get f = v % 2 ^ f.w := by
  rw [Die.get, Die.put_eq_putRaw, Die.raw_putRaw d _ _ _ h, if_pos rfl]
  refine Nat.eq_of_testBit_eq fun i => ?_
  rw [testBit_sub, Nat.testBit_mod_two_pow, Nat.testBit_mod_two_pow, testBit_setBits]
  by_cases hi : i < f.w
  · simp [hi, show i + f.lo < 32 by omega, show i + f.lo < f.lo + f.w by omega]
  · simp [hi]

/-- A write of a field leaves every field that lies apart from it. -/
theorem Die.get_put_of_apart (h : d.regsWf) {f g : Fld} (v : Nat) (hg : g.lo + g.w ≤ 32) (hfg : f.apart g) :
    (d.put f v).get g = d.get g := by
  rw [Die.get, Die.get]
  by_cases hoff : g.off = f.off
  · have hbits : f.lo + f.w ≤ g.lo ∨ g.lo + g.w ≤ f.lo := hfg.resolve_left fun hne => hne hoff.symm
    rw [hoff, Die.put_eq_putRaw, Die.raw_putRaw d _ _ _ h, if_pos rfl]
    refine Nat.eq_of_testBit_eq fun i => ?_
    rw [testBit_sub, testBit_sub, Nat.testBit_mod_two_pow, testBit_setBits]
    by_cases hi : i < g.w
    · simp [hi, show i + g.lo < 32 by omega, show ¬(f.lo ≤ i + g.lo ∧ i + g.lo < f.lo + f.w) by omega]
    · simp [hi]
  · rw [Die.raw_put_of_ne h v hoff]

/-! ### A write of a register by its access codes (R16, R544) -/

/-- A write leaves the other registers. -/
theorem Die.raw_store_of_ne (h : d.regsWf) (r : RegRow) {off q : Nat} (v : Nat) (hq : q ≠ off) : (d.store r off v).raw q = d.raw q := by
  rw [Die.store, Die.raw_putRaw d _ _ q h, if_neg hq]

theorem land_mod_of_mask {m n : Nat} (hm : m % 2 ^ n = 0) (a : Nat) : a.land m % 2 ^ n = 0 := by
  change (a &&& m) % 2 ^ n = 0
  rw [Nat.and_mod_two_pow, hm, Nat.and_zero]

theorem sub_land_mod_of_mask {m n : Nat} (hm : m % 2 ^ n = 0) (a : Nat) : (a - a.land m) % 2 ^ n = a % 2 ^ n := by
  obtain ⟨k, hk⟩ := Nat.dvd_of_mod_eq_zero (land_mod_of_mask hm a)
  have hle : a.land m ≤ a := Nat.and_le_left
  rw [hk] at hle ⊢
  exact Nat.sub_mul_mod hle

/-- A write leaves the bits below every bit that its access codes let it change. -/
theorem Die.raw_store_mod (h : d.regsWf) {r : RegRow} {n : Nat} (off v : Nat) (hrw : r.rw % 2 ^ n = 0) (hw1c : r.w1c % 2 ^ n = 0) (hn : n ≤ 32) :
    (d.store r off v).raw off % 2 ^ n = d.raw off % 2 ^ n := by
  rw [Die.store, Die.raw_putRaw d _ _ _ h, if_pos rfl, Nat.mod_mod_of_dvd _ (Nat.pow_dvd_pow 2 hn), sub_land_mod_of_mask (land_mod_of_mask hw1c v),
    Nat.add_mod, land_mod_of_mask hrw, Nat.add_zero, Nat.mod_mod, sub_land_mod_of_mask hrw]

end

/-! ### The history (R498, R516) -/

/-- What holds of every listed value and of the defaults holds of what a table reads. -/
theorem tblGet_of_forall {α : Type} {dflt : Nat → α} {P : α → Prop} {t : List (Nat × α)} (ht : ∀ e ∈ t, P e.2) (k : Nat) (hd : P (dflt k)) :
    P (tblGet dflt t k) := by
  induction t with
  | nil => exact hd
  | cons e t ih =>
    obtain ⟨he, ht⟩ := List.forall_mem_cons.mp ht
    rw [tblGet]
    split
    · exact he
    · split
      · exact hd
      · exact ih ht

/-- VALID and FIRST are 0. -/
def HistEntry.cleared (h : HistEntry) : Prop := h.valid = false ∧ h.first = false

/-- CLEAR leaves no entry VALID or FIRST. -/
theorem Die.histAt_clearHist (d : Die) (i : Nat) : (d.clearHist.histAt i).cleared := by
  refine tblGet_of_forall (fun e he => ?_) i ⟨rfl, rfl⟩
  obtain ⟨u, -, rfl⟩ := List.mem_map.mp he
  exact ⟨rfl, rfl⟩

/-- What CLEAR writes of the registers: four fields of FAULT_HIST_CTRL. -/
def Die.clearHistCtrl (d : Die) : Die :=
  (((d.put FAULT_HIST_CTRL_COUNT 0).put FAULT_HIST_CTRL_FIRST 0).put FAULT_HIST_CTRL_FIRST_VALID 0).put FAULT_HIST_CTRL_LOST 0

theorem Die.raw_clearHist (d : Die) (q : Nat) : d.clearHist.raw q = d.clearHistCtrl.raw q := rfl

theorem Die.get_clearHist (d : Die) (g : Fld) : d.clearHist.get g = d.clearHistCtrl.get g := rfl

section
variable {d : Die} (h : d.regsWf)
include h

theorem Die.raw_clearHist_of_ne {q : Nat} (hq : q ≠ FAULT_HIST_CTRL) : d.clearHist.raw q = d.raw q := by
  rw [Die.raw_clearHist, Die.clearHistCtrl, Die.raw_put_of_ne (((h.put _ _).put _ _).put _ _) _ hq, Die.raw_put_of_ne ((h.put _ _).put _ _) _ hq,
    Die.raw_put_of_ne (h.put _ _) _ hq, Die.raw_put_of_ne h _ hq]

/-- The three fields that CLEAR writes after COUNT lie apart from every field below them. -/
theorem Die.get_clearHist_of_low {g : Fld} (hg : g.lo + g.w ≤ 9) : d.clearHist.get g = (d.put FAULT_HIST_CTRL_COUNT 0).get g := by
  have hword : g.lo + g.w ≤ 32 := by omega
  have hfirst : FAULT_HIST_CTRL_FIRST.apart g := .inr (.inr hg)
  have hvalid : FAULT_HIST_CTRL_FIRST_VALID.apart g := .inr (.inr (hg.trans (by decide)))
  have hlost : FAULT_HIST_CTRL_LOST.apart g := .inr (.inr (hg.trans (by decide)))
  rw [Die.get_clearHist, Die.clearHistCtrl, Die.get_put_of_apart (((h.put _ _).put _ _).put _ _) _ hword hlost,
    Die.get_put_of_apart ((h.put _ _).put _ _) _ hword hvalid, Die.get_put_of_apart (h.put _ _) _ hword hfirst]

theorem Die.count_clearHist : d.clearHist.get FAULT_HIST_CTRL_COUNT = 0 := by
  rw [Die.get_clearHist_of_low h (by decide), Die.get_put h _ (by decide), Nat.zero_mod]

theorem Die.next_clearHist : d.clearHist.get FAULT_HIST_CTRL_NEXT = d.get FAULT_HIST_CTRL_NEXT := by
  rw [Die.get_clearHist_of_low h (by decide), Die.get_put_of_apart h _ (by decide) (.inr (.inr (by decide)))]

end

/-! ### The write of FAULT_HIST_CTRL (R516) -/

/-- FAULT_HIST_CTRL in the register table: CORR_EN alone is RW. -/
def histCtrlRow : RegRow :=
  { base := FAULT_HIST_CTRL, n1 := 1, s1 := 4, n2 := 1, s2 := 4, rw := 0x4000, w1c := 0, w1s := 0, digested := false, modeOnly := false }

theorem findRow_histCtrl : findRow FAULT_HIST_CTRL = some histCtrlRow := rfl

/-- The written word: CLEAR, and CORR_EN as it stands. -/
def Die.histClearWord (d : Die) : Nat := 0x8000 + (if d.bit FAULT_HIST_CTRL_CORR_EN then 0x4000 else 0)

theorem Die.effect_histCtrl (d : Die) (who : Who) (r : RegRow) (v : Nat) :
    d.effect who r FAULT_HIST_CTRL v = if sub v 15 1 == 1 then (d.store r FAULT_HIST_CTRL v).clearHist else d.store r FAULT_HIST_CTRL v := rfl

theorem opFaultHistClear_pf {who : Who} (d : Die) (hp : who.part = 0) :
    opFaultHistClear who d = (d.store histCtrlRow FAULT_HIST_CTRL d.histClearWord).clearHist := by
  have hclear : sub d.histClearWord 15 1 = 1 := by
    unfold Die.histClearWord
    split <;> decide
  change d.writeBar0 who FAULT_HIST_CTRL d.histClearWord = _
  rw [Die.writeBar0_pf hp (by decide) (by decide) findRow_histCtrl rfl rfl, Die.effect_histCtrl, hclear]
  rfl

theorem becomes_faultHistClear {s : State} {who : Who} (hreach : Reaches s.die who true) (hp : who.part = 0) :
    becomes (.faultHistClear who) s (s.die.store histCtrlRow FAULT_HIST_CTRL s.die.histClearWord).clearHist := by
  have hheld : (!false && s.die.addHeld who.part.val FAULT_HIST_CTRL) = false := by
    rw [hp]
    exact addHeld_low s.die FAULT_HIST_CTRL (by decide)
  change onDie _ s = _
  rw [onDie_eq, fromHost_reaches hreach, posted_reaches hreach hheld, opFaultHistClear_pf s.die hp]

/-- NEXT lies below CORR_EN, the one field that the write stores. -/
theorem Die.next_store_histCtrl {d : Die} (h : d.regsWf) (v : Nat) :
    (d.store histCtrlRow FAULT_HIST_CTRL v).get FAULT_HIST_CTRL_NEXT = d.get FAULT_HIST_CTRL_NEXT := by
  have hlow := Die.raw_store_mod (n := 4) h FAULT_HIST_CTRL v (r := histCtrlRow) (by decide) (by decide) (by decide)
  simpa [Die.get, sub, FAULT_HIST_CTRL_NEXT] using hlow

theorem classWord_ne_histCtrl (c : Cls) : classWord c ≠ FAULT_HIST_CTRL := by cases c <;> decide

/-- Settles O53: the write stores CORR_EN and clears the history, and neither reaches NEXT or another register. -/
theorem historyClear : Obligations.HistoryClear := by
  intro s who hreach hp hcanon
  have hwf := hcanon.regsWf
  have hstored := hwf.store histCtrlRow FAULT_HIST_CTRL s.die.histClearWord
  have hkeeps : ∀ q, q ≠ FAULT_HIST_CTRL → (s.die.store histCtrlRow FAULT_HIST_CTRL s.die.histClearWord).clearHist.raw q = s.die.raw q :=
    fun q hq => (Die.raw_clearHist_of_ne hstored hq).trans (Die.raw_store_of_ne hwf _ _ hq)
  refine ⟨_, becomes_faultHistClear hreach hp, fun i => Die.histAt_clearHist _ i, Die.count_clearHist hstored, ?_, ?_, ?_⟩
  · exact (Die.next_clearHist hstored).trans (Die.next_store_histCtrl hwf _)
  · exact fun c => hkeeps _ (classWord_ne_histCtrl c)
  · exact hkeeps _ (by decide)

end Sys2Proof.Machine
end

section
/-! PROOF. The queue and the whole machine: what every command and every step answers, runs of well-formed commands, the state after reset. -/

namespace Sys2Proof.Machine

/-- Every command is a change of the die behind the check of its operands. -/
theorem exec_eq_onWf (i : Instr) : ∃ f : Die → Die, exec i = onWf i.wf (onDie f) := by
  cases i <;> exact ⟨_, rfl⟩

theorem exec_of_wf {i : Instr} (h : i.wf = true) (s : State) : ∃ d, exec i s = .next { s with die := d } := by
  obtain ⟨f, hf⟩ := exec_eq_onWf i
  exact ⟨f s.die, by rw [hf, onWf_wf _ s h, onDie_eq]⟩

theorem exec_of_not_wf {i : Instr} (h : i.wf = false) (s : State) : exec i s = .fault .illFormed := by
  obtain ⟨f, hf⟩ := exec_eq_onWf i
  simp [hf, onWf, h]

/-- Settles O1: both clauses are the two branches of a step. -/
theorem frontOfQueue : Obligations.FrontOfQueue :=
  ⟨fun c rest s h => by rw [step, h], fun s h => by rw [step, h]; rfl⟩

/-- Settles O2: a command is a change of the die behind the check of its operands. -/
theorem commands : Obligations.Commands := by
  refine fun c s => ⟨fun h => ?_, fun h => exec_of_not_wf h s⟩
  obtain ⟨d, hd⟩ := exec_of_wf h s
  exact ⟨_, hd, rfl⟩

/-- A step over well-formed commands takes the one at the front, if any, off the queue. -/
theorem step_of_wf {s : State} (h : ∀ c ∈ s.pending, c.wf = true) : ∃ t, step s = .next t ∧ t.pending = s.pending.drop 1 := by
  cases hq : s.pending with
  | nil => exact ⟨_, frontOfQueue.2 s hq, by simp [hq]⟩
  | cons c rest =>
    obtain ⟨d, hd⟩ := exec_of_wf (h c (by simp [hq])) { s with pending := rest }
    exact ⟨_, (frontOfQueue.1 c rest s hq).trans hd, rfl⟩

theorem run_of_step {s t : State} (h : step s = .next t) (n : Nat) : Host.Core.run core (n + 1) s = Host.Core.run core n t := by
  have h : core.step s = .next t := h
  exact (Host.Core.run.eq_2 core s n).trans (by rw [h])

/-- Settles O3, by induction on the number of steps. -/
theorem runsNeverStop : Obligations.RunsNeverStop := by
  intro n
  induction n with
  | zero => exact fun s _ => ⟨s, rfl, rfl⟩
  | succ n ih =>
    intro s h
    obtain ⟨t, hstep, hqueue⟩ := step_of_wf h
    obtain ⟨u, hrun, hleft⟩ := ih t fun c hc => h c (List.mem_of_mem_drop (hqueue ▸ hc))
    exact ⟨u, (run_of_step hstep n).trans hrun, by rw [hleft, hqueue, List.drop_drop, Nat.add_comm]⟩

/-- Settles O57: nothing is listed, so that every read is a default. -/
theorem resetState : Obligations.ResetState := by
  have hraw : ∀ off, State.reset.die.raw off = regReset off % 2 ^ 32 := fun off => BitVec.toNat_ofNat _ _
  refine ⟨⟨rfl, rfl, rfl, rfl, rfl, fun c => rfl, hraw, ?_, ?_, ?_⟩, rfl, rfl, rfl, rfl, fun c => ⟨rfl, rfl, rfl⟩⟩
  all_goals rfl

end Sys2Proof.Machine
end

section
/-! PROOF. The phases of a die: what a die in reset, without power or in the dormant state leaves unanswered (R33, R518, R519, R560). -/

namespace Sys2Proof.Machine

/-- The changes of a die that its phase lets through as a whole. -/
inductive Guarded : (Die → Die) → Prop
  | live (f : Die → Die) : Guarded fun d => if d.live then f d else d
  | ports (f : Die → Die) : Guarded fun d => if d.live || d.boot.phase == .boot then f d else d
  | host (who : Who) (bar0 write : Bool) (off : Nat) (f : Die → Die) : Guarded (fromHost who bar0 write off f)
  | message (h : MsgHead) (f : Die → Die) : Guarded (fromDie h f)
  | port (p : LinkPort) (m : FabMsg) (f : Die → Die) : Guarded (fromPort p m f)
  | mailbox (f : Die → Die) : Guarded fun d => d.onDoe f

/-- Commands of pins and supplies. -/
inductive OfPins : Instr → Prop
  | bootStart : OfPins .bootStart
  | resetNFall : OfPins .resetNFall
  | powerRemoval : OfPins .powerRemoval
  | fabricRailsApplied : OfPins .fabricRailsApplied
  | fabricSupplyLoss : OfPins .fabricSupplyLoss

/-- Commands of the collector, the power controller, the I3C target and the JTAG port. -/
inductive OfAlwaysOn : Instr → Prop
  | faultEvent (us : List Upset) : OfAlwaysOn (.faultEvent us)
  | errNSenseFall : OfAlwaysOn .errNSenseFall
  | dormantEntry : OfAlwaysOn .dormantEntry
  | fastLimit : OfAlwaysOn .fastLimit
  | thermalSample (temps : List (Option Int)) : OfAlwaysOn (.thermalSample temps)
  | thermtrip : OfAlwaysOn .thermtrip
  | supplyFault (rail : Fin 10) : OfAlwaysOn (.supplyFault rail)
  | pllLockLoss (pll : Fin 2) : OfAlwaysOn (.pllLockLoss pll)
  | refclkLoss : OfAlwaysOn .refclkLoss
  | i3cPrivateWrite (off : W32) (v : Option W32) : OfAlwaysOn (.i3cPrivateWrite off v)
  | i3cPrivateRead : OfAlwaysOn .i3cPrivateRead
  | dynamicAddressAssignment (addr : BitVec 7) : OfAlwaysOn (.dynamicAddressAssignment addr)
  | extest : OfAlwaysOn .extest
  | fuseProgram (digest : BitVec 384) : OfAlwaysOn (.fuseProgram digest)
  | idcode : OfAlwaysOn .idcode
  | bypass : OfAlwaysOn .bypass

/-- Commands of boot, the host link, the ID chain and Groom's trap: each looks at the phase by itself. -/
inductive OfRunning : Instr → Prop
  | orphanEntry (ev : HostEvent) : OfRunning (.orphanEntry ev)
  | hostLinkTrain (modules : BitVec 2) (rate : BitVec 3) : OfRunning (.hostLinkTrain modules rate)
  | cxlReset : OfRunning .cxlReset
  | hostResetEvent (ev : HostEvent) : OfRunning (.hostResetEvent ev)
  | nmiAck : OfRunning .nmiAck
  | bootImageVerify (slots : List BootSlot) : OfRunning (.bootImageVerify slots)
  | hbmZeroing : OfRunning .hbmZeroing
  | bootBist (fails : List Nat) : OfRunning (.bootBist fails)
  | bootReady (ms : Nat) : OfRunning (.bootReady ms)
  | idFrameSend : OfRunning .idFrameSend
  | idFrameReceive (die : DieIx) (pkg : PkgIx) (ok : Bool) : OfRunning (.idFrameReceive die pkg ok)

/-- Every command stands behind a guard, or is of one of the three kinds, or is a configuration request. -/
theorem guarded_or_of (i : Instr) : (∃ f, Guarded f ∧ exec i = onWf i.wf (onDie f)) ∨ OfPins i ∨ OfAlwaysOn i ∨ OfRunning i
    ∨ ∃ p r, i = .configurationRequest p r := by
  cases i
  case configurationRequest p r => exact .inr (.inr (.inr (.inr ⟨p, r, rfl⟩)))
  all_goals first
    | exact .inr (.inl (by constructor))
    | exact .inr (.inr (.inl (by constructor)))
    | exact .inr (.inr (.inr (.inl (by constructor))))
    | exact .inl ⟨_, by constructor, rfl⟩

/-- Nothing but what leaves the die changes. -/
def Die.sameBut (d t : Die) : Prop := t = { d with out := t.out }

theorem Die.sameBut_refl (d : Die) : d.sameBut d := rfl

theorem Die.sameBut_emit (d : Die) (o : Out) : d.sameBut (d.emit o) := rfl

section
variable {d : Die}

theorem fromDie_off (h : d.boot.phase = .off) (m : MsgHead) (f : Die → Die) : fromDie m f d = d := by simp [fromDie, h]

theorem fromDie_dormant (h : d.boot.phase = .dormant) (m : MsgHead) (f : Die → Die) : fromDie m f d = d := by simp [fromDie, h]

/-- A die in reset does nothing behind a guard of its phase. -/
theorem Guarded.off {f : Die → Die} (hf : Guarded f) (h : d.boot.phase = .off) : f d = d := by
  cases hf with
  | live f => simp [Die.live, h]
  | ports f => simp [Die.live, h]
  | host who _ _ _ f => cases who <;> simp [fromHost, h]
  | message m f => exact fromDie_off h m f
  | port p m f =>
    unfold fromPort
    split
    · simp [fromDie_off h, h]
    · simp [h]
  | mailbox f => simp [Die.onDoe, h]

/-- A dormant die only refuses memory requests. -/
theorem Guarded.dormant {f : Die → Die} (hf : Guarded f) (h : d.boot.phase = .dormant) : d.sameBut (f d) := by
  cases hf with
  | live f => simp [Die.live, h, Die.sameBut_refl]
  | ports f => simp [Die.live, h, Die.sameBut_refl]
  | host who _ _ _ f =>
    cases who with
    | dev => simp [fromHost, h, Die.sameBut_refl]
    | fn p tlp => simp [fromHost, h, Die.sameBut_emit]
  | message m f => rw [fromDie_dormant h]; exact d.sameBut_refl
  | port p m f =>
    have : fromPort p m f d = d := by
      unfold fromPort
      split
      · simp [fromDie_dormant h, h]
      · simp [h]
    rw [this]; exact d.sameBut_refl
  | mailbox f => simp [Die.onDoe, h, Die.sameBut_refl]

end

/-- The command changes the die by `f`, which no check stands before. -/
theorem exec_onDie_same {i : Instr} {f : Die → Die} {s : State} (hi : exec i s = onWf i.wf (onDie f) s) (hwf : i.wf = true) (hf : f s.die = s.die) :
    exec i s = .next s := by
  rw [hi, onWf_wf _ s hwf, onDie_eq, hf]

theorem answers_onDie {i : Instr} {f : Die → Die} {s : State} {P : Die → Prop} (hi : exec i s = onWf i.wf (onDie f) s) (hwf : i.wf = true)
    (hf : P (f s.die)) : answers i s P :=
  ⟨_, by rw [hi, onWf_wf _ s hwf, onDie_eq], hf⟩

/-! ### Commands without a guard, on a die that is in reset or dormant -/

section
variable {d : Die}

theorem Die.hostEvent_idle (h : d.boot.phase = .off ∨ d.boot.phase = .dormant) (ev : HostEvent) : d.hostEvent ev = d := by
  rcases h with h | h <;> simp [Die.hostEvent, h]

theorem opOrphanEntry_idle (h : d.boot.phase = .off ∨ d.boot.phase = .dormant) (ev : HostEvent) : opOrphanEntry ev d = d := by
  simp [opOrphanEntry, Die.hostEvent_idle h]

theorem opHostResetEvent_idle (h : d.boot.phase = .off ∨ d.boot.phase = .dormant) (ev : HostEvent) : opHostResetEvent ev d = d := by
  simp [opHostResetEvent, Die.hostEvent_idle h]

theorem opHostLinkTrain_idle (h : d.boot.phase = .off ∨ d.boot.phase = .dormant) (m : BitVec 2) (r : BitVec 3) : opHostLinkTrain m r d = d := by
  rcases h with h | h <;> simp [opHostLinkTrain, h]

theorem Die.not_running (h : d.boot.phase = .off ∨ d.boot.phase = .dormant) : d.running = false := by
  rcases h with h | h <;> simp [Die.running, h]

theorem opNmiAck_idle (h : d.boot.phase = .off ∨ d.boot.phase = .dormant) : opNmiAck d = d := by simp [opNmiAck, Die.not_running h]

theorem opIdFrameSend_idle (h : d.boot.phase = .off ∨ d.boot.phase = .dormant) : opIdFrameSend d = d := by simp [opIdFrameSend, Die.not_running h]

theorem opIdFrameReceive_idle (h : d.boot.phase = .off ∨ d.boot.phase = .dormant) (x : DieIx) (p : PkgIx) (ok : Bool) :
    opIdFrameReceive x p ok d = d := by simp [opIdFrameReceive, Die.not_running h]

theorem Die.not_boot (h : d.boot.phase = .off ∨ d.boot.phase = .dormant) : (d.boot.phase == .boot) = false := by
  rcases h with h | h <;> simp [h]

theorem Die.not_mustZero (h : d.boot.phase = .off ∨ d.boot.phase = .dormant) : d.mustZero = false := by simp [Die.mustZero, Die.not_boot h]

theorem opHbmZeroing_idle (h : d.boot.phase = .off ∨ d.boot.phase = .dormant) : opHbmZeroing d = d := by simp [opHbmZeroing, Die.not_mustZero h]

theorem opBootBist_idle (h : d.boot.phase = .off ∨ d.boot.phase = .dormant) (fails : List Nat) : opBootBist fails d = d := by
  simp [opBootBist, Die.not_mustZero h]

theorem opBootReady_idle (h : d.boot.phase = .off ∨ d.boot.phase = .dormant) (ms : Nat) : opBootReady ms d = d := by simp [opBootReady, Die.not_boot h]

theorem opBootImageVerify_idle (h : d.boot.phase = .off ∨ d.boot.phase = .dormant) (slots : List BootSlot) : opBootImageVerify slots d = d := by
  rcases h with h | h <;> simp [opBootImageVerify, h]

theorem Die.jtag_unpowered (h : d.pins.pwrGood = false) (x : JtagIr) : d.jtag x = d := by simp [Die.jtag, h]

theorem opFuseProgram_unpowered (h : d.pins.pwrGood = false) (x : BitVec 384) : opFuseProgram x d = d := by
  simp [opFuseProgram, Die.jtag_unpowered h, h]

end

theorem opConfigurationRequest_off {d : Die} (h : d.boot.phase = .off) (p : PartIx) (r : CfgReq) : opConfigurationRequest p r d = d := by
  simp [opConfigurationRequest, h]

theorem opDormantEntry_dormant {d : Die} (h : d.boot.phase = .dormant) : opDormantEntry d = d := by
  unfold opDormantEntry
  split <;> simp [Die.not_running (.inr h), h]

theorem OfRunning.same {i : Instr} {s : State} (hi : OfRunning i) (hwf : i.wf = true) (h : s.die.boot.phase = .off ∨ s.die.boot.phase = .dormant) :
    exec i s = .next s := by
  cases hi with
  | orphanEntry ev => exact exec_onDie_same rfl hwf (opOrphanEntry_idle h ev)
  | hostLinkTrain m r => exact exec_onDie_same rfl hwf (opHostLinkTrain_idle h m r)
  | cxlReset => exact exec_onDie_same rfl hwf (Die.hostEvent_idle h _)
  | hostResetEvent ev => exact exec_onDie_same rfl hwf (opHostResetEvent_idle h ev)
  | nmiAck => exact exec_onDie_same rfl hwf (by simp [opNmiAck_idle h])
  | bootImageVerify slots => exact exec_onDie_same rfl hwf (opBootImageVerify_idle h slots)
  | hbmZeroing => exact exec_onDie_same rfl hwf (opHbmZeroing_idle h)
  | bootBist fails => exact exec_onDie_same rfl hwf (opBootBist_idle h fails)
  | bootReady ms => exact exec_onDie_same rfl hwf (opBootReady_idle h ms)
  | idFrameSend => exact exec_onDie_same rfl hwf (opIdFrameSend_idle h)
  | idFrameReceive x p ok => exact exec_onDie_same rfl hwf (opIdFrameReceive_idle h x p ok)

/-- Without power the always-on units do nothing either (R33). -/
theorem OfAlwaysOn.same {i : Instr} {s : State} (hi : OfAlwaysOn i) (hwf : i.wf = true) (h : s.die.pins.pwrGood = false) : exec i s = .next s := by
  have hawake : s.die.awake = false := h
  cases hi with
  | faultEvent | errNSenseFall | dormantEntry | fastLimit | thermalSample | thermtrip | supplyFault | pllLockLoss | refclkLoss =>
    exact exec_onDie_same rfl hwf (by simp [hawake])
  | i3cPrivateWrite => exact exec_onDie_same rfl hwf (by simp [opI3cPrivateWrite, h])
  | i3cPrivateRead => exact exec_onDie_same rfl hwf (by simp [opI3cPrivateRead, h])
  | dynamicAddressAssignment => exact exec_onDie_same rfl hwf (by simp [opDynamicAddressAssignment, h])
  | extest | idcode | bypass => exact exec_onDie_same rfl hwf (Die.jtag_unpowered h _)
  | fuseProgram x => exact exec_onDie_same rfl hwf (opFuseProgram_unpowered h x)

/-- Settles O59: by the kind of the command. -/
theorem silentDies : Obligations.SilentDies := by
  unfold Obligations.SilentDies
  intro pins alwaysOn
  refine ⟨fun i s hwf h hpins hon => ?_, fun i s hwf h hpwr hi => ?_, fun i s hwf h hi => ?_⟩
  · rcases guarded_or_of i with ⟨f, hf, he⟩ | hk | hk | hk | ⟨p, r, rfl⟩
    · exact exec_onDie_same (congrFun he s) hwf (hf.off h)
    · cases hk <;> cases hpins
    · cases hk <;> cases hon
    · exact hk.same hwf (.inl h)
    · exact exec_onDie_same rfl hwf (opConfigurationRequest_off h p r)
  · rcases guarded_or_of i with ⟨f, hf, he⟩ | hk | hk | hk | ⟨p, r, rfl⟩
    · exact exec_onDie_same (congrFun he s) hwf (hf.off h)
    · rcases hi with rfl | hpins
      · exact exec_onDie_same rfl hwf (by simp [opResetNFall, hpwr])
      · cases hk <;> cases hpins
    · exact hk.same hwf hpwr
    · exact hk.same hwf (.inl h)
    · exact exec_onDie_same rfl hwf (opConfigurationRequest_off h p r)
  · rcases guarded_or_of i with ⟨f, hf, he⟩ | hk | hk | hk | ⟨p, r, rfl⟩
    · exact answers_onDie (congrFun he s) hwf (hf.dormant h)
    · rcases hi with rfl | rfl | ⟨hpins, -⟩
      · exact answers_onDie rfl hwf (by simp [opBootStart, h])
      · cases hk
      · cases hk <;> cases hpins
    · rcases hi with rfl | rfl | ⟨-, hon⟩
      · cases hk
      · exact answers_onDie rfl hwf (by simp [opDormantEntry_dormant h])
      · cases hk <;> cases hon
    · exact ⟨_, hk.same hwf (.inr h), rfl⟩
    · exact answers_onDie rfl hwf (by simp [opConfigurationRequest, h]; rfl)

end Sys2Proof.Machine
end

section
/-! PROOF. Core instructions that change their core alone (spec 03, spec 05): the scalar, control and vector instructions. -/

namespace Sys2Proof.Machine

section
variable {i : Instr} {s : State} {c : CoreIx} {op : CoreOp}

theorem Issues.live (h : Issues s c op) : s.die.live = true := h.1

/-- An instruction that issues has its effect on the die. -/
theorem becomes_of_issue {ready : Core → Bool} {run : Die → Core → Die} (h : Issues s c op) (hi : exec i s = onLive (fun d => d.issue c op ready run) s)
    (hr : ready (s.die.core c) = true) {t : Die} (ht : run s.die (s.die.core c) = t) : becomes i s t := by
  rw [becomes, hi, onLive_live _ h.live, Die.issue_of_issues h hr, ht]

/-- An instruction that changes its core alone retires. -/
theorem retires_of_issueCore {f g : Core → Core} (h : Issues s c op) (hi : exec i s = onLive (fun d => d.issueCore c op f) s)
    (hg : f (s.die.core c) = g (s.die.core c)) : retires i s c g := by
  exact becomes_of_issue h hi rfl (by rw [hg])

end

/-! ### Scalar registers (R89, R98) -/

theorem Core.s_zero (k : Core) : k.s 0 = 0 := by simp [Core.s]

theorem Core.setS_zero (k : Core) (v : W64) : k.setS 0 v = k := by simp [Core.setS]

theorem Core.setS_canonical {k : Core} (h : k.canonical) (r : Reg) (v : W64) : (k.setS r v).canonical := by
  unfold Core.setS
  split
  · exact h
  · obtain ⟨hs, hstore, hacc⟩ := h
    exact ⟨tblPut_wf _ v hs (fun _ hl => by cases hl), hstore, hacc⟩

theorem Core.s_setS {k : Core} (h : k.canonical) (r q : Reg) (v : W64) : (k.setS r v).s q = if r = q ∧ r ≠ 0 then v else k.s q := by
  by_cases hr : r = 0
  · subst hr; rw [Core.setS_zero]; simp
  by_cases hq : q = 0
  · subst hq; rw [Core.s_zero, Core.s_zero, if_neg fun hc => hr hc.1]
  have hget := tblGet_put (dflt := fun _ => 0#64) r.toNat v q.toNat h.1
  have hne : q.toNat = r.toNat ↔ r = q := by rw [BitVec.toNat_inj]; exact eq_comm
  simp only [Core.setS, Core.s, beq_iff_eq, hr, hq, if_false, hget, hne, and_true, ne_eq, not_false_eq_true]

theorem slt_iff (a b : W64) : a.slt b = true ↔ a.toInt < b.toInt := by simp [BitVec.slt]

theorem ult_iff (a b : W64) : a.ult b = true ↔ a.toNat < b.toNat := by simp [BitVec.ult]

/-- LIH puts the immediate above the low half. -/
theorem append_truncate (imm : W32) (x : W64) : (imm ++ x.truncate 32 : W64) = BitVec.ofNat 64 (imm.toNat * 2 ^ 32 + x.toNat % 2 ^ 32) := by
  have hlow : (x.truncate 32).toNat < 2 ^ 32 := (x.truncate 32).isLt
  apply BitVec.eq_of_toNat_eq
  rw [BitVec.toNat_append, ← Nat.shiftLeft_add_eq_or_of_lt hlow, Nat.shiftLeft_eq, BitVec.toNat_ofNat, BitVec.truncate_eq_setWidth, BitVec.toNat_setWidth,
    Nat.mod_eq_of_lt (b := 2 ^ 64)]
  have := imm.isLt
  omega

/-- Settles O4: every form issues its value of `aluVal`. -/
theorem scalarInstructions : Obligations.ScalarInstructions := by
  refine ⟨fun k r q v h => ⟨Core.setS_canonical h r v, Core.setS_zero k v, Core.s_zero k, Core.s_setS h r q v⟩, fun s c sd sa sb => ?_, fun s c sd sa imm => ?_⟩
  · and_intros <;> exact fun h => retires_of_issueCore h rfl (by simp only [aluVal, slt_iff, ult_iff])
  · intro x
    and_intros <;> exact fun h => retires_of_issueCore h rfl (by simp only [aluVal, slt_iff, ult_iff, append_truncate, sext, id, x])

/-! ### Branches, jumps, CSRs and the crib (R88, R98 to R101) -/

theorem brTaken_iff (op : BrOp) (a b : W64) :
    brTaken op a b = true ↔ match op with
      | .eq => a = b
      | .ne => a ≠ b
      | .lt => a.toInt < b.toInt
      | .ge => b.toInt ≤ a.toInt
      | .ltu => a.toNat < b.toNat
      | .geu => b.toNat ≤ a.toNat := by
  cases op <;> simp [brTaken, BitVec.slt, BitVec.ult]

/-- A branch that issues goes where its condition says. -/
theorem becomes_branch {i : Instr} {s : State} {c : CoreIx} {op : BrOp} {sa sb : Reg} {imm : W32} {cond : Prop} [Decidable cond]
    (h : Issues s c (.branch op sa sb imm)) (hi : exec i s = onLive (opBranch op c sa sb imm) s)
    (hc : brTaken op ((s.die.core c).s sa) ((s.die.core c).s sb) = true ↔ cond) :
    becomes i s (s.die.setCore c (if cond then { s.die.core c with pc := (((s.die.core c).pc : Int) + 8 * imm.toInt).toNat }
      else { s.die.core c with pc := (s.die.core c).pc + 8 })) := by
  simp only [← hc]
  exact becomes_of_issue h hi rfl rfl

/-- A crib whose words have no error reads its bytes and changes nothing. -/
theorem Die.cribRead_clean {d : Die} {c : CoreIx} (h : (d.core c).cribErr = []) (a n : Nat) : d.cribRead c a n = (some (memRead (d.core c).crib a n), d) := by
  have hnone : ∀ w, (d.core c).cribErrAt w = none := fun w => by simp [Core.cribErrAt, assoc, h]
  simp [Die.cribRead, hnone]

theorem Core.cribWrite_clean {k : Core} (h : k.cribErr = []) (a : Nat) (bs : List Byte) : k.cribWrite a bs = { k with crib := memWrite k.crib a bs } := by
  cases k
  simp_all [Core.cribWrite]

/-- A CSR read of a running slice draws one free value, whatever it reads. -/
theorem becomes_csrr {s : State} {c : CoreIx} {sd : Reg} {n : BitVec 12} (h : Issues s c (.csrr sd n)) :
    becomes (.csrr c sd n) s
      ({ s.die with freeCtr := s.die.freeCtr + 1 }.setCore c ((s.die.core c).setS sd (csrValue s.die c (s.die.core c) n)).next) :=
  becomes_of_issue h rfl rfl rfl

/-- Settles O5. -/
theorem controlAndCrib : Obligations.ControlAndCrib := by
  refine ⟨fun s c sd sa sb imm => ?_, fun s c sd sa imm => ?_⟩
  · intro k goes
    refine ⟨?_, ?_, ?_, ?_, ?_, ?_, fun h => becomes_of_issue h rfl rfl rfl, fun h => becomes_of_issue h rfl rfl rfl⟩
      <;> exact fun h => becomes_branch h rfl (brTaken_iff ..)
  · intro k a
    refine ⟨fun h hclear hcrib => ?_, fun h hclear hcrib => ?_, fun h r hr => ?_, fun h hrun => ?_, ?_, ?_, ?_⟩
    · refine becomes_of_issue h rfl hclear ?_
      rw [Die.cribRead_clean hcrib]
      rfl
    · refine becomes_of_issue h rfl hclear ?_
      rw [Core.cribWrite_clean hcrib]
      rfl
    · have hnext := becomes_csrr h
      simpa [csrValue, show (s.die.core c).run = some r from hr] using hnext
    · obtain ⟨r, hr⟩ := Option.isSome_iff_exists.mp hrun
      have hnext := becomes_csrr h
      simpa [csrValue, show (s.die.core c).run = some r from hr] using hnext
    all_goals exact fun h => retires_of_issueCore h rfl rfl

/-! ### Vector instructions (R170 to R175) -/

/-- A NaN among two FP32 operands makes minimum and maximum the canonical NaN (R172). -/
theorem lane2_nan {x y : W32} (h : (num32 x).isNan = true ∨ (num32 y).isNan = true) : lane2 .min .fp32 x y = nan32 ∧ lane2 .max .fp32 x y = nan32 := by
  have hnan : ((num32 x).isNan || (num32 y).isNan) = true := by simpa using h
  exact ⟨if_pos hnan, if_pos hnan⟩

/-- Settles O6: each lane-wise form changes its core alone, and the lanes wrap. -/
theorem vectorLanes : Obligations.VectorLanes := by
  refine ⟨fun s c vd va vb vc sa sd m ty out rnd ln => ?_, fun x y z => ⟨rfl, rfl, rfl, rfl, ?_⟩, fun x y => lane2_nan, ?_, ?_⟩
  · and_intros <;> exact fun h => retires_of_issueCore h rfl rfl
  all_goals decide

/-- A mask write that m0 discards. -/
theorem Core.setM_eq (k : Core) (md : BitVec 2) (v : LaneMask) : (k.setM md v).next = if md = 0 then k.next else (k.setM md v).next := by
  split
  · next h => subst h; rfl
  · rfl

/-- Settles O7: each function changes its core alone, and the crib is read and written without errors. -/
theorem vectorFunctions : Obligations.VectorFunctions := by
  refine ⟨fun s c md va vb m ty op h => ?_, fun s c vd va m => ?_, fun s c vd sa m imm => ?_⟩
  · intro k new
    rw [← Core.setM_eq]
    exact retires_of_issueCore (g := fun _ => k.setM md (new &&& k.m m ||| k.m md &&& ~~~k.m m)) h rfl rfl
  · and_intros <;> exact fun h => retires_of_issueCore h rfl rfl
  · intro k a
    refine ⟨fun h hclear hcrib => becomes_of_issue h rfl hclear ?_, fun h hclear hcrib => becomes_of_issue h rfl hclear ?_⟩
    · rw [Die.cribRead_clean hcrib]
      rfl
    · rw [Core.cribWrite_clean hcrib]
      rfl

end Sys2Proof.Machine
end

section
/-! PROOF. Stops of a core (spec 03, R96 to R100, R116), and what a record under VALID leaves of the registers. -/

namespace Sys2Proof.Machine

/-! ### Records of fields -/

section
variable {d : Die} (h : d.regsWf)
include h

/-- Fields written one after another, each in its place. -/
theorem Die.regsWf.putAll (fs : List (Fld × Nat)) : (fs.foldl (fun e fv => e.put fv.1 fv.2) d).regsWf := by
  induction fs generalizing d with
  | nil => exact h
  | cons x fs ih => exact ih (h.put _ _)

theorem Die.get_putAll_of_apart {g : Fld} (hg : g.lo + g.w ≤ 32) (fs : List (Fld × Nat)) (hfs : ∀ x ∈ fs, x.1.apart g) :
    (fs.foldl (fun e fv => e.put fv.1 fv.2) d).get g = d.get g := by
  induction fs generalizing d with
  | nil => rfl
  | cons x fs ih =>
    obtain ⟨hx, hfs⟩ := List.forall_mem_cons.mp hfs
    exact (ih (h.put _ _) hfs).trans (Die.get_put_of_apart h _ hg hx)

/-- Of fields that lie apart from each other each reads what was written to it. -/
theorem Die.get_putAll {g : Fld} {v : Nat} (hg : g.lo + g.w ≤ 32) (fs : List (Fld × Nat)) (hfs : fs.Pairwise fun x y => y.1.apart x.1)
    (hmem : (g, v) ∈ fs) : (fs.foldl (fun e fv => e.put fv.1 fv.2) d).get g = v % 2 ^ g.w := by
  induction fs generalizing d with
  | nil => cases hmem
  | cons x fs ih =>
    obtain ⟨hx, hfs⟩ := List.pairwise_cons.mp hfs
    rcases List.mem_cons.mp hmem with rfl | hmem
    · exact (Die.get_putAll_of_apart (h.put _ _) hg fs hx).trans (Die.get_put h _ hg)
    · exact ih (h.put _ _) hfs hmem

theorem Die.raw_putAll_of_ne {q : Nat} (fs : List (Fld × Nat)) (hfs : ∀ x ∈ fs, q ≠ x.1.off) :
    (fs.foldl (fun e fv => e.put fv.1 fv.2) d).raw q = d.raw q := by
  induction fs generalizing d with
  | nil => rfl
  | cons x fs ih =>
    obtain ⟨hx, hfs⟩ := List.forall_mem_cons.mp hfs
    exact (ih (h.put _ _) hfs).trans (Die.raw_put_of_ne h _ hx)

theorem Die.bit_putB {f : Fld} (v : Bool) (hf : f.lo + f.w ≤ 32) (hw : f.w = 1) : (d.putB f v).bit f = v := by
  rw [Die.bit, Die.putB, Die.get_put h _ hf, hw]
  cases v <;> rfl

end

theorem Die.record_of_clear {d : Die} {valid : Fld} (fs : List (Fld × Nat)) (hv : d.bit valid = false) :
    d.record valid fs = (fs.foldl (fun e fv => e.put fv.1 fv.2) d).putB valid true := by
  simp [Die.record, hv]

/-- A record changes registers alone. -/
theorem Die.record_eq (d : Die) (valid : Fld) (fs : List (Fld × Nat)) : d.record valid fs = { d with regs := (d.record valid fs).regs } := by
  have hput : ∀ (fs : List (Fld × Nat)) (e : Die), fs.foldl (fun e fv => e.put fv.1 fv.2) e
      = { e with regs := (fs.foldl (fun e fv => e.put fv.1 fv.2) e).regs } := by
    intro fs
    induction fs with
    | nil => intro e; rfl
    | cons x fs ih => intro e; rw [List.foldl_cons, ih]; rfl
  unfold Die.record
  split
  · rfl
  · rw [hput fs d]; rfl

section
variable {d : Die} (h : d.regsWf)
include h

/-- A field of a record that is taken. -/
theorem Die.get_record {valid g : Fld} {v : Nat} {fs : List (Fld × Nat)} (hv : d.bit valid = false) (hg : g.lo + g.w ≤ 32)
    (hvalid : valid.apart g) (hfs : fs.Pairwise fun x y => y.1.apart x.1) (hmem : (g, v) ∈ fs) :
    (d.record valid fs).get g = v % 2 ^ g.w := by
  rw [Die.record_of_clear fs hv, Die.putB, Die.get_put_of_apart (h.putAll fs) _ hg hvalid, Die.get_putAll h hg fs hfs hmem]

theorem Die.bit_record {valid : Fld} (fs : List (Fld × Nat)) (hv : d.bit valid = false) (hf : valid.lo + valid.w ≤ 32) (hw : valid.w = 1) :
    (d.record valid fs).bit valid = true := by
  rw [Die.record_of_clear fs hv, Die.bit_putB (h.putAll fs) true hf hw]

end

/-! ### A stopped slice -/

theorem Die.get_of_regs {d e : Die} (h : d.regs = e.regs) (f : Fld) : d.get f = e.get f := by simp only [Die.get, Die.raw, h]

theorem Die.bit_of_regs {d e : Die} (h : d.regs = e.regs) (f : Fld) : d.bit f = e.bit f := by simp only [Die.bit, Die.get_of_regs h]

theorem Die.core_of_cores {d e : Die} (h : d.cores = e.cores) (c : CoreIx) : d.core c = e.core c := by simp only [Die.core, h]

/-- A failure of a launch changes the launches and the tick's cancellations. -/
theorem Die.failLaunch_eq (d : Die) (key rel core : Nat) (st : Status) :
    d.failLaunch key rel core st
      = { d with launches := (d.failLaunch key rel core st).launches, tick := (d.failLaunch key rel core st).tick } := by
  unfold Die.failLaunch Die.cancelLaunch
  dsimp only
  split
  · rfl
  · split <;> rfl

/-- The end of a stopping slice changes its core alone. -/
theorem Die.settle_eq (d : Die) (c : CoreIx) : d.settle c = { d with cores := (d.settle c).cores } := by
  unfold Die.settle
  dsimp only
  split
  · rfl
  · split
    · rfl
    · split <;> rfl

theorem Die.settle_of_not_quiet {d : Die} {c : CoreIx} (h : (d.core c).quiet = false) : d.settle c = d := by
  unfold Die.settle
  dsimp only
  split
  · rfl
  · split
    · rfl
    · rw [h]; rfl

/-- A stop changes the cores, the launches and the tick's cancellations. -/
theorem Die.stopSlice_eq (d : Die) (c : CoreIx) (st : Status) :
    d.stopSlice c st
      = { d with cores := (d.stopSlice c st).cores, launches := (d.stopSlice c st).launches, tick := (d.stopSlice c st).tick } := by
  unfold Die.stopSlice
  dsimp only
  split
  · rfl
  · split
    · rfl
    · rw [Die.settle_eq, Die.failLaunch_eq]; rfl

/-- The core of a stopped slice that has something outstanding keeps all but its wait. -/
theorem Die.core_stopSlice {d : Die} {c : CoreIx} {r : SliceRun} (st : Status) (hcores : tblWf (fun _ => ({} : Core)) none d.cores = true)
    (hrun : (d.core c).run = some r) (hstop : r.stopping = none) (hquiet : (d.core c).quiet = false) :
    (d.stopSlice c st).core c = { d.core c with run := some { r with stopping := some st }, wait := none } := by
  set k : Core := { d.core c with run := some { r with stopping := some st }, wait := none } with hk
  have hcore : ∀ rel, ((d.setCore c k).failLaunch r.launch rel c.val st).core c = k := fun rel => by
    rw [Die.core_of_cores (e := d.setCore c k) (by rw [Die.failLaunch_eq]) c, Die.core_setCore d c c k hcores, if_pos rfl]
  have hstopped : ∃ rel, d.stopSlice c st = ((d.setCore c k).failLaunch r.launch rel c.val st).settle c := by
    simp only [Die.stopSlice, hrun, hstop, hk]
    exact ⟨_, rfl⟩
  obtain ⟨rel, heq⟩ := hstopped
  rw [heq, Die.settle_of_not_quiet (by rw [hcore]; exact hquiet), hcore]

/-! ### Stops for a core fault -/

/-- Settles O8. -/
theorem coreStops : Obligations.CoreStops := by
  refine ⟨fun s c sd n hlive hissuing hop hready hcsr => ?_, fun s c w cause hlive hissuing => ⟨fun hword hdec => ?_, fun hend => ?_, fun hword => ?_⟩,
    fun d c cause pc st r hcanon hrun hstop hvalid => ?_⟩
  · have hcause : runtimeCause s.die.fuses.arrays c (s.die.core c) (.csrr sd n) = some 9 := by simp [runtimeCause, firstCause, hcsr]
    refine (onLive_live _ hlive).trans ?_
    simp [opCsrr, Die.issue, hissuing, hop, hcause, show (s.die.core c).regsReady (sregsOf (.csrr sd n)) (vregsOf (.csrr sd n)) = true from hready]
  · refine (onLive_live _ hlive).trans ?_
    simp [opUndefinedEncoding, hissuing, hword, hdec]
  · have hnone : (s.die.core c).wordAt = none := if_neg (by simpa [bankBytes] using hend)
    refine (onLive_live _ hlive).trans ?_
    simp [opUndefinedEncoding, hissuing, hnone]
  · refine (onLive_live _ hlive).trans ?_
    simp [opProgramParityStop, hissuing, hword]
  · have hwf := hcanon.regsWf
    obtain ⟨-, -, -, hcores, -⟩ := hcanon
    intro t
    set e := (d.coreFaultRecord c cause pc).raise 0 .contained (detail c.val cause (d.core c).slicePart) with he
    have ht : t = e.stopSlice c st := rfl
    have hregs : t.regs = (d.coreFaultRecord c cause pc).regs := by rw [ht, Die.stopSlice_eq]; rfl
    have hsame : d.coreFaultRecord c cause pc = { d with regs := (d.coreFaultRecord c cause pc).regs } := Die.record_eq ..
    have hcore : e.core c = d.core c := Die.core_of_cores (by rw [he, Die.raise_cores, hsame]) c
    have hpart : (d.core c).slicePart = r.part.val := by simp [Core.slicePart, hrun]
    have happart : [(CORE_FAULT_CAUSE c.val, cause), (CORE_FAULT_TICK c.val, d.tick.now), (CORE_FAULT_PC_OFFSET c.val, pc),
        (CORE_FAULT_PC_BANK c.val, if (d.core c).active then 1 else 0)].Pairwise fun x y => y.1.apart x.1 := by
      simp [Fld.apart, CORE_FAULT_CAUSE, CORE_FAULT_TICK, CORE_FAULT_PC_OFFSET, CORE_FAULT_PC_BANK, CORE_FAULT, CORE_FAULT_PC]
    refine ⟨?_, ?_, ?_, ?_, fun hquiet => ?_, ?_⟩
    · rw [Die.get_of_regs hregs]
      exact Die.get_record hwf hvalid (Nat.le_of_ble_eq_true rfl) (.inr (.inr (Nat.le_of_ble_eq_true rfl))) happart (by simp)
    · rw [Die.get_of_regs hregs]
      exact Die.get_record hwf hvalid (Nat.le_of_ble_eq_true rfl) (.inl (by simp [CORE_FAULT_VALID, CORE_FAULT_PC_OFFSET, CORE_FAULT, CORE_FAULT_PC])) happart (by simp)
    · rw [Die.bit_of_regs hregs]
      exact Die.bit_record hwf _ hvalid (Nat.le_of_ble_eq_true rfl) rfl
    · rw [ht, Die.stopSlice_eq]
      change (d.coreFaultRecord c cause pc).fault.slots ++ _ = _
      rw [hsame, hpart]
    · rw [ht, ← hcore]
      exact Die.core_stopSlice st (by rw [he, Die.raise_cores, hsame]; exact hcores) (hcore ▸ hrun) hstop (hcore ▸ hquiet)
    · rw [ht, Die.stopSlice_eq]
      change (d.coreFaultRecord c cause pc).mem = _
      rw [hsame]

end Sys2Proof.Machine
end

section
/-! PROOF. Core accesses to DVA space, the engines, the arrays, and the end of what is outstanding (spec 03, spec 04, spec 09). -/

namespace Sys2Proof.Machine

/-! ### Issue of an access (R89, R99) -/

/-- A range that lies in one line is one piece. -/
theorem dvaPieces_of_one_line {a n : Nat} (hn : n ≠ 0) (h : a % 128 + n ≤ 128) : dvaPieces a n = [(a, n)] := by
  have hk : min n (lineOf a + 128 - a) = n := by unfold lineOf; omega
  simp [dvaPieces, linePieces, pieces, hn, hk]

/-- A core that has issued one access of DVA space, which leaves it at once where it may. -/
def Die.issued (d : Die) (c : CoreIx) (a n : Nat) (vol : Bool) (acc : CoreAccess) (dest : Option LoadDest) : Die :=
  let k := d.core c
  (d.setCore c { k with
    pc := k.pc + 8, nextOp := k.nextOp + 1,
    ops := k.ops ++ [{ id := k.nextOp, tail := false, pc := k.pc, addr := a, bytes := n, vol := vol, acc := acc, dest := dest, line := none,
                       sent := false, value := none, acked := false }] }).sendOp c k.nextOp

/-- An access that lies in one line is one outstanding operation. -/
theorem Die.startAccess_of_one_line (d : Die) (c : CoreIx) (vol : Bool) (acc : CoreAccess) (dest : Option LoadDest) {a n : Nat}
    (hn : n ≠ 0) (h : a % 128 + n ≤ 128) :
    d.startAccess c (d.core c) (coreParts (d.core c) vol (fun _ _ => acc) (fun _ _ => dest) a n) = d.issued c a n vol acc dest := by
  have hparts : coreParts (d.core c) vol (fun _ _ => acc) (fun _ _ => dest) a n
      = [{ id := (d.core c).nextOp, tail := false, pc := (d.core c).pc, addr := a, bytes := n, vol := vol, acc := acc, dest := dest, line := none,
           sent := false, value := none, acked := false }] := by
    simp [coreParts, dvaPieces_of_one_line hn h]
  rw [hparts]
  rfl

/-- An operation that issues meets the condition of its run-time fault. -/
theorem Issues.allowed {s : State} {c : CoreIx} {op : CoreOp} (h : Issues s c op) : runtimeCause s.die.fuses.arrays c (s.die.core c) op = none := by
  obtain ⟨-, -, -, -, hcause, -⟩ := h
  exact hcause

theorem aligned_of_firstCause {a m n : Nat} (h : firstCause [(a % m != 0, n)] = none) : a % m = 0 := by
  by_contra ha
  simp [firstCause, ha] at h

/-- An access of a whole word that is aligned lies in one line. -/
theorem one_line_of_aligned {a n : Nat} (hn : n = 8 ∨ n = 4) (h : a % n = 0) : a % 128 + n ≤ 128 := by
  rcases hn with rfl | rfl <;> omega

section
variable {i : Instr} {s : State} {c : CoreIx} {op : CoreOp} {sd sa sb : Reg} {imm : W32} {n : Nat}

/-- A scalar load that issues is outstanding. -/
theorem becomes_scalarLoad (h : Issues s c op) (vol : Bool) (hi : exec i s = onLive (fun d => d.scalarLoad c op sd sa imm vol n) s)
    (hop : runtimeCause s.die.fuses.arrays c (s.die.core c) op = firstCause [((s.die.core c).ea sa imm % n != 0, 4)]) (hn : n = 8 ∨ n = 4)
    (hc : (s.die.core c).clear (dvaRange ((s.die.core c).ea sa imm) n false) true = true) :
    becomes i s (s.die.issued c ((s.die.core c).ea sa imm) n vol .read (some (.sreg sd n))) :=
  becomes_of_issue h hi hc (Die.startAccess_of_one_line _ c vol _ _ (by omega) (one_line_of_aligned hn (aligned_of_firstCause (hop ▸ h.allowed))))

/-- A scalar store that issues is outstanding. -/
theorem becomes_scalarStore (h : Issues s c op) (hi : exec i s = onLive (fun d => d.scalarStore c op sd sa imm n) s)
    (hop : runtimeCause s.die.fuses.arrays c (s.die.core c) op = firstCause [((s.die.core c).ea sa imm % n != 0, 4)]) (hn : n = 8 ∨ n = 4)
    (hc : (s.die.core c).clear (dvaRange ((s.die.core c).ea sa imm) n true) true = true) :
    becomes i s (s.die.issued c ((s.die.core c).ea sa imm) n false (.write (leBytes n ((s.die.core c).s sd).toNat)) none) :=
  becomes_of_issue h hi hc (Die.startAccess_of_one_line _ c false _ _ (by omega) (one_line_of_aligned hn (aligned_of_firstCause (hop ▸ h.allowed))))

/-- An atomic that issues is outstanding. -/
theorem becomes_amo {op : AmoOp} {w : Bool} (h : Issues s c (.amo op sd sa sb w)) (hi : exec i s = onLive (opAmo op c sd sa sb w) s)
    (hc : (s.die.core c).clear (dvaRange ((s.die.core c).s sa).toNat (if w then 8 else 4) true) true = true) :
    becomes i s (s.die.issued c ((s.die.core c).s sa).toNat (if w then 8 else 4) false (.amo op ((s.die.core c).s sd) ((s.die.core c).s sb))
      (some (.sreg sd (if w then 8 else 4)))) := by
  have hn : (if w then 8 else 4) = 8 ∨ (if w then 8 else 4) = 4 := by cases w <;> simp
  have haligned : ((s.die.core c).s sa).toNat % (if w then 8 else 4) = 0 := aligned_of_firstCause h.allowed
  have hstart := Die.startAccess_of_one_line s.die c false (.amo op ((s.die.core c).s sd) ((s.die.core c).s sb)) (some (.sreg sd (if w then 8 else 4)))
    (by omega) (one_line_of_aligned hn haligned)
  rw [becomes, hi, onLive_live _ h.live, ← hstart]
  unfold opAmo
  dsimp only
  rw [Die.issue_of_issues h hc]

end

/-- Settles O9: aligned scalar accesses lie in one line. -/
theorem dvaAccesses : Obligations.DvaAccesses := by
  refine ⟨fun s c sd sa sb imm v w => ?_, fun s c vd sa m imm => ?_⟩
  · intro k a free sends n b
    exact ⟨fun h hc => becomes_scalarLoad h v rfl rfl (.inl rfl) hc, fun h hc => becomes_scalarLoad h v rfl rfl (.inr rfl) hc,
      fun h hc => becomes_scalarStore h rfl rfl (.inl rfl) hc, fun h hc => becomes_scalarStore h rfl rfl (.inr rfl) hc,
      fun h hc => becomes_amo h rfl hc, fun h hc => becomes_amo h rfl hc, fun h hc => becomes_amo h rfl hc⟩
  · exact ⟨fun h hc => becomes_of_issue h rfl hc rfl, fun h hc => becomes_of_issue h rfl hc rfl⟩

/-! ### The end of an access -/

theorem CoreOpEntry.writes_iff {o : CoreOpEntry} : o.writes = true ↔ o.acc ≠ .read := by
  unfold CoreOpEntry.writes
  split
  · next h => simp [h]
  · next h => simpa using h

/-- An access behind an earlier one that has not left the core, a write of two or one with bytes in common, is kept back (R92, R277). -/
theorem Core.keptBack_of_behind {k : Core} {o x : CoreOpEntry} (hx : x ∈ k.ops) (hid : x.id < o.id) (hsent : x.sent = false)
    (h : (o.acc ≠ .read ∧ x.acc ≠ .read) ∨ (x.addr < o.addr + o.bytes ∧ o.addr < x.addr + x.bytes)) : k.keptBack o = true := by
  refine List.any_eq_true.mpr ⟨x, hx, ?_⟩
  rcases h with ⟨ho, hx⟩ | ⟨hlo, hhi⟩
  · simp [hid, hsent, CoreOpEntry.writes_iff.mpr ho, CoreOpEntry.writes_iff.mpr hx]
  · simp [hid, hsent, CoreOpEntry.meets, hlo, hhi]

/-- An access that has returned and need not wait for its write lands, and is gone (R89). -/
theorem Die.landed_complete {d : Die} {c : CoreIx} {o : CoreOpEntry} (bs : List Byte) (h : o.acc = .read ∨ o.acked = true) :
    d.landed c o bs = (d.setCore c { (d.core c).land o.dest bs with ops := ((d.core c).land o.dest bs).ops.filter fun x => x.id != o.id }).settle c := by
  have hdone : (o.writes && !o.acked) = false := by
    rcases h with h | h
    · simp [CoreOpEntry.writes, h]
    · simp [h]
  simp [Die.landed, Die.onCore, hdone]

theorem Core.ops_setS (k : Core) (r : Reg) (v : W64) : (k.setS r v).ops = k.ops := by unfold Core.setS; split <;> rfl

/-- Settles O10. -/
theorem accessesEnd : Obligations.AccessesEnd := by
  refine ⟨fun d c o x hop hx hid hsent h => ?_, fun s c o r n off mask bs hlive hop => ?_⟩
  · simp [Die.sendOp, hop, Core.keptBack_of_behind hx hid hsent h]
  · intro k rest
    refine ⟨fun hdest hval hdone => ?_, fun hdest hval hdone => ?_, fun hdest hack hwait => ?_, fun hdest hack hwait => ?_⟩
    all_goals refine (onLive_live _ hlive).trans ?_
    · simp only [opLoadReturn, hop, hdest, hval, Die.landed_complete bs hdone, Core.land, Core.ops_setS]
      rfl
    · simp only [opLoadReturn, hop, hdest, hval, Die.landed_complete bs hdone, Core.land]
      rfl
    · simp [opWriteAcknowledge, hop, hdest, hack, Die.writeDone, Die.onCore, show (s.die.core c).wait ≠ some (.signal o.id) from hwait]
      rfl
    · simp [opWriteAcknowledge, hop, hdest, hack, Die.writeDone, Die.onCore, show (s.die.core c).wait = some (.signal o.id) from hwait, Core.waitDone]
      rfl

end Sys2Proof.Machine
end

section
/-! PROOF. The engines and the arrays of a core (spec 03, spec 04). -/

namespace Sys2Proof.Machine

/-- The core of an instruction that issues runs a slice. -/
theorem Issues.run_isSome {s : State} {c : CoreIx} {op : CoreOp} (h : Issues s c op) : (s.die.core c).run.isSome = true := by
  obtain ⟨-, hissuing, -⟩ := h
  unfold Core.issuing at hissuing
  cases hrun : (s.die.core c).run with
  | none => simp [hrun] at hissuing
  | some r => rfl

/-! ### Fetch and stow (R94) -/

/-- An engine whose rows are done moves none. -/
theorem Die.engineRows_of_done {d : Die} {c : CoreIx} {e : EngIx} {x : EngOp} (h : assoc (d.core c).engines e.val = some x) (hdone : x.rows ≤ x.done)
    (n : Nat) : Die.engineRows c e n d = d := by
  cases n with
  | zero => rfl
  | succ n => simp [Die.engineRows, h, hdone]

/-- A FETCH or STOW that finds an engine free gives it its operation. -/
theorem becomes_startEngine {i : Instr} {s : State} {c : CoreIx} {op : CoreOp} {stow v : Bool} {sa sb sc : Reg} {crib : BitVec 22} {e : EngIx} {r : SliceRun}
    (h : Issues s c op) (hi : exec i s = onLive (fun d => d.startEngine c op stow v sa sb sc crib) s)
    (hrun : (s.die.core c).run = some r) (he : (s.die.core c).freeEngine = some e)
    (hc : (s.die.core c).clear (engOp (s.die.core c) stow v r.part sa sb sc crib).ranges true = true) :
    becomes i s (s.die.setCore c { (s.die.core c).next with
      engines := assocPut (s.die.core c).engines e.val (engOp (s.die.core c) stow v r.part sa sb sc crib) }) := by
  rw [becomes, hi, onLive_live _ h.live]
  unfold Die.startEngine
  dsimp only
  rw [Die.issue_of_issues h (by simp only [he, hrun, hc]; rfl)]
  simp only [he, hrun]

/-! ### Work on one core -/

/-- The die changes in one core alone, and that core as `R` says. -/
def Die.worksOn (R : Core → Core → Prop) (c : CoreIx) (d t : Die) : Prop :=
  R (d.core c) (t.core c) ∧ (∀ x, x ≠ c → t.core x = d.core x) ∧ t = { d with cores := t.cores }

section
variable {R : Core → Core → Prop} {c : CoreIx} {d t u : Die}

theorem Die.worksOn.refl (h : R (d.core c) (d.core c)) : Die.worksOn R c d d := ⟨h, fun _ _ => rfl, rfl⟩

theorem Die.worksOn.trans {Q S : Core → Core → Prop} (hR : ∀ a b e : Core, R a b → Q b e → S a e) (h₁ : Die.worksOn R c d t) (h₂ : Die.worksOn Q c t u) :
    Die.worksOn S c d u := by
  obtain ⟨hc, hx, hd⟩ := h₁
  obtain ⟨hc', hx', hd'⟩ := h₂
  exact ⟨hR _ _ _ hc hc', fun x hne => (hx' x hne).trans (hx x hne), by rw [hd', hd]⟩

theorem Core.ne_default_of_run {k : Core} (h : k.run.isSome = true) : k ≠ {} := fun hk => by rw [hk] at h; cases h

/-- What a core that runs a slice holds after a write; the order of the cores' table does not matter. -/
theorem Die.core_setCore_of_run (d : Die) (c x : CoreIx) {k : Core} (h : k.run.isSome = true) : (d.setCore c k).core x = if x = c then k else d.core x := by
  have hget := tblGet_put_of_ne_dflt (dflt := fun _ => ({} : Core)) (k := c.val) d.cores x.val (Core.ne_default_of_run h)
  simp only [Fin.ext_iff]
  exact hget

theorem Die.core_onCore_of_run (d : Die) (c : CoreIx) {f : Core → Core} (h : (f (d.core c)).run.isSome = true) : (d.onCore c f).core c = f (d.core c) := by
  rw [Die.onCore, Die.core_setCore_of_run d c c h, if_pos rfl]

theorem Die.worksOn_setCore {k : Core} (hrun : k.run.isSome = true) (h : R (d.core c) k) : Die.worksOn R c d (d.setCore c k) := by
  refine ⟨?_, fun x hx => ?_, rfl⟩
  · rwa [Die.core_setCore_of_run d c c hrun, if_pos rfl]
  · rw [Die.core_setCore_of_run d c x hrun, if_neg hx]

theorem Die.worksOn_onCore {f : Core → Core} (hrun : (f (d.core c)).run.isSome = true) (h : R (d.core c) (f (d.core c))) :
    Die.worksOn R c d (d.onCore c f) := Die.worksOn_setCore hrun h

end

/-! ### Scale buffers (R127) -/

/-- The core changes in its scale buffers and what is held of them. -/
def Core.rescaled (k q : Core) : Prop :=
  q = { k with tileScale := q.tileScale, moveScale := q.moveScale, held := q.held, scaleBad := q.scaleBad, tileBuf := q.tileBuf, moveBuf := q.moveBuf }
    ∧ q.scaleBad ⊆ k.scaleBad

theorem Core.rescaled.refl (k : Core) : k.rescaled k := ⟨rfl, fun _ h => h⟩

theorem Core.rescaled.trans {a b e : Core} (h₁ : a.rescaled b) (h₂ : b.rescaled e) : a.rescaled e := by
  obtain ⟨hb, hs⟩ := h₁
  obtain ⟨he, hs'⟩ := h₂
  exact ⟨by rw [he, hb], fun _ h => hs (hs' h)⟩

section
variable {k q : Core} (h : k.rescaled q)
include h

theorem Core.rescaled.run : q.run = k.run := by rw [h.1]
theorem Core.rescaled.cribErr : q.cribErr = k.cribErr := by rw [h.1]

end

theorem Core.fillScales_rescaled (k : Core) (tile : Bool) (arr : Nat) (buf : Bool) (bs : List Byte) : k.rescaled (k.fillScales tile arr buf bs) :=
  ⟨rfl, fun _ h => (List.mem_filter.mp h).1⟩

theorem Die.takeScales_clean {d : Die} {c : CoreIx} (hrun : (d.core c).run.isSome = true) (hcrib : (d.core c).cribErr = []) (pc : Nat) (tile : Bool) (arr a n : Nat) :
    ∃ t, d.takeScales c pc tile arr a n = (true, t) ∧ Die.worksOn Core.rescaled c d t := by
  unfold Die.takeScales
  dsimp only
  split
  · exact ⟨d, rfl, .refl (.refl _)⟩
  · split
    · next h _ =>
      refine ⟨_, rfl, Die.worksOn_setCore ?_ ?_⟩
      · cases tile <;> exact hrun
      · cases tile <;> exact ⟨rfl, fun _ h => h⟩
    · rw [Die.cribRead_clean hcrib]
      refine ⟨_, rfl, Die.worksOn_setCore ?_ ?_⟩
      · cases tile <;> exact hrun
      · cases tile <;> exact ⟨rfl, fun _ h => (List.mem_filter.mp h).1⟩

theorem Die.readAhead_clean (c : CoreIx) (n pc : Nat) {d : Die} (hrun : (d.core c).run.isSome = true) (hcrib : (d.core c).cribErr = []) :
    Die.worksOn Core.rescaled c d (Die.readAhead c n pc d) := by
  induction n generalizing pc d with
  | zero => exact .refl (.refl _)
  | succ n ih =>
    unfold Die.readAhead
    dsimp only
    split
    · exact .refl (.refl _)
    · split
      · exact .refl (.refl _)
      · split
        · exact ih _ hrun hcrib
        · split
          · exact ih _ hrun hcrib
          · split
            · exact .refl (.refl _)
            · rw [Die.cribRead_clean hcrib]
              dsimp only
              refine .trans (fun _ _ _ => Core.rescaled.trans) (Die.worksOn_onCore (R := Core.rescaled) ?_ ?_) (ih _ ?_ ?_)
              · exact hrun
              · exact ⟨rfl, fun _ h => (List.mem_filter.mp h).1⟩
              all_goals rw [Die.core_onCore_of_run] <;> assumption

theorem Die.lookAhead_clean {d : Die} {c : CoreIx} (hrun : (d.core c).run.isSome = true) (hcrib : (d.core c).cribErr = []) :
    Die.worksOn Core.rescaled c d (d.lookAhead c) := by
  unfold Die.lookAhead
  split
  · exact Die.readAhead_clean c _ _ hrun hcrib
  · exact .refl (.refl _)

/-! ### LOADW (R119) -/

/-- The stationary store with a row written from the bytes of a moving row. It stays folded: no proof evaluates it. -/
@[irreducible] def Core.rowStore (k : Core) (row : Nat) (raw : List Byte) : List (Nat × W16) :=
  (List.range 64).foldl (fun st col => tblPut k.cellDflt st (row * 64 + col) (BitVec.ofNat 16 (field raw (2 * col) 2))) k.store

/-- A core whose stationary row has been written from its crib. -/
def Core.withRow (src : Nat) (k : Core) (row : Nat) : Core := { k with store := k.rowStore row (memRead k.crib (src + 128 * row) 128) }

/-- The step of LOADW's loop over the rows. -/
def Die.loadRow (c : CoreIx) (src : Nat) (acc : Die × Bool) (row : Nat) : Die × Bool :=
  let rd := acc.1.cribRead c (src + 128 * row) 128
  let raw := memRead (acc.1.core c).crib (src + 128 * row) 128
  let d := rd.2.onCore c fun k =>
    { k with
      store := k.rowStore row raw,
      storeBad := if rd.1.isNone then k.storeBad ++ [row] else k.storeBad }
  (d, acc.2 || rd.1.isNone)

theorem Core.foldl_withRow_eq (src : Nat) (rows : List Nat) (k : Core) :
    rows.foldl (Core.withRow src) k = { k with store := (rows.foldl (Core.withRow src) k).store } := by
  induction rows generalizing k with
  | nil => rfl
  | cons row rows ih => rw [List.foldl_cons, ih]; rfl

theorem Die.loadRows_clean (c : CoreIx) (src : Nat) (rows : List Nat) {d : Die} (hrun : (d.core c).run.isSome = true) (hcrib : (d.core c).cribErr = []) :
    ∃ t, rows.foldl (Die.loadRow c src) (d, false) = (t, false) ∧ Die.worksOn (fun k q => q = rows.foldl (Core.withRow src) k) c d t := by
  induction rows generalizing d with
  | nil => exact ⟨d, rfl, .refl rfl⟩
  | cons row rows ih =>
    have hstep : Die.loadRow c src (d, false) row = (d.onCore c fun k => k.withRow src row, false) := by
      unfold Die.loadRow
      rw [Die.cribRead_clean hcrib]
      rfl
    have hcore : (d.onCore c fun k => k.withRow src row).core c = (d.core c).withRow src row := Die.core_onCore_of_run d c hrun
    obtain ⟨t, ht, hcell, hothers, hrest⟩ := ih (d := d.onCore c fun k => k.withRow src row) (by rw [hcore]; exact hrun) (by rw [hcore]; exact hcrib)
    refine ⟨t, by rw [List.foldl_cons, hstep, ht], ?_, fun x hx => ?_, ?_⟩
    · rw [hcell, hcore]; rfl
    · rw [hothers x hx]
      exact (Die.worksOn_onCore (R := fun _ _ => True) hrun trivial).2.1 x hx
    · rw [hrest]; rfl

section
variable {k : Core} (h : tblWf k.cellDflt none k.store = true) (src : Nat)
include h

theorem Core.withCols_wf (v : Nat → W16) (row : Nat) (cols : List Nat) :
    tblWf k.cellDflt none (cols.foldl (fun st col => tblPut k.cellDflt st (row * 64 + col) (v col)) k.store) = true := by
  induction cols using List.reverseRecOn with
  | nil => exact h
  | append_singleton cols col ih =>
    rw [List.foldl_append]
    exact tblPut_wf _ _ ih fun _ hl => by cases hl

/-- The cells of a row hold what was written to them; those of the other rows are as they were. -/
theorem Core.tblGet_withCols (v : Nat → W16) (row r c : Nat) (hc : c < 64) (cols : List Nat) (hcols : ∀ x ∈ cols, x < 64) :
    tblGet k.cellDflt (cols.foldl (fun st col => tblPut k.cellDflt st (row * 64 + col) (v col)) k.store) (r * 64 + c)
      = if r = row ∧ c ∈ cols then v c else tblGet k.cellDflt k.store (r * 64 + c) := by
  induction cols using List.reverseRecOn with
  | nil => simp
  | append_singleton cols col ih =>
    have hcol : col < 64 := hcols col (by simp)
    rw [List.foldl_append, List.foldl_cons, List.foldl_nil, tblGet_put _ _ _ (Core.withCols_wf h v row cols),
      ih fun x hx => hcols x (List.mem_append_left _ hx)]
    have hkey : r * 64 + c = row * 64 + col ↔ r = row ∧ c = col := by omega
    by_cases hr : r = row <;> by_cases hcc : c = col <;> simp [hkey, hr, hcc]

end

/-- The value that LOADW gives to a stationary cell. -/
def Core.tileCell (k : Core) (src row col : Nat) : Nat := leNat (memRead k.crib (src + 128 * row + 2 * col) 2)

theorem field_memRead (m : Memory) (a n off w : Nat) (h : off + w ≤ n) : field (memRead m a n) off w = leNat (memRead m (a + off) w) := by
  have hlist : ((memRead m a n).drop off).take w = memRead m (a + off) w := by
    refine List.ext_getElem (by simp [memRead]; omega) fun i _ _ => ?_
    simp [memRead, Nat.add_assoc]
  rw [field, hlist]

theorem leNat_memRead_two_lt (m : Memory) (a : Nat) : leNat (memRead m a 2) < 2 ^ 16 := by
  have h0 := (memGet m a).isLt
  have h1 := (memGet m (a + 1)).isLt
  simp [memRead, List.range_succ, leNat]
  omega

theorem Core.rowStore_wf {k : Core} (h : tblWf k.cellDflt none k.store = true) (row : Nat) (raw : List Byte) :
    tblWf k.cellDflt none (k.rowStore row raw) = true := by
  unfold Core.rowStore
  exact Core.withCols_wf h (fun col => BitVec.ofNat 16 (field raw (2 * col) 2)) row (List.range 64)

theorem Core.tblGet_rowStore {k : Core} (h : tblWf k.cellDflt none k.store = true) (row r c : Nat) (hc : c < 64) (raw : List Byte) :
    tblGet k.cellDflt (k.rowStore row raw) (r * 64 + c)
      = if r = row then BitVec.ofNat 16 (field raw (2 * c) 2) else tblGet k.cellDflt k.store (r * 64 + c) := by
  unfold Core.rowStore
  rw [Core.tblGet_withCols h (fun col => BitVec.ofNat 16 (field raw (2 * col) 2)) row r c hc (List.range 64) fun x hx => List.mem_range.mp hx]
  simp [hc]

theorem Core.cell_withRow {k : Core} (h : tblWf k.cellDflt none k.store = true) (src row r c : Nat) (hc : c < 64) :
    (k.withRow src row).cell r c = if r = row then k.tileCell src row c else k.cell r c := by
  have hlt := leNat_memRead_two_lt k.crib (src + 128 * row + 2 * c)
  have hfield := field_memRead k.crib (src + 128 * row) 128 (2 * c) 2 (by omega)
  refine (congrArg BitVec.toNat (Core.tblGet_rowStore h row r c hc _)).trans ?_
  by_cases hr : r = row
  · simpa [hr, hfield, Core.tileCell] using hlt
  · simp [hr, Core.cell]

theorem Core.cell_foldl_withRow (src : Nat) (rows : List Nat) {k : Core} (h : tblWf k.cellDflt none k.store = true) (r c : Nat) (hc : c < 64) :
    (rows.foldl (Core.withRow src) k).cell r c = if r ∈ rows then k.tileCell src r c else k.cell r c := by
  induction rows generalizing k with
  | nil => simp
  | cons row rows ih =>
    have htile : (k.withRow src row).tileCell src r c = k.tileCell src r c := rfl
    rw [List.foldl_cons, ih (k := k.withRow src row) (Core.rowStore_wf h row _), htile, Core.cell_withRow h src row r c hc]
    by_cases hin : r ∈ rows
    · simp [hin]
    · by_cases hr : r = row
      · subst hr; simp [hin]
      · simp [hin, hr]

/-- The core as a LOADW starts it. -/
def Core.startLoad (k : Core) (fmt : ArrFmt) (src : BitVec 22) : Core :=
  { (k.startStream { kind := .loadw, arr := 0, accLo := 0, accHi := 0, lo := src.toNat, hi := src.toNat + 8192 + scaleBytes fmt 64,
                     fmt := BitVec.ofNat 4 fmt.code }).next with storeBad := [] }

theorem exec_loadw (c : CoreIx) (fmt : ArrFmt) (src : BitVec 22) (s : State) :
    exec (.loadw c fmt src) s = onLive (fun d => d.issue c (.loadw fmt src)
      (fun k => (!k.streams.any fun s => s.kind == .pass || s.kind == .loadw) &&
        k.clear [{ dva := false, lo := src.toNat, hi := src.toNat + 8192 + scaleBytes fmt 64, write := false }] true)
      fun d k =>
        let r := (List.range 64).foldl (Die.loadRow c src.toNat) (d.setCore c (k.startLoad fmt src), false)
        let (ok, d) := r.1.takeScales c k.pc true 0 (src.toNat + 8192) (scaleBytes fmt 64)
        (if r.2 || !ok then d.cribStop c k.pc else d).lookAhead c) s := by
  unfold Die.loadRow Core.rowStore
  rfl

/-- A LOADW of a crib without errors writes its rows and takes its scales. -/
theorem becomes_loadw {s : State} {c : CoreIx} {fmt : ArrFmt} {src : BitVec 22} (h : Issues s c (.loadw fmt src))
    (hdrain : ∀ x ∈ (s.die.core c).streams, x.kind = .drain) (hcrib : (s.die.core c).cribErr = []) (hrun : (s.die.core c).run.isSome = true)
    (hc : (s.die.core c).clear [{ dva := false, lo := src.toNat, hi := src.toNat + 8192 + scaleBytes fmt 64, write := false }] true = true) :
    ∃ t, becomes (.loadw c fmt src) s t
      ∧ Die.worksOn (fun k q => ((List.range 64).foldl (Core.withRow src.toNat) (k.startLoad fmt src)).rescaled q) c s.die t := by
  have hfree : ((s.die.core c).streams.any fun x => x.kind == .pass || x.kind == .loadw) = false := by
    refine List.any_eq_false.mpr fun x hx => ?_
    simp [hdrain x hx]
  set d := s.die.setCore c ((s.die.core c).startLoad fmt src) with hd
  have hcore : d.core c = (s.die.core c).startLoad fmt src := by
    rw [hd, Die.core_setCore_of_run _ _ _ (by exact hrun), if_pos rfl]
  have hstart : Die.worksOn (fun k q => q = k.startLoad fmt src) c s.die d := Die.worksOn_setCore hrun rfl
  obtain ⟨t, ht, hrows⟩ := Die.loadRows_clean c src.toNat (List.range 64) (d := d) (by rw [hcore]; exact hrun) (by rw [hcore]; exact hcrib)
  have hkept := Core.foldl_withRow_eq src.toNat (List.range 64) ((s.die.core c).startLoad fmt src)
  have htcore : t.core c = (List.range 64).foldl (Core.withRow src.toNat) ((s.die.core c).startLoad fmt src) := by rw [hrows.1, hcore]
  obtain ⟨u, hu, hscales⟩ := Die.takeScales_clean (d := t) (c := c) (by rw [htcore, hkept]; exact hrun) (by rw [htcore, hkept]; exact hcrib)
    (s.die.core c).pc true 0 (src.toNat + 8192) (scaleBytes fmt 64)
  have hahead := Die.lookAhead_clean (d := u) (c := c) (by rw [hscales.1.run, htcore, hkept]; exact hrun)
    (by rw [hscales.1.cribErr, htcore, hkept]; exact hcrib)
  have hscaled : Die.worksOn Core.rescaled c t (u.lookAhead c) := hscales.trans (fun _ _ _ => Core.rescaled.trans) hahead
  have hloaded : Die.worksOn (fun k q => ((List.range 64).foldl (Core.withRow src.toNat) k).rescaled q) c d (u.lookAhead c) :=
    hrows.trans (fun _ _ _ ha hb => by subst ha; exact hb) hscaled
  refine ⟨u.lookAhead c, ?_, hstart.trans (fun _ _ _ ha hb => by subst ha; exact hb) hloaded⟩
  rw [becomes, exec_loadw, onLive_live _ h.live, Die.issue_of_issues h (by rw [hfree, hc]; rfl)]
  simp only [← hd, ht, hu]
  rfl

/-- The core as a LOADW leaves it (R86, R119). -/
def Core.loaded (fmt : ArrFmt) (src : BitVec 22) (k q : Core) : Prop :=
  (∀ row col, row < 64 → col < 64 → q.cell row col = k.tileCell src.toNat row col)
    ∧ q = { k.startLoad fmt src with store := q.store, tileScale := q.tileScale, moveScale := q.moveScale, held := q.held, scaleBad := q.scaleBad,
                                     tileBuf := q.tileBuf, moveBuf := q.moveBuf }

theorem Core.loaded_of_rescaled {k q : Core} {fmt : ArrFmt} {src : BitVec 22} (hstore : tblWf k.cellDflt none k.store = true) (rows : List Nat)
    (hrows : ∀ row, row < 64 → row ∈ rows) (h : (rows.foldl (Core.withRow src.toNat) (k.startLoad fmt src)).rescaled q) : k.loaded fmt src q := by
  obtain ⟨hq, -⟩ := h
  have hkept := Core.foldl_withRow_eq src.toNat rows (k.startLoad fmt src)
  refine ⟨fun row col hrow hcol => ?_, ?_⟩
  · have hcell : q.cell row col = (rows.foldl (Core.withRow src.toNat) (k.startLoad fmt src)).cell row col := by rw [hq]; rfl
    rw [hcell, Core.cell_foldl_withRow src.toNat rows (k := k.startLoad fmt src) hstore row col hcol, if_pos (hrows row hrow)]
    rfl
  · rw [hkept] at hq
    rw [hq]

/-- Settles O11. -/
theorem fetchStowLoad : Obligations.FetchStowLoad := by
  refine ⟨fun s c sa sb sc v crib e r x => ?_, fun s c fmt src => ?_⟩
  · intro k op takes
    refine ⟨fun h hrun he hc => becomes_startEngine h rfl hrun he hc, fun h hrun he hc => becomes_startEngine h rfl hrun he hc,
      fun hlive hx hdone hacked => (onLive_live _ hlive).trans ?_⟩
    have hfree : (decide (x.rows ≤ x.done) && !(x.stow && s.die.unacked (.eng c e))) = true := by
      cases hstow : x.stow
      · simp [hdone]
      · simp [hdone, hacked hstow]
    unfold opFetchComplete
    dsimp only
    rw [Die.engineRows_of_done hx hdone, hx]
    dsimp only
    rw [if_pos hfree]
    rfl
  · intro k hi h hdrain hcrib hcanon hc
    obtain ⟨-, hstore, -⟩ := hcanon
    have hrun : k.run.isSome = true := h.run_isSome
    obtain ⟨t, hnext, hcore, hothers, hrest⟩ := becomes_loadw h hdrain hcrib hrun hc
    obtain ⟨hcell, hcore⟩ := Core.loaded_of_rescaled hstore _ (fun row hrow => List.mem_range.mpr hrow) hcore
    refine ⟨t, hnext, ?_, hcell, ?_, ?_, ?_, ?_, ?_, ?_, ?_, hothers, by rw [hrest]⟩
    all_goals rw [hcore]
    all_goals rfl

/-! ### PASS (R120) -/

theorem Core.accGet_fold {k : Core} (h : tblWf k.accDflt none k.acc = true) (fold : Bool) (a row lane : Nat) (v : W32) {b j l : Nat}
    (hrow : row < 256) (hlane : lane < 64) (hj : j < 256) (hl : l < 64) :
    (k.fold fold a row lane v).accGet b j l
      = if b = a ∧ j = row ∧ l = lane then (if fold then addRne (k.accGet a row lane) v else v) else k.accGet b j l := by
  have hkey : accIx b j l = accIx a row lane ↔ b = a ∧ j = row ∧ l = lane := by unfold accIx; omega
  refine (tblGet_put (dflt := k.accDflt) _ _ _ h).trans ?_
  simp only [hkey]
  rfl

theorem Core.fold_wf {k : Core} (h : tblWf k.accDflt none k.acc = true) (fold : Bool) (a row lane : Nat) (v : W32) :
    tblWf (k.fold fold a row lane v).accDflt none (k.fold fold a row lane v).acc = true := tblPut_wf _ _ h fun _ hl => by cases hl

/-- Lanes folded one after another into an accumulator row. -/
theorem Core.foldl_fold_eq {α : Type} (fold : Bool) (a : Nat) (row lane : α → Nat) (v : α → W32) (l : List α) (k : Core) :
    l.foldl (fun k' c => k'.fold fold a (row c) (lane c) (v c)) k
      = { k with acc := (l.foldl (fun k' c => k'.fold fold a (row c) (lane c) (v c)) k).acc } := by
  induction l generalizing k with
  | nil => rfl
  | cons c l ih => rw [List.foldl_cons, ih]; rfl

theorem Core.foldl_fold_wf (fold : Bool) (a row : Nat) (v : Nat → W32) (l : List Nat) {k : Core} (h : tblWf k.accDflt none k.acc = true) :
    tblWf k.accDflt none (l.foldl (fun k' c => k'.fold fold a row c (v c)) k).acc = true := by
  induction l generalizing k with
  | nil => exact h
  | cons c l ih => exact ih (k := k.fold fold a row c (v c)) (Core.fold_wf h fold a row c (v c))

theorem Core.accGet_foldl_fold (fold : Bool) (a row : Nat) (v : Nat → W32) (l : List Nat) {k : Core} (h : tblWf k.accDflt none k.acc = true)
    (hnodup : l.Nodup) (hlt : ∀ x ∈ l, x < 64) (hrow : row < 256) {b j lane : Nat} (hj : j < 256) (hlane : lane < 64) :
    (l.foldl (fun k' c => k'.fold fold a row c (v c)) k).accGet b j lane
      = if b = a ∧ j = row ∧ lane ∈ l then (if fold then addRne (k.accGet a row lane) (v lane) else v lane) else k.accGet b j lane := by
  induction l generalizing k with
  | nil => simp
  | cons c l ih =>
    obtain ⟨hnotin, hnodup⟩ := List.nodup_cons.mp hnodup
    obtain ⟨hc, hlt⟩ := List.forall_mem_cons.mp hlt
    have hget := fun {b j l : Nat} (hj : j < 256) (hl : l < 64) => Core.accGet_fold h fold a row c (v c) (b := b) (j := j) (l := l) hrow hc hj hl
    rw [List.foldl_cons, ih (Core.fold_wf h fold a row c (v c)) hnodup hlt, hget hj hlane, hget hrow hlane]
    by_cases hin : lane ∈ l
    · have hne : lane ≠ c := fun heq => hnotin (heq ▸ hin)
      simp [hin, hne]
    · by_cases heq : lane = c
      · subst heq; simp [hin]
      · simp [hin, heq]

/-- Settles O12: the lanes of a row are distinct accumulator elements. -/
theorem arrayPasses : Obligations.ArrayPasses := by
  refine ⟨fun k mv st fold a acc i row scales hrow hcanon => ?_, fun s c word hlive => ?_⟩
  · obtain ⟨hsreg, hstore, hacc⟩ := hcanon
    intro q
    have hq : q = { k with acc := q.acc } := Core.foldl_fold_eq fold a (fun _ => acc + i) id (fun c => passLane k mv st row scales i c) _ k
    refine ⟨?_, fun b j lane hb hj hlane ha => ?_⟩
    · rw [hq]
      exact ⟨hsreg, hstore, Core.foldl_fold_wf fold a (acc + i) (fun c => passLane k mv st row scales i c) _ hacc⟩
    · refine (Core.accGet_foldl_fold fold a (acc + i) (fun c => passLane k mv st row scales i c) _ hacc (List.Nodup.filter _ List.nodup_range)
        (fun x hx => List.mem_range.mp (List.mem_filter.mp hx).1) hrow hj hlane).trans ?_
      simp [hlane]
  · have hentry : ∀ e : Nat × CribErr, (!(e.1 == word && e.2 == .pending)) = decide (e ≠ (word, .pending)) := fun e => by
      rw [Bool.eq_iff_iff]
      simp [Prod.ext_iff]
    refine (onLive_live _ hlive).trans ?_
    simp only [opCribEccWriteback, hentry]
    rfl

/-! ### Streams (R86, R120, R121, R130) -/

/-- The core changes in its accumulators, its crib bytes and its scale buffers. -/
def Core.worked (k q : Core) : Prop :=
  q = { k with acc := q.acc, crib := q.crib, tileScale := q.tileScale, moveScale := q.moveScale, held := q.held, scaleBad := q.scaleBad,
               tileBuf := q.tileBuf, moveBuf := q.moveBuf }

theorem Core.worked.trans {a b e : Core} (h₁ : a.worked b) (h₂ : b.worked e) : a.worked e := by
  unfold Core.worked at *
  rw [h₂, h₁]

theorem Core.rescaled.worked {k q : Core} (h : k.rescaled q) : k.worked q := by
  obtain ⟨hq, -⟩ := h
  unfold Core.worked
  rw [hq]

theorem passRow_worked (k : Core) (tr : Bool) (mv st : ArrFmt) (fold : Bool) (a acc i : Nat) (row scales : List Byte) :
    k.worked (passRow k tr mv st fold a acc i row scales) := by
  unfold passRow
  split
  · rw [Core.foldl_fold_eq fold a (fun rq : Nat × Nat => if st == .bf16 then acc + i else acc + 2 * i + rq.2 % 2) Prod.fst
      (fun rq => passtLane k mv st row scales i rq.1 rq.2)]
    rfl
  · rw [Core.foldl_fold_eq fold a (fun _ => acc + i) (fun c => c) (fun c => passLane k mv st row scales i c)]
    rfl

theorem Core.foldl_cribWrite_worked {α : Type} (at0 : α → Nat) (bs : α → List Byte) (l : List α) {k : Core} (h : k.cribErr = []) :
    k.worked (l.foldl (fun k' j => k'.cribWrite (at0 j) (bs j)) k) := by
  induction l generalizing k with
  | nil => rfl
  | cons j l ih =>
    have hone : k.cribWrite (at0 j) (bs j) = { k with crib := memWrite k.crib (at0 j) (bs j) } := Core.cribWrite_clean h _ _
    refine Core.worked.trans (b := k.cribWrite (at0 j) (bs j)) (by rw [hone]; rfl) (ih ?_)
    rw [hone]
    exact h

/-- Nothing that an array instruction reads has an error. -/
def Core.clean (k : Core) : Prop := k.cribErr = [] ∧ k.storeBad = [] ∧ k.accBad = [] ∧ k.run.isSome = true

section
variable {k : Core} (h : k.clean)
include h

theorem Core.clean.cribErr : k.cribErr = [] := h.1
theorem Core.clean.accBad : k.accBad = [] := h.2.2.1
theorem Core.clean.run : k.run.isSome = true := h.2.2.2

end

theorem Core.worked.clean {k q : Core} (h : k.worked q) (hk : k.clean) : q.clean := by
  unfold Core.worked at h
  rw [h]
  exact hk

theorem passLoop_clean (c : CoreIx) (tr : Bool) (mv st : ArrFmt) (fold : Bool) (a acc src pc : Nat) (scales : List Byte) (n i : Nat) {d : Die}
    (h : (d.core c).clean) : Die.worksOn Core.worked c d (passLoop c tr mv st fold a acc src pc scales false n i false d) := by
  induction n generalizing i d with
  | zero => exact .refl rfl
  | succ n ih =>
    obtain ⟨hcrib, hstore, hacc, hrun⟩ := h
    have hbad : (d.core c).storeBadRead = none := by simp [Core.storeBadRead, hstore]
    have hrow : ∀ rows : List Nat, (if fold then rows.find? fun r => (d.core c).accBad.contains (a * 256 + r) else none) = none := fun rows => by
      simp [hacc]
    have hpass := passRow_worked (d.core c) tr mv st fold a acc i (memRead (d.core c).crib (src + 128 * i) (movingBytes tr st)) scales
    unfold passLoop
    rw [Die.cribRead_clean hcrib]
    dsimp only [Option.getD_some]
    generalize passRow (d.core c) tr mv st fold a acc i (memRead (d.core c).crib (src + 128 * i) (movingBytes tr st)) scales = q at hpass ⊢
    have hq : q.clean := hpass.clean ⟨hcrib, hstore, hacc, hrun⟩
    have hkept : ∀ p, { q with accBad := q.accBad.filter p } = q := fun p => by
      obtain ⟨-, -, hq, -⟩ := hq
      rw [hq, List.filter_nil, ← hq]
    simp only [hkept, hrow, hbad, ite_self, Option.isNone_some, Option.isSome_none, Bool.and_false, Bool.or_self, Bool.false_eq_true, if_false]
    refine .trans (fun _ _ _ => Core.worked.trans) (Die.worksOn_setCore (R := Core.worked) hq.run hpass) (ih _ ?_)
    rw [Die.core_setCore_of_run _ _ _ hq.run, if_pos rfl]
    exact hq

theorem drainLoop_clean (c : CoreIx) (a acc dst : Nat) (out : OutFmt) (rnd : Rounding) (base stride : W64) (n i : Nat) {d : Die}
    (h : (d.core c).clean) : Die.worksOn Core.worked c d (drainLoop c a acc dst out rnd base stride n i false d) := by
  induction n generalizing i d with
  | zero => exact .refl rfl
  | succ n ih =>
    have hrow : (d.core c).worked (drainRow (d.core c) a (acc + i) out rnd (base + BitVec.ofNat 64 i * stride) (dst + i * 64 * out.bytes)) :=
      Core.foldl_cribWrite_worked (fun j => dst + i * 64 * out.bytes + j * out.bytes)
        (fun j => drainElem (d.core c) a (acc + i) out rnd (base + BitVec.ofNat 64 i * stride + BitVec.ofNat 64 j) j) _ h.cribErr
    have hq := hrow.clean h
    unfold drainLoop
    dsimp only
    rw [h.accBad, if_neg (by simp)]
    refine .trans (fun _ _ _ => Core.worked.trans) (Die.worksOn_setCore (R := Core.worked) hq.run hrow) (ih _ ?_)
    rw [Die.core_setCore_of_run _ _ _ hq.run, if_pos rfl]
    exact hq

/-- An array instruction that starts a stream leaves everything of the core that is not the array's, and of the die all but registers. -/
def Die.streams (st : Stream) (c : CoreIx) (d t : Die) : Prop :=
  let k := d.core c
  let q := t.core c
  q.streams = k.streams ++ [st] ∧ q.pc = k.pc + 8 ∧ q.sreg = k.sreg ∧ q.vreg = k.vreg ∧ q.store = k.store ∧ q.ops = k.ops ∧ q.run = k.run
    ∧ (∀ x, x ≠ c → t.core x = d.core x) ∧ t.mem = d.mem ∧ t.launches = d.launches ∧ t.fault = d.fault

theorem Die.streams_of_worksOn {st : Stream} {c : CoreIx} {d e t : Die} (hrun : (d.core c).run.isSome = true)
    (he : e.cores = (d.setCore c ((d.core c).startStream st).next).cores) (hmem : e.mem = d.mem) (hlaunch : e.launches = d.launches)
    (hfault : e.fault = d.fault) (h : Die.worksOn Core.worked c e t) : Die.streams st c d t := by
  have hcore : ∀ x, e.core x = if x = c then ((d.core c).startStream st).next else d.core x := fun x => by
    rw [Die.core_of_cores he x, Die.core_setCore_of_run _ _ _ (by exact hrun)]
  obtain ⟨hwork, hothers, hrest⟩ := h
  rw [hcore c, if_pos rfl] at hwork
  unfold Core.worked at hwork
  refine ⟨?_, ?_, ?_, ?_, ?_, ?_, ?_, fun x hx => ?_, ?_, ?_, ?_⟩
  iterate 7 rw [hwork]; rfl
  · rw [hothers x hx, hcore x, if_neg hx]
  · rw [hrest, hmem]
  · rw [hrest, hlaunch]
  · rw [hrest, hfault]

theorem Core.badScale_of_nil {k : Core} (h : k.scaleBad = []) (fmt : ArrFmt) (arr n : Nat) : k.badScale fmt arr n = none := by
  simp [Core.badScale, h]

theorem arrFmtOf_ne_bf16 (n : Nat) : (arrFmtOf n != .bf16) = (n != 0) :=
  match n with
  | 0 | 1 | 2 | 3 | 4 | 5 | 6 | 7 | 8 => rfl
  | _ + 9 => rfl

section
variable {i : Instr} {s : State} {c : CoreIx} {fmt : ArrFmt} {fold tr : Bool} {arr : BitVec 2} {rowsM1 acc : BitVec 8} {src : BitVec 22}

/-- The stream of a PASS or PASST. -/
def passStream (k : Core) (tr : Bool) (fmt : ArrFmt) (arr : BitVec 2) (rowsM1 acc : BitVec 8) (src : BitVec 22) : Stream :=
  { kind := .pass, arr := arr, accLo := acc.toNat, accHi := acc.toNat + passSpan tr (arrFmtOf k.storeFmt.toNat) (rowsM1.toNat + 1), lo := src.toNat,
    hi := src.toNat + 128 * (rowsM1.toNat + 1) + scaleBytes fmt (rowsM1.toNat + 1), fmt := BitVec.ofNat 4 fmt.code }

/-- A pass that reads nothing with an error starts its stream. -/
theorem answers_pass (h : Issues s c (.pass tr fmt fold arr rowsM1 acc src)) (hi : exec i s = onLive (pass tr c fmt fold arr rowsM1 acc src) s)
    (hclean : (s.die.core c).clean) (hscale : (s.die.core c).scaleBad = []) (hfree : ∀ x ∈ (s.die.core c).streams, x.kind ≠ .loadw ∧ x.arr ≠ arr)
    (hc : (s.die.core c).clear [{ dva := false, lo := src.toNat, hi := src.toNat + 128 * (rowsM1.toNat + 1) + scaleBytes fmt (rowsM1.toNat + 1), write := false }] true
      = true) :
    answers i s (Die.streams (passStream (s.die.core c) tr fmt arr rowsM1 acc src) c s.die) := by
  set k := s.die.core c with hk
  set d := (s.die.setCore c (k.startStream (passStream k tr fmt arr rowsM1 acc src)).next).countWrap (ARRAY_BUSY_CYCLES c.val arr.toNat) (rowsM1.toNat + 1)
    with hd
  have hcore : d.core c = (k.startStream (passStream k tr fmt arr rowsM1 acc src)).next :=
    (Die.core_setCore_of_run _ _ _ (by exact hclean.run)).trans (if_pos rfl)
  obtain ⟨t, ht, hscales⟩ := Die.takeScales_clean (d := d) (c := c) (by rw [hcore]; exact hclean.run) (by rw [hcore]; exact hclean.cribErr) k.pc false
    arr.toNat (src.toNat + 128 * (rowsM1.toNat + 1)) (scaleBytes fmt (rowsM1.toNat + 1))
  have hresc := hscales.1
  rw [hcore] at hresc
  have htclean : (t.core c).clean := hresc.worked.clean hclean
  have htscale : (t.core c).scaleBad = [] := List.eq_nil_of_subset_nil (hscale ▸ hresc.2)
  have hloop := passLoop_clean c tr fmt (arrFmtOf k.storeFmt.toNat) fold arr.toNat acc.toNat src.toNat k.pc
    ((t.core c).movingScales arr.toNat (scaleBytes fmt (rowsM1.toNat + 1))) (rowsM1.toNat + 1) 0 htclean
  have hu := hloop.1.clean htclean
  have hahead := Die.lookAhead_clean hu.run hu.cribErr
  have hbusy : (k.streams.any fun x => x.kind == .loadw || (x.kind == .pass && x.arr == arr)
      || (x.kind == .drain && x.arr == arr && decide (x.accLo < acc.toNat + passSpan tr (arrFmtOf k.storeFmt.toNat) (rowsM1.toNat + 1))
        && decide (acc.toNat < x.accHi))) = false := by
    refine List.any_eq_false.mpr fun x hx => ?_
    obtain ⟨hload, harr⟩ := hfree x hx
    simp [hload, harr]
  have hall : Die.worksOn Core.worked c d _ := hscales.trans (fun _ _ _ ha hb => ha.worked.trans hb) (hloop.trans (fun _ _ _ ha hb => ha.trans hb.worked) hahead)
  refine ⟨_, ?_, Die.streams_of_worksOn (e := d) hclean.run rfl rfl rfl rfl hall⟩
  rw [hi, onLive_live _ h.live]
  unfold pass
  dsimp only
  rw [Die.issue_of_issues h (by rw [hbusy, hc]; rfl)]
  have hnone := Core.badScale_of_nil htscale fmt arr.toNat (scaleBytes fmt (rowsM1.toNat + 1))
  change Host.Outcome.next { s with die := match d.takeScales c k.pc false arr.toNat (src.toNat + 128 * (rowsM1.toNat + 1)) (scaleBytes fmt (rowsM1.toNat + 1)) with
    | (false, d) => _
    | (true, d) => _ } = _
  rw [ht]
  dsimp only
  rw [hnone]
  rfl

/-- The stream of a DRAIN. -/
def drainStream (arr : BitVec 2) (rowsM1 acc : BitVec 8) (out : OutFmt) (dst : BitVec 22) : Stream :=
  { kind := .drain, arr := arr, accLo := acc.toNat, accHi := acc.toNat + (rowsM1.toNat + 1), lo := dst.toNat,
    hi := dst.toNat + (rowsM1.toNat + 1) * 64 * out.bytes, fmt := 0 }

/-- A drain that reads nothing with an error starts its stream. -/
theorem answers_drain {sa sb : Reg} {out : OutFmt} {rnd : Rounding} (h : Issues s c (.drain sa sb arr rowsM1 acc out rnd src))
    (hclean : (s.die.core c).clean) (hfree : ∀ x ∈ (s.die.core c).streams, x.arr ≠ arr)
    (hc : (s.die.core c).clear [{ dva := false, lo := src.toNat, hi := src.toNat + (rowsM1.toNat + 1) * 64 * out.bytes, write := true }] true = true) :
    answers (.drain c sa sb arr rowsM1 acc out rnd src) s (Die.streams (drainStream arr rowsM1 acc out src) c s.die) := by
  set k := s.die.core c with hk
  have hbusy : (k.streams.any fun x => x.kind == .pass && x.arr == arr && decide (x.accLo < acc.toNat + (rowsM1.toNat + 1)) && decide (acc.toNat < x.accHi))
      = false := List.any_eq_false.mpr fun x hx => by simp [hfree x hx]
  set d := s.die.setCore c (k.startStream (drainStream arr rowsM1 acc out src)).next with hd
  have hcore : d.core c = (k.startStream (drainStream arr rowsM1 acc out src)).next :=
    (Die.core_setCore_of_run _ _ _ (by exact hclean.run)).trans (if_pos rfl)
  have hloop := drainLoop_clean c arr.toNat acc.toNat src.toNat out rnd (k.s sa) (k.s sb) (rowsM1.toNat + 1) 0 (d := d) (by rw [hcore]; exact hclean)
  refine ⟨_, ?_, Die.streams_of_worksOn (e := d) hclean.run rfl rfl rfl rfl hloop⟩
  refine (onLive_live _ h.live).trans ?_
  unfold opDrain
  dsimp only
  rw [Die.issue_of_issues h (by rw [hbusy, hc]; rfl)]
  rfl

end

/-- Settles O13. -/
theorem arrayStreams : Obligations.ArrayStreams := by
  refine ⟨fun s c fmt fold arr rowsM1 acc src sa sb out rnd => ?_, fun s c sa sb n x => ⟨fun h => retires_of_issueCore h rfl rfl, fun hlive hx => ?_⟩⟩
  · intro k rows clean free starts stream reads
    have hclean : clean → k.run.isSome = true → k.clean := fun ⟨hcrib, hstore, hacc, _⟩ hrun => ⟨hcrib, hstore, hacc, hrun⟩
    have hspan : ∀ tr, stream tr = passStream k tr fmt arr rowsM1 acc src := fun tr => by
      simp only [stream, passStream, passSpan, arrFmtOf_ne_bf16, rows]
    refine ⟨fun h hk hfree hreads => ?_, fun h hk hfree hreads => ?_, fun h hk hfree hreads => ?_⟩
    · rw [hspan]
      exact answers_pass h rfl (hclean hk h.run_isSome) hk.2.2.2 hfree hreads
    · rw [hspan]
      exact answers_pass h rfl (hclean hk h.run_isSome) hk.2.2.2 hfree hreads
    · exact answers_drain h (hclean hk h.run_isSome) (fun x hx => (hfree x hx).2) hreads
  · refine (onLive_live _ hlive).trans ?_
    simp [opArrayStreamComplete, hx]

end Sys2Proof.Machine
end

section
/-! PROOF. The sync and barrier instructions of a core and the end of its slice (spec 03, R105 to R109; spec 08; spec 09). -/

namespace Sys2Proof.Machine

/-- The partition of a core that runs a slice. -/
theorem Core.slicePart_of_run {k : Core} {r : SliceRun} (h : k.run = some r) : k.slicePart = r.part.val := by simp [Core.slicePart, h]

theorem meets_iff (equal : Bool) (thr value : W64) : meets equal thr value = true ↔ if equal then value = thr else thr.toNat ≤ value.toNat := by
  cases equal <;> simp [meets, BitVec.ult]

/-- A signal to an object of the own partition fills the free slot of its source (R255, R263). -/
theorem Die.localSignal_free {d : Die} {source part : Nat} {obj : ObjIx} (inc : W64) (req : Req) (id : Nat) (howner : (d.obj obj).owner.toNat = part)
    (hslot : assoc d.sync.slots source = none) :
    d.localSignal source part obj inc req id = some (.ok (), d.onSync fun u =>
      { u with slots := assocPut u.slots source { obj := obj, inc := inc, part := part, who := some (req, id), head := none } }) := by
  simp [Die.localSignal, howner, Die.slotSignal, hslot]

theorem Core.quiet_iff {k : Core} : k.quiet = true ↔ k.streams = [] ∧ k.engines = [] ∧ k.ops = [] := by simp [Core.quiet, and_assoc]

/-- Settles O14. -/
theorem syncInstructions : Obligations.SyncInstructions := by
  intro s c r reg equal obj imm scope run k o hrun
  have hpart : (s.die.core c).slicePart = run.part.val := Core.slicePart_of_run hrun
  refine ⟨fun h hopen howner hslot => ?_, fun h howner hpoison => ?_, fun h hscope => ?_, fun h => ?_⟩
  · intro slot d
    refine becomes_of_issue h rfl (by rw [hopen]; rfl) ?_
    rw [Bool.false_and, if_neg Bool.false_ne_true, Die.signalHere, hpart, Die.localSignal_free _ _ _ howner hslot]
    rfl
  · refine becomes_of_issue h rfl rfl ?_
    have hmay : ¬((s.die.obj obj).owner.toNat != (s.die.core c).slicePart) = true := by simpa [hpart] using howner
    dsimp only
    rw [if_neg hmay, if_neg (by rw [show (s.die.obj obj).poison = false from hpoison]; exact Bool.false_ne_true)]
    simp only [meets_iff, ← apply_ite (s.die.setCore c)]
    rfl
  · refine becomes_of_issue h rfl rfl ?_
    cases scope with
    | core =>
      simp only [Core.quiet_iff, true_and]
      rfl
    | yard => rfl
    | die => rfl
    | system => exact absurd rfl hscope
  · refine becomes_of_issue h rfl rfl ?_
    simp only [show (s.die.core c).run = some run from hrun]
    rfl

/-! ### Barriers (R108, R288) -/

/-- A release reaches the cores of its partition that stand at the barrier and have arrived. -/
theorem Die.releaseSys_eq (d : Die) (part : PartIx) (inst : Nat) :
    d.releaseSys part inst = d.passAll ((List.finRange 48).filter fun x =>
      (d.core x).wait = some (.barrier .system inst true) ∧ (d.core x).slicePart = part.val) := by
  refine congrArg d.passAll (List.filter_congr fun x _ => ?_)
  split
  · next i hwait => rw [Bool.eq_iff_iff]; simp [hwait]
  · next hwait => simpa using fun h => absurd h (hwait inst)

/-- The first arrival of a system barrier, where more dies are expected, is noted. -/
theorem Die.countArrival_first {d : Die} {part : PartIx} (src : Place) (inst : Nat) (h : d.cp.sysbars = []) (hexpect : 1 < d.get (SYSBAR_EXPECT_DIES part.val)) :
    d.countArrival src part inst = { d with cp := { d.cp with sysbars := [{ part := part, inst := inst, dies := [src] }] } } := by
  have hmore : ¬orOne (d.get (SYSBAR_EXPECT_DIES part.val)) ≤ 1 := by unfold orOne; split <;> simp_all
  simp [Die.countArrival, h, hmore, Die.onCp]

/-- Settles O15. -/
theorem barriersAndSliceEnd : Obligations.BarriersAndSliceEnd := by
  refine ⟨fun s c run scope src part inst hlive => ⟨fun hwait hrun hscope hall => ?_, fun hleads hempty hexpect => ?_, fun hfollows => ?_⟩,
    fun s c run => ?_⟩
  · refine (onLive_live _ hlive).trans ?_
    have hready : ((s.die.participants c run scope).all fun x => (s.die.core x).standsAt scope 0) = true := List.all_eq_true.mpr hall
    rcases hscope with rfl | rfl <;> simp [opBarrierRelease, hwait, hrun, hready]
  · refine (onLive_live _ hlive).trans ?_
    simp only [opSysbarArrival, Die.arriveSys, hleads, Bool.true_or, if_true, Die.countArrival_first src inst hempty hexpect]
  · refine (onLive_live _ hlive).trans ?_
    simp only [opSysbarRelease, hfollows, Bool.false_eq_true, if_false, Die.releaseSys_eq]
  · intro k hrun
    have hrun' : (s.die.core c).run = some run := hrun
    refine ⟨fun h => becomes_of_issue h rfl rfl (by rw [hrun']; rfl), fun hlive hended hstop hstreams hengines hops => ?_⟩
    have hquiet : (s.die.core c).quiet = true := Core.quiet_iff.mpr ⟨hstreams, hengines, hops⟩
    refine (onLive_live _ hlive).trans ?_
    simp only [opSliceEndRetire, hrun', hended, hstop, hquiet, Option.isNone_none, Bool.and_self, if_true]
    rfl

end Sys2Proof.Machine
end

section
/-! PROOF. Register words by bits: what a write by access codes stores (R16, R544), and single-bit fields. -/

namespace Sys2Proof.Machine

/-! ### Words as sets of bits -/

theorem add_eq_or_of_and_eq_zero (x y : Nat) (h : x &&& y = 0) : x + y = x ||| y := by
  induction x using Nat.strongRecOn generalizing y with
  | ind x ih =>
    by_cases hx : x = 0
    · simp [hx]
    · have hhalf : x / 2 &&& y / 2 = 0 := by rw [← Nat.and_div_two, h]
      have hrec := ih (x / 2) (by omega) (y / 2) hhalf
      have hor := Nat.or_div_two (a := x) (b := y)
      have hlow := Nat.or_mod_two_eq_one (a := x) (b := y)
      have hand := Nat.and_mod_two_eq_one (a := x) (b := y)
      rw [h] at hand
      omega

/-- What of a word lies outside a mask. -/
theorem sub_land_eq_ldiff (a m : Nat) : a - a.land m = Nat.ldiff a m := by
  have hdisjoint : a &&& m &&& Nat.ldiff a m = 0 := Nat.eq_of_testBit_eq fun i => by
    rw [Nat.testBit_and, Nat.testBit_and, Nat.testBit_ldiff]
    cases a.testBit i <;> cases m.testBit i <;> simp
  have hall : a &&& m ||| Nat.ldiff a m = a := Nat.eq_of_testBit_eq fun i => by
    rw [Nat.testBit_or, Nat.testBit_and, Nat.testBit_ldiff]
    cases a.testBit i <;> cases m.testBit i <;> rfl
  have hsum := add_eq_or_of_and_eq_zero _ _ hdisjoint
  rw [hall] at hsum
  change a - (a &&& m) = _
  omega

theorem testBit_sub_land (a m i : Nat) : (a - a.land m).testBit i = (a.testBit i && !m.testBit i) := by
  rw [sub_land_eq_ldiff, Nat.testBit_ldiff]

/-- A word with the bits of a mask taken from another. -/
theorem testBit_merge (a x m i : Nat) : (a - a.land m + x.land m).testBit i = if m.testBit i then x.testBit i else a.testBit i := by
  have hdisjoint : Nat.ldiff a m &&& x.land m = 0 := Nat.eq_of_testBit_eq fun i => by
    change (Nat.ldiff a m &&& (x &&& m)).testBit i = _
    rw [Nat.testBit_and, Nat.testBit_and, Nat.testBit_ldiff]
    cases a.testBit i <;> cases m.testBit i <;> simp
  rw [sub_land_eq_ldiff, add_eq_or_of_and_eq_zero _ _ hdisjoint, Nat.testBit_or, Nat.testBit_ldiff]
  change (a.testBit i && !m.testBit i || (x &&& m).testBit i) = _
  rw [Nat.testBit_and]
  cases m.testBit i <;> simp

section
variable {d : Die}

/-- A field of one bit. -/
theorem Die.bit_eq_testBit {f : Fld} (hw : f.w = 1) : d.bit f = (d.raw f.off).testBit f.lo := by
  rw [Nat.testBit_eq_decide_div_mod_eq, Die.bit, Die.get, sub, hw, Nat.pow_one, Bool.beq_eq_decide_eq]

/-- A register is stored by the access codes of its bits (R16, R544). -/
theorem Die.testBit_raw_store (h : d.regsWf) (r : RegRow) (off v i : Nat) (hi : i < 32) :
    ((d.store r off v).raw off).testBit i
      = if r.w1c.testBit i && v.testBit i then false else if r.rw.testBit i then (d.inRange off v).testBit i else (d.raw off).testBit i := by
  rw [Die.store, Die.raw_putRaw d _ _ _ h, if_pos rfl, Nat.testBit_mod_two_pow, decide_eq_true hi, Bool.true_and]
  have hw1c : (v.land r.w1c).testBit i = (v.testBit i && r.w1c.testBit i) := Nat.testBit_and ..
  rw [testBit_sub_land, testBit_merge, hw1c]
  cases r.w1c.testBit i <;> cases v.testBit i <;> simp

end

/-! ### Writes of a register by the host or a core -/

/-- A command that is one register write in BAR0 below the sync objects, by the physical function, has its effect (R295, R300). -/
theorem becomes_regWrite {i : Instr} {s : State} {who : Who} {bar0 : Bool} {off : Nat} {v : W32} {f : Die → Die} (hreach : Reaches s.die who true)
    (hp : who.part = 0) (hlow : off < 0x2000000) (hi : exec i s = onDie (fromHost who bar0 true off (posted who false off v f)) s) :
    becomes i s (f s.die) := by
  have hheld : (!false && s.die.addHeld who.part.val off) = false := by
    rw [hp]
    exact addHeld_low s.die off hlow
  rw [becomes, hi, onDie_eq, fromHost_reaches hreach, posted_reaches hreach hheld]

section
variable {d : Die} (h : d.regsWf)
include h

theorem Die.bit_put_of_apart {f g : Fld} (v : Nat) (hg : g.lo + g.w ≤ 32) (hfg : f.apart g) : (d.put f v).bit g = d.bit g := by
  rw [Die.bit, Die.get_put_of_apart h v hg hfg, Die.bit]

theorem Die.bit_putB_of_apart {f g : Fld} (v : Bool) (hg : g.lo + g.w ≤ 32) (hfg : f.apart g) : (d.putB f v).bit g = d.bit g :=
  Die.bit_put_of_apart h _ hg hfg

theorem Die.regsWf.putB (f : Fld) (v : Bool) : (d.putB f v).regsWf := h.put f _

theorem Die.raw_putB_of_ne {f : Fld} {q : Nat} (v : Bool) (hq : q ≠ f.off) : (d.putB f v).raw q = d.raw q := Die.raw_put_of_ne h _ hq

end

theorem Die.bit_of_raw {d e : Die} {f : Fld} (h : d.raw f.off = e.raw f.off) : d.bit f = e.bit f := by simp only [Die.bit, Die.get, h]

theorem Die.get_of_raw {d e : Die} {f : Fld} (h : d.raw f.off = e.raw f.off) : d.get f = e.get f := by simp only [Die.get, h]

end Sys2Proof.Machine
end

section
/-! PROOF. The tick (spec 02): its start, its boundaries and guards, its messages and members. -/

namespace Sys2Proof.Machine

/-! ### The start of the tick (R37, R38) -/

/-- TICK_CTRL in the register table. -/
def tickCtrlRow : RegRow := { base := TICK_CTRL, n1 := 1, s1 := 4, n2 := 1, s2 := 4, rw := 0x6, w1c := 0, w1s := 1, digested := false, modeOnly := false }

theorem findRow_tickCtrl : findRow TICK_CTRL = some tickCtrlRow := rfl

theorem Die.effect_tickCtrl (d : Die) (who : Who) (r : RegRow) (v : Nat) :
    d.effect who r TICK_CTRL v = if v % 2 == 1 then (d.store r TICK_CTRL v).tickRun else d.store r TICK_CTRL v := rfl

/-- The die right after RUN has been written as 1: TICK_CTRL is stored, with RUN set. -/
def Die.ranTick (d : Die) (v : W32) : Die := (d.store tickCtrlRow TICK_CTRL v.toNat).putB TICK_CTRL_RUN true

section
variable {d : Die} (h : d.regsWf) (v : W32)
include h

theorem Die.bit_store_tickCtrl {f : Fld} (hoff : f.off = TICK_CTRL) (hw : f.w = 1) (hlo : f.lo < 32) :
    (d.store tickCtrlRow TICK_CTRL v.toNat).bit f = if tickCtrlRow.rw.testBit f.lo then v.getLsbD f.lo else d.bit f := by
  have hrange : d.inRange TICK_CTRL v.toNat = v.toNat := rfl
  have hw1c : tickCtrlRow.w1c.testBit f.lo = false := Nat.zero_testBit _
  rw [Die.bit_eq_testBit hw, hoff, Die.testBit_raw_store h _ _ _ _ hlo, Die.bit_eq_testBit hw, hoff, hrange, hw1c]
  rfl

theorem Die.regsWf.ranTick : (d.ranTick v).regsWf := (h.store tickCtrlRow TICK_CTRL v.toNat).putB _ _

theorem Die.raw_ranTick {q : Nat} (hq : q ≠ TICK_CTRL) : (d.ranTick v).raw q = d.raw q := by
  rw [Die.ranTick, Die.raw_putB_of_ne (h.store _ _ _) _ hq, Die.raw_store_of_ne h _ _ hq]

/-- RUN is set, and SYSTEM_LEAD and DIGEST_FENCE are stored beside it. -/
theorem Die.bits_ranTick : (d.ranTick v).bit TICK_CTRL_RUN = true ∧ (d.ranTick v).bit TICK_CTRL_SYSTEM_LEAD = v.getLsbD 1
    ∧ (d.ranTick v).bit TICK_CTRL_DIGEST_FENCE = v.getLsbD 2 := by
  have hstored := h.store tickCtrlRow TICK_CTRL v.toNat
  refine ⟨Die.bit_putB hstored true (by decide) rfl, ?_, ?_⟩
  · exact (Die.bit_putB_of_apart hstored true (by decide) (.inr (.inl (by decide)))).trans (Die.bit_store_tickCtrl h v rfl rfl (by decide))
  · exact (Die.bit_putB_of_apart hstored true (by decide) (.inr (.inl (by decide)))).trans (Die.bit_store_tickCtrl h v rfl rfl (by decide))

/-- A write of 1 to RUN while it is 0. -/
theorem Die.writeBar0_run {who : Who} (hp : who.part = 0) (hrun : d.bit TICK_CTRL_RUN = false) (hv : v.getLsbD 0 = true) :
    d.writeBar0 who TICK_CTRL v.toNat
      = if (d.ranTick v).ownTick then
          ({ d.ranTick v with tick := { d.tick with runs := true, now := 0, inGuard := false }, clkInTick := 0 }.putB TICK_STATUS_LOCKED true).put
            MEMBERSHIP_MEMBER (2 ^ d.here.die.val)
        else d.ranTick v := by
  have hodd : (v.toNat % 2 == 1) = true := by
    have : v.toNat.testBit 0 = true := hv
    simpa [Nat.testBit_zero] using this
  have hstill : (d.store tickCtrlRow TICK_CTRL v.toNat).bit TICK_CTRL_RUN = false := (Die.bit_store_tickCtrl h v rfl rfl (by decide)).trans hrun
  rw [Die.writeBar0_pf hp (by decide) (by decide) findRow_tickCtrl rfl rfl, Die.effect_tickCtrl, if_pos hodd, Die.tickRun, hstill]
  rfl

theorem Die.ownTick_ranTick :
    (d.ranTick v).ownTick = (d.pins.lead && (v.getLsbD 1 || !(d.bit (OPT_CTRL_TICK_SRC 0) || d.bit (OPT_CTRL_TICK_SRC 1)))) := by
  obtain ⟨-, hlead, -⟩ := Die.bits_ranTick h v
  have hsrc : ∀ n, n < 2 → (d.ranTick v).bit (OPT_CTRL_TICK_SRC n) = d.bit (OPT_CTRL_TICK_SRC n) := fun n hn =>
    Die.bit_of_raw (Die.raw_ranTick h v (by simp [OPT_CTRL_TICK_SRC, OPT_CTRL, TICK_CTRL]; omega))
  rw [Die.ownTick, hlead, hsrc 0 (by decide), hsrc 1 (by decide)]
  rfl

end

/-- The die of a lead right after its tick has started: what is set in its registers, and the registers that keep what they held. -/
theorem Die.started_regs {e : Die} (h : e.regsWf) (u : TickUnit) (n : Nat) (hn : n < 2 ^ 8) :
    let t := ({ e with tick := u, clkInTick := 0 }.putB TICK_STATUS_LOCKED true).put MEMBERSHIP_MEMBER n
    t.bit TICK_STATUS_LOCKED = true ∧ t.get MEMBERSHIP_MEMBER = n ∧ ∀ q, q ≠ TICK_STATUS → q ≠ MEMBERSHIP → t.raw q = e.raw q := by
  have hwf : ({ e with tick := u, clkInTick := 0 } : Die).regsWf := h
  intro t
  refine ⟨?_, ?_, fun q hs hm => ?_⟩
  · exact (Die.bit_put_of_apart (hwf.putB _ _) _ (by decide) (.inl (by decide))).trans (Die.bit_putB hwf true (by decide) rfl)
  · exact (Die.get_put (hwf.putB _ _) n (by decide)).trans (Nat.mod_eq_of_lt hn)
  · exact (Die.raw_put_of_ne (hwf.putB _ _) _ hm).trans (Die.raw_putB_of_ne hwf _ hs)

theorem Die.spanBoundary_eq (d : Die) : d.spanBoundary = if d.tick.removedMask = 0 ∧ d.tick.removedPkgs = [] then d else d.endSpanning := by
  unfold Die.spanBoundary
  simp only [Bool.and_eq_true, beq_iff_eq, List.isEmpty_iff]

/-- The die of a running tick at its boundary, before what spans removed dies ends. -/
def Die.atBoundary (d : Die) : Die := (d.oldTick.countTick.emit .boundary).showDigest.holdBoundary.applyMsg.coreBoundary.modeBoundary

theorem opTickBoundary_of_runs {d : Die} (h : d.tick.runs = true) :
    opTickBoundary d = (((d.atBoundary.spanBoundary.unitBoundary.settlePlans.takePolicies.powerBoundary true).faultIrq).batchBoundary.chains.startSlices).sourceBoundary.pump :=
  if_neg (by simp [h])

theorem Die.makeAck_fields (d : Die) : d.makeAck.src = d.here ∧ d.makeAck.tick = d.tick.now ∧ d.makeAck.epoch = d.epoch ∧ d.makeAck.slips = d.slipMask
    ∧ d.makeAck.digest = d.digest ∧ d.makeAck.cancels = d.tick.cancelsNow := ⟨rfl, rfl, rfl, rfl, rfl, rfl⟩

/-- The die of a running tick in its guard, before it acknowledges. -/
def Die.judged (d : Die) : Die := ((d.onTick fun t => { t with inGuard := true }).judgeAll).endLaunches

theorem opGuardStart_of_runs {d : Die} (watts scaled : Nat) (hrun : d.tick.runs = true) (hguard : d.tick.inGuard = false) :
    opGuardStart watts scaled d
      = (((if d.judged.makeAck.vote == .ready && d.judged.get MODE_STATE_STATE == 1 then d.judged.put MODE_STATE_STATE 2 else d.judged).onTick fun t =>
          { t with cancelsNow := [], sampled := some d.judged.makeAck.digest }).sendAck d.judged.makeAck).powerGuard watts scaled :=
  if_neg (by simp [hrun, hguard])

/-- Settles O16. -/
theorem tickBoundaries : Obligations.TickBoundaries := by
  refine ⟨fun s who v hreach hp hcanon hrun hv => ?_, fun s hlive => ?_, fun s watts scaled hlive => ?_⟩
  · intro follows set
    have hwf := hcanon.regsWf
    have hnext : becomes (.tickRun who v) s (s.die.writeBar0 who TICK_CTRL v.toNat) := becomes_regWrite (f := opTickRun who v) hreach hp (off := TICK_CTRL) (by decide) rfl
    have hbits := Die.bits_ranTick hwf v
    have hsrc : (s.die.bit (OPT_CTRL_TICK_SRC 0) || s.die.bit (OPT_CTRL_TICK_SRC 1)) = true ↔ follows := by rw [Bool.or_eq_true]
    rw [Die.writeBar0_run hwf v hp hrun hv, Die.ownTick_ranTick hwf v] at hnext
    refine ⟨fun hlead hsys => ?_, fun hnot => ?_⟩
    · rw [if_pos] at hnext
      · obtain ⟨hlocked, hmember, hkept⟩ := Die.started_regs (hwf.ranTick v) { s.die.tick with runs := true, now := 0, inGuard := false }
          (2 ^ s.die.here.die.val) (Nat.pow_lt_pow_right (by decide) s.die.here.die.isLt)
        have hctrl : ∀ f : Fld, f.off = TICK_CTRL → _ := fun f hf => Die.bit_of_raw (hkept f.off (by rw [hf]; decide) (by rw [hf]; decide))
        refine ⟨_, hnext, ?_, hlocked, hmember, fun q hq => ?_, rfl, rfl⟩
        · obtain ⟨hr, hs, hf⟩ := hbits
          exact ⟨(hctrl _ rfl).trans hr, (hctrl _ rfl).trans hs, (hctrl _ rfl).trans hf⟩
        · simp only [List.mem_cons, List.not_mem_nil, or_false, not_or] at hq
          obtain ⟨hc, hs, hm⟩ := hq
          exact (hkept q hs hm).trans (Die.raw_ranTick hwf v hc)
      · rw [hlead, Bool.true_and, Bool.or_eq_true, Bool.not_eq_true', ← Bool.not_eq_true, hsrc]
        exact hsys
    · rw [if_neg] at hnext
      · exact ⟨_, hnext, hbits, fun q hq => Die.raw_ranTick hwf v (by simpa using hq), rfl⟩
      · rcases hnot with hlead | ⟨hsys, hfollows⟩
        · simp [hlead]
        · rw [hsys, hsrc.mpr hfollows, Bool.not_true, Bool.or_self, Bool.and_false]
          exact Bool.false_ne_true
  · refine ⟨fun hrun hbeats => (onLive_live _ hlive).trans ?_, fun hrun => ?_, fun hrun => (onLive_live _ hlive).trans ?_,
      fun hrun => (onLive_live _ hlive).trans ?_⟩
    · rw [opBeatBoundary, hrun, hbeats, if_neg (by decide)]
      rfl
    · intro a b c e f g
      have hb : b = s.die.oldTick := rfl
      have hc : c = b.countTick := rfl
      have he : e = s.die.atBoundary := by rw [Die.atBoundary, ← hb, ← hc]
      have hf : f = e.spanBoundary.unitBoundary.settlePlans := by rw [Die.spanBoundary_eq]
      have hg : g = f.takePolicies := rfl
      refine (onLive_live _ hlive).trans ?_
      rw [opTickBoundary_of_runs hrun, ← he, ← hf, ← hg]
    · rw [opBeatBoundary, hrun, if_pos (by rfl)]
    · rw [opTickBoundary, hrun, if_pos (by rfl)]
  · refine ⟨fun hrun hguard => ?_, fun hguard => (onLive_live _ hlive).trans ?_, fun hrun => (onLive_live _ hlive).trans ?_⟩
    · intro a x b
      have ha : a = s.die.judged := rfl
      have hb : b = if a.makeAck.vote == .ready && a.get MODE_STATE_STATE == 1 then a.put MODE_STATE_STATE 2 else a := by
        simp only [b, x, Bool.and_eq_true, beq_iff_eq]
      have hx : x = a.makeAck := rfl
      clear_value b x
      subst hx
      obtain ⟨h1, h2, h3, h4, h5, h6⟩ := Die.makeAck_fields a
      refine ⟨h1, h2, h3, h4, h5, h6, (onLive_live _ hlive).trans ?_⟩
      rw [opGuardStart_of_runs watts scaled hrun hguard, ← ha, ← hb]
      rfl
    · rw [opGuardStart, hguard, if_pos (by simp)]
    · rw [opGuardStart, hrun, if_pos (by simp)]

end Sys2Proof.Machine
end

section
/-! PROOF. The messages of the tick (spec 02, R47, R57 to R66). -/

namespace Sys2Proof.Machine

/-! ### The lead's message (R47, R58, R63) -/

/-- Counting the acknowledgements that are missing changes their counts alone. -/
theorem Die.countMisses_eq (d : Die) (t : Nat) : ∃ m, d.countMisses t = { d with tick := { d.tick with ackMiss := m } } := by
  unfold Die.countMisses
  dsimp only
  generalize (List.map _ _ ++ _ : List Place) = places
  have hfold : ∀ (l : List Place) (m : List (Nat × Nat)), ∃ n,
      l.foldl (fun e x =>
        let k := e.memberKey x
        let n := if e.tick.acks.any fun a => a.src == x && a.tick == t then 0 else (assoc e.tick.ackMiss k).getD 0 + 1
        e.onTick fun u => { u with ackMiss := assocPut u.ackMiss k n }) { d with tick := { d.tick with ackMiss := m } }
        = { d with tick := { d.tick with ackMiss := n } } := by
    intro l
    induction l with
    | nil => exact fun m => ⟨m, rfl⟩
    | cons x l ih => exact fun m => ih _
  exact hfold places d.tick.ackMiss

/-- Space that is free again changes the credits of the ports. -/
theorem Die.freeUnits_eq (d : Die) (port : LinkPort) (cls bytes : Nat) :
    d.freeUnits port cls bytes = { d with ports := (d.freeUnits port cls bytes).ports } := by
  cases port <;> rfl

theorem Die.here_freeUnits (d : Die) (port : LinkPort) (cls bytes : Nat) : (d.freeUnits port cls bytes).here = d.here := by
  cases port <;> rfl

/-- A system lead hears a second one, from another package. -/
def Die.hearsSecond (d : Die) (port : LinkPort) (m : TickMsg) : Bool :=
  (match port with | .opt _ => true | .peer _ => false) && d.pins.lead && d.bit TICK_CTRL_SYSTEM_LEAD && m.sysLead && m.src.pkg != d.here.pkg

theorem Die.hearsSecond_iff (d : Die) (port : LinkPort) (m : TickMsg) :
    d.hearsSecond port m = true ↔ (∃ n, port = .opt n) ∧ d.pins.lead = true ∧ d.bit TICK_CTRL_SYSTEM_LEAD = true ∧ m.sysLead = true ∧ m.src.pkg ≠ d.here.pkg := by
  cases port <;> simp [Die.hearsSecond, and_assoc]

/-- A system lead takes time from no port. -/
theorem Die.takesTime_of_hearsSecond {d : Die} {port : LinkPort} {m : TickMsg} (h : d.hearsSecond port m = true) (src : Place) : d.takesTime port src = false := by
  obtain ⟨⟨n, rfl⟩, -, hsys, -⟩ := (d.hearsSecond_iff port m).mp h
  simp [Die.takesTime, hsys]

/-- A message that its port admits. -/
theorem opTickMsgReceive_of_admitted {d : Die} {port : LinkPort} (m : TickMsg) (offset chain : W16) (hup : d.portUp port = true) (hauth : d.authClass 1 port = true) :
    opTickMsgReceive port m offset chain d
      = if d.hearsSecond port m then (d.freeUnits port 1 44).dualLead m
        else if !d.takesTime port m.src || (d.tick.runs && !d.tick.adopted) then d.freeUnits port 1 44
        else (d.freeUnits port 1 44).hearTick m offset chain := by
  unfold opTickMsgReceive
  rw [hup, hauth, if_neg (by decide), if_neg (by decide)]
  cases port <;> rfl

/-- What a die that follows keeps of a message of its source. -/
def TickUnit.heard (u : TickUnit) (m : TickMsg) (ok : Bool) : TickUnit :=
  { u with offsetOk := ok, leadAt := some m.src, silent := 0,
           nextMsg := if m.tick = u.now + 1 then some m else u.nextMsg, unnamed := if m.tick = u.now + 1 then 0 else u.unnamed }

/-- The registers that a first message gives to a die (R37). -/
def Die.phased (d : Die) (m : TickMsg) (offset : W16) : Die :=
  if d.tick.runs then d.put TICK_OFFSET_OFFSET offset.toNat else (d.put TICK_OFFSET_OFFSET offset.toNat).put TICK_EPOCH_EPOCH m.epoch.toNat

/-- LOCKED follows the bound of R57 while the die is neither in holdover nor tick-lost. -/
def Die.relocked (d : Die) (offset : W16) : Die :=
  if d.bit TICK_STATUS_HOLDOVER || d.bit TICK_STATUS_TICK_LOST then d else d.putB TICK_STATUS_LOCKED (decide (absInt offset ≤ 32))

/-- The tick unit that takes time from a message: its own, or one that the message starts (R37). -/
def TickUnit.follows (u : TickUnit) (m : TickMsg) : TickUnit :=
  if u.runs then u else { u with runs := true, adopted := true, now := m.tick - 1, members := m.members, inGuard := false }

/-- What a die does with a message of its source once it has a tick of its own. -/
def Die.hearOn (d : Die) (m : TickMsg) (offset : W16) : Die :=
  let d := d.onTick fun t => { t with offsetOk := decide (absInt offset ≤ d.get TICK_ALIGN_LOSS_LIMIT), leadAt := some m.src, silent := 0 }
  let d := if d.bit TICK_STATUS_HOLDOVER || d.bit TICK_STATUS_TICK_LOST then d else d.putB TICK_STATUS_LOCKED (d.withinBound offset)
  let d := if d.pins.lead && m.members == 0 then d.packageRemoved else d
  let own := if d.pins.lead then { m with src := d.here, members := d.membersToName } else m
  let d := if m.tick == d.tick.now + 1 then d.onTick fun t => { t with nextMsg := some own, unnamed := 0 } else d
  let d := if m.action == .cancel then d.hearCancel m else d
  d.passOn own

/-- A die whose phase lies past WARN_LIMIT notes it (R57). -/
def Die.warned (d : Die) (offset chain : W16) : Die :=
  if d.get TICK_ALIGN_WARN_LIMIT < absInt offset || (!d.pins.lead && decide (d.get TICK_ALIGN_WARN_LIMIT < absInt chain))
  then d.tickEvent .corrected d.here.die.val 2 0 else d

theorem Die.hearTick_eq (d : Die) (m : TickMsg) (offset chain : W16) :
    d.hearTick m offset chain
      = (let e := (d.put TICK_OFFSET_OFFSET offset.toNat).warned offset chain
         if e.tick.runs then e else e.adopt m).hearOn m offset := rfl

theorem Die.hearOn_follower {d : Die} (m : TickMsg) (offset : W16) (haction : m.action ≠ .cancel) (hpin : d.pins.lead = false) :
    d.hearOn m offset = { d.relocked offset with tick := d.tick.heard m (decide (absInt offset ≤ d.get TICK_ALIGN_LOSS_LIMIT)) } := by
  set u : TickUnit := { d.tick with offsetOk := decide (absInt offset ≤ d.get TICK_ALIGN_LOSS_LIMIT), leadAt := some m.src, silent := 0 } with hu
  have hlock : (let d : Die := { d with tick := u }
      if d.bit TICK_STATUS_HOLDOVER || d.bit TICK_STATUS_TICK_LOST then d else d.putB TICK_STATUS_LOCKED (d.withinBound offset))
      = { d.relocked offset with tick := u } := by
    simp only [Die.withinBound, hpin, Bool.false_eq_true, if_false, Die.relocked]
    change (if d.bit TICK_STATUS_HOLDOVER || d.bit TICK_STATUS_TICK_LOST then _ else _) = _
    split <;> rfl
  have hpin' : (d.relocked offset).pins.lead = false := by
    unfold Die.relocked
    split <;> exact hpin
  have hcancel : ¬(m.action == .cancel) = true := by simpa using haction
  have hown : (if m.tick = d.tick.now + 1 then ({ d.relocked offset with tick := { u with nextMsg := some m, unnamed := 0 } } : Die)
      else { d.relocked offset with tick := u }) = { d.relocked offset with tick := d.tick.heard m (decide (absInt offset ≤ d.get TICK_ALIGN_LOSS_LIMIT)) } := by
    unfold TickUnit.heard
    split <;> rfl
  have hlead : ∀ v : TickUnit, ({ d.relocked offset with tick := v } : Die).pins.lead = false := fun _ => hpin'
  unfold Die.hearOn
  simp only [Die.onTick, ← hu, hlock, hpin', Bool.false_and, Bool.false_eq_true, if_false, beq_iff_eq, haction]
  change (if m.tick = d.tick.now + 1 then ({ d.relocked offset with tick := { u with nextMsg := some m, unnamed := 0 } } : Die)
      else { d.relocked offset with tick := u }).passOn m = _
  rw [hown, Die.passOn, hlead, if_neg Bool.false_ne_true]

theorem Die.hearTick_follower {d : Die} (h : d.regsWf) (m : TickMsg) (offset chain : W16) (haction : m.action ≠ .cancel) (hpin : d.pins.lead = false) :
    d.hearTick m offset chain = { (d.phased m offset).relocked offset with
      tick := (d.tick.follows m).heard m (decide (absInt offset ≤ d.get TICK_ALIGN_LOSS_LIMIT)),
      fault := if d.get TICK_ALIGN_WARN_LIMIT < absInt offset ∨ d.get TICK_ALIGN_WARN_LIMIT < absInt chain
        then (d.raise 15 .corrected (detail d.here.die.val 2 0)).fault else d.fault } := by
  have hwarn : (d.put TICK_OFFSET_OFFSET offset.toNat).get TICK_ALIGN_WARN_LIMIT = d.get TICK_ALIGN_WARN_LIMIT :=
    Die.get_put_of_apart h _ (by decide) (.inl (by decide))
  have hloss : (d.phased m offset).get TICK_ALIGN_LOSS_LIMIT = d.get TICK_ALIGN_LOSS_LIMIT := by
    unfold Die.phased
    split
    · exact Die.get_put_of_apart h _ (by decide) (.inl (by decide))
    · exact (Die.get_put_of_apart (h.put _ _) _ (by decide) (.inl (by decide))).trans (Die.get_put_of_apart h _ (by decide) (.inl (by decide)))
  set x := (if d.get TICK_ALIGN_WARN_LIMIT < absInt offset ∨ d.get TICK_ALIGN_WARN_LIMIT < absInt chain
    then (d.raise 15 .corrected (detail d.here.die.val 2 0)).fault else d.fault) with hx
  have hevent : (d.put TICK_OFFSET_OFFSET offset.toNat).warned offset chain = { d.put TICK_OFFSET_OFFSET offset.toNat with fault := x } := by
    unfold Die.warned
    simp only [hwarn, Die.put_pins, hpin, Bool.not_false, Bool.true_and, Bool.or_eq_true, decide_eq_true_eq, hx]
    split <;> rfl
  have hadopt : (let e : Die := { d.put TICK_OFFSET_OFFSET offset.toNat with fault := x }
      if e.tick.runs then e else e.adopt m) = { d.phased m offset with tick := d.tick.follows m, fault := x } := by
    unfold Die.phased Die.adopt TickUnit.follows
    cases hruns : d.tick.runs
    · simp [hruns, hpin]
      rfl
    · simp [hruns]
  have hlock : ({ d.phased m offset with tick := d.tick.follows m, fault := x } : Die).relocked offset
      = { (d.phased m offset).relocked offset with tick := d.tick.follows m, fault := x } := by
    unfold Die.relocked
    change (if (d.phased m offset).bit TICK_STATUS_HOLDOVER || (d.phased m offset).bit TICK_STATUS_TICK_LOST then _ else _) = _
    split <;> rfl
  have hpin' : (d.phased m offset).pins.lead = false := by
    unfold Die.phased
    split <;> exact hpin
  rw [Die.hearTick_eq, hevent, hadopt, Die.hearOn_follower (d := { d.phased m offset with tick := d.tick.follows m, fault := x }) m offset haction hpin', hlock, ← hloss]
  rfl

theorem Die.relocked_phased_eq (d : Die) (m : TickMsg) (offset : W16) :
    (d.phased m offset).relocked offset = { d with regs := ((d.phased m offset).relocked offset).regs } := by
  have hphased : d.phased m offset = { d with regs := (d.phased m offset).regs } := by
    unfold Die.phased
    split <;> rfl
  unfold Die.relocked
  split
  · exact hphased
  · rw [hphased]
    rfl

section
variable {d : Die} (h : d.regsWf)
include h

theorem Die.regsWf.phased (m : TickMsg) (offset : W16) : (d.phased m offset).regsWf := by
  unfold Die.phased
  split
  · exact h.put _ _
  · exact (h.put _ _).put _ _

theorem Die.raw_phased (m : TickMsg) (offset : W16) {q : Nat} (ho : q ≠ TICK_OFFSET) (he : q ≠ TICK_EPOCH) : (d.phased m offset).raw q = d.raw q := by
  unfold Die.phased
  split
  · exact Die.raw_put_of_ne h _ ho
  · exact (Die.raw_put_of_ne (h.put _ _) _ he).trans (Die.raw_put_of_ne h _ ho)

theorem Die.offset_phased (m : TickMsg) (offset : W16) : (d.phased m offset).get TICK_OFFSET_OFFSET = offset.toNat := by
  have hput : (d.put TICK_OFFSET_OFFSET offset.toNat).get TICK_OFFSET_OFFSET = offset.toNat :=
    (Die.get_put h _ (by decide)).trans (Nat.mod_eq_of_lt offset.isLt)
  unfold Die.phased
  split
  · exact hput
  · exact (Die.get_put_of_apart (h.put _ _) _ (by decide) (.inl (by decide))).trans hput

theorem Die.raw_relocked (offset : W16) {q : Nat} (hq : q ≠ TICK_STATUS) : (d.relocked offset).raw q = d.raw q := by
  unfold Die.relocked
  split
  · rfl
  · exact Die.raw_putB_of_ne h _ hq

end

/-- Settles O17. -/
theorem tickMessages : Obligations.TickMessages := by
  refine ⟨fun s hlive => ⟨fun hleads hsent hlead => ?_, fun hnot => ?_⟩, fun s port m offset chain => ?_, fun d m offset chain hcanon haction hpin => ?_⟩
  · intro now slips d m marked
    obtain ⟨k, hk⟩ : ∃ k, d = { s.die with tick := { s.die.tick with ackMiss := k } } := by
      by_cases h : now = 0
      · exact ⟨s.die.tick.ackMiss, if_pos h⟩
      · obtain ⟨k, hk⟩ := Die.countMisses_eq s.die (now - 1)
        exact ⟨k, (if_neg h).trans hk⟩
    have hd : (if s.die.tick.now == 0 then s.die else s.die.countMisses (s.die.tick.now - 1)) = d := by simp only [d, now, beq_iff_eq]
    have hdecide : d.decideChange = d := by rw [hk]; simp only [Die.decideChange, hlead]
    have hgo : ¬(!s.die.leads || s.die.tick.msgSent == some s.die.tick.now) = true := by simp [hleads, hsent]
    have hl : d.tick.lead = none := by rw [hk]; exact hlead
    refine (onLive_live _ hlive).trans ?_
    rw [opTickMsgSend, if_neg hgo]
    dsimp only
    rw [hd, hdecide, hl]
    dsimp only
    have hslips : d.slipsFor (s.die.tick.now + 1) = slips := by rw [hk]; rfl
    have hmembers : d.membersToName = BitVec.ofNat 8 (s.die.get MEMBERSHIP_MEMBER) ||| s.die.tick.unnamed := by rw [hk]; rfl
    have hhere : d.here = s.die.here := by rw [hk]; rfl
    have hepoch : d.epoch = s.die.epoch := by rw [hk]; rfl
    have hsys : d.bit TICK_CTRL_SYSTEM_LEAD = s.die.bit TICK_CTRL_SYSTEM_LEAD := by rw [hk]; rfl
    have hcancels : d.tick.cancelsOut = s.die.tick.cancelsOut := by rw [hk]
    have hlog : d.tick.slipLog = s.die.tick.slipLog := by rw [hk]
    have hremoved : d.tick.removedPkgs = s.die.tick.removedPkgs := by rw [hk]
    have hlater : ∀ f, (d.onTick f).epoch = s.die.epoch := fun _ => hepoch
    rw [hslips, hmembers, hhere, hepoch, hsys, hcancels]
    simp only [hlater, Die.onTick_tick, hremoved]
    rw [Die.onTick, hlog, hl, hremoved]
  · refine (onLive_live _ hlive).trans ?_
    rw [opTickMsgSend, if_pos]
    rcases hnot with h | h <;> simp [h]
  · intro d second ears hlive hm
    have hnext : exec (.tickMsgReceive port m offset chain) s = .next { s with die := opTickMsgReceive port m offset chain s.die } :=
      (onWf_wf _ s hm).trans (onLive_live _ hlive)
    refine ⟨fun hup hauth => ?_, fun hup hauth => ?_, fun hup => ?_⟩
    · have hgo := opTickMsgReceive_of_admitted m offset chain hup hauth
      have hdual : s.die.hearsSecond port m = true ↔ second := s.die.hearsSecond_iff port m
      have hears : (!s.die.takesTime port m.src || (s.die.tick.runs && !s.die.tick.adopted)) = true ↔ ¬ears := by
        simp only [ears]
        cases s.die.takesTime port m.src <;> cases s.die.tick.runs <;> simp
      refine ⟨fun h => ?_, fun h => ?_, fun h h' => ?_⟩
      · have hone : ¬s.die.hearsSecond port m = true := fun h2 => absurd h.1 (by simp [Die.takesTime_of_hearsSecond h2])
        rw [becomes, hnext, hgo, if_neg hone, if_neg (by rw [hears]; exact not_not_intro h)]
      · rw [becomes, hnext, hgo, if_pos (hdual.mpr h), ← Die.here_freeUnits s.die port 1 44]
        rfl
      · rw [becomes, hnext, hgo, if_neg (by rw [hdual]; exact h'), if_pos (hears.mpr h)]
    · simp [becomes, hnext, opTickMsgReceive, hup, hauth]
    · simp [becomes, hnext, opTickMsgReceive, hup]
  · have hwf := hcanon.regsWf
    intro t heard limit
    have ht : t = _ := Die.hearTick_follower hwf m offset chain haction hpin
    have hregs : t.regs = ((d.phased m offset).relocked offset).regs := by rw [ht]
    have hraw : ∀ q, t.raw q = ((d.phased m offset).relocked offset).raw q := fun q => by simp only [Die.raw, hregs]
    have hstatus : (d.phased m offset).raw TICK_STATUS = d.raw TICK_STATUS := Die.raw_phased hwf m offset (by decide) (by decide)
    have hhold := Die.bit_of_raw (f := TICK_STATUS_HOLDOVER) hstatus
    have hlost := Die.bit_of_raw (f := TICK_STATUS_TICK_LOST) hstatus
    have hepoch : t.raw TICK_EPOCH = (d.phased m offset).raw TICK_EPOCH := (hraw _).trans (Die.raw_relocked (hwf.phased m offset) offset (by decide))
    refine ⟨?_, fun hh hl => ?_, fun h => ?_, ?_, fun hruns => ⟨?_, ?_⟩, fun hruns => ⟨?_, ?_⟩, fun q hq => ?_, ?_⟩
    · rw [Die.get_of_raw (hraw _), Die.get_of_raw (Die.raw_relocked (hwf.phased m offset) offset (by decide)), Die.offset_phased hwf m offset]
    · rw [Die.bit_of_raw (hraw _), Die.relocked, hhold, hlost, hh, hl, if_neg (by decide), Die.bit_putB (hwf.phased m offset) _ (by decide) rfl, decide_eq_true_eq]
      rfl
    · rw [hraw, Die.relocked, hhold, hlost, if_pos (by rcases h with h | h <;> simp [h]), hstatus]
    · rw [ht]; rfl
    · rw [ht]
      simp only [TickUnit.follows, hruns, if_true]
      rfl
    · rw [Die.epoch, Die.get_of_raw hepoch, Die.phased, hruns, if_pos rfl, Die.get_put_of_apart hwf _ (by decide) (.inl (by decide))]
      rfl
    · rw [ht]
      simp only [TickUnit.follows, hruns, Bool.false_eq_true, if_false]
      rfl
    · rw [Die.epoch, Die.get_of_raw hepoch, Die.phased, hruns, if_neg (by decide), Die.get_put (hwf.put _ _) _ (by decide),
        show TICK_EPOCH_EPOCH.w = 16 from rfl, Nat.mod_eq_of_lt m.epoch.isLt, BitVec.ofNat_toNat, BitVec.setWidth_eq]
    · simp only [List.mem_cons, List.not_mem_nil, or_false, not_or] at hq
      obtain ⟨ho, hs, he⟩ := hq
      rw [hraw, Die.raw_relocked (hwf.phased m offset) offset hs, Die.raw_phased hwf m offset ho he]
    · rw [ht, Die.relocked_phased_eq]

end Sys2Proof.Machine
end

section
/-! PROOF. The members of a tick domain (spec 02, R63 to R68, R78). -/

namespace Sys2Proof.Machine

theorem becomes_tickAckReceive {s : State} {a : TickAck} (hlive : s.die.live = true) (hwf : a.wf = true) (hleads : s.die.leads = true) :
    becomes (.tickAckReceive a) s (s.die.takeAck a) := by
  refine (onWf_wf _ s hwf).trans ((onLive_live _ hlive).trans ?_)
  rw [opTickAckReceive, if_pos hleads]

/-- The slips of an acknowledgement that have not been heard of. -/
theorem newSlips_eq (log : List Slip) (a : TickAck) :
    ((maskParts a.slips).filter fun p => !(log.any fun x => x.tick == a.tick && x.part == p))
      = (maskParts a.slips).filter fun p => ¬ ∃ x ∈ log, x.tick = a.tick ∧ x.part = p := by
  refine List.filter_congr fun p _ => ?_
  rw [Bool.eq_iff_iff]
  simp

theorem Die.here_onTick (d : Die) (f : TickUnit → TickUnit) : (d.onTick f).here = d.here := rfl

theorem Die.takeVote_of_none {d : Die} (h : d.tick.lead = none) (a : TickAck) : d.takeVote a = d := by simp only [Die.takeVote, h]

/-- An acknowledgement of another die does not stand for the own one. -/
theorem find_own_append {l : List TickAck} {p q : TickAck → Bool} {a : TickAck} (h : l.find? p = none) (ha : p a = false) :
    ((l.filter q) ++ [a]).find? p = none := by
  rw [List.find?_append, List.find?_eq_none.mpr fun x hx => List.find?_eq_none.mp h x (List.mem_filter.mp hx).1]
  simp [ha]

/-- The lead merges an acknowledgement of a member that is not yet to be compared, with no mode change outstanding. -/
theorem Die.takeAck_merges {d : Die} {a : TickAck} (hsrc : a.src ≠ d.here) (hremoved : d.wasRemoved a.src a.tick = false) (hmember : d.isMember a.src = true)
    (hepoch : a.epoch = d.epoch) (hlead : d.tick.lead = none) (hown : d.ownAck a.tick = none) :
    d.takeAck a = d.onTick fun t => { t with
      acks := (t.acks.filter fun x => !(x.src == a.src && x.tick == a.tick) && decide (t.now ≤ x.tick + 4)) ++ [a],
      cancelsOut := t.cancelsOut ++ a.cancels,
      slipLog := t.slipLog ++ ((maskParts a.slips).filter fun p => !(d.tick.slipLog.any fun s => s.tick == a.tick && s.part == p)).map
        fun p => { tick := a.tick, part := p, due := d.slipDue a.tick p, carried := false } } := by
  have hadd : d.addMember a.src = d := by rw [Die.addMember, if_pos hmember]
  have hother : ∀ f, ¬(a.src == (d.onTick f).here) = true := fun _ => by simpa [Die.here_onTick] using hsrc
  rw [Die.takeAck, hremoved, if_neg (by decide), if_neg (by simp [hepoch])]
  dsimp only
  rw [hadd, Die.takeVote_of_none (by exact hlead), if_neg (hother _), Die.ownAck, Die.onTick_tick]
  simp only [Die.here_onTick]
  rw [find_own_append hown (by simpa using fun h => absurd h hsrc)]

/-- A mask with a bit set to what it is. -/
theorem setMask_maskBit {w : Nat} (m : BitVec w) (i : Nat) : setMask m i (maskBit m i) = m := by
  unfold setMask maskBit
  refine BitVec.eq_of_getLsbD_eq fun j hj => ?_
  have hone : (1#w <<< i).getLsbD j = decide (j = i) := by
    rw [BitVec.getLsbD_shiftLeft, BitVec.getLsbD_one, decide_eq_true hj, Bool.true_and]
    rw [Bool.eq_iff_iff]
    simp
    omega
  cases hbit : m.getLsbD i
  · rw [if_neg Bool.false_ne_true, BitVec.getLsbD_and, BitVec.getLsbD_not, hone, decide_eq_true hj]
    by_cases hji : j = i
    · subst hji; simp [hbit]
    · simp [hji]
  · rw [if_pos rfl, BitVec.getLsbD_or, hone]
    by_cases hji : j = i
    · subst hji; simp [hbit]
    · simp [hji]

theorem Die.get_lt (d : Die) (f : Fld) : d.get f < 2 ^ f.w := Nat.mod_lt _ (Nat.two_pow_pos _)

/-- The registers of a tick unit that has removed a die of its package. -/
def Die.membersWithout (d : Die) (x : DieIx) : Die :=
  (d.put MEMBERSHIP_MEMBER (d.get MEMBERSHIP_MEMBER - 2 ^ x.val)).put MEMBERSHIP_LOST ((d.get MEMBERSHIP_LOST).lor (2 ^ x.val))

/-- The tick unit that has removed a die of its package. -/
def Die.tickWithout (d : Die) (x : DieIx) : TickUnit :=
  { d.tick with
    removedAt := assocPut d.tick.removedAt x.val (if maskBit d.namedLast x.val then d.tick.now else d.tick.now + 1),
    unnamed := setMask d.tick.unnamed x.val (maskBit d.tick.unnamed x.val || !maskBit d.namedLast x.val),
    lead := d.tick.lead.map fun c => if c.decision == .none then { c with decision := .cancel, cause := 4, unit := 0, die := x } else c }

theorem Die.removeMember_own {d : Die} {x : DieIx} (h : d.isMember { pkg := d.here.pkg, die := x } = true) :
    d.removeMember { pkg := d.here.pkg, die := x }
      = { d with regs := (d.membersWithout x).regs, tick := d.tickWithout x, fault := (d.raise 15 .contained (detail x.val 4 0)).fault } := by
  rw [Die.removeMember, h, if_neg (by decide)]
  simp only [beq_self_eq_true, if_true]
  rfl

section
variable {d : Die} (h : d.regsWf) (x : DieIx)
include h

theorem Die.get_membersWithout : (d.membersWithout x).get MEMBERSHIP_MEMBER = d.get MEMBERSHIP_MEMBER - 2 ^ x.val
    ∧ (d.membersWithout x).get MEMBERSHIP_LOST = (d.get MEMBERSHIP_LOST).lor (2 ^ x.val) := by
  have hbit : 2 ^ x.val < 2 ^ 8 := Nat.pow_lt_pow_right (by decide) x.isLt
  have hmember : d.get MEMBERSHIP_MEMBER < 2 ^ 8 := d.get_lt _
  have hlost : d.get MEMBERSHIP_LOST < 2 ^ 8 := d.get_lt _
  refine ⟨?_, ?_⟩
  · refine (Die.get_put_of_apart (h.put _ _) _ (by decide) (.inr (.inr (by decide)))).trans ((Die.get_put h _ (by decide)).trans (Nat.mod_eq_of_lt ?_))
    exact lt_of_le_of_lt (Nat.sub_le _ _) hmember
  · exact (Die.get_put (h.put _ _) _ (by decide)).trans (Nat.mod_eq_of_lt (Nat.or_lt_two_pow hlost hbit))

theorem Die.raw_membersWithout {q : Nat} (hq : q ≠ MEMBERSHIP) : (d.membersWithout x).raw q = d.raw q :=
  (Die.raw_put_of_ne (h.put _ _) _ hq).trans (Die.raw_put_of_ne h _ hq)

end

/-- Settles O18. -/
theorem tickMembers : Obligations.TickMembers := by
  refine ⟨fun s a hlive hwf hleads hsrc hremoved hmember => ⟨fun hepoch hlead hown => ?_, fun hepoch htick => ?_, fun hepoch htick => ?_⟩,
    fun s x hlive hlead hx => ?_, fun d x hcanon hmember => ?_⟩
  · intro new
    have hkept : ∀ x : TickAck, (!(x.src == a.src && x.tick == a.tick) && decide (s.die.tick.now ≤ x.tick + 4))
        = decide (¬(x.src = a.src ∧ x.tick = a.tick) ∧ s.die.tick.now ≤ x.tick + 4) := fun x => by
      rw [Bool.eq_iff_iff]
      simp
    have hnext := becomes_tickAckReceive hlive hwf hleads
    rw [Die.takeAck_merges hsrc hremoved hmember hepoch hlead hown, newSlips_eq, Die.onTick] at hnext
    simp only [hkept] at hnext
    exact hnext
  · have hnext := becomes_tickAckReceive hlive hwf hleads
    rwa [Die.takeAck, hremoved, if_neg (by decide), if_pos (by simpa using hepoch), if_pos htick] at hnext
  · have hnext := becomes_tickAckReceive hlive hwf hleads
    rwa [Die.takeAck, hremoved, if_neg (by decide), if_pos (by simpa using hepoch), if_neg (by omega)] at hnext
  · intro missed
    refine ⟨fun hm hloss => (onLive_live _ hlive).trans ?_, fun hnot => (onLive_live _ hlive).trans ?_⟩
    · rw [opMemberAckLoss, if_pos]
      simp only [hm, Bool.and_eq_true, Bool.or_eq_true, bne_iff_ne, decide_eq_true_eq]
      exact ⟨⟨⟨hlead, hx⟩, trivial⟩, hloss⟩
    · rw [opMemberAckLoss, if_neg]
      simp only [Bool.and_eq_true, decide_eq_true_eq]
      rintro ⟨⟨-, hm⟩, hloss⟩
      rcases hnot with h | h
      · simp [h] at hm
      · exact absurd hloss (not_le.mpr h)
  · intro t
    have hwf := hcanon.regsWf
    have ht : t = _ := Die.removeMember_own hmember
    have hraw : ∀ q, t.raw q = (d.membersWithout x).raw q := fun q => by rw [ht]; rfl
    obtain ⟨hm, hl⟩ := Die.get_membersWithout hwf x
    refine ⟨?_, ?_, fun q hq => ?_, ?_, fun c hc hdec => ?_, ?_, ?_⟩
    · rw [Die.get_of_raw (hraw _), hm]
    · rw [Die.get_of_raw (hraw _), hl]
    · rw [hraw, Die.raw_membersWithout hwf x (by simpa using hq)]
    · rw [ht]; rfl
    · rw [ht]
      simp [Die.tickWithout, hc, hdec]
    · rw [ht]
      intro named
      change setMask d.tick.unnamed x.val (maskBit d.tick.unnamed x.val || !named.getLsbD x.val) = _
      cases named.getLsbD x.val
      · simp [setMask]
      · simp [setMask_maskBit]
    · rw [ht]; rfl

end Sys2Proof.Machine
end

section
/-! PROOF. The loss of the tick, holdover, delay measurement and MODE_CHANGE (spec 02, sections "Distribution and alignment" and "Epochs and mode changes"). -/

namespace Sys2Proof.Machine

/-- The next state of a command, written in another way. -/
theorem becomes_congr {i : Instr} {s : State} {d e : Die} (h : becomes i s d) (heq : d = e) : becomes i s e := heq ▸ h

/-! ### Commands of a die that trains or runs -/

theorem onPortsLive_ports {s : State} (f : Die → Die) (h : s.die.live = true ∨ s.die.boot.phase = .boot) :
    onPortsLive f s = .next { s with die := f s.die } := by
  rw [onPortsLive, onDie, if_pos (by simpa using h)]

/-! ### Link delay -/

theorem Die.tick_sayOn (d : Die) (port : LinkPort) (o : Out) : (d.sayOn port o).tick = d.tick := by
  cases port with
  | peer n => rfl
  | opt n =>
    change (d.flit n).tick = d.tick
    rw [Die.flit]
    dsimp only
    split <;> rfl

theorem Die.latency_eq (d : Die) (port : LinkPort) (delay : Nat) :
    d.latency port delay = { d with regs := (d.latency port delay).regs, freeCtr := d.freeCtr + 1 } := rfl

theorem Die.get_latency {d : Die} (h : d.regsWf) (port : LinkPort) (delay : Nat) :
    ∃ far, (d.latency port delay).get DIST_LATENCY_LATENCY = max (d.get DIST_LATENCY_LATENCY) (min ((delay + 63) / 64 + far) 65535)
      ∧ (d.beyond port = false → far = 0) := by
  refine ⟨if d.beyond port then Config.freeNat d.freeCtr else 0, ?_, fun hb => if_neg (by simp [hb])⟩
  have hold : d.get DIST_LATENCY_LATENCY < 2 ^ 16 := d.get_lt _
  have hfresh : Die.regsWf { d with freeCtr := d.freeCtr + 1 } := h
  refine (Die.get_put hfresh _ (by decide)).trans (Nat.mod_eq_of_lt ?_)
  change max (d.get DIST_LATENCY_LATENCY) (min ((delay + 63) / 64 + _) 65535) < 2 ^ 16
  omega

/-- What a measured delay of a port changes before the largest latency: the PEER_DELAY of a port of the package. -/
def Die.delayed (d : Die) (port : LinkPort) (delay : Nat) : Die :=
  match port with
  | .peer n => d.put (PEER_DELAY_DELAY n.val) (min delay 65535)
  | .opt _ => d

theorem Die.delayed_eq (d : Die) (port : LinkPort) (delay : Nat) : d.delayed port delay = { d with regs := (d.delayed port delay).regs } := by
  cases port <;> rfl

theorem Die.regsWf.delayed {d : Die} (h : d.regsWf) (port : LinkPort) (delay : Nat) : (d.delayed port delay).regsWf := by
  cases port with
  | peer n => exact h.put _ _
  | opt n => exact h

theorem Die.raw_delayed {d : Die} (h : d.regsWf) (port : LinkPort) (delay : Nat) {q : Nat} (hq : q % 64 ≠ 4) : (d.delayed port delay).raw q = d.raw q := by
  cases port with
  | peer n =>
    have : q ≠ PEER_DELAY n.val := by unfold PEER_DELAY; omega
    exact Die.raw_put_of_ne h _ this
  | opt n => rfl

section
variable {d : Die} {port : LinkPort} {time now : W64}

theorem opEchoReply_of_unasked (h : assoc d.tick.echo (portNo port) ≠ some time) : opEchoReply port time now d = d := by
  rw [opEchoReply, if_neg (by simpa using h)]

/-- The reply to an echo request takes the request from those under way. -/
def Die.echoed (d : Die) (port : LinkPort) : Die := { d with tick := { d.tick with echo := d.tick.echo.filter fun e => e.1 != portNo port } }

theorem opEchoReply_of_asked (h : assoc d.tick.echo (portNo port) = some time) :
    opEchoReply port time now d
      = (let t := (d.echoed port).delayed port ((now - time).toNat / 2)
         if t.pins.lead then t.latency port ((now - time).toNat / 2) else t) := by
  rw [opEchoReply, if_pos (by simpa using h)]
  cases port <;> rfl

theorem Die.lead_delayed (d : Die) (port : LinkPort) (delay : Nat) : (d.delayed port delay).pins.lead = d.pins.lead := by
  rw [Die.delayed_eq]

theorem opEchoReply_follower (h : assoc d.tick.echo (portNo port) = some time) (hl : d.pins.lead = false) :
    opEchoReply port time now d = (d.echoed port).delayed port ((now - time).toNat / 2) := by
  rw [opEchoReply_of_asked h]
  exact if_neg (by simp [Die.lead_delayed, Die.echoed, hl])

theorem opEchoReply_lead (h : assoc d.tick.echo (portNo port) = some time) (hl : d.pins.lead = true) :
    opEchoReply port time now d = ((d.echoed port).delayed port ((now - time).toNat / 2)).latency port ((now - time).toNat / 2) := by
  rw [opEchoReply_of_asked h]
  exact if_pos (by simp [Die.lead_delayed, Die.echoed, hl])

end

/-- Whether members lie beyond a link does not depend on what has been measured on it. -/
theorem Die.beyond_delayed {d : Die} (h : d.regsWf) (port : LinkPort) (delay : Nat) :
    ((d.echoed port).delayed port delay).beyond port = d.beyond port := by
  have hraw : ∀ q, q % 64 ≠ 4 → ((d.echoed port).delayed port delay).raw q = d.raw q := fun q => Die.raw_delayed (d := d.echoed port) h port delay
  have hstate : ∀ n, PEER_STATE n % 64 ≠ 4 := fun n => by unfold PEER_STATE; omega
  have hup : ∀ n, ((d.echoed port).delayed port delay).portUp (.peer n) = d.portUp (.peer n) := fun n => by
    rw [Die.portUp, Die.portUp, Die.get_of_raw (hraw _ (hstate _))]
  have hlinks : ((d.echoed port).delayed port delay).ownLinks = d.ownLinks := by
    simp only [Die.ownLinks, hup]
    refine List.map_congr_left fun n _ => ?_
    simp only [Die.get_of_raw (f := PEER_STATE_PARTNER_DIE n.val) (hraw _ (hstate _)), Die.get_of_raw (f := PEER_STATE_PARTNER_PORT n.val) (hraw _ (hstate _))]
  have hroute : ∀ x, ((d.echoed port).delayed port delay).route x = d.route x := fun x => by
    simp only [Die.route, Die.get_of_raw (f := PEER_ROUTE_ROUTE) (hraw _ (by decide))]
  have hdies : ((d.echoed port).delayed port delay).otherDies = d.otherDies := by
    rw [Die.otherDies, Die.dieCount, hlinks, Die.delayed_eq]
    rfl
  cases port with
  | opt n => rfl
  | peer n =>
    simp only [Die.beyond, hdies, hroute]
    rw [Die.get_of_raw (f := PEER_STATE_PARTNER_DIE n.val) (hraw _ (hstate _))]

/-! ### MODE_CHANGE -/

section
variable {d : Die} {q : Pkt} (hq : d.grantedPkt q.pid 0x88 = some q)
include hq

theorem opModeChange_of_bad (h : modeStatus q.body ≠ .ok) : opModeChange q.pid d = d.finish q.pid (modeStatus q.body) 0 0 := by
  rw [opModeChange, hq]
  dsimp only
  split
  · exact absurd ‹_› h
  · rfl

variable (hok : modeStatus q.body = .ok)
include hok

theorem opModeChange_of_free (hleads : d.leads = true) (hlead : d.tick.lead = none) (hchange : d.tick.change = none) :
    opModeChange q.pid d = (d.acceptChange (BitVec.ofNat 16 (field q.body 16 2)) (field q.body 24 8) (packetRecs q.body)).askChange q.pid
      (BitVec.ofNat 16 (field q.body 16 2)) (if field q.body 24 8 == 0 then d.tick.now + 8 else field q.body 24 8) := by
  rw [opModeChange, hq]
  dsimp only
  rw [hok]
  dsimp only
  rw [if_pos hleads, hlead]
  dsimp only
  rw [hchange]

theorem opModeChange_of_busy (hleads : d.leads = true) {t : Nat}
    (ht : (∃ x, d.tick.lead = some x ∧ t = x.target) ∨ (d.tick.lead = none ∧ ∃ x, d.tick.change = some x ∧ t = x.target)) :
    opModeChange q.pid d = d.deferPkt q.pid (t + 1) := by
  rw [opModeChange, hq]
  dsimp only
  rw [hok]
  dsimp only
  rw [if_pos hleads]
  obtain ⟨x, hx, rfl⟩ | ⟨hnone, x, hx, rfl⟩ := ht
  · rw [hx]
  · rw [hnone]
    dsimp only
    rw [hx]

theorem opModeChange_of_stopped (hleads : d.leads = false) (hruns : d.tick.runs = false) : opModeChange q.pid d = d := by
  rw [opModeChange, hq]
  dsimp only
  rw [hok]
  dsimp only
  rw [if_neg (by simp [hleads]), if_pos (by simp [hruns])]

variable (hleads : d.leads = false) (hruns : d.tick.runs = true) {lead : Place} (hlead : d.tick.leadAt = some lead)
include hleads hruns hlead

theorem opModeChange_of_foreign (hpkg : lead.pkg ≠ d.here.pkg) : opModeChange q.pid d = d.finish q.pid .noAuthority 0 0 := by
  rw [opModeChange, hq]
  dsimp only
  rw [hok]
  dsimp only
  rw [if_neg (by simp [hleads]), if_neg (by simp [hruns]), hlead]
  exact if_pos (by simpa using hpkg)

/-- The packet's request to the lead of its package. -/
def Die.forwardChange (d : Die) (q : Pkt) (lead : Place) : Option Status × Die :=
  d.remote { req := .pkt q.pid, id := 0 } 0 lead none none false fun h =>
    .mgmt { head := h, seq := BitVec.ofNat 32 d.ports.mgmtSeq, body := .modeForward (BitVec.ofNat 16 (field q.body 16 2)) (packetRecs q.body) (field q.body 24 8) }

theorem opModeChange_of_remote (hpkg : lead.pkg = d.here.pkg) :
    opModeChange q.pid d = (match d.forwardChange q lead with
      | (some st, t) => t.finish q.pid st 0 0
      | (none, t) => (t.onPorts fun u => { u with mgmtSeq := u.mgmtSeq + 1 }).onPkt q.pid fun p => { p with phase := .running }) := by
  rw [opModeChange, hq]
  dsimp only
  rw [hok]
  dsimp only
  rw [if_neg (by simp [hleads]), if_neg (by simp [hruns]), hlead]
  dsimp only
  rw [if_neg (by simpa using hpkg)]
  rfl

end

/-- Settles O19. -/
theorem tickLossAndMode : Obligations.TickLossAndMode := by
  refine ⟨fun s => ?_, fun s port n o time now hports => ?_, fun s q hlive hq => ?_⟩
  · intro d limit enters lost
    refine ⟨fun hlive => ?_, fun hports => ?_⟩
    · have henter : becomes .holdoverEnter s (opHoldoverEnter d) := onLive_live _ hlive
      have hlost : becomes .tickLost s (opTickLost d) := onLive_live _ hlive
      refine ⟨fun h => becomes_congr henter ?_, fun h => becomes_congr henter ?_, fun h => becomes_congr hlost ?_, fun h => becomes_congr hlost ?_⟩
      · exact if_pos (by simpa [enters, and_assoc] using h)
      · exact if_neg (by simpa [enters, and_assoc] using h)
      · exact if_pos (by simpa [lost] using h)
      · exact if_neg (by simpa [lost] using h)
    · have hpulse : becomes .tickInPulse s (opTickInPulse d) := onPortsLive_ports _ hports
      exact ⟨fun hl hr => becomes_congr hpulse (if_neg (by simp [hl, hr])), fun h => becomes_congr hpulse (if_pos (by simpa using h))⟩
  · intro d got delay
    have hecho : ∀ port, becomes (.linkDelayEcho port time) s (opLinkDelayEcho port time d) := fun _ => onPortsLive_ports _ hports
    have hrequest : ∀ port, becomes (.echoRequest port time) s (opEchoRequest port time d) := fun _ => onPortsLive_ports _ hports
    have hreply : ∀ port, becomes (.echoReply port time now) s (opEchoReply port time now d) := fun _ => onPortsLive_ports _ hports
    refine ⟨fun hup => ⟨becomes_congr (hecho _) ?_, becomes_congr (hrequest _) (if_pos hup)⟩,
      fun hup => ⟨becomes_congr (hecho _) (if_neg (by simp [hup])), becomes_congr (hrequest _) (if_neg (by simp [hup]))⟩,
      fun h => becomes_congr (hreply _) (opEchoReply_of_unasked h),
      fun hl => ⟨fun h => becomes_congr (hreply _) (opEchoReply_follower (port := .peer n) h hl),
        fun h => becomes_congr (hreply _) (opEchoReply_follower (port := .opt o) h hl)⟩,
      fun hl hcanon h => ⟨_, hreply port, ?_⟩⟩
    · rw [opLinkDelayEcho, if_pos hup, Die.onTick]
      rw [Die.tick_sayOn]
    · have hwf := hcanon.regsWf
      rw [opEchoReply_lead h hl]
      refine ⟨?_, ?_, ?_⟩
      · rintro p rfl
        have hdelayed : (d.echoed (.peer p)).regsWf := hwf
        refine (Die.get_of_raw ?_).trans ((Die.get_put hdelayed _ (Nat.le_of_ble_eq_true rfl)).trans (Nat.mod_eq_of_lt ?_))
        · exact Die.raw_put_of_ne (Die.regsWf.put hdelayed _ _) _ (by simp only [PEER_DELAY_DELAY, PEER_DELAY, DIST_LATENCY_LATENCY, DIST_LATENCY]; omega)
        · change min delay 65535 < 2 ^ 16
          omega
      · obtain ⟨far, hfar, hnone⟩ := Die.get_latency (Die.regsWf.delayed (d := d.echoed port) hwf port delay) port delay
        refine ⟨far, ?_, fun hb => hnone ((Die.beyond_delayed hwf port delay).trans hb)⟩
        rw [hfar, Die.get_of_raw (Die.raw_delayed (d := d.echoed port) hwf port delay (by decide))]
        rfl
      · rw [Die.latency_eq, Die.delayed_eq]
        rfl
  · intro target id now
    let d := s.die
    have hnext : becomes (.modeChange q.pid) s (opModeChange q.pid s.die) := onLive_live _ hlive
    refine ⟨fun hbad => becomes_congr hnext (opModeChange_of_bad hq hbad), fun hok hleads hlead hchange => ?_,
      fun t hok hleads ht => becomes_congr hnext (opModeChange_of_busy hq hok hleads ht), fun lead hok hleads hruns hlead => ?_,
      fun hok hleads hruns => becomes_congr hnext (opModeChange_of_stopped hq hok hleads hruns)⟩
    · refine becomes_congr hnext ((opModeChange_of_free hq hok hleads hlead hchange).trans ?_)
      simp only [Die.acceptChange, beq_iff_eq]
      rfl
    · refine ⟨fun hpkg => becomes_congr hnext (opModeChange_of_foreign hq hok hleads hruns hlead hpkg), fun hpkg => ?_⟩
      intro sent
      have hsent := becomes_congr hnext (opModeChange_of_remote hq hok hleads hruns hlead hpkg)
      refine ⟨fun st hst => becomes_congr hsent ?_, fun hst => becomes_congr hsent ?_⟩
      · rw [show d.forwardChange q lead = (some st, sent.2) from Prod.ext hst rfl]
      · rw [show d.forwardChange q lead = (none, sent.2) from Prod.ext hst rfl]
        rfl

end Sys2Proof.Machine
end

section
/-! PROOF. Ring registers and the decoding of a packet (spec 07, sections "Rings and doorbells" and "Decoding and order"). -/

namespace Sys2Proof.Machine

/-! ### Tables and lists -/

/-- Of two writes of one key the second counts, where the first does not remove the key. -/
theorem tblPut_tblPut_of_ne_dflt {α : Type} [DecidableEq α] {dflt : Nat → α} (t : List (Nat × α)) {k : Nat} {v : α} (w : α) (hv : v ≠ dflt k) :
    tblPut dflt (tblPut dflt t k v) k w = tblPut dflt t k w := by
  induction t with
  | nil => simp [tblPut, hv]
  | cons e t ih =>
    obtain ⟨j, u⟩ := e
    rcases lt_trichotomy k j with hkj | rfl | hjk
    · have hne : k ≠ j := by omega
      simp [tblPut, hv, hkj, hne]
    · simp [tblPut, hv]
    · have hne : k ≠ j := by omega
      simp [tblPut, hne, show ¬k < j by omega, ih]

@[simp] theorem length_listUpd {α : Type} (p : α → Bool) (f : α → α) (l : List α) : (listUpd p f l).length = l.length := by
  induction l with
  | nil => rfl
  | cons x xs ih =>
    rw [listUpd]
    split
    · rfl
    · simp [ih]

/-- One bit of a word as the model reads it. -/
theorem sub_one_beq {n : Nat} (v : BitVec n) (i : Nat) : (sub v.toNat i 1 == 1) = v.getLsbD i := by
  rw [BitVec.getLsbD, Nat.testBit_eq_decide_div_mod_eq, sub, Nat.pow_one]
  rfl

theorem assoc_assocPut_same {α : Type} (t : List (Nat × α)) (k : Nat) (v : α) : assoc (assocPut t k v) k = some v := by
  have hnone : (t.filter fun e => e.1 != k).find? (fun e => e.1 == k) = none := by simp
  simp [assoc, assocPut, List.find?_append, hnone]

theorem assoc_assocPut_of_ne {α : Type} (t : List (Nat × α)) {k q : Nat} (v : α) (h : q ≠ k) : assoc (assocPut t k v) q = assoc t q := by
  have hkept : (t.filter fun e => e.1 != k).find? (fun e => e.1 == q) = t.find? (fun e => e.1 == q) := by
    rw [List.find?_filter]
    congr 1
    funext e
    by_cases he : e.1 = q <;> simp [he, h]
  simp [assoc, assocPut, List.find?_append, hkept, Ne.symm h]

/-! ### Rings -/

theorem Die.setRing_setRing (d : Die) (i : Nat) {r : Ring} (r' : Ring) (h : r.on) : (d.setRing i r).setRing i r' = d.setRing i r' := by
  rw [Die.setRing, Die.onCp, Die.setRing, Die.onCp, Die.setRing, Die.onCp]
  dsimp only
  rw [tblPut_tblPut_of_ne_dflt _ _ h.ne_default]

theorem ringIx_val (r : RingIx) : ringIx r.val = r := Fin.ext (Nat.mod_eq_of_lt r.isLt)

section
variable {d : Die} {who : Who} {r : RingIx} (huse : who.part.val = 0 ∨ (d.ring r.val).part.toNat = who.part.val)
include huse

theorem Die.writePage_resume : d.writePage who (r.val * 4096 + 4) 1 = d.resumeRing r.val := by
  have hvf : (who.part.val != 0 && (d.ring r.val).part.toNat != who.part.val) = false := by
    rcases huse with h | h <;> simp [h]
  have hdiv : (r.val * 4096 + 4) / 4096 = r.val := by omega
  have hmod : (r.val * 4096 + 4) % 4096 = 4 := by omega
  simp [Die.writePage, hdiv, hmod, hvf, show (r.val * 4096 + 4) % 4 = 0 by omega, show ¬8192 ≤ r.val by omega]

theorem Die.writePage_config (v : Nat) : d.writePage who (r.val * 4096 + 0x28) v = d.writeConfig who r.val v := by
  have hvf : (who.part.val != 0 && (d.ring r.val).part.toNat != who.part.val) = false := by
    rcases huse with h | h <;> simp [h]
  have hdiv : (r.val * 4096 + 0x28) / 4096 = r.val := by omega
  have hmod : (r.val * 4096 + 0x28) % 4096 = 0x28 := by omega
  simp [Die.writePage, hdiv, hmod, hvf, show (r.val * 4096 + 0x28) % 4 = 0 by omega, show ¬8192 ≤ r.val by omega]

end

/-- A write to the page of a ring that reaches its function has the page's effect. -/
theorem becomes_page {i : Instr} {s : State} {who : Who} {off : Nat} {v : W32} {f : Die → Die} (h : Reaches s.die who true)
    (hi : exec i s = onDie (fromHost who false true off (posted who true off v f)) s) : becomes i s (f s.die) := by
  rw [becomes, hi, onDie_eq, fromHost_reaches h, posted_reaches h (by simp)]

/-! ### RING_CONFIG -/

/-- The fields of RING_CONFIG that any function with the page stores, whether the ring is enabled or not. -/
def Ring.fieldsSet (r : Ring) (v : W32) : Ring :=
  { r with
    stopOnError := v.getLsbD 2, irqMode := if sub v.toNat 17 2 = 3 then r.irqMode else BitVec.ofNat 2 (sub v.toNat 17 2), vector := BitVec.ofNat 11 (sub v.toNat 19 11) }

/-- All fields of RING_CONFIG as a write stores them: the others only from the physical function, to a ring that is neither enabled nor being disabled. -/
def Ring.configured (r : Ring) (who : Who) (v : W32) : Ring :=
  if who.part.val = 0 ∧ ¬(r.enable = true ∨ r.disabling = true) then { r.fieldsSet v with
    completion := v.getLsbD 1, sizeLog2 := if 4 ≤ sub v.toNat 4 5 ∧ sub v.toNat 4 5 ≤ 16 then BitVec.ofNat 5 (sub v.toNat 4 5) else r.sizeLog2,
    part := BitVec.ofNat 4 (sub v.toNat 9 4), engine := BitVec.ofNat 4 (sub v.toNat 13 4) }
  else r.fieldsSet v

theorem Ring.enable_configured (r : Ring) (who : Who) (v : W32) : (r.configured who v).enable = r.enable := by
  rw [Ring.configured]
  split <;> rfl

theorem Ring.configured_of_on {r : Ring} (h : r.on) (who : Who) (v : W32) : r.configured who v = r.fieldsSet v :=
  if_neg fun ⟨_, hoff⟩ => hoff h

/-- What follows the storing of RING_CONFIG's fields: ENABLE rises, falls or stays. -/
def Die.enableRing (d : Die) (i : Nat) (r next : Ring) (want : Bool) : Die :=
  if !(r.enable || r.disabling) && want then
    (if next.part == 0 || d.bit (PART_CTRL_ENABLE next.part.toNat) then
      (d.setRing i { next with enable := true, disabling := false, head := 0, tail := 0, halted := false }).doneWith (.ring (ringIx i))
     else d.setRing i next)
  else if next.enable && !want then
    (if next.completion then (d.setRing i { next with disabling := true, enable := false }).endDisable i else d.setRing i { next with enable := false })
  else d.setRing i next

theorem odd_beq_getLsbD (v : W32) : (v.toNat % 2 == 1) = v.getLsbD 0 := by
  rw [← sub_one_beq, sub, Nat.pow_zero, Nat.div_one, Nat.pow_one]

theorem Die.writeConfig_eq {d : Die} {who : Who} {i : Nat} {v : W32} (h : who.part.val = 0 ∨ v.toNat.land 0xC001FFFA = 0) :
    d.writeConfig who i v.toNat = d.enableRing i (d.ring i) ((d.ring i).configured who v) (v.getLsbD 0) := by
  have hmay : (!(who.part.val == 0) && v.toNat.land (0xFFFFFFFF - 0x3FFE0005) != 0) = false := by
    rcases h with h | h
    · simp [h]
    · rw [show 0xFFFFFFFF - 0x3FFE0005 = 0xC001FFFA from rfl, h]
      simp
  rw [Die.writeConfig]
  simp only [hmay, Bool.false_eq_true, if_false, sub_one_beq, odd_beq_getLsbD]
  simp only [Die.enableRing, Ring.configured, Ring.fieldsSet, beq_iff_eq, Bool.and_eq_true, Bool.not_eq_true', decide_eq_true_eq, Bool.or_eq_false_iff, not_or,
    Bool.not_eq_true]

section
variable {d : Die} {i : Nat} {r next : Ring}

theorem Die.enableRing_rises (hoff : ¬r.on) (hpart : next.part = 0 ∨ d.bit (PART_CTRL_ENABLE next.part.toNat) = true) :
    d.enableRing i r next true = (d.setRing i { next with enable := true, disabling := false, head := 0, tail := 0, halted := false }).doneWith (.ring (ringIx i)) := by
  have h : (r.enable || r.disabling) = false := by simpa [Ring.on] using hoff
  rw [Die.enableRing, h, if_pos (by rfl), if_pos (by simpa using hpart)]

theorem Die.enableRing_refused (hoff : ¬r.on) (hpart : next.part ≠ 0) (hdisabled : d.bit (PART_CTRL_ENABLE next.part.toNat) = false) :
    d.enableRing i r next true = d.setRing i next := by
  have h : (r.enable || r.disabling) = false := by simpa [Ring.on] using hoff
  rw [Die.enableRing, h, if_pos (by rfl), if_neg (by simpa [hdisabled] using hpart)]

/-- ENABLE neither rises nor falls. -/
theorem Die.enableRing_same {want : Bool} (hrise : r.on ∨ want = false) (hfall : next.enable = false ∨ want = true) :
    d.enableRing i r next want = d.setRing i next := by
  rw [Die.enableRing, if_neg, if_neg]
  · rcases hfall with h | h <;> simp [h]
  · rcases hrise with h | h
    · simp [Ring.on_iff.mp h]
    · simp [h]

theorem Die.enableRing_falls (hon : next.enable = true) (hsub : next.completion = false) :
    d.enableRing i r next false = d.setRing i { next with enable := false } := by
  rw [Die.enableRing, if_neg (by simp), if_pos (by simp [hon]), if_neg (by simp [hsub])]

theorem Die.enableRing_falls_completion (hon : next.enable = true) (hcomp : next.completion = true) :
    d.enableRing i r next false = d.setRing i { next with enable := false, disabling := decide (next.reserved ≠ 0) } := by
  have hstops : Ring.on { next with disabling := true, enable := false } := .inr rfl
  rw [Die.enableRing, if_neg (by simp), if_pos (by simp [hon]), if_pos hcomp, Die.endDisable, Die.ring_setRing _ _ _ hstops, if_pos rfl]
  by_cases hres : next.reserved = 0
  · rw [if_pos (by simpa using hres), Die.setRing_setRing _ _ _ hstops]
    simp [hres]
  · simp [hres]

end

/-! ### The start of a packet -/

/-- The die after a packet of it has been handed on: finished, queued for Groom, or left as it is. -/
def Die.handedOn (d t : Die) : Prop :=
  t.cp.rings = d.cp.rings ∧ t.cp.nextPid = d.cp.nextPid ∧ t.pkts.length = d.pkts.length ∧ t.parts = d.parts ∧ t.mem = d.mem
    ∧ d.keepsRegs t [GROOM_DEFERRED_COUNT.off]

theorem Die.handedOn_refl (d : Die) : d.handedOn d := ⟨rfl, rfl, rfl, rfl, rfl, fun _ _ => rfl⟩

theorem Die.handedOn_finish (d : Die) (pid : Nat) (st : Status) (r : W64) (x : W32) : d.handedOn (d.finish pid st r x) := by
  refine ⟨?_, ?_, ?_, by simp, by simp, fun off _ => by simp [Die.raw]⟩ <;>
  · rw [Die.finish]
    dsimp only
    split
    · split <;> simp [Die.onPkt]
    · simp [Die.onPkt]

theorem Die.handedOn_deferPkt {d : Die} (h : d.regsWf) (pid retry : Nat) : d.handedOn (d.deferPkt pid retry) := by
  obtain ⟨hrings, hnext, hlen, hparts, hmem, hregs⟩ := (d.count GROOM_DEFERRED_COUNT 1).handedOn_finish pid .deferred (BitVec.ofNat 64 retry) 0
  refine ⟨hrings, hnext, hlen, hparts, hmem, fun off hoff => (hregs off hoff).trans ?_⟩
  exact Die.raw_put_of_ne h _ (by simpa using hoff)

theorem Die.handedOn_groomAccept {d : Die} (h : d.regsWf) (q : Pkt) : d.handedOn (d.groomAccept q) := by
  rw [Die.groomAccept]
  split
  · exact Die.handedOn_deferPkt h _ _
  split
  · exact Die.handedOn_deferPkt h _ _
  dsimp only
  split
  · exact Die.handedOn_deferPkt h _ _
  · exact ⟨rfl, rfl, by simp [Die.onPkt], rfl, rfl, fun _ _ => rfl⟩

/-- The ring has given its packet `pid` of `len` slots, a WAIT or not. -/
def Ring.advanced (len : Nat) (wait : Bool) (pid : Nat) (r : Ring) : Ring :=
  { r with head := r.head + BitVec.ofNat 32 len, waitBlock := if wait then some pid else none }

/-- One more record of the ring is reserved. -/
def Ring.reserve (r : Ring) : Ring := { r with reserved := r.reserved + 1 }

/-- The die with a packet taken from its ring, before its checks decide. -/
def Die.taken (d : Die) (i : RingIx) (body : List Byte) (len : Nat) : Die :=
  let q := d.headPkt i body
  let t := (d.onRing q.cring.val Ring.reserve).onRing i.val (Ring.advanced len (q.opcode == 0x41) q.pid)
  { t with pkts := t.pkts ++ [q], parts := { t.parts with started := assocPut t.parts.started q.part.val ((assoc t.parts.started q.part.val).getD 0 + 1) },
           cp := { t.cp with nextPid := q.pid + 1 } }

theorem Die.ring_taken (d : Die) (i : RingIx) (body : List Byte) (len j : Nat) : (d.taken i body len).ring j
    = ((d.onRing (field body 4 2 % 8192) Ring.reserve).onRing i.val (Ring.advanced len (BitVec.ofNat 8 (field body 0 1) == 0x41) d.cp.nextPid)).ring j := by
  rw [Die.taken]
  dsimp only [Die.ring, Die.headPkt, ringIx]
  rw [Nat.mod_mod]

theorem Die.handedOn_startPkt {d : Die} (h : d.regsWf) (i : RingIx) (body : List Byte) (len : Nat) : (d.taken i body len).handedOn (d.startPkt i body len) := by
  have htaken : (d.taken i body len).regsWf := h
  rw [Die.startPkt]
  dsimp only
  split
  · split
    · split
      · exact Die.handedOn_groomAccept htaken _
      · exact Die.handedOn_finish _ _ _ _ _
    · exact Die.handedOn_refl _
  · exact Die.handedOn_finish _ _ _ _ _

theorem Die.ring_onRing (d : Die) (i j : Nat) (f : Ring → Ring) (h : f (d.ring i) ≠ {}) : (d.onRing i f).ring j = if j = i then f (d.ring i) else d.ring j :=
  tblGet_put_of_ne_dflt d.cp.rings j h

/-- Settles O21. -/
theorem ringsDecode : Obligations.RingsDecode := by
  refine ⟨fun s who r v => ?_, fun s hlive => onLive_live _ hlive, fun d i body len hcanon => ?_⟩
  · intro ring bit size irq on set next
    refine ⟨fun hreach huse => ?_, fun hlive => ?_⟩
    · have hresume : becomes (.resume who r) s (s.die.resumeRing r.val) :=
        becomes_congr (becomes_page (f := opResume who r) hreach rfl) (Die.writePage_resume huse)
      refine ⟨fun hhalt hsub => becomes_congr hresume ?_, fun hhalt hcomp => becomes_congr hresume ?_, fun hhalt => becomes_congr hresume ?_,
        fun i hi hmay => ?_⟩
      · rw [Die.resumeRing, if_pos hhalt]
        exact if_neg (by simp [ring] at hsub; simp [hsub])
      · rw [Die.resumeRing, if_pos hhalt]
        exact if_pos hcomp
      · exact if_neg (by simp [ring] at hhalt; simp [hhalt])
      · have hwrite : becomes i s (s.die.enableRing r.val ring (ring.configured who v) (v.getLsbD 0)) := by
          rw [← Die.writeConfig_eq hmay, ← Die.writePage_config huse]
          rcases List.mem_cons.mp hi with rfl | hi
          · exact becomes_page (f := opRingEnable who r v) hreach rfl
          · rcases List.mem_singleton.mp hi with rfl
            exact becomes_page (f := opRingDisable who r v) hreach rfl
        have hfields : ∀ {b : Bool}, v.getLsbD 0 = b → becomes i s (s.die.enableRing r.val ring next b) := fun h => h ▸ hwrite
        have henable : next.enable = ring.enable := ring.enable_configured who v
        have hset : on → next = set := fun h => ring.configured_of_on h who v
        refine ⟨fun hoff hb hpart => becomes_congr (hfields hb) ((Die.enableRing_rises hoff hpart).trans (by rw [ringIx_val])),
          fun hoff hb hpart hdis => becomes_congr (hfields hb) (Die.enableRing_refused hoff hpart hdis),
          fun hoff hb => becomes_congr (hfields hb) (Die.enableRing_same (.inr rfl) (.inl ?_)),
          fun hon hb => becomes_congr (hfields hb) ((Die.enableRing_same (.inl (.inl hon)) (.inr rfl)).trans (by rw [hset (.inl hon)])),
          fun hen hon => becomes_congr hwrite ((Die.enableRing_same (.inl (.inr hon)) (.inl (henable.trans hen))).trans ?_),
          fun hon hb hsub => becomes_congr (hfields hb) ?_, fun hon hb hcomp => becomes_congr (hfields hb) ?_⟩
        · rw [henable]
          simp [on] at hoff
          exact hoff.1
        · rw [hset (.inr hon)]
        · rw [hset (.inl hon)]
          exact Die.enableRing_falls hon hsub
        · rw [hset (.inl hon)]
          exact Die.enableRing_falls_completion hon hcomp
    · have hnext : becomes (.ringDisableComplete r) s (s.die.endDisable r.val) := onLive_live _ hlive
      refine ⟨fun hdis hres => becomes_congr hnext (if_pos (by simpa [ring] using ⟨hdis, hres⟩)), fun h => becomes_congr hnext (if_neg ?_)⟩
      simpa [ring, -not_and, Classical.not_and_iff_not_or_not] using h
  · intro r c p hon hne t
    have hstart : (d.taken i body len).handedOn t := Die.handedOn_startPkt hcanon.regsWf i body len
    obtain ⟨hrings, hnext, hlen, hparts, hmem, hregs⟩ := hstart
    have hring : ∀ j, t.ring j = (d.taken i body len).ring j := fun j => by rw [Die.ring, hrings, Die.ring]
    have hreserved : ∀ j, (d.onRing c Ring.reserve).ring j = if j = c then (d.ring c).reserve else d.ring j := fun j =>
      Die.ring_onRing d c j _ fun h => absurd (congrArg Ring.reserved h) (by simp [Ring.reserve])
    have hi : (d.onRing c Ring.reserve).ring i.val = r := (hreserved _).trans (if_neg (Ne.symm hne))
    have htaken : ∀ j, (d.taken i body len).ring j
        = if j = i.val then r.advanced len (BitVec.ofNat 8 (field body 0 1) == 0x41) d.cp.nextPid else if j = c then (d.ring c).reserve else d.ring j := fun j => by
      rw [← hreserved, ← hi]
      refine (d.ring_taken i body len j).trans <| Die.ring_onRing (d.onRing c Ring.reserve) i.val j (Ring.advanced len (BitVec.ofNat 8 (field body 0 1) == 0x41) d.cp.nextPid) fun h => absurd (congrArg Ring.enable h) ?_
      rw [hi]
      simp [Ring.advanced, r, hon]
    refine ⟨?_, ?_, ?_, fun j hj hc => ?_, ?_, ?_, ?_, ?_, ?_⟩
    · rw [hring, htaken, if_pos rfl]
      rfl
    · rw [hring, htaken, if_neg hne, if_pos rfl]
      rfl
    · rw [hring, htaken, if_pos rfl]
      rw [Ring.advanced]
      dsimp only
      congr 1
      rw [beq_iff_eq, ← BitVec.toNat_inj, BitVec.toNat_ofNat]
      rfl
    · rw [hring, htaken, if_neg hj, if_neg hc]
    · rw [hlen]
      exact List.length_append
    · rw [hnext]
      rfl
    · rw [hparts]
      have hp : p % 16 = p := Nat.mod_eq_of_lt r.part.isLt
      change (assoc (assocPut d.parts.started (p % 16) ((assoc d.parts.started (p % 16)).getD 0 + 1)) p).getD 0 = _
      rw [hp, assoc_assocPut_same]
      rfl
    · rw [hmem]
      rfl
    · exact hregs

end Sys2Proof.Machine
end

section
/-! PROOF. Launch packets, and how their plan tables are read (spec 07, section "Launches"). -/

namespace Sys2Proof.Machine

/-! ### The packet -/

/-- The launch that a packet begins at a plan tick. -/
def Die.launchOf (d : Die) (q : Pkt) (now : Nat) (step : Bool) : Launch :=
  let b := q.body
  { key := d.cp.nextLaunch, order := q.pid, pid := some q.pid, batch := none, id := BitVec.ofNat 32 (field b 16 4), part := q.part,
    dies := BitVec.ofNat 8 (field b 40 1), first := if field b 41 1 % 2 = 1 then field b 24 8 else now + field b 24 8, plan := field b 32 8, entries := field b 20 4,
    readNext := 0, readTo := 0, lastKey := none, slices := [], cancelFrom := none, failure := none, ran := 0, chain := if step then field b 48 8 else 0,
    chainCount := if step then field b 56 4 else 0, chainNext := 0, chainRel := 0, chainOpen := [], args := none }

/-- The die with the packet's launch begun. -/
def Die.launched (d : Die) (q : Pkt) (now : Nat) (step : Bool) : Die :=
  { d with launches := d.launches ++ [d.launchOf q now step], cp := { d.cp with nextLaunch := d.cp.nextLaunch + 1 } }.onPkt q.pid fun x => { x with phase := .running }

section
variable {d : Die} {q : Pkt} {step : Bool}

theorem Die.launchPkt_of_bad (h : d.launchStatus q.body step ≠ .ok) : d.launchPkt q step = d.finish q.pid (d.launchStatus q.body step) 0 0 := by
  rw [Die.launchPkt]
  split
  · exact absurd ‹_› h
  · rfl

variable (hok : d.launchStatus q.body step = .ok)
include hok

theorem Die.launchPkt_of_unplanned (h : q.plan = none) : d.launchPkt q step = d := by
  rw [Die.launchPkt, hok]
  dsimp only
  rw [h]

variable {now : Nat} (hplan : q.plan = some now)
include hplan

theorem Die.launchPkt_of_planned : d.launchPkt q step = d.beginLaunch q now step := by
  rw [Die.launchPkt, hok]
  dsimp only
  rw [hplan]

theorem Die.launchPkt_in_time (h : ¬(field q.body 41 1 % 2 = 1 ∧ field q.body 24 8 ≤ now)) : d.launchPkt q step = d.launched q now step := by
  rw [Die.launchPkt_of_planned hok hplan, Die.beginLaunch]
  dsimp only
  rw [if_neg]
  · simp only [beq_iff_eq]
    rfl
  · by_cases habs : field q.body 41 1 % 2 = 1
    · simpa [habs] using h
    · simp [habs]

theorem Die.launchPkt_late (habs : field q.body 41 1 % 2 = 1) (h : field q.body 24 8 ≤ now) :
    d.launchPkt q step = { d with freeCtr := d.freeCtr + 1 }.finish q.pid .aborted 0 (BitVec.ofNat 32 (Config.freeNat d.freeCtr % 64)) := by
  rw [Die.launchPkt_of_planned hok hplan, Die.beginLaunch]
  dsimp only
  rw [if_pos (by simp [habs, h])]
  rfl

end

/-- What a launch packet does once it has started, whichever of the two it is. -/
theorem becomes_launchPkt {i : Instr} {s : State} {q : Pkt} {step : Bool} (hnext : becomes i s (s.die.launchPkt q step)) :
    (s.die.launchStatus q.body step ≠ .ok → becomes i s (s.die.finish q.pid (s.die.launchStatus q.body step) 0 0))
    ∧ (s.die.launchStatus q.body step = .ok → q.plan = none → becomes i s s.die)
    ∧ (∀ now, s.die.launchStatus q.body step = .ok → q.plan = some now →
        let first := if field q.body 41 1 % 2 = 1 then field q.body 24 8 else now + field q.body 24 8
        (¬(field q.body 41 1 % 2 = 1 ∧ first ≤ now) → becomes i s (s.die.launched q now step))
        ∧ (field q.body 41 1 % 2 = 1 → first ≤ now → answers i s fun t =>
            ∃ core, core < 64 ∧ t = { s.die with freeCtr := s.die.freeCtr + 1 }.finish q.pid .aborted 0 (BitVec.ofNat 32 core))) := by
  refine ⟨fun h => becomes_congr hnext (Die.launchPkt_of_bad h), fun hok h => becomes_congr hnext (Die.launchPkt_of_unplanned hok h), fun now hok hplan => ?_⟩
  refine ⟨fun h => becomes_congr hnext (Die.launchPkt_in_time hok hplan fun ⟨habs, hlate⟩ => h ⟨habs, by simpa [habs] using hlate⟩), fun habs hlate => ?_⟩
  exact ⟨_, becomes_congr hnext (Die.launchPkt_late hok hplan habs (by simpa [habs] using hlate)), _, Nat.mod_lt _ (by decide), rfl⟩

/-! ### The plan table -/

section
variable {d : Die} {l : Launch} (hl : d.launch? l.key = some l) (to_ n : Nat)
include hl

/-- The launch has read its table up to this plan tick. -/
def Die.readUpTo (d : Die) (key to_ : Nat) : Die := (d.onLaunch key fun m => { m with readTo := to_ + 1 }).doneWith (.launch key)

theorem Die.readPlan_of_allRead (h : l.entries ≤ l.readNext) : Die.readPlan l.key to_ (n + 1) d = d.readUpTo l.key to_ := by
  rw [Die.readPlan, hl]
  exact if_pos (by simpa [Launch.allRead] using h)

variable {e : Die} {b : List Byte} (hmore : l.readNext < l.entries) (hcut : l.cancelFrom = none)
  (hread : d.readTable l.key l.part.val ((l.plan + 64 * l.readNext) % 2 ^ 64) 64 = (.ok b, e))
include hmore hcut hread

theorem Die.readPlan_of_later (h : to_ < field b 0 4) (hok : e.entryStatus l b = .ok) : Die.readPlan l.key to_ (n + 1) d = e.readUpTo l.key to_ := by
  rw [Die.readPlan, hl]
  dsimp only
  rw [if_neg (by simpa [Launch.allRead] using hmore), hcut, if_neg (by simp), hread]
  exact if_pos (by simp [h, hok])

theorem Die.readPlan_of_due (h : field b 0 4 ≤ to_) (hok : e.entryStatus l b = .ok) :
    Die.readPlan l.key to_ (n + 1) d = Die.readPlan l.key to_ n (e.takeEntry l b) := by
  rw [Die.readPlan, hl]
  dsimp only
  rw [if_neg (by simpa [Launch.allRead] using hmore), hcut, if_neg (by simp), hread]
  dsimp only
  rw [if_neg (by simp [Nat.not_lt.mpr h]), if_neg (by simp [hok]), if_neg (by simp)]

theorem Die.readPlan_of_bad (h : field b 0 4 ≤ to_) (hbad : e.entryStatus l b ≠ .ok) :
    Die.readPlan l.key to_ (n + 1) d = ((e.cutLaunch l.key (field b 0 4) (field b 4 1 % 64) (e.entryStatus l b)).onLaunch l.key fun m =>
      { m with readNext := m.entries }).doneWith (.launch l.key) := by
  rw [Die.readPlan, hl]
  dsimp only
  rw [if_neg (by simpa [Launch.allRead] using hmore), hcut, if_neg (by simp), hread]
  dsimp only
  rw [if_neg (by simp [Nat.not_lt.mpr h])]
  exact if_pos (by simpa using hbad)

end

/-- Settles O23. -/
theorem launches : Obligations.Launches := by
  refine ⟨fun s q hlive => ?_, fun s l hlive hl => ?_, fun d e l to_ n b hl => ?_, fun d l m b hargs => ?_⟩
  · intro b packet
    refine ⟨fun hq => becomes_launchPkt (becomes_congr (onLive_live (opLaunchSlices q.pid) hlive) ?_),
      fun hq => becomes_launchPkt (becomes_congr (onLive_live (opLaunchStep q.pid) hlive) ?_)⟩
    · rw [opLaunchSlices, hq]
    · rw [opLaunchStep, hq]
  · intro next
    have hnext : becomes (.planTableRead l.key) s (opPlanTableRead l.key s.die) := onLive_live _ hlive
    refine ⟨fun h => becomes_congr hnext ?_, fun hfirst hto => becomes_congr hnext ?_⟩
    · rw [opPlanTableRead, hl]
      exact if_pos (by simpa using h)
    · rw [opPlanTableRead, hl]
      exact if_neg (by simpa [next] using ⟨hfirst, hto⟩)
  · intro upTo
    exact ⟨Die.readPlan_of_allRead hl to_ n, fun hmore hcut hread =>
      ⟨Die.readPlan_of_due hl to_ n hmore hcut hread, Die.readPlan_of_later hl to_ n hmore hcut hread, Die.readPlan_of_bad hl to_ n hmore hcut hread⟩⟩
  · intro rel core x read take
    refine ⟨fun h => ?_, fun h hm => ?_⟩
    · rw [Die.takeEntry, hargs]
      dsimp only
      rw [h]
    · rw [Die.takeEntry, hargs]
      dsimp only
      rw [h]
      dsimp only
      rw [hm]

end Sys2Proof.Machine
end

section
/-! PROOF. Coalesced requests (spec 04, section "Thin matrices and the decode coalescer"; spec 07, section "Coalesced decode") and the sync packets (spec 07,
section "Sync packets"). -/

namespace Sys2Proof.Machine

/-! ### COALESCE_DECODE -/

/-- A request that waits for its acceptance before this one (R139). -/
def Pkt.requestBefore (q x : Pkt) : Bool :=
  x.opcode == 0x03 && x.phase == .started && x.pid != q.pid && x.part == q.part && coalesceStatus x.body == .ok
    && (decide (x.ring.val < q.ring.val) || (x.ring == q.ring && decide (x.pid < q.pid)))

theorem Pkt.requestBefore_iff (q x : Pkt) : q.requestBefore x = true ↔
    x.opcode = 0x03 ∧ x.phase = .started ∧ x.pid ≠ q.pid ∧ x.part = q.part ∧ coalesceStatus x.body = .ok
      ∧ (x.ring.val < q.ring.val ∨ (x.ring = q.ring ∧ x.pid < q.pid)) := by
  simp only [Pkt.requestBefore, Bool.and_eq_true, Bool.or_eq_true, beq_iff_eq, bne_iff_ne, decide_eq_true_eq, and_assoc]

section
variable {d : Die} {q : Pkt} (hq : d.pkt? q.pid = some q) (hop : q.opcode = 0x03)
include hq hop

theorem opCoalesceDecode_of_bad (hphase : q.phase = .started) (h : coalesceStatus q.body ≠ .ok) :
    opCoalesceDecode q.pid d = d.finish q.pid (coalesceStatus q.body) 0 0 := by
  rw [opCoalesceDecode, hq]
  dsimp only
  rw [if_neg (by simp [hop]), if_pos (by simp [hphase])]
  split
  · exact absurd ‹_› h
  · rfl

theorem opCoalesceDecode_of_good (hphase : q.phase = .started) (h : coalesceStatus q.body = .ok) :
    opCoalesceDecode q.pid d = if d.tick.inGuard && d.pkts.all (fun x => !q.requestBefore x) then d.acceptRequest q else d := by
  rw [opCoalesceDecode, hq]
  dsimp only
  rw [if_neg (by simp [hop]), if_pos (by simp [hphase]), h]
  rfl

theorem opCoalesceDecode_of_accepted {b : Batch} {r : BatchReq} (hphase : q.phase ≠ .started)
    (hb : (d.cp.batches.find? fun b => b.reqs.any fun r => r.pid == q.pid && !r.copied) = some b) (hr : (b.reqs.find? fun r => r.pid == q.pid) = some r) :
    opCoalesceDecode q.pid d = d.copyIn b r (field q.body 24 8) := by
  rw [opCoalesceDecode, hq]
  dsimp only
  rw [if_neg (by simp [hop]), if_neg (by simpa using hphase), hb]
  dsimp only
  rw [hr]

end

section
variable {d : Die} {q : Pkt}

/-- A request of the ring has been accepted in this guard (R139). -/
def Die.acceptNoted (d : Die) (q : Pkt) : Die := { d with cp := { d.cp with accepted := assocPut d.cp.accepted q.part.val q.ring.val } }

theorem Die.acceptRequest_joins {b : Batch} (hb : d.cp.batches = [b]) (hpart : b.part = q.part) (hcls : b.cls.val = field q.body 16 1 % 64) (hopen : b.closed = false)
    (hwaits : b.launched = false) (hroom : b.rows + field q.body 18 2 ≤ 64) : d.acceptRequest q = (d.acceptNoted q).joinBatch b.key q := by
  rw [Die.acceptRequest, Die.acceptNoted]
  dsimp only [Die.onCp]
  rw [hb, if_neg (by simp only [List.filter]; split <;> simp), List.find?_cons_of_pos (by simp [hpart, hcls, hopen, hwaits])]
  dsimp only
  rw [if_pos hroom]

theorem Die.acceptRequest_opens (hb : d.cp.batches = []) : d.acceptRequest q = (d.acceptNoted q).openBatch q (field q.body 16 1 % 64) := by
  rw [Die.acceptRequest, Die.acceptNoted]
  dsimp only [Die.onCp]
  rw [hb]
  rfl

end

/-- Address of a class's descriptor (R233). -/
def Die.descAddr (d : Die) (p cls : Nat) : Nat :=
  (d.get (COALESCE_TABLE_HI_TABLE p) * 2 ^ 32 + d.get (COALESCE_TABLE_LO_TABLE p) / 4096 * 4096 + 64 * cls) % 2 ^ 64

section
variable {d e : Die} {q : Pkt} {cls : Nat} {c : List Byte} (hread : d.readAll (srcCp (.pkt q.pid) q.part.val) (d.descAddr q.part.val cls) 64 false = (.ok c, e))
include hread

theorem Die.openBatch_of_bad (h : descOk c = false) : d.openBatch q cls = (e.doneWith (.pkt q.pid)).finish q.pid .reservedValue 0 0 := by
  rw [Die.openBatch]
  dsimp only
  rw [show ((d.get (COALESCE_TABLE_HI_TABLE q.part.val) * 2 ^ 32 + d.get (COALESCE_TABLE_LO_TABLE q.part.val) / 4096 * 4096 + 64 * cls) % 2 ^ 64)
    = d.descAddr q.part.val cls from rfl, hread]
  exact if_pos (by simp [h])

theorem Die.openBatch_of_good (h : descOk c = true) (hb : e.cp.batches = []) :
    (d.openBatch q cls).cp.batches = [{
      key := e.cp.nextBatch, part := q.part, cls := ⟨cls % 64, Nat.mod_lt _ (by decide)⟩, number := (assoc e.cp.classCount (q.part.val * 64 + cls)).getD 0,
      template := field c 0 8, entries := field c 8 4, inRow := field c 12 4, outRow := field c 16 4, staging := field c 24 8,
      firstTick := (e.doneWith (.pkt q.pid)).tick.now, rows := field q.body 18 2, closed := false, launched := false, outcome := none,
      reqs := [{ pid := q.pid, rows := field q.body 18 2, row := 0, dest := field q.body 32 8, copied := false }] }] := by
  rw [Die.openBatch]
  dsimp only
  rw [show ((d.get (COALESCE_TABLE_HI_TABLE q.part.val) * 2 ^ 32 + d.get (COALESCE_TABLE_LO_TABLE q.part.val) / 4096 * 4096 + 64 * cls) % 2 ^ 64)
    = d.descAddr q.part.val cls from rfl, hread]
  dsimp only
  rw [if_neg (by simp [h])]
  have hdone : (e.doneWith (.pkt q.pid)).cp = e.cp := rfl
  simp [Die.joinBatch, Die.onBatch, Die.onCp, Die.onPkt, hdone, hb, listUpd]

end

/-! ### COALESCE_BATCH_COMPLETE -/

/-- A request of a batch ends. -/
def Die.endRequest (d : Die) (b : Batch) (r : BatchReq) (st : Status) : Die :=
  (d.onBatch b.key fun x => { x with reqs := x.reqs.filter fun y => y.pid != r.pid }).finish r.pid st (BitVec.ofNat 64 b.number) (BitVec.ofNat 32 r.row)

/-- A batch without requests left is gone. -/
def Die.closeBatch (d : Die) (key : Nat) : Die :=
  if d.cp.batches.any fun x => x.key == key && x.reqs.isEmpty then { d with cp := { d.cp with batches := d.cp.batches.filter fun x => x.key != key } } else d

/-- What the end of a batch with an outcome does for one of its requests. -/
def Die.completeRequest (b : Batch) (st : Status) (d : Die) (r : BatchReq) : Die :=
  if st != .ok then d.endRequest b r st
  else
    match d.readAll (srcCp (.pkt r.pid) b.part.val) ((b.output + r.row * b.outRow) % 2 ^ 64) (r.rows * b.outRow) false with
    | (.wait, e) => e
    | (.fail st, e) => e.endRequest b r st
    | (.ok bs, e) =>
      match e.writeAll (srcCp (.pkt r.pid) b.part.val) r.dest bs {} with
      | (.wait, e) => e
      | (.fail st, e) => e.endRequest b r st
      | (.ok _, e) => e.endRequest b r .ok

section
variable {d : Die} {b : Batch} (hb : (d.cp.batches.find? fun x => x.key == b.key) = some b)
include hb

theorem opBatchComplete_of_open (h : b.outcome = none) : opBatchComplete b.key d = d := by
  rw [opBatchComplete, hb]
  dsimp only
  rw [h]

theorem opBatchComplete_of_outcome {st : Status} (h : b.outcome = some st) :
    opBatchComplete b.key d = (b.reqs.foldl (Die.completeRequest b st) d).closeBatch b.key := by
  rw [opBatchComplete, hb]
  dsimp only
  rw [h]
  rfl

end

theorem Die.completeRequest_of_failed {b : Batch} {st : Status} (hst : st ≠ .ok) (d : Die) (r : BatchReq) : d.completeRequest b st r = d.endRequest b r st :=
  if_pos (by simpa using hst)

theorem Die.completeRequest_of_good {d e f : Die} {b : Batch} {r : BatchReq} {bs xs : List Byte}
    (hread : d.readAll (srcCp (.pkt r.pid) b.part.val) ((b.output + r.row * b.outRow) % 2 ^ 64) (r.rows * b.outRow) false = (.ok bs, e))
    (hwrite : e.writeAll (srcCp (.pkt r.pid) b.part.val) r.dest bs {} = (.ok xs, f)) : d.completeRequest b .ok r = f.endRequest b r .ok := by
  rw [Die.completeRequest, if_neg (by simp), hread]
  dsimp only
  rw [hwrite]

/-! ### Sync packets -/

section
variable {d : Die} {q : Pkt}

theorem opSignalPacket_of_bad (hq : d.startedPkt q.pid 0x40 = some q) (h : signalStatus q.body ≠ .ok) :
    opSignalPacket q.pid d = d.finish q.pid (signalStatus q.body) 0 0 := by
  rw [opSignalPacket, hq]
  dsimp only
  split
  · exact absurd ‹_› h
  · rfl

theorem opWaitPacket_of_bad (hq : d.startedPkt q.pid 0x41 = some q) (h : waitStatus q.body ≠ .ok) :
    opWaitPacket q.pid d = d.finish q.pid (waitStatus q.body) 0 0 := by
  rw [opWaitPacket, hq]
  dsimp only
  split
  · exact absurd ‹_› h
  · rfl

theorem opBarrierPacket_of_bad (hq : d.startedPkt q.pid 0x42 = some q) (h : barrierStatus q.body ≠ .ok) :
    opBarrierPacket q.pid d = d.finish q.pid (barrierStatus q.body) 0 0 := by
  rw [opBarrierPacket, hq]
  dsimp only
  split
  · exact absurd ‹_› h
  · rfl

theorem opFlagWrite_of_bad (hq : d.startedPkt q.pid 0x43 = some q) (h : flagStatus q.body ≠ .ok) :
    opFlagWrite q.pid d = d.finish q.pid (flagStatus q.body) 0 0 := by
  rw [opFlagWrite, hq]
  dsimp only
  split
  · exact absurd ‹_› h
  · rfl

theorem opTimestamp_of_bad (hq : d.startedPkt q.pid 0x44 = some q) (h : timestampStatus q.body ≠ .ok) :
    opTimestamp q.pid d = d.finish q.pid (timestampStatus q.body) 0 0 := by
  rw [opTimestamp, hq]
  dsimp only
  split
  · exact absurd ‹_› h
  · rfl

/-- The die that a SIGNAL packet names. -/
def Pkt.signalDie (q : Pkt) : DieIx := ⟨sub (field q.body 18 1) 1 3 % 8, Nat.mod_lt _ (by decide)⟩

/-- A SIGNAL packet's message to another die of its package. -/
def Die.packetSignal (d : Die) (q : Pkt) : Option Status × Die :=
  d.remote { req := .pkt q.pid, id := 0 } q.part.val { pkg := d.here.pkg, die := q.signalDie } none none false fun h =>
    .signal { head := h, obj := objIx (field q.body 16 2), inc := BitVec.ofNat 64 (field q.body 24 8) }

section
variable (hq : d.startedPkt q.pid 0x40 = some q) (hok : signalStatus q.body = .ok)
include hq hok

theorem opSignalPacket_away (h : field q.body 18 1 % 2 = 1 ∧ q.signalDie ≠ d.here.die) :
    opSignalPacket q.pid d = (d.packetSignal q).2.finish q.pid ((d.packetSignal q).1.getD .ok) 0 0 := by
  rw [opSignalPacket, hq]
  dsimp only
  rw [hok]
  dsimp only
  rw [if_pos (by simpa [Pkt.signalDie] using h)]
  change (match d.packetSignal q with | (none, t) => t.finish q.pid .ok 0 0 | (some st, t) => t.finish q.pid st 0 0) = _
  rcases d.packetSignal q with ⟨_ | st, t⟩ <;> rfl

theorem opSignalPacket_here (h : ¬(field q.body 18 1 % 2 = 1 ∧ q.signalDie ≠ d.here.die)) :
    opSignalPacket q.pid d = (match d.localSignal 48 q.part.val (objIx (field q.body 16 2)) (BitVec.ofNat 64 (field q.body 24 8)) (.pkt q.pid) 0 with
      | none => d
      | some (.ok _, t) => t.finish q.pid .ok 0 0
      | some (.error st, t) => t.finish q.pid st 0 0) := by
  rw [opSignalPacket, hq]
  dsimp only
  rw [hok]
  dsimp only
  rw [if_neg (by simpa [Pkt.signalDie] using h)] <;> rfl

end

theorem Die.localSignal_foreign {source part : Nat} {obj : ObjIx} (inc : W64) (req : Req) (id : Nat) (h : (d.obj obj).owner.toNat ≠ part) :
    d.localSignal source part obj inc req id = some (.error .noAuthority, d.syncErr obj 1 source d.here part true) := if_pos (by simpa using h)

theorem Die.localSignal_occupied {source part : Nat} {obj : ObjIx} (inc : W64) (req : Req) (id : Nat) (howner : (d.obj obj).owner.toNat = part)
    (h : assoc d.sync.slots source ≠ none) : d.localSignal source part obj inc req id = none := by
  obtain ⟨x, hx⟩ := Option.ne_none_iff_exists'.mp h
  simp [Die.localSignal, howner, Die.slotSignal, hx]

section
variable (hq : d.startedPkt q.pid 0x41 = some q) (hok : waitStatus q.body = .ok)
include hq hok

theorem opWaitPacket_registers : opWaitPacket q.pid d = d.registerWait q := by
  rw [opWaitPacket, hq]
  dsimp only
  rw [hok]

end

theorem opBarrierPacket_of_good (hq : d.startedPkt q.pid 0x42 = some q) (hok : barrierStatus q.body = .ok) :
    opBarrierPacket q.pid d = if field q.body 16 1 == 1 && d.pkts.any (d.before q) then d else d.finish q.pid .ok 0 0 := by
  rw [opBarrierPacket, hq]
  dsimp only
  rw [hok]

theorem opFlagWrite_of_good (hq : d.startedPkt q.pid 0x43 = some q) (hok : flagStatus q.body = .ok) :
    opFlagWrite q.pid d = d.cpWrite q (field q.body 16 8) (leBytes (flagBytes q.body) (field q.body 32 8)) 0 0 := by
  rw [opFlagWrite, hq]
  dsimp only
  rw [hok]

theorem opTimestamp_of_good (hq : d.startedPkt q.pid 0x44 = some q) (hok : timestampStatus q.body = .ok) :
    opTimestamp q.pid d = if field q.body 16 8 == 0 then d.finish q.pid .ok (BitVec.ofNat 64 d.tick.now) (BitVec.ofNat 32 d.clkInTick)
      else d.cpWrite q (field q.body 16 8) d.stampBytes (BitVec.ofNat 64 d.tick.now) (BitVec.ofNat 32 d.clkInTick) := by
  rw [opTimestamp, hq]
  dsimp only
  rw [hok]

end

/-- Settles O24. -/
theorem coalescer : Obligations.Coalescer := by
  refine ⟨fun s q hlive hq hop => ?_, fun d e q b c bs => ?_, fun s b hlive hb => ?_, fun s q hlive => ?_, fun d e q dva bs xs result det h => ?_⟩
  · intro earlier
    have hnext : becomes (.coalesceDecode q.pid) s (opCoalesceDecode q.pid s.die) := onLive_live _ hlive
    refine ⟨fun hphase hbad => becomes_congr hnext (opCoalesceDecode_of_bad hq hop hphase hbad), fun hphase hok hguard hfirst => ?_,
      fun hphase hok hwait => ?_, fun b r hphase hb hr => becomes_congr hnext (opCoalesceDecode_of_accepted hq hop hphase hb hr)⟩
    · refine becomes_congr hnext ((opCoalesceDecode_of_good hq hop hphase hok).trans (if_pos ?_))
      simp only [hguard, Bool.true_and, List.all_eq_true, Bool.not_eq_true', ← Bool.not_eq_true, Pkt.requestBefore_iff]
      exact hfirst
    · refine becomes_congr hnext ((opCoalesceDecode_of_good hq hop hphase hok).trans (if_neg ?_))
      simp only [Bool.and_eq_true, List.all_eq_true, Bool.not_eq_true', ← Bool.not_eq_true, Pkt.requestBefore_iff]
      rintro ⟨hguard, hfirst⟩
      rcases hwait with hout | ⟨x, hx, hearlier⟩
      · simp [hout] at hguard
      · exact hfirst x hx hearlier
  · intro cls rows p noted table k
    refine ⟨fun hb hpart hcls hopen hwaits hroom => ?_, fun hb hread hdesc hnone => ?_, fun hb hread hdesc => ?_⟩
    · rw [Die.acceptRequest_joins hb hpart hcls hopen hwaits hroom]
      simp [Die.joinBatch, Die.onBatch, Die.onCp, Die.acceptNoted, hb, listUpd, noted, rows, p]
    · rw [Die.acceptRequest_opens hb]
      exact Die.openBatch_of_good (d := d.acceptNoted q) hread hdesc hnone
    · rw [Die.acceptRequest_opens hb]
      exact Die.openBatch_of_bad (d := d.acceptNoted q) hread hdesc
  · intro fin close
    have hnext : becomes (.coalesceBatchComplete b.key) s (opBatchComplete b.key s.die) := onLive_live _ hlive
    refine ⟨fun h => becomes_congr hnext (opBatchComplete_of_open hb h), fun st h hst => becomes_congr hnext ?_,
      fun r bs xs e f h hr => fun hread hwrite => becomes_congr hnext ?_⟩
    · rw [opBatchComplete_of_outcome hb h, show Die.completeRequest b st = fun e r => e.endRequest b r st from funext fun e => funext (Die.completeRequest_of_failed hst e)]
      rfl
    · rw [opBatchComplete_of_outcome hb h, hr]
      exact congrArg (Die.closeBatch · b.key) (Die.completeRequest_of_good hread hwrite)
  · intro b obj o part inc ends bad
    have hsignal : becomes (.signalPacket q.pid) s (opSignalPacket q.pid s.die) := onLive_live _ hlive
    have hwait : becomes (.waitPacket q.pid) s (opWaitPacket q.pid s.die) := onLive_live _ hlive
    have hbarrier : becomes (.barrierPacket q.pid) s (opBarrierPacket q.pid s.die) := onLive_live _ hlive
    have hflag : becomes (.flagWrite q.pid) s (opFlagWrite q.pid s.die) := onLive_live _ hlive
    have hstamp : becomes (.timestamp q.pid) s (opTimestamp q.pid s.die) := onLive_live _ hlive
    refine ⟨fun hq => (onLive_live (opNopPacket q.pid) hlive).trans (by rw [opNopPacket, hq]), fun hq h => becomes_congr hsignal (opSignalPacket_of_bad hq h),
      fun hq h => becomes_congr hwait (opWaitPacket_of_bad hq h), fun hq h => becomes_congr hbarrier (opBarrierPacket_of_bad hq h),
      fun hq h => becomes_congr hflag (opFlagWrite_of_bad hq h), fun hq h => becomes_congr hstamp (opTimestamp_of_bad hq h),
      fun hq hok => ?_, fun hq hok => ?_, fun hq hok => ?_, fun hq hok => becomes_congr hflag ?_, fun hq hok => ?_⟩
    · intro die away sent x
      refine ⟨fun h => becomes_congr hsignal (opSignalPacket_away hq hok h), fun h howner hslot => becomes_congr hsignal ?_,
        fun h howner hslot => becomes_congr hsignal ?_, fun h howner => becomes_congr hsignal ?_⟩
      · rw [opSignalPacket_here hq hok h, Die.localSignal_free _ _ _ howner hslot]
        rfl
      · rw [opSignalPacket_here hq hok h, Die.localSignal_occupied _ _ _ howner hslot]
      · rw [opSignalPacket_here hq hok h, Die.localSignal_foreign _ _ _ howner]
    · intro equal meet timeout w
      have hreg := becomes_congr hwait (opWaitPacket_registers hq hok)
      have hmeets : meets (field b 18 1 == 1) inc o.value = true ↔ meet := by simp [meets_iff, meet, equal]
      refine ⟨fun h => becomes_congr hreg (if_pos (bne_iff_ne.mpr h)), fun h hpoison => becomes_congr hreg ?_,
        fun h hpoison hmeet => becomes_congr hreg ?_, fun h hpoison hmeet => becomes_congr hreg ?_⟩
      · exact (if_neg (by rw [bne_iff_ne]; exact not_not_intro h)).trans (if_pos hpoison)
      · exact (if_neg (by rw [bne_iff_ne]; exact not_not_intro h)).trans ((if_neg (by simpa using hpoison)).trans (if_pos (hmeets.mpr hmeet)))
      · refine (if_neg (by rw [bne_iff_ne]; exact not_not_intro h)).trans ((if_neg (by simpa using hpoison)).trans ((if_neg (mt hmeets.mp hmeet)).trans ?_))
        simp only [beq_iff_eq]
        rfl
    · have hnext := becomes_congr hbarrier (opBarrierPacket_of_good hq hok)
      refine ⟨fun h => becomes_congr hnext (if_neg ?_), fun h hx => becomes_congr hnext (if_pos ?_)⟩
      · simp only [Bool.and_eq_true, beq_iff_eq, List.any_eq_true, not_and, not_exists, Bool.not_eq_true]
        intro hscope x hx
        exact (h.resolve_left (by rw [hscope]; decide)) x hx
      · simp only [Bool.and_eq_true, beq_iff_eq, List.any_eq_true]
        exact ⟨h, hx⟩
    · rw [opFlagWrite_of_good hq hok, flagBytes]
      simp only [beq_iff_eq]
      rfl
    · have hnext := becomes_congr hstamp (opTimestamp_of_good hq hok)
      exact ⟨fun h => becomes_congr hnext (if_pos (by simpa using h)), fun h => becomes_congr hnext (if_neg (by simpa using h))⟩
  · rw [Die.cpWrite, h]

end Sys2Proof.Machine
end

section
/-! PROOF. The copy class and its engines (spec 07, section "Copies"). -/

namespace Sys2Proof.Machine

/-! ### Packets -/

section
variable {d : Die} {q : Pkt} {op : Byte} (hq : d.startedPkt q.pid op = some q)
include hq

theorem Die.copyPacket_of_good (h : d.copyStatus op q.part.val q.body (field q.body 2 1 % 16) = .ok) :
    d.copyPacket q.pid op = if d.turn q then d.enqueue q else d := by
  rw [Die.copyPacket, hq]
  dsimp only
  rw [h]

theorem Die.copyPacket_of_bad (h : d.copyStatus op q.part.val q.body (field q.body 2 1 % 16) ≠ .ok) :
    d.copyPacket q.pid op = d.finish q.pid (d.copyStatus op q.part.val q.body (field q.body 2 1 % 16)) 0 0 := by
  rw [Die.copyPacket, hq]
  dsimp only
  split
  · exact absurd ‹_› h
  · rfl

theorem Die.rangePacket_of_good {codes : Nat} (h : rangeStatus q.body codes = .ok) : d.rangePacket q.pid op codes = if d.turn q then d.enqueue q else d := by
  rw [Die.rangePacket, hq]
  dsimp only
  rw [h]

theorem Die.rangePacket_of_bad {codes : Nat} (h : rangeStatus q.body codes ≠ .ok) : d.rangePacket q.pid op codes = d.finish q.pid (rangeStatus q.body codes) 0 0 := by
  rw [Die.rangePacket, hq]
  dsimp only
  split
  · exact absurd ‹_› h
  · rfl

end

/-- What a packet of the class does once its checks have a result, whichever packet it is. -/
theorem becomes_queued {i : Instr} {s : State} {q : Pkt} {st : Status} {t : Die} (hnext : becomes i s t)
    (hgood : st = .ok → t = if s.die.turn q then s.die.enqueue q else s.die) (hbad : st ≠ .ok → t = s.die.finish q.pid st 0 0) :
    (st = .ok → s.die.turn q = true → becomes i s (s.die.enqueue q)) ∧ (st = .ok → s.die.turn q = false → becomes i s s.die)
      ∧ (st ≠ .ok → becomes i s (s.die.finish q.pid st 0 0)) :=
  ⟨fun h hturn => becomes_congr hnext ((hgood h).trans (if_pos hturn)), fun h hturn => becomes_congr hnext ((hgood h).trans (if_neg (by simp [hturn]))),
    fun h => becomes_congr hnext (hbad h)⟩

/-! ### The next job of an engine -/

theorem Die.nextJob_of_stalled {d : Die} {e : Nat} {j : CopyJob} (h : (d.engine e).jobs.find? (·.stalled) = some j) : d.nextJob e = some j := by
  rw [Die.nextJob]
  dsimp only
  rw [h]

section
variable {d : Die} {e : Nat} {i j : CopyJob} (hjobs : (d.engine e).jobs = [i, j]) (hi : i.stalled = false) (hj : j.stalled = false)
  (hlt : d.jobRing i < d.jobRing j)
include hjobs hi hj hlt

theorem Die.nextJob_of_unserved (h : (d.engine e).served = none) : d.nextJob e = some i := by
  simp [Die.nextJob, hjobs, hi, hj, h, Nat.not_lt.mpr hlt.le]

theorem Die.nextJob_of_served {r : Nat} (h : (d.engine e).served = some r) :
    (r < d.jobRing i → d.nextJob e = some i) ∧ (d.jobRing i ≤ r → r < d.jobRing j → d.nextJob e = some j) ∧ (d.jobRing j ≤ r → d.nextJob e = some i) := by
  refine ⟨fun hr => ?_, fun hir hrj => ?_, fun hr => ?_⟩
  · simp [Die.nextJob, hjobs, hi, hj, h, hr, hr.trans hlt, Nat.not_lt.mpr hlt.le]
  · simp [Die.nextJob, hjobs, hi, hj, h, hrj, Nat.not_lt.mpr hir]
  · simp [Die.nextJob, hjobs, hi, hj, h, Nat.not_lt.mpr hr, Nat.not_lt.mpr (hlt.le.trans hr), Nat.not_lt.mpr hlt.le]

end

/-! ### Chunks -/

theorem length_patternBytes (w n : Nat) : (patternBytes w n).length = n := by simp [patternBytes]

theorem getElem?_patternBytes {n i : Nat} (w : Nat) (h : i < n) : (patternBytes w n)[i]? = some (BitVec.ofNat 8 (w / 2 ^ (8 * (i % 4)) % 256)) := by
  simp [patternBytes, h]

section
variable {d f g : Die} {e : Nat} {j : CopyJob} {q : Pkt} {bs xs : List Byte} (hlost : d.cache.lost = []) (hq : d.pkt? q.pid = some q) (hok : q.status = .ok)
  (hmay : j.stalled = true ∨ d.mayUse q.part.val 2 = true)
  (hread : (if j.stalled then d else d.useTokens q.part.val 2 (min 65536 ((planOf q.opcode q.body).bytes - j.off))).chunkRead
    { srcCopy e q.pid q.part.val with id := j.written } q (planOf q.opcode q.body) j.run j.off (min 65536 ((planOf q.opcode q.body).bytes - j.off)) = (.ok bs, f))
  (hwrite : f.chunkWrite { srcCopy e q.pid q.part.val with id := j.written } q (planOf q.opcode q.body) j.run j.off j.written bs = (.ok xs, g))
include hlost hq hok hmay hread hwrite

/-- A chunk that has been read and written. -/
theorem Die.copyChunk_of_written : d.copyChunk e j q
    = (let p := planOf q.opcode q.body
       let n := min 65536 (p.bytes - j.off)
       let done := (g.doneWith (.pkt q.pid)).moved e n
       if decide (p.bytes ≤ j.off + n) && decide (p.runs ≤ j.run + 1) then done.endJob e q.pid .ok (j.written + n)
       else done.onJob e q.pid fun x => { x with
         run := if decide (p.bytes ≤ j.off + n) then x.run + 1 else x.run, off := if decide (p.bytes ≤ j.off + n) then 0 else x.off + n,
         written := x.written + n, stalled := false }) := by
  rw [Die.copyChunk]
  dsimp only
  rw [Die.takeErrors_of_no_lost hlost, hq]
  dsimp only
  rw [if_neg (by simp [hok]), if_neg (by rcases hmay with h | h <;> simp [h]), hread]
  dsimp only
  rw [hwrite]

end

/-- Settles O25. -/
theorem copies : Obligations.Copies := by
  refine ⟨fun s q hlive => ?_, fun s e hlive => ?_, fun d e i j hjobs hi hj hlt => ?_, fun d e j h => Die.nextJob_of_stalled h, fun d x q k off n => ?_,
    fun d f g e j q bs xs => ?_⟩
  · intro x queued goes copy
    have hcopy : ∀ {i : Instr} {op : Byte}, becomes i s (s.die.copyPacket q.pid op) → copy i op := fun hnext hq =>
      becomes_queued hnext (Die.copyPacket_of_good hq) (Die.copyPacket_of_bad hq)
    exact ⟨hcopy (onLive_live (opCopy q.pid) hlive), hcopy (onLive_live (opCopyInline q.pid) hlive), hcopy (onLive_live (opFill q.pid) hlive),
      hcopy (onLive_live (opCopyStrided q.pid) hlive),
      fun hq => becomes_queued (onLive_live (opPrefetchRange q.pid) hlive) (Die.rangePacket_of_good hq) (Die.rangePacket_of_bad hq),
      fun hq => becomes_queued (onLive_live (opAdvise q.pid) hlive) (Die.rangePacket_of_good hq) (Die.rangePacket_of_bad hq)⟩
  · have hnext : becomes (.copyChunk e) s (opCopyChunk e s.die) := onLive_live _ hlive
    refine ⟨fun h => becomes_congr hnext (by rw [opCopyChunk, h]), fun j q hj hq => ?_⟩
    intro d
    refine becomes_congr hnext ?_
    rw [opCopyChunk, hj]
    dsimp only
    rw [hq]
    simp only [Bool.or_eq_true, beq_iff_eq]
    rfl
  · exact ⟨Die.nextJob_of_unserved hjobs hi hj hlt, fun r hr => Die.nextJob_of_served hjobs hi hj hlt hr⟩
  · refine ⟨fun h => ?_, fun h => ⟨_, if_pos (by simp [h]), length_patternBytes _ _, fun i hi => getElem?_patternBytes _ hi⟩⟩
    rw [Die.chunkRead, if_neg (by simp [h]), if_pos (by simp [h])]
  · intro p n src done hlost hq hok hmay hread hwrite
    have hchunk := Die.copyChunk_of_written hlost hq hok hmay hread hwrite
    refine ⟨fun hbytes hruns => hchunk.trans (if_pos ?_), fun hbytes hruns => hchunk.trans ((if_neg ?_).trans ?_), fun hbytes => hchunk.trans ((if_neg ?_).trans ?_)⟩
    · simpa using ⟨hbytes, hruns⟩
    · simp [p, n] at hbytes hruns ⊢
      omega
    · have : decide (p.bytes ≤ j.off + n) = true := by simpa using hbytes
      change done.onJob e q.pid (fun x => { x with
         run := if decide (p.bytes ≤ j.off + n) then x.run + 1 else x.run, off := if decide (p.bytes ≤ j.off + n) then 0 else x.off + n,
         written := x.written + n, stalled := false }) = _
      rw [this]
      rfl
    · simp [p, n] at hbytes ⊢
      omega
    · have : decide (p.bytes ≤ j.off + n) = false := by simpa using hbytes
      change done.onJob e q.pid (fun x => { x with
         run := if decide (p.bytes ≤ j.off + n) then x.run + 1 else x.run, off := if decide (p.bytes ≤ j.off + n) then 0 else x.off + n,
         written := x.written + n, stalled := false }) = _
      rw [this]
      rfl

end Sys2Proof.Machine
end

section
/-! PROOF. Reduction slots: how one is armed, takes its local input, sends and writes its result, and times out (spec 06, sections "Reduction slots" and
"Tick windows"). -/

namespace Sys2Proof.Machine

/-! ### Arming -/

/-- The slot as a REDUCE_SEGMENT packet arms it. -/
def Die.slotOf (d : Die) (q : Pkt) : RuSlot :=
  let b := q.body
  { pid := q.pid, part := q.part, total := field b 20 4, lo := field b 24 4, hi := field b 28 4, localLo := field b 32 4, localHi := field b 36 4,
    inputs := field b 40 2, elements := field b 44 4, got := if field b 32 4 < field b 36 4 then [(field b 32 4, field b 36 4)] else [],
    partials := [], armTick := d.tick.count, done := decide (field b 36 4 ≤ field b 32 4),
    destDone := sub (field b 18 2) 5 1 == 0, fwd := (List.range (sub (field b 18 2) 2 3)).map (fwdOf b) }

/-- The die with the packet's slot armed. -/
def Die.armed (d : Die) (q : Pkt) : Die :=
  { d with ru := { d.ru with slots := assocPut d.ru.slots (field q.body 16 2 % 1024) (d.slotOf q), waiting := d.ru.waiting.filter (· != q.pid) } }.onPkt q.pid fun x =>
    { x with phase := .running }

theorem Die.armed_of_no_early {d : Die} {q : Pkt} (h : ∀ e ∈ d.ru.early, e.msg.slot.val ≠ field q.body 16 2 % 1024) : d.arm q = d.armed q := by
  have hnone : (d.ru.early.filter fun e => e.msg.slot.val == field q.body 16 2 % 1024) = [] := by simpa using h
  have hall : (d.ru.early.filter fun e => e.msg.slot.val != field q.body 16 2 % 1024) = d.ru.early := by simpa using h
  rw [Die.arm]
  dsimp only [Die.setSlot, Die.onRu]
  rw [hnone, hall]
  rfl

/-- A packet of the partition's waits for the slot. -/
def Die.waitsFor (d : Die) (n w : Nat) : Bool := match d.pkt? w with | some x => field x.body 16 2 % 1024 == n | none => false

theorem Die.waitsFor_iff (d : Die) (n w : Nat) : d.waitsFor n w = true ↔ ∃ x, d.pkt? w = some x ∧ field x.body 16 2 % 1024 = n := by
  rw [Die.waitsFor]
  split <;> simp_all

section
variable {d : Die} {q : Pkt} (hq : d.pkt? q.pid = some q) (hop : q.opcode = 0x20)
include hq hop

theorem opReduceSegment_of_bad (hphase : q.phase = .started) (h : d.reduceStatus q.part.val q.body ≠ .ok) :
    opReduceSegment q.pid d = d.finish q.pid (d.reduceStatus q.part.val q.body) 0 0 := by
  rw [opReduceSegment, hq]
  dsimp only
  rw [if_neg (by simp [hop]), if_pos (by simp [hphase])]
  split
  · exact absurd ‹_› h
  · rfl

section
variable (hphase : q.phase = .started) (hok : d.reduceStatus q.part.val q.body = .ok)
include hphase hok

theorem opReduceSegment_of_later (h : d.armsLater q = true) : opReduceSegment q.pid d = d := by
  rw [opReduceSegment, hq]
  dsimp only
  rw [if_neg (by simp [hop]), if_pos (by simp [hphase]), hok]
  exact if_pos h

/-- The local input of the packet's slot, if the slot is its own. -/
def Die.startLocal (d : Die) (q : Pkt) : Die :=
  match d.slot? (field q.body 16 2 % 1024) with | some s => if s.pid == q.pid then d.takeLocal q (field q.body 16 2 % 1024) s else d | none => d

variable (hnow : d.armsLater q = false)
include hnow

theorem opReduceSegment_of_free (hfree : d.slot? (field q.body 16 2 % 1024) = none)
    (hfirst : ∀ w ∈ d.ru.waiting, d.waitsFor (field q.body 16 2 % 1024) w = false) : opReduceSegment q.pid d = (d.arm q).startLocal q := by
  rw [opReduceSegment, hq]
  dsimp only
  rw [if_neg (by simp [hop]), if_pos (by simp [hphase]), hok]
  dsimp only
  have hnobody : (d.ru.waiting.any fun w => d.waitsFor (field q.body 16 2 % 1024) w) = false := by simpa using hfirst
  rw [if_neg (by simp [hnow]), if_neg]
  · rfl
  · rw [hfree]
    exact Bool.eq_false_iff.mp hnobody

theorem opReduceSegment_of_taken
    (htaken : d.slot? (field q.body 16 2 % 1024) ≠ none ∨ ∃ w ∈ d.ru.waiting, d.waitsFor (field q.body 16 2 % 1024) w = true) :
    opReduceSegment q.pid d
      = ((d.onPkt q.pid fun x => { x with phase := .running }).onRu fun u => { u with waiting := u.waiting ++ [q.pid] }).startLocal q := by
  rw [opReduceSegment, hq]
  dsimp only
  rw [if_neg (by simp [hop]), if_pos (by simp [hphase]), hok]
  dsimp only
  rw [if_neg (by simp [hnow]), if_pos]
  · rfl
  · rcases htaken with h | ⟨w, hw, h⟩
    · simp [Option.isSome_iff_ne_none, h]
    · rw [Bool.or_eq_true]
      exact .inr (List.any_eq_true.mpr ⟨w, hw, h⟩)

end

theorem opReduceSegment_of_running {x : RuSlot} (hphase : q.phase = .running) (hx : d.slot? (field q.body 16 2 % 1024) = some x) (hpid : x.pid = q.pid) :
    opReduceSegment q.pid d = d.takeLocal q (field q.body 16 2 % 1024) x := by
  rw [opReduceSegment, hq]
  dsimp only
  rw [if_neg (by simp [hop]), if_neg (by simp [hphase]), hx]
  exact if_pos (by simp [hpid, hphase])

end

theorem Die.startLocal_armed (d : Die) (q : Pkt) : (d.armed q).startLocal q = (d.armed q).takeLocal q (field q.body 16 2 % 1024) (d.slotOf q) := by
  have hslot : (d.armed q).slot? (field q.body 16 2 % 1024) = some (d.slotOf q) := assoc_assocPut_same _ _ _
  rw [Die.startLocal, hslot]
  exact if_pos (by simp [Die.slotOf])

theorem Die.startLocal_of_foreign {d : Die} {q : Pkt} (h : ∀ x, d.slot? (field q.body 16 2 % 1024) = some x → x.pid ≠ q.pid) : d.startLocal q = d := by
  rw [Die.startLocal]
  split
  · next s hs => exact if_neg (by simpa using h s hs)
  · rfl

/-! ### Completion -/

section
variable {d : Die} {slot : Fin 1024} {x : RuSlot} (hx : d.slot? slot.val = some x)
include hx

theorem opSlotComplete_of_open (h : x.root = none) : opSlotComplete slot d = d := by
  rw [opSlotComplete, hx]
  dsimp only
  rw [h]

theorem opPartialSend_of_open (h : x.root = none) (n : Fin 4) : opPartialSend slot n d = d := by
  rw [opPartialSend, hx]
  dsimp only
  rw [h]

section
variable {r : Partial} {q : Pkt} (hroot : x.root = some r) (hq : d.pkt? x.pid = some q)
include hroot hq

theorem opSlotComplete_writes {e : Die} {bs : List Byte} (hdest : x.destDone = false)
    (hwrite : d.writeAll (srcRu q.pid q.part.val) (field q.body 64 8) (wordBytes r.vals) {} = (.ok bs, e)) :
    opSlotComplete slot d = (e.doneWith (.pkt q.pid)).setSlot slot.val { x with destDone := true } := by
  rw [opSlotComplete, hx]
  dsimp only
  rw [hroot, hq]
  dsimp only
  rw [if_pos (by simp [hdest]), hwrite]

variable (hdest : x.destDone = true)
include hdest

theorem opSlotComplete_waits (h : (∃ f ∈ x.fwd, f.sent = false) ∨ d.unacked (.pkt q.pid) = true) : opSlotComplete slot d = d := by
  rw [opSlotComplete, hx]
  dsimp only
  rw [hroot, hq]
  dsimp only
  rw [if_neg (by simp [hdest]), if_neg]
  rcases h with ⟨f, hf, hsent⟩ | h
  · simp only [Bool.and_eq_true, List.all_eq_true]
    exact fun ⟨hall, _⟩ => by simp [hall f hf] at hsent
  · simp [h]

variable (hsent : ∀ f ∈ x.fwd, f.sent = true) (hacked : d.unacked (.pkt q.pid) = false)
include hsent hacked

theorem opSlotComplete_ends_empty (h : x.inputs * x.elements = 0) : opSlotComplete slot d = d.endSlot slot.val q.pid .ok := by
  rw [opSlotComplete, hx]
  dsimp only
  rw [hroot, hq]
  dsimp only
  rw [if_neg (by simp [hdest]), if_pos (by simpa [hacked] using hsent), if_pos (by simp [h])]

theorem opSlotComplete_ends {e : Die} {bs : List Byte} (h : x.inputs * x.elements ≠ 0)
    (hwrite : (d.freshBytes (x.inputs * x.elements * 4)).2.writeAll (srcRu q.pid q.part.val) (field q.body 72 8) (d.freshBytes (x.inputs * x.elements * 4)).1 {}
      = (.ok bs, e)) : opSlotComplete slot d = e.endSlot slot.val q.pid .ok := by
  rw [opSlotComplete, hx]
  dsimp only
  rw [hroot, hq]
  dsimp only
  rw [if_neg (by simp [hdest]), if_pos (by simpa [hacked] using hsent), if_neg (by simpa using h), hwrite]

end

/-! ### Forwards -/

section
variable {r : Partial} {f : FwdSend} {n : Fin 4} (hroot : x.root = some r) (hf : x.fwd[n.val]? = some f)
include hroot hf

theorem opPartialSend_of_sent (h : f.sent = true) : opPartialSend slot n d = d := by
  rw [opPartialSend, hx]
  dsimp only
  rw [hroot, hf]
  exact if_pos h

/-- The message of a partial's elements from `first` on to a forward target. -/
def RuSlot.message (x : RuSlot) (r : Partial) (f : FwdSend) (h : MsgHead) (first : Nat) (vals : List W32) : PartialMsg :=
  { head := h, slot := f.slot, lo := r.lo, hi := r.hi, total := x.total, elements := x.elements, first := first, vals := vals }

/-- Forward target `n` of a slot has been sent to. -/
def Die.noteSent (d : Die) (slot : Fin 1024) (n : Fin 4) (f : FwdSend) : Die :=
  match d.slot? slot.val with
  | some y => d.setSlot slot.val { y with fwd := y.fwd.set n.val { f with sent := true } }
  | none => d

/-- The message of a whole partial to a slot of its own die. -/
def Die.ownMessage (d : Die) (x : RuSlot) (r : Partial) (f : FwdSend) : PartialMsg :=
  x.message r f { port := .peer 0, src := d.here, dst := d.here, epoch := d.epoch, part := x.part, tag := 0, window := none } 0 r.vals

variable (hsent : f.sent = false)
include hsent

theorem opPartialSend_here {e : Die} (hdst : f.dst = d.here) (howner : d.slotOwner f.slot.val = some x.part.val)
    (harrive : d.arrive (d.ownMessage x r f) true = some e) : opPartialSend slot n d = e.noteSent slot n f := by
  rw [opPartialSend, hx]
  dsimp only
  rw [hroot, hf]
  dsimp only
  rw [if_neg (by simp [hsent]), if_pos (by simp [hdst]), if_neg (by simp [howner]),
    show d.arrive { head := _, slot := _, lo := _, hi := _, total := _, elements := _, first := _, vals := _ } true = some e from harrive]
  rfl

theorem opPartialSend_foreign (hdst : f.dst = d.here) (howner : d.slotOwner f.slot.val ≠ some x.part.val) :
    opPartialSend slot n d = (d.dropPartial 7 (d.ownMessage x r f) true).noteSent slot n f := by
  rw [opPartialSend, hx]
  dsimp only
  rw [hroot, hf]
  dsimp only
  rw [if_neg (by simp [hsent]), if_pos (by simp [hdst]), if_pos (by simpa using howner)]
  rfl

theorem opPartialSend_away (hdst : f.dst ≠ d.here) : opPartialSend slot n d
    = ((fragments r x.elements).foldl (fun e y =>
        match e.remote { req := .pkt x.pid, id := 0 } x.part.val f.dst none none false fun h => .partial_ (x.message r f h y.1 y.2) with
        | (none, e) => e
        | (some st, e) => e.pktError x.pid st) d).noteSent slot n f := by
  rw [opPartialSend, hx]
  dsimp only
  rw [hroot, hf]
  dsimp only
  rw [if_neg (by simp [hsent]), if_neg (by simpa using hdst)]
  rfl

end

/-! ### Time -/

theorem opSlotTimeout_eq : opSlotTimeout slot d
    = if x.root.isNone && decide (x.armTick + orOne (d.get RU_TIMEOUT_SLOT) ≤ d.tick.count) then (d.failSlot slot.val x.pid .aborted).ruError 6 slot.val none else d := by
  rw [opSlotTimeout, hx]

end

/-- Settles O26. -/
theorem reductionSlots : Obligations.ReductionSlots := by
  refine ⟨fun s q hlive hq hop => ?_, fun d e q n x vs st r => ?_, fun s slot x hlive hx => ?_, fun s n e hlive he => ?_⟩
  · intro b n d slot running armed waits
    have hnext : becomes (.reduceSegment q.pid) s (opReduceSegment q.pid s.die) := onLive_live _ hlive
    have hslot : slot = s.die.slotOf q := by simp only [Die.slotOf, beq_eq_decide]; rfl
    refine ⟨fun hphase => ⟨fun h => becomes_congr hnext (opReduceSegment_of_bad hq hop hphase h), fun hok => ⟨fun h => becomes_congr hnext
      (opReduceSegment_of_later hq hop hphase hok h), fun hnow hfree hfirst hearly => becomes_congr hnext ?_, fun hnow hown htaken => becomes_congr hnext ?_⟩⟩,
      fun x hphase hx hpid => becomes_congr hnext (opReduceSegment_of_running hq hop hphase hx hpid)⟩
    · have hnobody : ∀ w ∈ d.ru.waiting, d.waitsFor n w = false := fun w hw => Bool.eq_false_iff.mpr (mt (Die.waitsFor_iff d n w).mp (hfirst w hw))
      rw [opReduceSegment_of_free hq hop hphase hok hnow hfree hnobody, Die.armed_of_no_early hearly, Die.startLocal_armed, hslot]
      simp only [armed, hslot]
      rfl
    · have hsome : d.slot? n ≠ none ∨ ∃ w ∈ d.ru.waiting, d.waitsFor n w = true :=
        htaken.imp_right fun ⟨w, hw, h⟩ => ⟨w, hw, (Die.waitsFor_iff d n w).mpr h⟩
      rw [opReduceSegment_of_taken hq hop hphase hok hnow hsome]
      exact Die.startLocal_of_foreign hown
  · refine ⟨fun h => if_pos h, fun h hread => ?_⟩
    rw [Die.takeLocal, if_neg (by simp [h]), hread]
    refine ⟨?_, ?_, ?_⟩
    · rintro rfl hx
      dsimp only
      rw [hx]
    · rintro rfl
      rfl
    · rintro rfl
      rfl
  · intro slots ends
    have hcomplete : becomes (.reduceSlotComplete slot) s (opSlotComplete slot s.die) := onLive_live _ hlive
    have hsend : ∀ n, becomes (.reducePartialSend slot n) s (opPartialSend slot n s.die) := fun n => onLive_live _ hlive
    have htime : becomes (.slotTimeout slot) s (opSlotTimeout slot s.die) := onLive_live _ hlive
    refine ⟨fun r q hroot hq => ⟨fun hdest d bs hwrite => becomes_congr hcomplete (opSlotComplete_writes hx hroot hq hdest hwrite),
        fun hdest hsent hacked => ⟨fun h => becomes_congr hcomplete (opSlotComplete_ends_empty hx hroot hq hdest hsent hacked h),
          fun h d bs hwrite => becomes_congr hcomplete (opSlotComplete_ends hx hroot hq hdest hsent hacked h hwrite)⟩,
        fun hdest h => becomes_congr hcomplete (opSlotComplete_waits hx hroot hq hdest h)⟩,
      fun h => becomes_congr hcomplete (opSlotComplete_of_open hx h), fun n r f hroot hf => ?_,
      fun hroot h => becomes_congr htime ((opSlotTimeout_eq hx).trans (if_pos ?_)), fun h => becomes_congr htime ((opSlotTimeout_eq hx).trans (if_neg ?_))⟩
    · exact ⟨fun h => becomes_congr (hsend n) (opPartialSend_of_sent hx hroot hf h),
        fun d hsent hdst howner harrive => becomes_congr (hsend n) (opPartialSend_here hx hroot hf hsent hdst howner harrive),
        fun hsent hdst howner => becomes_congr (hsend n) (opPartialSend_foreign hx hroot hf hsent hdst howner),
        fun hsent hdst => becomes_congr (hsend n) (opPartialSend_away hx hroot hf hsent hdst)⟩
    · simpa [hroot, slots] using h
    · rw [Bool.and_eq_true, Option.isNone_iff_eq_none, decide_eq_true_eq]
      rintro ⟨hnone, hold⟩
      exact h.elim (fun h => h hnone) fun h => absurd hold (by omega)
  · intro left waited
    have hnext : becomes (.earlyArrivalTimeout n) s (opEarlyTimeout n s.die) := onLive_live _ hlive
    refine ⟨fun h => becomes_congr hnext ?_, fun h => becomes_congr hnext ?_⟩
    · rw [opEarlyTimeout, he]
      dsimp only
      rw [if_pos h]
      simp only [beq_iff_eq]
      rfl
    · rw [opEarlyTimeout, he]
      exact if_neg h

end Sys2Proof.Machine
end

section
/-! PROOF. Partials that arrive at a slot, and siblings that combine (spec 05, section "Splitting K"; spec 06, section "Reduction slots"). -/

namespace Sys2Proof.Machine

/-! ### Admission -/

section
variable {d : Die} {h : MsgHead} {cls bytes : Nat} {part : Option Nat} {go : Die → Option Die}

theorem Die.admitted_of_pass (hpass : d.portCheck h cls part = .pass) :
    d.admitted h cls bytes part go = match go d with | some e => e.freeUnits h.port cls bytes | none => d := by
  simp only [Die.admitted, hpass] <;> rfl

theorem Die.admitted_of_not_pass (hpass : d.portCheck h cls part ≠ .pass) :
    d.admitted h cls bytes part go = (d.notPassed h cls (d.portCheck h cls part)).freeUnits h.port cls bytes := by
  rw [Die.admitted]
  split
  · exact absurd ‹_› hpass
  · rfl

end

/-- The head of a partial's message, with what its length shows (R451). -/
def partialSeen (m : PartialMsg) : MsgHead := judged m.head (.partial_ m)

/-- The check of a partial's message at its port (R431, R435). -/
def Die.partialCheck (d : Die) (m : PartialMsg) : Admit :=
  d.portCheck (partialSeen m) 6 (match m.head.port with | .opt _ => d.slotOwner m.slot.val | .peer _ => none)

/-- The units of a partial's message are free again. -/
def Die.freePartial (d : Die) (m : PartialMsg) : Die := d.freeUnits (partialSeen m).port 6 (msgBytes (.partial_ m))

/-- The partial acts for the partition of its window. -/
def partialFor (m : PartialMsg) (p : Nat) : PartialMsg := { m with head := { m.head with part := ⟨p % 16, Nat.mod_lt _ (by decide)⟩ } }

section
variable {m : PartialMsg} {d : Die}

theorem opPartialReceive_of_not_pass (h : d.partialCheck m ≠ .pass) :
    opPartialReceive m d = (d.notPassed (partialSeen m) 6 (d.partialCheck m)).freePartial m := Die.admitted_of_not_pass h

variable (hpass : d.partialCheck m = .pass)
include hpass

theorem opPartialReceive_of_newer (h : d.fenceOf m.head.epoch = .newer) : opPartialReceive m d = d := by
  rw [opPartialReceive]
  refine (Die.admitted_of_pass (h := partialSeen m) hpass).trans ?_
  dsimp only
  rw [h]

theorem opPartialReceive_of_older (h : d.fenceOf m.head.epoch = .older) : opPartialReceive m d = (d.rejectOld m.head true).freePartial m := by
  rw [opPartialReceive]
  refine (Die.admitted_of_pass (h := partialSeen m) hpass).trans ?_
  dsimp only
  rw [h]
  rfl

variable (hsame : d.fenceOf m.head.epoch = .same)
include hsame

theorem opPartialReceive_of_no_window (h : d.reduceWindowOf m = none) :
    opPartialReceive m d = (if m.first = 0 then d.dropPartial 7 m false else d).freePartial m := by
  rw [opPartialReceive]
  refine (Die.admitted_of_pass (h := partialSeen m) hpass).trans ?_
  dsimp only
  rw [hsame]
  dsimp only
  rw [h]
  simp only [beq_iff_eq]
  rfl

variable {p : Nat} (hwindow : d.reduceWindowOf m = some p)
include hwindow

theorem opPartialReceive_of_full (h : d.arrive (partialFor m p) false = none) : opPartialReceive m d = d := by
  rw [opPartialReceive]
  refine (Die.admitted_of_pass (h := partialSeen m) hpass).trans ?_
  dsimp only
  rw [hsame]
  dsimp only
  rw [hwindow]
  dsimp only
  rw [show d.arrive { m with head := { m.head with part := ⟨p % 16, Nat.mod_lt _ (by decide)⟩ } } false = none from h]

theorem opPartialReceive_of_arrival {e : Die} (h : d.arrive (partialFor m p) false = some e) : opPartialReceive m d
    = (if e.get RU_DROP_DROPPED = d.get RU_DROP_DROPPED then e.respond (partialFor m p).head .ok [] else e).freePartial m := by
  rw [opPartialReceive]
  refine (Die.admitted_of_pass (h := partialSeen m) hpass).trans ?_
  dsimp only
  rw [hsame]
  dsimp only
  rw [hwindow]
  dsimp only
  rw [show d.arrive { m with head := { m.head with part := ⟨p % 16, Nat.mod_lt _ (by decide)⟩ } } false = some e from h]
  simp only [beq_iff_eq]
  rfl

end

/-! ### Delivery -/

theorem Die.arrive_of_armed {d : Die} {m : PartialMsg} {x : RuSlot} (h : d.slot? m.slot.val = some x) (v : Bool) : d.arrive m v = some (d.deliver m v) :=
  if_pos (by simp [h])

/-- A partial that finds no sibling stays as it is, its NaNs canonical. -/
theorem RuSlot.put_of_empty {x : RuSlot} (h : x.partials = []) (p : Partial) : x.put p = { x with partials := [{ p with vals := p.vals.map canon32 }] } := by
  rw [RuSlot.put, h]
  rfl

/-- Two siblings combine into their node (R182). -/
theorem RuSlot.put_of_sibling {x : RuSlot} {p q : Partial} (h : x.partials = [p]) (hp : p.vals.length = x.elements) (hadj : p.hi = q.lo)
    (hnode : isNode x.total p.lo q.hi = true) (hmid : q.lo = p.lo + pow2Above (q.hi - p.lo) / 2) :
    (x.put q).partials = [{ src := none, lo := p.lo, hi := q.hi, vals := List.zipWith addRne p.vals (q.vals.map canon32) }] := by
  have hfound : [p].find? (fun r => x.whole r && ((r.hi == q.lo && (isNode x.total r.lo q.hi && q.lo == r.lo + pow2Above (q.hi - r.lo) / 2))
      || (q.hi == r.lo && (isNode x.total q.lo r.hi && r.lo == q.lo + pow2Above (r.hi - q.lo) / 2)))) = some p := by
    have hwhole : x.whole p = true := by simp [RuSlot.whole, hp]
    have hok : (p.hi == q.lo && (isNode x.total p.lo q.hi && q.lo == p.lo + pow2Above (q.hi - p.lo) / 2)) = true := by
      simp only [Bool.and_eq_true, beq_iff_eq]
      exact ⟨hadj, hnode, hmid⟩
    rw [List.find?_cons_of_pos]
    simp only [hwhole, hok, Bool.true_or, Bool.and_self]
  rw [RuSlot.put, h]
  dsimp only [List.length_singleton]
  rw [RuSlot.combine]
  dsimp only
  rw [hfound]
  dsimp only
  rw [if_pos (by simpa using hadj), List.erase_cons_head]
  rfl

section
variable {d : Die} {m : PartialMsg} {x : RuSlot} (hx : d.slot? m.slot.val = some x)
include hx

section
variable (hfirst : m.first = 0)
include hfirst

theorem Die.deliver_of_refused {cause : Nat} (h : x.refuses m = some cause) (v : Bool) : d.deliver m v = d.dropPartial cause m v := by
  rw [Die.deliver, hx]
  dsimp only
  rw [if_pos (by simp [hfirst]), h]

theorem Die.deliver_of_accepted (h : x.refuses m = none) (v : Bool) : d.deliver m v
    = (let p : Partial := { src := some m.head.src, lo := m.lo, hi := m.hi, vals := m.vals }
       let y := { x with got := x.got ++ [(m.lo, m.hi)] }
       d.setSlot m.slot.val (if y.whole p then y.put p else { y with partials := y.partials ++ [p] })) := by
  rw [Die.deliver, hx]
  dsimp only
  rw [if_pos (by simp [hfirst]), h]

end

section
variable {p : Partial} (hfirst : m.first ≠ 0) (hp : x.partials = [p]) (hsrc : p.src = some m.head.src) (hlo : p.lo = m.lo) (hhi : p.hi = m.hi)
  (hlen : p.vals.length = m.first) (hopen : m.first < x.elements)
include hfirst hp hsrc hlo hhi hlen hopen

/-- Why a later message of a partial fails (R181). -/
def RuSlot.refusesMore (x : RuSlot) (m : PartialMsg) : Option Nat :=
  if m.head.part != x.part then some 7 else if m.total != x.total || m.elements != x.elements then some 3 else none

theorem Die.deliver_more (v : Bool) : d.deliver m v
    = match x.refusesMore m with
      | some cause => (d.setSlot m.slot.val { x with partials := [], got := x.got.erase (p.lo, p.hi) }).dropPartial cause m v
      | none =>
        let q := { p with vals := p.vals ++ m.vals }
        let y := { x with partials := [] }
        d.setSlot m.slot.val (if y.whole q then y.put q else { y with partials := [q] }) := by
  have hfound : [p].find? (fun r => r.src == some m.head.src && r.lo == m.lo && r.hi == m.hi && !x.whole r) = some p := by
    have hwhole : x.whole p = false := by
      simp only [RuSlot.whole, hlen, beq_eq_false_iff_ne]
      omega
    rw [List.find?_cons_of_pos]
    simp [hsrc, hlo, hhi, hwhole]
  rw [Die.deliver, hx]
  dsimp only
  rw [if_neg (by simpa using hfirst), hp, hfound]
  dsimp only
  rw [RuSlot.refusesMore, List.erase_cons_head]
  rcases (if m.head.part != x.part then some 7 else if m.total != x.total || m.elements != x.elements then some 3 else none : Option Nat) with _ | cause
  · dsimp only
    rw [if_pos (by simp [hlen])]
    rfl
  · rfl

end
end

/-- Settles O27. -/
theorem partials : Obligations.Partials := by
  refine ⟨fun s m hlive => ?_, fun d m x p v hx => ?_, fun x p q h hp hq hadj hnode hmid => RuSlot.put_of_sibling h hp hadj hnode hmid⟩
  · intro d h n check free
    have hnext : becomes (.reducePartialReceive m) s (opPartialReceive m s.die) := by
      change onDie _ s = _
      rw [onDie_eq, fromDie_live hlive]
    exact ⟨fun hpass => becomes_congr hnext (opPartialReceive_of_not_pass hpass), fun hpass h => becomes_congr hnext (opPartialReceive_of_newer hpass h),
      fun hpass h => becomes_congr hnext (opPartialReceive_of_older hpass h),
      fun hpass hsame => ⟨fun h => becomes_congr hnext (opPartialReceive_of_no_window hpass hsame h),
        fun p hwindow => ⟨fun h => becomes_congr hnext (opPartialReceive_of_full hpass hsame hwindow h),
          fun e h => becomes_congr hnext (opPartialReceive_of_arrival hpass hsame hwindow h)⟩⟩⟩
  · intro set whole
    refine ⟨fun hfirst => ⟨fun cause h => ?_, fun h hlen hempty => ?_, fun h hlen => ?_⟩, fun hfirst hp hsrc hlo hhi hlen hopen => ?_⟩
    · rw [Die.arrive_of_armed hx, Die.deliver_of_refused hx hfirst h]
    · rw [Die.arrive_of_armed hx, Die.deliver_of_accepted hx hfirst h]
      dsimp only
      rw [if_pos (by simpa [RuSlot.whole] using hlen), RuSlot.put_of_empty (by exact hempty)]
      rfl
    · rw [Die.arrive_of_armed hx, Die.deliver_of_accepted hx hfirst h]
      dsimp only
      rw [if_neg (by simpa [RuSlot.whole] using hlen.ne)]
      rfl
    · intro same
      have hdeliver := Die.deliver_more hx hfirst hp hsrc hlo hhi hlen hopen v
      refine ⟨fun hsame hfull => ?_, fun hother => ?_⟩
      · obtain ⟨hpart, htotal, helements⟩ := hsame
        have hgood : x.refusesMore m = none := by simp [RuSlot.refusesMore, hpart, htotal, helements]
        rw [Die.arrive_of_armed hx, hdeliver, hgood]
        dsimp only
        rw [if_pos (by simp [RuSlot.whole, hlen, hfull]), RuSlot.put_of_empty rfl]
        dsimp only [whole]
        rw [← hsrc, ← hlo, ← hhi]
        rfl
      · have hbad : ∃ cause, x.refusesMore m = some cause := by
          rw [RuSlot.refusesMore]
          split
          · exact ⟨_, rfl⟩
          split
          · exact ⟨_, rfl⟩
          · next hpart hrest =>
            simp only [bne_iff_ne, ne_eq, Decidable.not_not, Bool.or_eq_true, not_or] at hpart hrest
            exact absurd ⟨hpart, hrest⟩ hother
        obtain ⟨cause, hcause⟩ := hbad
        refine ⟨cause, ?_⟩
        rw [Die.arrive_of_armed hx, hdeliver, hcause]
        rfl

end Sys2Proof.Machine
end

section
/-! PROOF. NORM_PARTIAL and OPTIMIZER_STEP (spec 06, sections "Global norm" and "The optimiser step"). -/

namespace Sys2Proof.Machine

/-- The packet is in progress. -/
def Die.setRunning (d : Die) (pid : Nat) : Die := d.onPkt pid fun x => { x with phase := .running }

/-! ### NORM_PARTIAL -/

/-- The norm's elements as they are read. -/
def Die.normRead (d : Die) (q : Pkt) : DRes × Die :=
  (d.setRunning q.pid).readAll (srcRu q.pid q.part.val) (field q.body 40 8) (field q.body 24 4 * (if field q.body 28 4 % 2 == 1 then 2 else 4)) false

/-- The norm as it is written. -/
def Die.normWrite (d : Die) (q : Pkt) (bs : List Byte) : DRes × Die :=
  d.writeAll (srcRu q.pid q.part.val) (field q.body 48 8) (leBytes 4 (normOf (elements (field q.body 28 4 % 2 == 1) bs (field q.body 24 4))).toNat) {}

section
variable {d : Die} {q : Pkt} (hq : d.pkt? q.pid = some q) (hphase : q.phase = .started ∨ q.phase = .running)
include hq hphase

theorem opNormPartial_of_bad (hop : q.opcode = 0x22) (h : normStatus q.body ≠ .ok) : opNormPartial q.pid d = d.finish q.pid (normStatus q.body) 0 0 := by
  rw [opNormPartial, hq]
  dsimp only
  rw [if_neg (by rcases hphase with h | h <;> simp [hop, h])]
  split
  · exact absurd ‹_› h
  · rfl

theorem opNormPartial_of_good (hop : q.opcode = 0x22) (h : normStatus q.body = .ok) : opNormPartial q.pid d
    = match d.normRead q with
      | (.wait, e) => e
      | (.fail st, e) => e.unitFail q.pid st
      | (.ok bs, e) => match e.normWrite q bs with
        | (.wait, f) => f
        | (.fail st, f) => f.unitFail q.pid st
        | (.ok _, f) => f.unitFail q.pid .ok := by
  rw [opNormPartial, hq]
  dsimp only
  rw [if_neg (by rcases hphase with h | h <;> simp [hop, h]), h]
  rfl

/-! ### OPTIMIZER_STEP -/

theorem opOptimizerStep_of_bad (hop : q.opcode = 0x21) (h : optStatus q.body ≠ .ok) : opOptimizerStep q.pid d = d.finish q.pid (optStatus q.body) 0 0 := by
  rw [opOptimizerStep, hq]
  dsimp only
  rw [if_neg (by rcases hphase with h | h <;> simp [hop, h])]
  split
  · exact absurd ‹_› h
  · rfl

theorem opOptimizerStep_of_good (hop : q.opcode = 0x21) (h : optStatus q.body = .ok) : opOptimizerStep q.pid d = (d.setRunning q.pid).optRun q := by
  rw [opOptimizerStep, hq]
  dsimp only
  rw [if_neg (by rcases hphase with h | h <;> simp [hop, h]), h]
  rfl

end

section
variable {d : Die} {q : Pkt}

/-- The norm is judged before anything else is read (R193). -/
theorem Die.optRun_of_skipped {e : Die} {norm : W32}
    (hnorm : d.optShared q (d.step? q.pid).norm ((optMode q.body).clip || (optMode q.body).skip) (field q.body 88 8) = (.ok [], norm, e))
    (hskip : (optMode q.body).skip = true) (hinf : finite32 (scaledNorm q.body norm) = false) :
    d.optRun q = (e.count RU_DROP_SKIPPED 1).endStep q.pid .aborted 0 := by
  rw [Die.optRun]
  dsimp only
  rw [hnorm]
  exact if_pos (by simp [hskip, hinf])

theorem Die.optShared_of_some (v : W32) (needed : Bool) (a : Nat) : d.optShared q (some v) needed a = (.ok [], v, d) := rfl

/-- With norm and rate known, the elements go on where they stopped. -/
theorem Die.optRun_of_known {norm rate : W32} (hnorm : (d.step? q.pid).norm = some norm) (hrate : (d.step? q.pid).rate = some rate)
    (hfin : (optMode q.body).skip = true → finite32 (scaledNorm q.body norm) = true) :
    d.optRun q = Die.optLoop q (5 * (field q.body 32 4 - (d.step? q.pid).next) + 1) (d.setStep (d.step? q.pid)) := by
  have hjudged : ((optMode q.body).skip && !finite32 (scaledNorm q.body norm)) = false := by
    cases hskip : (optMode q.body).skip with
    | false => rfl
    | true => simp [hfin hskip]
  rw [Die.optRun]
  dsimp only
  rw [hnorm, Die.optShared_of_some]
  dsimp only
  rw [hjudged, if_neg (by simp), hrate, Die.optShared_of_some]
  dsimp only
  rw [if_neg (by simp), ← hnorm, ← hrate]

theorem Die.step?_pid (d : Die) (pid : Nat) : (d.step? pid).pid = pid := by
  rw [Die.step?]
  cases h : d.ru.steps.find? fun x => x.pid == pid with
  | none => rfl
  | some x => simpa using List.find?_some h

theorem Die.step?_setStep (d : Die) (x : OptProg) : (d.setStep x).step? x.pid = x := by
  have hnone : (d.ru.steps.filter fun y => y.pid != x.pid).find? (fun y => y.pid == x.pid) = none := by simp
  simp [Die.step?, Die.setStep, Die.onRu, List.find?_append, hnone]

section
variable {x : OptProg} (hx : d.step? q.pid = x) (fuel : Nat)
include hx

theorem Die.optLoop_of_write {w : Nat × List Byte} {rest : List (Nat × List Byte)} {e : Die} {out : List Byte} (hw : x.writes = w :: rest)
    (hwrite : d.writeAll (srcRu q.pid q.part.val) w.1 w.2 {} = (.ok out, e)) :
    d.optLoop q (fuel + 1)
      = ((e.doneWith (.pkt q.pid)).setStep { x with writes := rest, next := if rest.isEmpty then x.next + 1 else x.next }).optLoop q fuel := by
  rw [Die.optLoop]
  dsimp only
  rw [hx, hw]
  dsimp only
  rw [hwrite]

/-- The end of the step: the CRC of the new weights is shown and is the RESULT (R195). -/
def Die.endOpt (d : Die) (q : Pkt) (crc : W64) : Die :=
  ((d.putRaw RU_STEP_CRC_LO (crc.toNat % 2 ^ 32)).putRaw RU_STEP_CRC_HI (crc.toNat / 2 ^ 32)).endStep q.pid .ok crc

theorem Die.optLoop_of_end (hw : x.writes = []) (hend : field q.body 32 4 ≤ x.next) : d.optLoop q (fuel + 1) = d.endOpt q x.crc := by
  rw [Die.optLoop]
  dsimp only
  rw [hx, hw]
  exact if_pos hend

theorem Die.optLoop_of_element {g w m : List Byte} {norm rate : W32} {e : Die} (hw : x.writes = []) (hnext : x.next < field q.body 32 4)
    (hsgd : (optMode q.body).sgd = true) (hnorm : x.norm = some norm) (hrate : x.rate = some rate)
    (hread : d.readMany (srcRu q.pid q.part.val) [((field q.body 48 8 + 4 * x.next) % 2 ^ 64, 4), ((field q.body 56 8 + 4 * x.next) % 2 ^ 64, 4),
      ((field q.body 64 8 + 4 * x.next) % 2 ^ 64, 4)] = (.ok [], [g, w, m], e)) :
    d.optLoop q (fuel + 1)
      = (let new := optWrites q.body (optMode q.body) x.next norm rate (le32 g) (le32 w) (le32 m) (le32 [])
         ((e.doneWith (.pkt q.pid)).setStep { x with writes := new, crc := (new.headD (0, [])).2.foldl crcByte x.crc }).optLoop q fuel) := by
  rw [Die.optLoop]
  dsimp only
  rw [hx, hw]
  dsimp only
  rw [if_neg (by omega), if_pos hsgd, List.append_nil, hread, hnorm, hrate]
  generalize hnew : optWrites q.body (optMode q.body) x.next norm rate (le32 g) (le32 w) (le32 m) (le32 []) = new
  dsimp only [List.getElem?_cons_zero, List.getElem?_cons_succ, Option.getD_some, Option.getD_none, List.getElem?_nil]
  rw [hnew]
  cases new <;> rfl

end
end

/-- Settles O28. -/
theorem unitPackets : Obligations.UnitPackets := by
  refine ⟨fun s q hlive hq hphase => ?_, fun q fuel d x hx => ?_, fun b lr gs bc1 bc2 g w m v hsgd hplain => ?_⟩
  · intro b running src
    refine ⟨fun hop => ?_, fun hop => ?_⟩
    · intro bf16 read write
      have hnext : becomes (.normPartial q.pid) s (opNormPartial q.pid s.die) := onLive_live _ hlive
      refine ⟨fun h => becomes_congr hnext (opNormPartial_of_bad hq hphase hop h), fun hok => ?_⟩
      have hgood := becomes_congr hnext (opNormPartial_of_good hq hphase hop hok)
      have hread : s.die.normRead q = read := rfl
      have hwrite : ∀ d bs, Die.normWrite d q bs = write d bs := fun _ _ => rfl
      rw [hread] at hgood
      simp only [hwrite] at hgood
      refine ⟨fun d h => ?_, fun d st h => ?_, fun d bs h => ⟨fun e hw => ?_, fun e st hw => ?_, fun e out hw => ?_⟩⟩
      · rwa [h] at hgood
      · rwa [h] at hgood
      · rw [h] at hgood
        dsimp only at hgood
        rwa [hw] at hgood
      · rw [h] at hgood
        dsimp only at hgood
        rwa [hw] at hgood
      · rw [h] at hgood
        dsimp only at hgood
        rwa [hw] at hgood
    · intro o x
      have hnext : becomes (.optimizerStep q.pid) s (opOptimizerStep q.pid s.die) := onLive_live _ hlive
      refine ⟨fun h => becomes_congr hnext (opOptimizerStep_of_bad hq hphase hop h), fun hok => ?_⟩
      have hgood := becomes_congr hnext (opOptimizerStep_of_good hq hphase hop hok)
      refine ⟨hgood, fun d norm hnorm hskip hinf => becomes_congr hgood (Die.optRun_of_skipped hnorm hskip hinf),
        fun norm rate w d out hnorm hrate hfin hw hlast hwrite => ?_⟩
      intro e
      refine becomes_congr hgood ?_
      have hpid : x.pid = q.pid := Die.step?_pid _ _
      have hfuel : 5 * (field q.body 32 4 - x.next) + 1 = 4 + 1 + 1 := by
        have : x.next + 1 = field q.body 32 4 := hlast
        omega
      have hstep : (running.setStep x).step? q.pid = x := hpid ▸ Die.step?_setStep running x
      have hdone : e.step? q.pid = { x with writes := [], next := x.next + 1 } := hpid ▸ Die.step?_setStep (d.doneWith (.pkt q.pid)) _
      refine (Die.optRun_of_known hnorm hrate hfin).trans ?_
      change Die.optLoop q (5 * (field q.body 32 4 - x.next) + 1) (running.setStep x) = _
      rw [hfuel, Die.optLoop_of_write hstep _ hw hwrite]
      exact Die.optLoop_of_end hdone _ rfl hlast.ge
  · intro b o src at_
    exact ⟨fun w rest e out hw hwrite => Die.optLoop_of_write hx fuel hw hwrite,
      fun g w m norm rate e hw hnext hsgd hnorm hrate hread => Die.optLoop_of_element hx fuel hw hnext hsgd hnorm hrate hread⟩
  · intro mom
    rw [optElement]
    dsimp only
    rw [if_pos hsgd, if_neg (by simp [hplain])]

end Sys2Proof.Machine
end

section
/-! PROOF. The managed packets of translation (spec 11, sections "Page tables" and "Invalidation") and of programs (spec 03, section "Program banks"). -/

namespace Sys2Proof.Machine

/-! ### MAP_RANGE, UNMAP_RANGE, INVALIDATE_RANGE -/

/-- The leaves of a MAP_RANGE written. -/
def Die.mapped (d : Die) (q : Pkt) : Option Die :=
  let b := q.body
  let bits := pageBits (field b 41 1)
  Die.mapLeaves (field b 43 1) (field b 16 8) (field b 32 8) bits (1 + 2 * field b 40 1 + 16 * field b 42 1 + 64) (field b 24 8 / 2 ^ bits) 0 d

section
variable {d : Die} {q : Pkt} (hq : d.grantedPkt q.pid 0x80 = some q)
include hq

theorem opMapRange_of_bad (h : d.mapStatus q ≠ .ok) : opMapRange q.pid d = d.finish q.pid (d.mapStatus q) 0 0 := by
  rw [opMapRange, hq]
  dsimp only
  split
  · exact absurd ‹_› h
  · rfl

theorem opMapRange_of_good (h : d.mapStatus q = .ok) : opMapRange q.pid d
    = match d.mapped q with
      | some e => (e.forgetWalks (field q.body 43 1) (field q.body 16 8) (field q.body 16 8 + field q.body 24 8)).finish q.pid .ok 0 0
      | none => d.finish q.pid .badLength 0 0 := by
  rw [opMapRange, hq]
  dsimp only
  rw [h] <;> rfl

end

section
variable {d : Die} {q : Pkt} {op : Byte}

theorem Die.unmapPacket_of_bad (hq : d.grantedPkt q.pid op = some q) (h : d.unmapStatus q (op == 0x81) ≠ .ok) :
    d.unmapPacket q.pid op = d.finish q.pid (d.unmapStatus q (op == 0x81)) 0 0 := by
  rw [Die.unmapPacket]
  dsimp only
  rw [hq]
  dsimp only
  split
  · exact absurd ‹_› h
  · rfl

theorem Die.unmapPacket_of_running (hnone : d.grantedPkt q.pid op = none) (hq : d.runningPkt q.pid op = some q) :
    d.unmapPacket q.pid op
      = d.unmapEnds q.pid (op == 0x81) (field q.body 43 1) (field q.body 16 8) (field q.body 16 8 + field q.body 24 8) := by
  rw [Die.unmapPacket]
  dsimp only
  rw [hnone]
  dsimp only
  rw [hq]

/-- The translations of the packet's range discarded, and the packet in progress. -/
def Die.cutRange (d : Die) (q : Pkt) (ls : List (Nat × Nat × Leaf)) : Die :=
  (d.invalidate (field q.body 43 1) (field q.body 16 8) (field q.body 16 8 + field q.body 24 8) ls).onPkt q.pid fun x => { x with phase := .running }

theorem Die.unmapPacket_unmaps (hq : d.grantedPkt q.pid 0x81 = some q) (h : d.unmapStatus q true = .ok) :
    d.unmapPacket q.pid 0x81
      = (let p := field q.body 43 1
         let lo := field q.body 16 8
         let hi := lo + field q.body 24 8
         let c := (d.leaves p lo hi).foldl (fun e l => e.clearLeaf p l.1 l.2.1) d
         let f : Die := { c with tr := { c.tr with frames := c.tr.frames.filter fun f => !(f.part == p && decide (lo ≤ f.dva) && decide (f.dva < hi)) } }
         (f.cutRange q (d.leaves p lo hi)).unmapEnds q.pid true p lo hi) := by
  rw [Die.unmapPacket]
  dsimp only
  rw [hq]
  dsimp only
  rw [show ((0x81 : Byte) == 0x81) = true from rfl, h]
  rfl

theorem Die.unmapPacket_invalidates (hq : d.grantedPkt q.pid 0x82 = some q) (h : d.unmapStatus q false = .ok) :
    d.unmapPacket q.pid 0x82
      = (let p := field q.body 43 1
         let lo := field q.body 16 8
         let hi := lo + field q.body 24 8
         ((d.dropHostRange p lo hi).cutRange q (d.leaves p lo hi)).unmapEnds q.pid false p lo hi) := by
  rw [Die.unmapPacket]
  dsimp only
  rw [hq]
  dsimp only
  rw [show ((0x82 : Byte) == 0x81) = false from rfl, h]
  rfl

theorem Die.unmapEnds_unmap (d : Die) (pid p lo hi : Nat) : d.unmapEnds pid true p lo hi = if d.rangeBusy p lo hi = true then d else d.finish pid .ok 0 0 := by
  rw [Die.unmapEnds]
  dsimp only [if_true]
  split
  · rfl
  · next h => exact if_neg h

end

/-! ### LOAD_PROGRAM, SWITCH_PROGRAM -/

section
variable {d : Die} {q : Pkt}

/-- Every core that the packet names, changed. -/
def Die.onNamed (d : Die) (q : Pkt) (f : Core → Core) : Die := (coresOf q.body).foldl (fun e c => e.onCore c f) d

theorem opLoadProgram_of_good (hq : d.grantedPkt q.pid 0x84 = some q) (h : d.loadStatus q = .ok) :
    opLoadProgram q.pid d
      = ((d.onNamed q fun k => { k with loading := k.loading ++ [q.pid] }).onPkt q.pid fun x => { x with phase := .running }).loadCores q := by
  rw [opLoadProgram, hq]
  dsimp only
  rw [h]
  rfl

theorem opLoadProgram_of_running (hnone : d.grantedPkt q.pid 0x84 = none) (hq : d.runningPkt q.pid 0x84 = some q) : opLoadProgram q.pid d = d.loadCores q := by
  rw [opLoadProgram, hnone]
  dsimp only
  rw [hq]

theorem opLoadProgram_of_bad (hq : d.grantedPkt q.pid 0x84 = some q) (h : d.loadStatus q ≠ .ok) :
    opLoadProgram q.pid d = d.finish q.pid (d.loadStatus q) 0 0 := by
  rw [opLoadProgram, hq]
  dsimp only
  split
  · exact absurd ‹_› h
  · rfl

theorem opSwitchProgram_of_good (hq : d.grantedPkt q.pid 0x85 = some q) (h : d.switchStatus q = .ok) :
    opSwitchProgram q.pid d = (d.onNamed q fun k => { k with switch := some q.pid, switched := false }).onPkt q.pid fun x => { x with phase := .running } := by
  rw [opSwitchProgram, hq]
  dsimp only
  rw [h]
  rfl

theorem opSwitchProgram_of_bad (hq : d.grantedPkt q.pid 0x85 = some q) (h : d.switchStatus q ≠ .ok) :
    opSwitchProgram q.pid d = d.finish q.pid (d.switchStatus q) 0 0 := by
  rw [opSwitchProgram, hq]
  dsimp only
  split
  · exact absurd ‹_› h
  · rfl

/-- The read of a program's words. -/
def Die.programRead (d : Die) (q : Pkt) : DRes × Die := d.readAll (srcCp (.pkt q.pid) q.part.val) (field q.body 32 8) (field q.body 24 4) false

/-- What a LOAD_PROGRAM does once its cores are marked, whether it has just been granted or goes on. -/
theorem Die.loadCores_cases (d : Die) (q : Pkt) :
    let ended (e : Die) : Die := (e.endLoad q.pid).doneWith (.pkt q.pid)
    (∀ e, d.programRead q = (.wait, e) → d.loadCores q = e)
    ∧ (∀ e st, d.programRead q = (.fail st, e) → d.loadCores q = (ended e).finish q.pid st 0 0)
    ∧ ∀ e bs, d.programRead q = (.ok bs, e) →
      d.loadCores q = ((ended e).onNamed q fun k => k.loadWords (field q.body 22 1 == 1) (field q.body 28 4) bs).finish q.pid .ok 0 0 := by
  have hload : ∀ r e, d.programRead q = (r, e) → d.readAll (srcCp (.pkt q.pid) q.part.val) (field q.body 32 8) (field q.body 24 4) false = (r, e) :=
    fun _ _ h => h
  refine ⟨fun e h => ?_, fun e st h => ?_, fun e bs h => ?_⟩ <;>
  · rw [Die.loadCores]
    dsimp only
    rw [hload _ _ h] <;> rfl

end

/-- A table after a run of words has been written to it, word by word. -/
theorem tblGet_foldl_put {t : List (Nat × W64)} (h : tblWf (fun _ => 0#64) none t = true) (base : Nat) (f : Nat → W64) (n : Nat) :
    tblWf (fun _ => 0#64) none ((List.range n).foldl (fun t i => tblPut (fun _ => 0#64) t (base + i) (f i)) t) = true
    ∧ ∀ i, i < n → tblGet (fun _ => 0#64) ((List.range n).foldl (fun t i => tblPut (fun _ => 0#64) t (base + i) (f i)) t) (base + i) = f i := by
  induction n with
  | zero => exact ⟨h, fun i hi => absurd hi (Nat.not_lt_zero i)⟩
  | succ n ih =>
    obtain ⟨hwf, hget⟩ := ih
    rw [List.range_succ, List.foldl_append, List.foldl_cons, List.foldl_nil]
    refine ⟨tblPut_wf _ _ hwf (fun _ hl => nomatch hl), fun i hi => ?_⟩
    rw [tblGet_put _ _ _ hwf]
    split
    · next heq => rw [show i = n by omega]
    · next hne => exact hget i (by omega)

theorem Core.wordAt_loadWords {k : Core} (h : tblWf (fun _ => 0#64) none k.prog = true) (bank : Bool) {off i : Nat} {bs : List Byte} (hoff : off % 8 = 0)
    (hi : i < bs.length / 8) (hend : off + 8 * i < 0x20000) :
    Core.wordAt { k.loadWords bank off bs with active := bank, pc := off + 8 * i } = some (BitVec.ofNat 64 (field bs (8 * i) 8), false) := by
  have hplace : (if bank then 16384 else 0) + (off + 8 * i) / 8 = (if bank then 16384 else 0) + off / 8 + i := by omega
  have hword := (tblGet_foldl_put h ((if bank then 16384 else 0) + off / 8) (fun i => BitVec.ofNat 64 (field bs (8 * i) 8)) (bs.length / 8)).2 i hi
  rw [Core.wordAt, if_pos (show off + 8 * i < bankBytes from hend)]
  dsimp only [Core.loadWords]
  rw [hplace, hword]
  have hgood : (k.progBad.filter fun j => decide (j < (if bank then 16384 else 0) + off / 8)
      || decide ((if bank then 16384 else 0) + off / 8 + bs.length / 8 ≤ j)).contains ((if bank then 16384 else 0) + off / 8 + i) = false := by
    simp only [List.contains_eq_mem, decide_eq_false_iff_not, List.mem_filter, Bool.or_eq_true, decide_eq_true_eq]
    omega
  rw [hgood]

/-- Settles O29. -/
theorem translationPackets : Obligations.TranslationPackets := by
  intro s q hlive b dva n p bits mapped busy cut
  have hmap : becomes (.mapRange q.pid) s (opMapRange q.pid s.die) := onLive_live _ hlive
  have hunmap : becomes (.unmapRange q.pid) s (s.die.unmapPacket q.pid 0x81) := onLive_live (opUnmapRange q.pid) hlive
  have hinval : becomes (.invalidateRange q.pid) s (s.die.unmapPacket q.pid 0x82) := onLive_live (opInvalidateRange q.pid) hlive
  refine ⟨fun hq => ⟨fun d hok h => becomes_congr hmap ?_, fun hok h => becomes_congr hmap ?_, fun h => becomes_congr hmap (opMapRange_of_bad hq h)⟩,
    fun hq => ⟨fun h => becomes_congr hunmap (Die.unmapPacket_of_bad hq h), fun hok => becomes_congr hunmap ?_⟩,
    fun hq => ⟨fun h => becomes_congr hinval (Die.unmapPacket_of_bad hq h), fun hok => becomes_congr hinval ?_⟩,
    fun hnone hq => becomes_congr hunmap ?_, fun hnone hq => becomes_congr hinval ?_⟩
  · rw [opMapRange_of_good hq hok, show s.die.mapped q = some d from h]
  · rw [opMapRange_of_good hq hok, show s.die.mapped q = none from h]
  · rw [Die.unmapPacket_unmaps hq hok]
    exact Die.unmapEnds_unmap _ _ _ _ _
  · exact Die.unmapPacket_invalidates hq hok
  · exact (Die.unmapPacket_of_running hnone hq).trans (Die.unmapEnds_unmap _ _ _ _ _)
  · exact Die.unmapPacket_of_running hnone hq

/-- Settles O30. -/
theorem programPackets : Obligations.ProgramPackets := by
  refine ⟨fun s q hlive => ?_, fun k bank off i bs hwf hoff hi hend => Core.wordAt_loadWords hwf bank hoff hi hend⟩
  intro b all running loads
  have hload : becomes (.loadProgram q.pid) s (opLoadProgram q.pid s.die) := onLive_live _ hlive
  have hswitch : becomes (.switchProgram q.pid) s (opSwitchProgram q.pid s.die) := onLive_live _ hlive
  have hgoes : ∀ d, opLoadProgram q.pid s.die = d.loadCores q → loads d := fun d h => by
    obtain ⟨hwait, hfail, hgood⟩ := Die.loadCores_cases d q
    exact ⟨fun e he => becomes_congr hload (h.trans (hwait e he)), fun e st he => becomes_congr hload (h.trans (hfail e st he)),
      fun e bs he => becomes_congr hload (h.trans (hgood e bs he))⟩
  exact ⟨fun hq h => hgoes _ (opLoadProgram_of_good hq h), fun hnone hq => hgoes _ (opLoadProgram_of_running hnone hq),
    fun hq h => becomes_congr hload (opLoadProgram_of_bad hq h), fun hq h => becomes_congr hswitch (opSwitchProgram_of_good hq h),
    fun hq h => becomes_congr hswitch (opSwitchProgram_of_bad hq h)⟩

end Sys2Proof.Machine
end

section
/-! PROOF. The managed packets of service (spec 07, section "Managed packets"; spec 10, section "Way locking"; spec 11, section "Preservation across a host crash";
spec 13, section "Windows"; spec 14, section "Shares of shared resources"; spec 16, section "Self-test in service") and Groom (spec 07, section "Groom's share of the
work"). -/

namespace Sys2Proof.Machine

/-! ### SET_QOS, SELFTEST, QUERY -/

section
variable {d : Die} {q : Pkt}

theorem opSetQos_of_bad (hq : d.grantedPkt q.pid 0x8A = some q) (h : firstStatus (qosPayload q.body) ≠ .ok) :
    opSetQos q.pid d = d.finish q.pid (firstStatus (qosPayload q.body)) 0 0 := by
  rw [opSetQos, hq]
  dsimp only
  split
  · exact absurd ‹_› h
  · rfl

theorem opSetQos_of_good (hq : d.grantedPkt q.pid 0x8A = some q) (h : firstStatus (qosPayload q.body) = .ok) :
    opSetQos q.pid d
      = (let p := field q.body 16 1
         let r := field q.body 17 1
         let e := (d.putRaw (QOS_RATE p r) (field q.body 20 4)).putRaw (QOS_BURST p r) (field q.body 24 4)
         { e with parts := { e.parts with qosNew := (e.parts.qosNew.filter (· != 5 * p + r)) ++ [5 * p + r] } }.finish q.pid .ok 0 0) := by
  rw [opSetQos, hq]
  dsimp only
  rw [h]

theorem opSelftest_of_bad (hq : d.grantedPkt q.pid 0x8C = some q) (h : d.testStatus q.body ≠ .ok) :
    opSelftest q.pid d = d.finish q.pid (d.testStatus q.body) 0 0 := by
  rw [opSelftest, hq]
  dsimp only
  split
  · exact absurd ‹_› h
  · rfl

section
variable (hq : d.grantedPkt q.pid 0x8C = some q) (h : d.testStatus q.body = .ok)
include hq h

theorem opSelftest_of_busy {t : SelfTest} (ht : d.boot.test = some t) :
    opSelftest q.pid d = d.deferPkt q.pid (match t.start with | some n => d.wallOf (n + t.ticks) + 1 | none => d.tick.now + 16) := by
  rw [opSelftest, hq]
  dsimp only
  rw [h]
  dsimp only
  rw [ht] <;> rfl

theorem opSelftest_of_idle (ht : d.boot.test = none) {clocks units : Nat} (hinfo : testInfo (field q.body 16 1) = some (clocks, units)) :
    opSelftest q.pid d
      = { ((d.putB ST_STATUS_PENDING true).put ST_STATUS_BLOCK (field q.body 16 1)).put ST_STATUS_UNIT (field q.body 17 1) with
          boot := { d.boot with test := some { pid := q.pid, block := field q.body 16 1, unit := field q.body 17 1, maxTicks := field q.body 18 2,
                                               ticks := d.testTicks clocks, accepted := d.tick.count, start := none, stopped := false } } }.onPkt q.pid fun x =>
            { x with phase := .running } := by
  rw [opSelftest, hq]
  dsimp only
  rw [h]
  dsimp only
  rw [ht]
  dsimp only
  rw [hinfo]
  rfl

end

theorem opQuery_of_bad (hq : d.grantedPkt q.pid 0x8E = some q) (h : queryStatus q.body ≠ .ok) : opQuery q.pid d = d.finish q.pid (queryStatus q.body) 0 0 := by
  rw [opQuery, hq]
  dsimp only
  split
  · exact absurd ‹_› h
  · rfl

section
variable (hq : d.grantedPkt q.pid 0x8E = some q) (h : queryStatus q.body = .ok)
include hq h

theorem opQuery_in_result (hdest : field q.body 24 8 = 0) :
    opQuery q.pid d
      = (let known := d.queryBytes (field q.body 16 2)
         let det := BitVec.ofNat 32 (field q.body 16 2)
         if known.length == 8 then d.finish q.pid .ok (le64 known) det else (d.freshBytes 8).2.finish q.pid .ok (le64 (d.freshBytes 8).1) det) := by
  rw [opQuery, hq]
  dsimp only
  rw [h]
  dsimp only
  rw [hdest]
  rfl

theorem opQuery_to_dest (hdest : field q.body 24 8 ≠ 0) :
    opQuery q.pid d
      = (let known := d.queryBytes (field q.body 16 2)
         let x := d.freshBytes (64 - known.length)
         x.2.cpWrite q (field q.body 24 8) (known ++ x.1) 0 (BitVec.ofNat 32 (field q.body 16 2))) := by
  obtain ⟨k, hk⟩ := Nat.exists_eq_succ_of_ne_zero hdest
  rw [opQuery, hq]
  dsimp only
  rw [h]
  dsimp only
  rw [hk]
  rfl

end

/-! ### Windows -/

theorem opOpenWindow_of_bad (hq : d.grantedPkt q.pid 0x90 = some q) (h : d.openStatus q ≠ .ok) : opOpenWindow q.pid d = d.finish q.pid (d.openStatus q) 0 0 := by
  rw [opOpenWindow, hq]
  dsimp only
  split
  · exact absurd ‹_› h
  · rfl

theorem opOpenWindow_of_good (hq : d.grantedPkt q.pid 0x90 = some q) (h : d.openStatus q = .ok) :
    opOpenWindow q.pid d
      = (d.setWindow (winOf (field q.body 16 2)) (some
          { part := field q.body 19 1, base := field q.body 24 8, bytes := field q.body 32 8, flags := BitVec.ofNat 5 (field q.body 18 1),
            srcPkg := ⟨field q.body 40 2 % 4096, Nat.mod_lt _ (by decide)⟩, srcDies := BitVec.ofNat 8 (field q.body 42 1) })).finish q.pid .ok 0 0 := by
  rw [opOpenWindow, hq]
  dsimp only
  rw [h]

/-- A window's end waits for the writes accepted through it (R443). -/
def Die.closes (d : Die) (q : Pkt) : Die := if d.windowBusy (winOf (field q.body 16 2)) = true then d else d.finish q.pid .ok 0 0

theorem opCloseWindow_of_bad (hq : d.grantedPkt q.pid 0x91 = some q) (h : d.closeStatus q ≠ .ok) : opCloseWindow q.pid d = d.finish q.pid (d.closeStatus q) 0 0 := by
  rw [opCloseWindow, hq]
  dsimp only
  split
  · exact absurd ‹_› h
  · rfl

theorem opCloseWindow_of_good (hq : d.grantedPkt q.pid 0x91 = some q) (h : d.closeStatus q = .ok) :
    opCloseWindow q.pid d = ((d.setWindow (winOf (field q.body 16 2)) none).onPkt q.pid fun x => { x with phase := .running }).closes q := by
  rw [opCloseWindow, hq]
  dsimp only
  rw [h]
  rfl

theorem opCloseWindow_of_running (hnone : d.grantedPkt q.pid 0x91 = none) (hq : d.runningPkt q.pid 0x91 = some q) : opCloseWindow q.pid d = d.closes q := by
  rw [opCloseWindow, hnone]
  dsimp only
  rw [hq]
  rfl

/-! ### PRESERVE_ARM -/

theorem opPreserveArm_of_bad (hq : d.grantedPkt q.pid 0x94 = some q) (h : firstStatus (armPayload q.body) ≠ .ok) :
    opPreserveArm q.pid d = d.finish q.pid (firstStatus (armPayload q.body)) 0 0 := by
  rw [opPreserveArm, hq]
  dsimp only
  split
  · exact absurd ‹_› h
  · rfl

section
variable (hq : d.grantedPkt q.pid 0x94 = some q) (h : firstStatus (armPayload q.body) = .ok)
include hq h

theorem opPreserveArm_disarms (hmask : field q.body 16 1 = 0) : opPreserveArm q.pid d = (d.putB PRESERVE_STATUS_ARMED false).finish q.pid .ok 0 0 := by
  rw [opPreserveArm, hq]
  dsimp only
  rw [h]
  exact if_pos (by simp [hmask])

theorem opPreserveArm_walks (hmask : field q.body 16 1 = 1) : opPreserveArm q.pid d
    = match d.walk 0 (field q.body 24 8) with
      | (.leaf l bits, e) =>
        if l.attr = 0 then
          { e.putB PRESERVE_STATUS_ARMED true with
            mem := { e.mem with record := l.target / 2 ^ bits * 2 ^ bits + field q.body 24 8 % 2 ^ bits } }.finish q.pid .ok 0 0
        else e.finish q.pid .reservedValue 0 0
      | (.invalid, e) => e.finish q.pid .reservedValue 0 0
      | (.ecc, e) => e.finish q.pid .eccUncorrectable 0 0
      | (.wait, e) => e := by
  rw [opPreserveArm, hq]
  dsimp only
  rw [h]
  dsimp only
  rw [if_neg (by simp [hmask])]
  rcases d.walk 0 (field q.body 24 8) with ⟨l | _ | _ | _, e⟩
  · simp only [beq_iff_eq]
  · rfl
  · rfl
  · rfl

end

/-! ### LOCK_WAYS -/

theorem opLockWays_of_bad (hq : d.grantedPkt q.pid 0x96 = some q) (h : d.lockStatus q.body ≠ .ok) : opLockWays q.pid d = d.finish q.pid (d.lockStatus q.body) 0 0 := by
  rw [opLockWays, hq]
  dsimp only
  split
  · exact absurd ‹_› h
  · rfl

theorem opLockWays_of_good (hq : d.grantedPkt q.pid 0x96 = some q) (h : d.lockStatus q.body = .ok) :
    opLockWays q.pid d
      = ((List.range 8).foldl (fun e i => if sub (field q.body 16 1) i 1 == 1 then
          e.put (DC_WAYS_LOCKED i) (lockedAfter (e.get (DC_WAYS_LOCKED i)) (field q.body 18 2) (field q.body 20 1 % 2 == 1) (sub (field q.body 20 1) 1 1 == 1))
          else e) d).finish q.pid .ok 0 0 := by
  rw [opLockWays, hq]
  dsimp only
  rw [h]

end

theorem testBit_lockedAfter (old ways w : Nat) : (lockedAfter old ways true true).testBit w = ways.testBit w
    ∧ (lockedAfter old ways true false).testBit w = (old.testBit w || ways.testBit w)
    ∧ (lockedAfter old ways false false).testBit w = (old.testBit w && !ways.testBit w) :=
  ⟨rfl, Nat.testBit_or _ _ _, testBit_sub_land _ _ _⟩

/-- Settles O31. -/
theorem servicePackets : Obligations.ServicePackets := by
  refine ⟨fun s q hlive => ?_, fun s q hlive => ?_, fun old ways w _ _ => testBit_lockedAfter old ways w⟩
  · intro b p r ends
    have hqos : becomes (.setQos q.pid) s (opSetQos q.pid s.die) := onLive_live _ hlive
    have htest : becomes (.selftest q.pid) s (opSelftest q.pid s.die) := onLive_live _ hlive
    have hquery : becomes (.query q.pid) s (opQuery q.pid s.die) := onLive_live _ hlive
    refine ⟨fun hq => ⟨fun h => becomes_congr hqos (opSetQos_of_bad hq h), fun h => becomes_congr hqos (opSetQos_of_good hq h)⟩,
      fun hq => ⟨fun h => becomes_congr htest (opSelftest_of_bad hq h), fun t h ht => becomes_congr htest (opSelftest_of_busy hq h ht),
        fun clocks units h ht hinfo => becomes_congr htest (opSelftest_of_idle hq h ht hinfo)⟩, fun hq => ?_⟩
    intro item known
    refine ⟨fun h => becomes_congr hquery (opQuery_of_bad hq h), fun h hdest hlen => becomes_congr hquery ?_, fun h hdest hlen => becomes_congr hquery ?_,
      fun h hdest => becomes_congr hquery (opQuery_to_dest hq h hdest)⟩
    · exact (opQuery_in_result hq h hdest).trans (if_pos (by simpa using hlen))
    · exact (opQuery_in_result hq h hdest).trans (if_neg (by simpa using hlen))
  · intro b w mask ends closes
    have hopen : becomes (.openWindow q.pid) s (opOpenWindow q.pid s.die) := onLive_live _ hlive
    have hclose : becomes (.closeWindow q.pid) s (opCloseWindow q.pid s.die) := onLive_live _ hlive
    have harm : becomes (.preserveArm q.pid) s (opPreserveArm q.pid s.die) := onLive_live _ hlive
    have hlock : becomes (.lockWays q.pid) s (opLockWays q.pid s.die) := onLive_live _ hlive
    refine ⟨fun hq => ⟨fun h => becomes_congr hopen (opOpenWindow_of_bad hq h), fun h => becomes_congr hopen (opOpenWindow_of_good hq h)⟩,
      fun hq => ⟨fun h => becomes_congr hclose (opCloseWindow_of_bad hq h), fun h => becomes_congr hclose (opCloseWindow_of_good hq h)⟩,
      fun hnone hq => becomes_congr hclose (opCloseWindow_of_running hnone hq),
      fun hq => ⟨fun h => becomes_congr harm (opPreserveArm_of_bad hq h), fun h => ⟨fun hmask => becomes_congr harm (opPreserveArm_disarms hq h hmask), ?_⟩⟩,
      fun hq => ⟨fun h => becomes_congr hlock (opLockWays_of_bad hq h), fun h => becomes_congr hlock (opLockWays_of_good hq h)⟩⟩
    have hwalk := fun hmask => becomes_congr harm (opPreserveArm_walks hq h hmask)
    refine ⟨fun l bits d hmask hw => ⟨fun hattr => ?_, fun hattr => ?_⟩, fun d hmask hw => ?_, fun d hmask hw => ?_, fun d hmask hw => ?_⟩
    · have hnext := hwalk hmask
      rw [hw] at hnext
      exact becomes_congr hnext (if_pos hattr)
    · have hnext := hwalk hmask
      rw [hw] at hnext
      exact becomes_congr hnext (if_neg hattr)
    · have hnext := hwalk hmask
      rwa [hw] at hnext
    · have hnext := hwalk hmask
      rwa [hw] at hnext
    · have hnext := hwalk hmask
      rwa [hw] at hnext

/-! ### Groom -/

section
variable {d : Die} {p : Nat} {q : Pkt}

theorem Die.groomTake_of_skipped (h : d.cp.groom.skip.contains p = true) : d.groomTake p = d := if_pos h

theorem Die.groomTake_of_empty (h : d.groomHead p = none) : d.groomTake p = d := by
  rw [Die.groomTake, h]
  exact ite_self d

theorem Die.groomTake_of_head (hskip : d.cp.groom.skip.contains p = false) (h : d.groomHead p = some q) :
    d.groomTake p
      = (let c := opCost q.opcode.toNat
         if d.cp.groom.budgetLeft < c then d.onGroom fun g => { g with skip := g.skip ++ [p] }
         else (d.onPkt q.pid fun x => { x with phase := .granted }).onGroom fun g => { g with
           queue := g.queue.filter (· != q.pid), budgetLeft := g.budgetLeft - c, served := some (g.served.getD p) }) := by
  rw [Die.groomTake, if_neg (by rw [hskip]; decide), h]
  dsimp only
  congr 2
  funext g
  cases g.served <;> rfl

end

theorem Die.vfReg_groomWdog (d : Die) (p : Nat) : d.vfReg p GROOM_WDOG = .none := rfl

/-- Groom's watchdog register is not withheld from any function (R264). -/
theorem addHeld_groomWdog (d : Die) (p : Nat) : d.addHeld p GROOM_WDOG = false := by
  cases p <;> rfl

/-- GROOM_WDOG in the register table. -/
theorem findRow_groomWdog : ∃ r, findRow GROOM_WDOG = some r ∧ r.digested = false ∧ r.modeOnly = false := ⟨_, rfl, rfl, rfl⟩

theorem Die.writeBar0_groomKick (d : Die) {who : Who} (h : who.part = 0) : d.writeBar0 who GROOM_WDOG 1 = d.kick := by
  obtain ⟨r, hr, hd, hm⟩ := findRow_groomWdog
  exact Die.writeBar0_pf h (by decide) (by decide) hr hd hm

theorem Die.writeBar0_groomKick_vf (d : Die) {who : Who} (h : who.part ≠ 0) : d.writeBar0 who GROOM_WDOG 1 = d.reserved who false true false GROOM_WDOG := by
  have hvf : (who.part.val == 0) = false := beq_eq_false_iff_ne.mpr fun h0 => h (Fin.ext h0)
  unfold Die.writeBar0
  dsimp only
  rw [if_neg (by decide), hvf, if_neg (by decide), Die.vfReg_groomWdog]

/-- Settles O32. -/
theorem groom : Obligations.Groom := by
  refine ⟨fun s hlive => ⟨onLive_live _ hlive, ?_, ?_, fun who hreach => ?_⟩, fun d p q => ⟨Die.groomTake_of_skipped, Die.groomTake_of_empty, fun hskip h => ?_⟩⟩
  · have hnext : becomes .groomWatchdogExpire s (opGroomWatchdogExpire s.die) := onLive_live _ hlive
    refine becomes_congr hnext ?_
    rw [opGroomWatchdogExpire]
    simp only [Bool.and_eq_true, decide_eq_true_eq]
  · have hnext : becomes .groomRestartDone s (opGroomRestartDone s.die) := onLive_live _ hlive
    exact becomes_congr hnext rfl
  · have hnext : becomes (.groomKick who) s (s.die.writeBar0 who GROOM_WDOG 1) := by
      change onDie _ s = _
      rw [onDie_eq, fromHost_reaches hreach, posted_reaches hreach (by rw [addHeld_groomWdog, Bool.and_false])]
      rfl
    refine becomes_congr hnext ?_
    split
    · next h => exact Die.writeBar0_groomKick _ h
    · next h => exact Die.writeBar0_groomKick_vf _ h
  · intro c t
    have ht : t = _ := Die.groomTake_of_head hskip h
    refine ⟨fun hc => ht.trans (if_pos hc), fun hc => ?_⟩
    rw [ht]
    dsimp only
    rw [if_neg (not_lt.mpr hc)]
    exact ⟨rfl, rfl, rfl⟩

end Sys2Proof.Machine
end

section
/-! PROOF. What one update of a sync object leaves (spec 08, sections "Simultaneous signals" and "Waits"). -/

namespace Sys2Proof.Machine

/-! ### Tables whose values all change at once -/

/-- A change of every value that keeps the default changes what is read in the same way. -/
theorem tblGet_map {α : Type} {dflt : Nat → α} (g : α → α) (hg : ∀ k, g (dflt k) = dflt k) (t : List (Nat × α)) (k : Nat) :
    tblGet dflt (t.map fun e => (e.1, g e.2)) k = g (tblGet dflt t k) := by
  induction t with
  | nil => exact (hg k).symm
  | cons e t ih =>
    simp only [List.map_cons, tblGet]
    split
    · rfl
    · split
      · exact (hg k).symm
      · exact ih

theorem tblWf_map {α : Type} [DecidableEq α] {dflt : Nat → α} (g : α → α) (hg : ∀ k v, v ≠ dflt k → g v ≠ dflt k) {lo : Option Nat} {t : List (Nat × α)}
    (h : tblWf dflt lo t = true) : tblWf dflt lo (t.map fun e => (e.1, g e.2)) = true := by
  induction t generalizing lo with
  | nil => rfl
  | cons e t ih =>
    obtain ⟨hlo, hv, ht⟩ := tblWf_cons.mp h
    exact tblWf_cons.mpr ⟨hlo, hg _ _ hv, ih ht⟩

/-! ### Messages of other units -/

theorem Die.setCredits_eq (d : Die) (c : Credits) (port : LinkPort) : d.setCredits c port = { d with ports := (d.setCredits c port).ports } := by
  cases port <;> rfl

theorem Die.useTokens_eq (d : Die) (p r bytes : Nat) : d.useTokens p r bytes = { d with regs := (d.useTokens p r bytes).regs } := by
  rw [Die.useTokens]
  split
  · rfl
  · rw [Die.charge]
    split <;> rfl

theorem Die.flit_eq (d : Die) (n : OptIx) : d.flit n = { d with ports := (d.flit n).ports, out := (d.flit n).out } := by
  rw [Die.flit]
  dsimp only
  split <;> rfl

theorem Die.sayOn_eq (d : Die) (port : LinkPort) (o : Out) : d.sayOn port o = { d with ports := (d.sayOn port o).ports, out := (d.sayOn port o).out } := by
  cases port with
  | peer n => rfl
  | opt n =>
    change (d.flit n).emit o = _
    rw [Die.flit_eq]
    rfl

/-- All that sending a message changes: registers (the levels of the resources), the ports, and what the die says. -/
def Die.sends (d t : Die) : Prop := ∃ regs ports out, t = { d with regs := regs, ports := ports, out := out }

theorem Die.sends_refl (d : Die) : d.sends d := ⟨d.regs, d.ports, d.out, rfl⟩

theorem Die.sends.trans {d e t : Die} (h : d.sends e) (h' : e.sends t) : d.sends t := by
  obtain ⟨regs, ports, out, rfl⟩ := h
  obtain ⟨regs, ports, out, rfl⟩ := h'
  exact ⟨regs, ports, out, rfl⟩

theorem Die.sends_leave (d : Die) (port : LinkPort) (part : Nat) (m : FabMsg) : d.sends (d.leave port part m) := by
  have hcredits : ∀ c, d.sends (d.setCredits c port) := fun c => ⟨d.regs, _, d.out, Die.setCredits_eq d c port⟩
  have htokens : ∀ (e : Die) p r n, e.sends (e.useTokens p r n) := fun e p r n => ⟨_, e.ports, e.out, Die.useTokens_eq e p r n⟩
  have hsay : ∀ (e : Die) o, e.sends (e.sayOn port o) := fun e o => ⟨e.regs, _, _, Die.sayOn_eq e port o⟩
  have hports : ∀ (e : Die) f, e.sends (e.onPorts f) := fun e f => ⟨e.regs, _, e.out, rfl⟩
  have hmetered : ∀ (c : Credits) (b : Bool) p r n, d.sends (if b = true then (d.setCredits c port).useTokens p r n else d.setCredits c port) := fun c b p r n => by
    split
    · exact (hcredits c).trans (htokens _ p r n)
    · exact hcredits c
  unfold Die.leave
  refine Die.sends.trans (e := _) ?_ (hsay _ _)
  split
  · exact (hmetered _ _ _ _ _).trans (hports _ _)
  · exact hmetered _ _ _ _ _

/-- A message on its way out. -/
theorem Die.sends_post (d : Die) (port : LinkPort) (part : Nat) (m : FabMsg) : d.sends (d.post port part m) := by
  rw [Die.post]
  split
  · exact Die.sends_leave d port part m
  · exact ⟨d.regs, _, d.out, rfl⟩

theorem Die.sends_respond (d : Die) (h : MsgHead) (st : Status) (data : List Byte) : d.sends (d.respond h st data) := Die.sends_post _ _ _ _

/-! ### Cores and their waits -/

/-- The table of cores is in its canonical form. -/
def Die.coresWf (d : Die) : Prop := tblWf (fun _ => ({} : Core)) none d.cores = true

/-- The cores stay in canonical form, and each stands where it stood. -/
def Die.keepsWaits (d t : Die) : Prop := d.coresWf → t.coresWf ∧ ∀ c, (t.core c).wait = (d.core c).wait

theorem Die.keepsWaits_of_cores {d t : Die} (h : t.cores = d.cores) : d.keepsWaits t := fun hwf =>
  ⟨by rwa [Die.coresWf, h], fun c => by rw [Die.core, h, Die.core]⟩

theorem Die.keepsWaits.trans {d e t : Die} (h : d.keepsWaits e) (h' : e.keepsWaits t) : d.keepsWaits t := fun hwf =>
  let ⟨he, hde⟩ := h hwf
  let ⟨ht, het⟩ := h' he
  ⟨ht, fun c => (het c).trans (hde c)⟩

theorem Die.keepsWaits_foldl {α : Type} {f : Die → α → Die} (hf : ∀ (e : Die) x, e.keepsWaits (f e x)) (l : List α) (d : Die) : d.keepsWaits (l.foldl f d) := by
  induction l generalizing d with
  | nil => exact Die.keepsWaits_of_cores rfl
  | cons x l ih => exact (hf d x).trans (ih _)

theorem Die.keepsWaits_onCore (d : Die) (c : CoreIx) {f : Core → Core} (hf : ∀ k, (f k).wait = k.wait) : d.keepsWaits (d.onCore c f) := fun hwf =>
  ⟨tblPut_wf _ _ hwf (fun _ hl => nomatch hl), fun x => by
    rw [Die.onCore, Die.core_setCore _ _ _ _ hwf]
    split
    · next h => rw [hf, h]
    · rfl⟩

theorem Die.keepsWaits_effectEnd (d : Die) (c : CoreIx) (id : Nat) : d.keepsWaits (d.effectEnd c id) := by
  rw [Die.effectEnd]
  split
  · exact Die.keepsWaits_of_cores rfl
  · exact Die.keepsWaits_onCore d c fun _ => rfl

theorem Die.sync_effectEnd (d : Die) (c : CoreIx) (id : Nat) : (d.effectEnd c id).sync = d.sync := by
  rw [Die.effectEnd]
  split <;> rfl

theorem Die.keepsWaits_clearEnd (d : Die) (x : ClearReq) : d.keepsWaits (d.clearEnd x) := by
  rw [Die.clearEnd]
  split
  · exact Die.keepsWaits_effectEnd _ _ _
  · exact Die.keepsWaits_of_cores rfl
  · exact Die.keepsWaits_of_cores rfl

theorem Die.sync_clearEnd (d : Die) (x : ClearReq) : (d.clearEnd x).sync = d.sync := by
  rw [Die.clearEnd]
  split
  · exact Die.sync_effectEnd _ _ _
  · rfl
  · rfl

/-- The answer to the sender of a slotted signal, which has left its slot. -/
def Die.signalAnswered (d : Die) (source : Nat) (x : SlotSignal) (st : Status) : Die :=
  let d := d.onSync fun u => { u with slots := u.slots.filter fun e => e.1 != source }
  match x.head with
  | some h => d.respond h st []
  | none => d

theorem Die.signalAnswered_eq (d : Die) (source : Nat) (x : SlotSignal) (st : Status) :
    ∃ regs ports out, d.signalAnswered source x st
      = { d with sync := { d.sync with slots := d.sync.slots.filter fun e => e.1 != source }, regs := regs, ports := ports, out := out } := by
  rw [Die.signalAnswered]
  dsimp only
  split
  · exact Die.sends_respond _ _ _ _
  · exact ⟨d.regs, d.ports, d.out, rfl⟩

theorem Die.signalEnd_ok (d : Die) (source : Nat) (x : SlotSignal) : d.signalEnd source x .ok
    = match x.who with
      | some (.core c, id) => (d.signalAnswered source x .ok).effectEnd c id
      | some (.pkt _, _) => (d.signalAnswered source x .ok).noteReady
      | _ => d.signalAnswered source x .ok := by
  rw [Die.signalEnd]
  rcases x.who with _ | ⟨⟨⟩, id⟩ <;> rfl

theorem Die.keepsWaits_signalEnd_ok (d : Die) (source : Nat) (x : SlotSignal) : d.keepsWaits (d.signalEnd source x .ok) := by
  obtain ⟨regs, ports, out, h⟩ := d.signalAnswered_eq source x .ok
  have hcores : d.keepsWaits (d.signalAnswered source x .ok) := Die.keepsWaits_of_cores (by rw [h])
  rw [Die.signalEnd_ok]
  split
  · exact hcores.trans (Die.keepsWaits_effectEnd _ _ _)
  · exact hcores
  · exact hcores

theorem Die.sync_signalEnd_ok (d : Die) (source : Nat) (x : SlotSignal) :
    (d.signalEnd source x .ok).sync = { d.sync with slots := d.sync.slots.filter fun e => e.1 != source } := by
  obtain ⟨regs, ports, out, h⟩ := d.signalAnswered_eq source x .ok
  rw [Die.signalEnd_ok]
  split
  · rw [Die.sync_effectEnd, h]
  · rw [h]; rfl
  · rw [h]

/-! ### One update -/

/-- The object's clears are done, if there are any. -/
def Die.clearsDone (d : Die) (n : ObjIx) : Die :=
  let due := d.sync.clears.filter fun x => x.obj == n
  if !due.isEmpty then
    due.foldl Die.clearEnd ((d.setObj n { d.obj n with value := 0, poison := false }).onSync fun u => { u with clears := u.clears.filter fun x => x.obj != n })
  else d

/-- The slotted signals of an object. -/
def Die.signalsOf (d : Die) (n : ObjIx) : List (Nat × SlotSignal) := d.sync.slots.filter fun e => e.2.obj == n

/-- The object's signals are added, its waiters tested when anything has happened to it, and the signals end. -/
def Die.addSignals (d : Die) (n : ObjIx) (clear : Bool) : Die :=
  let sigs := d.signalsOf n
  let e := d.setObj n { d.obj n with value := sigs.foldl (fun v s => v + s.2.inc) (d.obj n).value }
  sigs.foldl (fun e s => e.signalEnd s.1 s.2 .ok) (if clear || !sigs.isEmpty then e.testWaiters n else e)

theorem Die.updateObj_of_good {d : Die} {n : ObjIx} (h : ((d.clearsDone n).obj n).poison = false) :
    d.updateObj n = (d.clearsDone n).addSignals n (!(d.sync.clears.filter fun x => x.obj == n).isEmpty) := by
  rw [Die.updateObj]
  exact if_neg (by rw [← Bool.not_eq_true] at h; exact h)

theorem Die.sync_foldl_clearEnd (l : List ClearReq) (d : Die) : (l.foldl Die.clearEnd d).sync = d.sync := by
  induction l generalizing d with
  | nil => rfl
  | cons x l ih => rw [List.foldl_cons, ih, Die.sync_clearEnd]

theorem Die.sync_foldl_signalEnd (l : List (Nat × SlotSignal)) (d : Die) : (l.foldl (fun e s => e.signalEnd s.1 s.2 .ok) d).sync
    = { d.sync with slots := d.sync.slots.filter fun e => l.all fun s => e.1 != s.1 } := by
  induction l generalizing d with
  | nil => simp
  | cons x l ih => simp [ih, Die.sync_signalEnd_ok, List.filter_filter, Bool.and_comm]

/-- The table of sync objects is in its canonical form. -/
def Die.objsWf (d : Die) : Prop := tblWf (fun _ => ({} : SyncObj)) none d.sync.objs = true

theorem Die.obj_setObj {d : Die} (h : d.objsWf) (n m : ObjIx) (o : SyncObj) : (d.setObj n o).obj m = if m = n then o else d.obj m := by
  refine (tblGet_put n.val o m.val h).trans ?_
  simp only [Fin.ext_iff]
  rfl

theorem Die.objsWf.setObj {d : Die} (h : d.objsWf) (n : ObjIx) (o : SyncObj) : (d.setObj n o).objsWf := tblPut_wf _ _ h fun _ hl => nomatch hl

/-- A test of an object's waiters ends the packets' waits that are met and lets the cores whose waits are met go on. -/
def Core.tested (n : ObjIx) (v : W64) (k : Core) : Core :=
  match k.wait with
  | some (.object m eq thr) => if m == n && meets eq thr v then k.waitDone else k
  | _ => k

theorem Core.wait_tested {n : ObjIx} {v : W64} {k : Core} {eq : Bool} {thr : W64} (h : (k.tested n v).wait = some (.object n eq thr)) : meets eq thr v = false := by
  rw [Core.tested] at h
  split at h
  · split at h
    · simp [Core.waitDone] at h
    · next hw hmiss =>
      obtain ⟨rfl, rfl, rfl⟩ : _ = n ∧ _ = eq ∧ _ = thr := by simpa [hw] using h
      simpa using hmiss
  · next hother => exact absurd h (hother _ _ _)

theorem Core.tested_ne_default {n : ObjIx} {v : W64} {k : Core} (h : k ≠ {}) : k.tested n v ≠ {} := by
  rw [Core.tested]
  split
  · split
    · exact fun hk => absurd (congrArg Core.pc hk) (by simp [Core.waitDone])
    · exact h
  · exact h

section
variable {d : Die} (n : ObjIx)

theorem Die.finish_foldl_eq {α : Type} (f : α → Nat) (st : Status) (v : W64) (x : W32) (l : List α) (d : Die) :
    ∃ ps cp, l.foldl (fun e w => e.finish (f w) st v x) d = { d with pkts := ps, cp := cp } := by
  induction l generalizing d with
  | nil => exact ⟨_, _, rfl⟩
  | cons w l ih =>
    obtain ⟨ps, cp, h⟩ := d.finish_eq (f w) st v x
    obtain ⟨ps', cp', h'⟩ := ih (d.finish (f w) st v x)
    exact ⟨ps', cp', by rw [List.foldl_cons, h', h]⟩

theorem Die.testWaiters_eq : ∃ ps cp, d.testWaiters n = { d with
    pkts := ps, cp := cp, sync := { d.sync with waiters := d.sync.waiters.filter fun w => !(w.obj == n && meets w.equal w.thr (d.obj n).value) },
    cores := d.cores.map fun e => (e.1, e.2.tested n (d.obj n).value) } := by
  rw [Die.testWaiters]
  dsimp only
  obtain ⟨ps, cp, h⟩ := Die.finish_foldl_eq PktWaiter.pid .ok (d.obj n).value 0 (d.sync.waiters.filter fun w => w.obj == n && meets w.equal w.thr (d.obj n).value)
    (d.onSync fun u => { u with waiters := u.waiters.filter fun w => !(w.obj == n && meets w.equal w.thr (d.obj n).value) })
  rw [h]
  exact ⟨ps, cp, rfl⟩

end

/-! ### What an update leaves -/

/-- A CLEAR is queued for the object. -/
def Die.clearDue (d : Die) (n : ObjIx) : Bool := d.sync.clears.any fun x => x.obj == n

theorem Die.clearDue_eq (d : Die) (n : ObjIx) : (!(d.sync.clears.filter fun x => x.obj == n).isEmpty) = d.clearDue n := by
  rw [Die.clearDue, Bool.eq_iff_iff]
  simp

section
variable {d : Die} (h : d.objsWf) (n : ObjIx)
include h

theorem Die.sync_clearsDone : (d.clearsDone n).sync.slots = d.sync.slots ∧ (∀ x ∈ (d.clearsDone n).sync.clears, x.obj ≠ n) ∧ (d.clearsDone n).objsWf
    ∧ (d.clearsDone n).obj n = (if d.clearDue n then { d.obj n with value := 0, poison := false } else d.obj n)
    ∧ ∀ m, m ≠ n → (d.clearsDone n).obj m = d.obj m := by
  rw [Die.clearsDone]
  dsimp only
  rw [Die.clearDue_eq]
  split
  · have hsync := Die.sync_foldl_clearEnd (d.sync.clears.filter fun x => x.obj == n)
      ((d.setObj n { d.obj n with value := 0, poison := false }).onSync fun u => { u with clears := u.clears.filter fun x => x.obj != n })
    generalize (d.sync.clears.filter fun x => x.obj == n).foldl Die.clearEnd _ = e at hsync
    have hobj : ∀ m, e.obj m = (d.setObj n { d.obj n with value := 0, poison := false }).obj m := fun m => by rw [Die.obj, hsync]; rfl
    refine ⟨by rw [hsync]; rfl, fun x hx => ?_, by rw [Die.objsWf, hsync]; exact h.setObj n _, ?_, fun m hm => ?_⟩
    · rw [hsync] at hx
      simpa using (List.mem_filter.mp hx).2
    · rw [hobj, Die.obj_setObj h, if_pos rfl]
    · rw [hobj, Die.obj_setObj h, if_neg hm]
  · next hnone =>
    refine ⟨rfl, fun x hx => ?_, h, rfl, fun _ _ => rfl⟩
    intro hxn
    exact hnone (List.any_eq_true.mpr ⟨x, hx, by simpa using hxn⟩)

omit h in
theorem Die.keepsWaits_clearsDone : d.keepsWaits (d.clearsDone n) := by
  rw [Die.clearsDone]
  dsimp only
  split
  · exact (Die.keepsWaits_of_cores (t := (d.setObj n _).onSync _) rfl).trans (Die.keepsWaits_foldl Die.keepsWaits_clearEnd _ _)
  · exact Die.keepsWaits_of_cores rfl

/-- The sum of the slotted signals on a value. -/
def sumSignals (sigs : List (Nat × SlotSignal)) (v : W64) : W64 := sigs.foldl (fun v s => v + s.2.inc) v

/-- The object with its signals added, before they end. -/
def Die.summed (d : Die) (n : ObjIx) : Die := d.setObj n { d.obj n with value := sumSignals (d.signalsOf n) (d.obj n).value }

/-- The same, with its waiters tested when anything has happened to it. -/
def Die.summedTested (d : Die) (n : ObjIx) (clear : Bool) : Die := if clear || !(d.signalsOf n).isEmpty then (d.summed n).testWaiters n else d.summed n

theorem Die.sync_summedTested (clear : Bool) : (d.summedTested n clear).sync.objs = (d.summed n).sync.objs ∧ (d.summedTested n clear).sync.slots = d.sync.slots
    ∧ (d.summedTested n clear).sync.clears = d.sync.clears
    ∧ (clear = true ∨ d.signalsOf n ≠ [] →
      ∀ w ∈ (d.summedTested n clear).sync.waiters, w.obj = n → meets w.equal w.thr (sumSignals (d.signalsOf n) (d.obj n).value) = false) := by
  rw [Die.summedTested]
  split
  · obtain ⟨ps, cp, ht⟩ := (d.summed n).testWaiters_eq n
    rw [ht]
    refine ⟨rfl, rfl, rfl, fun _ w hw hwn => ?_⟩
    have hmiss := (List.mem_filter.mp hw).2
    rw [Die.summed, Die.obj_setObj h, if_pos rfl] at hmiss
    simpa [hwn] using hmiss
  · next hidle =>
    refine ⟨rfl, rfl, rfl, fun htest => absurd htest ?_⟩
    simpa using hidle

theorem Die.sync_addSignals (clear : Bool) : ((d.addSignals n clear).obj n = { d.obj n with value := sumSignals (d.signalsOf n) (d.obj n).value })
    ∧ (∀ m, m ≠ n → (d.addSignals n clear).obj m = d.obj m) ∧ (d.addSignals n clear).sync.clears = d.sync.clears
    ∧ (∀ x ∈ (d.addSignals n clear).sync.slots, x.2.obj ≠ n)
    ∧ (clear = true ∨ d.signalsOf n ≠ [] →
      ∀ w ∈ (d.addSignals n clear).sync.waiters, w.obj = n → meets w.equal w.thr (sumSignals (d.signalsOf n) (d.obj n).value) = false) := by
  obtain ⟨hobjs, hslots, hclears, hwaiters⟩ := Die.sync_summedTested h n clear
  have hsync := Die.sync_foldl_signalEnd (d.signalsOf n) (d.summedTested n clear)
  change (d.addSignals n clear).sync = _ at hsync
  have hobj : ∀ m, (d.addSignals n clear).obj m = (d.summed n).obj m := fun m => by rw [Die.obj, hsync, Die.obj, ← hobjs]
  refine ⟨?_, fun m hm => ?_, by rw [hsync]; exact hclears, fun x hx hxn => ?_, fun htest w hw => ?_⟩
  · rw [hobj, Die.summed, Die.obj_setObj h, if_pos rfl]
  · rw [hobj, Die.summed, Die.obj_setObj h, if_neg hm]
  · rw [hsync, hslots] at hx
    obtain ⟨hx, hleft⟩ := List.mem_filter.mp hx
    have hsig : x ∈ d.signalsOf n := List.mem_filter.mpr ⟨hx, by simpa using hxn⟩
    simpa using List.all_eq_true.mp hleft x hsig
  · rw [hsync] at hw
    exact hwaiters htest w hw

theorem Die.wait_addSignals {clear : Bool} (hwf : d.coresWf) (htest : clear = true ∨ d.signalsOf n ≠ []) {c : CoreIx} {eq : Bool} {thr : W64}
    (hw : ((d.addSignals n clear).core c).wait = some (.object n eq thr)) : meets eq thr (sumSignals (d.signalsOf n) (d.obj n).value) = false := by
  have hended : (d.summedTested n clear).keepsWaits (d.addSignals n clear) := Die.keepsWaits_foldl (fun e (s : Nat × SlotSignal) => Die.keepsWaits_signalEnd_ok e s.1 s.2) _ _
  have hv : ((d.summed n).obj n).value = sumSignals (d.signalsOf n) (d.obj n).value := by rw [Die.summed, Die.obj_setObj h, if_pos rfl]
  obtain ⟨ps, cp, ht⟩ := (d.summed n).testWaiters_eq n
  have htested : d.summedTested n clear = (d.summed n).testWaiters n := if_pos (by simpa using htest)
  have hcores : (d.summedTested n clear).cores = d.cores.map fun e => (e.1, e.2.tested n ((d.summed n).obj n).value) := by rw [htested, ht]; rfl
  have hcore : (d.summedTested n clear).core c = (d.core c).tested n ((d.summed n).obj n).value := by
    rw [Die.core, hcores]
    exact tblGet_map (dflt := fun _ => ({} : Core)) (Core.tested n _) (fun _ => rfl) d.cores c.val
  have hwf' : (d.summedTested n clear).coresWf := by
    rw [Die.coresWf, hcores]
    exact tblWf_map (Core.tested n _) (fun _ _ hk => Core.tested_ne_default hk) hwf
  rw [(hended hwf').2 c, hcore, hv] at hw
  exact Core.wait_tested hw

end

/-- Settles O33. -/
theorem syncBankUpdate : Obligations.SyncBankUpdate := by
  refine ⟨fun s bank hlive => ?_, fun d n hcanon => ?_⟩
  · have hnext : becomes (.syncBankUpdate bank) s (homeEvent (opSyncBankUpdate bank) s.die) := onLive_live _ hlive
    rw [homeEvent, opSyncBankUpdate] at hnext
    refine ⟨fun h => ?_, fun n h => ?_⟩ <;>
    · rw [h] at hnext
      exact hnext
  · intro cleared sigs old t
    obtain ⟨-, -, hobjs, hcores, -⟩ := hcanon
    obtain ⟨hslots, hclears, hwf, hobj, hothers⟩ := Die.sync_clearsDone hobjs n
    refine ⟨fun hgood => ?_, fun hnone hpoison => ?_⟩
    · have hclear : d.clearDue n = cleared := rfl
      have hafter : (d.clearsDone n).obj n = { d.obj n with value := old, poison := false } := by
        rw [hobj, hclear]
        rcases Bool.eq_false_or_eq_true cleared with hc | hc
        · simp [hc, old]
        · have hp := hgood.resolve_left (by simp [hc])
          simp only [hc, old, Bool.false_eq_true, if_false]
          rw [← hp]
      have hsigs : (d.clearsDone n).signalsOf n = sigs := by rw [Die.signalsOf, hslots]
      have ht : t = (d.clearsDone n).addSignals n cleared := by
        rw [← hclear, ← Die.clearDue_eq]
        exact Die.updateObj_of_good (by rw [hafter])
      obtain ⟨hn, hm, hleftClears, hleftSlots, hleftWaiters⟩ := Die.sync_addSignals hwf n cleared
      have hvalue : sumSignals ((d.clearsDone n).signalsOf n) ((d.clearsDone n).obj n).value = (t.obj n).value := by rw [ht, hn]
      refine ⟨?_, fun m hne => ?_, ?_, ?_, fun htest => ⟨?_, fun c eq thr hw => ?_⟩⟩
      · rw [ht, hn, hafter, hsigs]
        rfl
      · rw [ht, hm m hne, hothers m hne]
      · rw [ht]
        exact hleftSlots
      · rw [ht, hleftClears]
        exact hclears
      · rw [← hvalue, ht]
        exact hleftWaiters (by rw [hsigs]; exact htest)
      · rw [ht] at hw
        rw [← hvalue]
        exact Die.wait_addSignals hwf n ((Die.keepsWaits_clearsDone n) hcores).1 (by rw [hsigs]; exact htest) hw
    · have hdue : (!(d.sync.clears.filter fun x => x.obj == n).isEmpty) = false := (Die.clearDue_eq d n).trans hnone
      change d.updateObj n = _
      rw [Die.updateObj]
      dsimp only
      simp only [hdue, Bool.false_eq_true, if_false]
      exact if_pos hpoison

end Sys2Proof.Machine
end

section
/-! PROOF. Accesses to sync objects, signal messages and their acknowledgements (obligation O34). -/

namespace Sys2Proof.Machine

/-! ### The registers of an object -/

/-- The window of a VF onto the objects. -/
theorem Die.vfReg_objects (d : Die) (p : Nat) {off : Nat} (hlo : 0x10000 ≤ off) (hhi : off < 0x30000) (halign : off % 4 = 0) :
    d.vfReg p off = if (d.obj (objIx ((off - 0x10000) / 16))).owner.toNat == p || (off - 0x10000) % 16 == 8
      then .object (objIx ((off - 0x10000) / 16)) ((off - 0x10000) % 16) else .zero := by
  have hne : ∀ k, k < 0x10000 → (off == k) = false := fun k hk => beq_eq_false_iff_ne.mpr (by omega)
  have hgt : ∀ k, k < 0x10000 → decide (off ≤ k) = false := fun k hk => decide_eq_false (by omega)
  have hge : ∀ k, k ≤ 0x10000 → decide (off < k) = false := fun k hk => decide_eq_false (by omega)
  simp [Die.vfReg, halign, hlo, hhi, inArr, ID, PLACE, GOOD_COUNT, RSVD_BAR0, RSVD_BAR2, RSVD_LAST, hne, hgt, hge]

/-- A write of the add register is withheld exactly while source 49 has its slot occupied (R264). -/
theorem Die.addHeld_syncAdd (d : Die) (who : Who) (n : ObjIx) : d.addHeld who.part.val (objOff who n 8) = (assoc d.sync.slots 49).isSome := by
  have hn := n.isLt
  rw [objOff]
  cases hp : who.part.val == 0 with
  | true =>
    have hadd : (0x2000000 + 16 * n.val + 8 - 0x2000000) % 16 = 8 := by omega
    rw [Die.addHeld, if_pos rfl, hp, if_pos rfl, if_pos (by simp; omega), hadd]
    rfl
  | false =>
    have hadd : (0x10000 + 16 * n.val + 8 - 0x10000) % 16 = 8 := by omega
    rw [Die.addHeld, hp, if_neg Bool.false_ne_true, if_neg Bool.false_ne_true, Die.vfReg_objects _ _ (by omega) (by omega) (by omega), hadd, if_pos (by simp)]
    rfl

/-- A write of the control register is never withheld. -/
theorem Die.addHeld_syncCtrl (d : Die) (who : Who) (n : ObjIx) : d.addHeld who.part.val (objOff who n 12) = false := by
  have hn := n.isLt
  rw [objOff]
  cases hp : who.part.val == 0 with
  | true =>
    have hctrl : (0x2000000 + 16 * n.val + 12 - 0x2000000) % 16 = 12 := by omega
    rw [Die.addHeld, if_pos rfl, hp, if_pos rfl, if_pos (by simp; omega), hctrl]
    rfl
  | false =>
    have hctrl : (0x10000 + 16 * n.val + 12 - 0x10000) % 16 = 12 := by omega
    rw [Die.addHeld, hp, if_neg Bool.false_ne_true, if_neg Bool.false_ne_true, Die.vfReg_objects _ _ (by omega) (by omega) (by omega), hctrl]
    cases (d.obj (objIx ((0x10000 + 16 * n.val + 12 - 0x10000) / 16))).owner.toNat == who.part.val || 12 == 8 <;> rfl

section
variable {s : State} {who : Who} {n : ObjIx} {v : W32}

theorem becomes_syncAdd (hreach : Reaches s.die who true) (hfree : assoc s.die.sync.slots 49 = none) :
    becomes (.syncAdd who n v) s (opSyncAdd who n v s.die) := by
  change onDie _ s = _
  rw [onDie_eq, fromHost_reaches hreach, posted_reaches hreach (by rw [Die.addHeld_syncAdd, hfree]; rfl)]

theorem becomes_syncAdd_held (hreach : Reaches s.die who true) {x : SlotSignal} (hheld : assoc s.die.sync.slots 49 = some x) :
    becomes (.syncAdd who n v) s (s.die.enqueueHost (.regWrite who false (objOff who n 8) v.toNat)) := by
  change onDie _ s = _
  rw [onDie_eq, fromHost_reaches hreach, posted, Die.addHeld_syncAdd, hheld, if_pos (by simp)]

theorem becomes_syncOwnerWrite (hreach : Reaches s.die who true) : becomes (.syncOwnerWrite who n v) s (s.die.writeSyncCtrl who n v) := by
  change onDie _ s = _
  rw [onDie_eq, fromHost_reaches hreach, posted_reaches hreach (by rw [Die.addHeld_syncCtrl, Bool.and_false])]
  rfl

theorem becomes_clear (hreach : Reaches s.die who true) :
    becomes (.clear who n) s (s.die.writeSyncCtrl who n ((s.die.obj n).owner.setWidth 32 ||| 16)) := by
  change onDie _ s = _
  rw [onDie_eq, fromHost_reaches hreach, posted_reaches hreach (by rw [Die.addHeld_syncCtrl, Bool.and_false])]
  rfl

end

theorem Die.slotSignal_free {d : Die} {src : Nat} (h : assoc d.sync.slots src = none) (x : SlotSignal) :
    d.slotSignal src x = some (d.onSync fun u => { u with slots := assocPut u.slots src x }) := by
  rw [Die.slotSignal, h]

theorem Die.slotSignal_occupied {d : Die} {src : Nat} {y : SlotSignal} (h : assoc d.sync.slots src = some y) (x : SlotSignal) : d.slotSignal src x = none := by
  rw [Die.slotSignal, h]

theorem opSyncAdd_of_may {d : Die} {who : Who} {n : ObjIx} (hmay : d.mayObj who n = true) (hfree : assoc d.sync.slots 49 = none) (v : W32) :
    opSyncAdd who n v d = d.onSync fun u => { u with slots := assocPut u.slots 49 { obj := n, inc := v.setWidth 64, part := who.part.val, who := none, head := none, posted := true, fn := some who.latch } } := by
  rw [opSyncAdd, if_pos hmay, Die.slotSignal_free hfree, Option.getD_some]

section
variable {d : Die} {who : Who} {n : ObjIx} {v : W32}

/-- An ownership change by the physical function, which may clear every object (R267, R268). -/
theorem Die.writeSyncCtrl_owner (hpf : who.part.val = 0) (howner : v.setWidth 4 ≠ (d.obj n).owner) :
    d.writeSyncCtrl who n v
      = (let owned := (d.endWaiters n .aborted fun e c => e.coreFault c 13 (e.core c).pc .noAuthority).setObj n { value := 0, owner := v.setWidth 4, poison := false }
        if v.getLsbD 4 then owned.onSync fun u => { u with clears := u.clears ++ [{ obj := n, fn := some who.latch }] } else owned) := by
  have hmay : d.mayObj who n = true := by rw [Die.mayObj, hpf]; rfl
  rw [Die.writeSyncCtrl]
  dsimp only
  rw [if_pos (Bool.and_eq_true_iff.mpr ⟨by rw [hpf]; rfl, bne_iff_ne.mpr howner⟩), hmay, Bool.and_true]

theorem Die.writeSyncCtrl_keep (hkeep : who.part.val ≠ 0 ∨ v.setWidth 4 = (d.obj n).owner) :
    d.writeSyncCtrl who n v
      = if v.getLsbD 4 = true ∧ d.mayObj who n = true then d.onSync fun u => { u with clears := u.clears ++ [{ obj := n, fn := some who.latch }] } else d := by
  have hno : (who.part.val == 0 && v.setWidth 4 != (d.obj n).owner) = false := by
    rcases hkeep with h | h
    · rw [beq_eq_false_iff_ne.mpr h, Bool.false_and]
    · rw [h, bne_self_eq_false, Bool.and_false]
  rw [Die.writeSyncCtrl]
  dsimp only
  rw [hno, if_neg Bool.false_ne_true]
  simp only [Bool.and_eq_true]

end

/-- The word that CLEAR writes leaves the owner as it is and sets bit 4. -/
theorem clearWord (owner : BitVec 4) : (owner.setWidth 32 ||| (16 : W32)).setWidth 4 = owner ∧ (owner.setWidth 32 ||| (16 : W32)).getLsbD 4 = true := by
  revert owner
  decide

/-! ### Reads -/

section
variable {s : State} {who : Who} {n : ObjIx}

theorem becomes_read {i : Instr} {bar0 : Bool} {off : Nat} {what : PostedRead} (hexec : exec i s = onDie (fromHost who bar0 false off (postedRead who what)) s)
    (hreach : Reaches s.die who false) :
    becomes i s (if s.die.effectDue who then s.die.enqueueHost (.regRead who what) else what.read who s.die) := by
  rw [becomes, hexec, onDie_eq, fromHost_reaches hreach, postedRead, hreach.2.1, Bool.false_or]

theorem Die.readValueLo_of_may {d : Die} (h : d.mayObj who n = true) : d.readValueLo who n = ((d.obj n).value.setWidth 32,
    d.onSync fun u => { u with hiLatch := assocPut u.hiLatch (who.latch * 8192 + n.val) (((d.obj n).value >>> 32).setWidth 32) }) := if_pos h

theorem Die.readValueLo_of_not_may {d : Die} (h : d.mayObj who n = false) : d.readValueLo who n = (0, d) := if_neg (by rw [h]; decide)

end

/-! ### The end of a packet's wait -/

theorem opWaitTimeout_of_deadline {d : Die} {w : PktWaiter} {t : Nat} (hw : (d.sync.waiters.find? fun x => x.pid == w.pid) = some w) (ht : w.deadline = some t) :
    opWaitTimeout w.pid d = if t ≤ d.tick.count then
      (d.onSync fun u => { u with waiters := u.waiters.filter fun x => x.pid != w.pid }).finish w.pid .aborted (d.obj w.obj).value 0 else d := by
  rw [opWaitTimeout, hw]
  dsimp only
  rw [ht]

/-! ### Signal messages -/

section
variable {d : Die} {m : SignalMsg}

theorem opSignalMsgReceive_of_not_pass (h : d.portCheck m.head 5 none ≠ .pass) :
    opSignalMsgReceive m d = (d.notPassed m.head 5 (d.portCheck m.head 5 none)).freeUnits m.head.port 5 32 := Die.admitted_of_not_pass h

variable (hpass : d.portCheck m.head 5 none = .pass)
include hpass

theorem opSignalMsgReceive_of_newer (h : d.fenceOf m.head.epoch = .newer) : opSignalMsgReceive m d = d := by
  refine (Die.admitted_of_pass hpass).trans ?_
  rw [h]

theorem opSignalMsgReceive_of_older (h : d.fenceOf m.head.epoch = .older) : opSignalMsgReceive m d
    = (((d.winRefused m.head 5 2).rejectOld m.head true).syncErr m.obj 4 (portSource m.head.port) m.head.src m.head.part.val false).freeUnits m.head.port 5 32 := by
  refine (Die.admitted_of_pass hpass).trans ?_
  rw [h]

variable (hsame : d.fenceOf m.head.epoch = .same)
include hsame

theorem opSignalMsgReceive_of_same : opSignalMsgReceive m d
    = match (if d.byStamp m.head then d.peerSignal m else d.windowSignal m) with | some e => e.freeUnits m.head.port 5 32 | none => d := by
  refine (Die.admitted_of_pass hpass).trans ?_
  rw [hsame] <;> rfl

theorem opSignalMsgReceive_of_taken {e : Die} (h : (if d.byStamp m.head then d.peerSignal m else d.windowSignal m) = some e) :
    opSignalMsgReceive m d = e.freeUnits m.head.port 5 32 := by
  rw [opSignalMsgReceive_of_same hpass hsame, h]

theorem opSignalMsgReceive_of_held (h : (if d.byStamp m.head then d.peerSignal m else d.windowSignal m) = none) :
    opSignalMsgReceive m d = d := by
  rw [opSignalMsgReceive_of_same hpass hsame, h]

end

section
variable {d : Die} {m : SignalMsg}

/-- The signal of a message as the sync unit slots it for a partition. -/
def slotted (m : SignalMsg) (part : Nat) : SlotSignal := { obj := m.obj, inc := m.inc, part := part, who := none, head := some m.head }

theorem Die.peerSignal_of_owner (h : (d.obj m.obj).owner.toNat = m.head.part.val) :
    d.peerSignal m = d.slotSignal (portSource m.head.port) (slotted m m.head.part.val) := if_pos (beq_iff_eq.mpr h)

theorem Die.peerSignal_of_other (h : (d.obj m.obj).owner.toNat ≠ m.head.part.val) :
    d.peerSignal m = some ((d.respond m.head .noAuthority []).syncErr m.obj 1 (portSource m.head.port) m.head.src m.head.part.val true) :=
  if_neg (by rw [beq_iff_eq]; exact h)

/-- A signal that its window does not let in. -/
def Die.signalRefused (d : Die) (m : SignalMsg) (check cause part : Nat) : Die :=
  ((d.winErr m.head check).respond m.head .outOfWindow []).syncErr m.obj cause (portSource m.head.port) m.head.src part true

theorem Die.windowSignal_of_closed {c : Nat} (h : d.winOpen m.head = .error c) : d.windowSignal m = some (d.signalRefused m c 2 m.head.part.val) := by
  rw [Die.windowSignal, h]
  rfl

variable {w : Window} (hopen : d.winOpen m.head = .ok w)
include hopen

theorem Die.windowSignal_of_no_right (h : w.right 3 = false) : d.windowSignal m = some (d.signalRefused m 5 2 w.part) := by
  rw [Die.windowSignal, hopen]
  exact if_pos (by rw [h]; rfl)

theorem Die.windowSignal_of_other (hright : w.right 3 = true) (h : (d.obj m.obj).owner.toNat ≠ w.part) :
    d.windowSignal m = some (d.signalRefused m 8 1 w.part) := by
  rw [Die.windowSignal, hopen]
  exact (if_neg (by rw [hright]; decide)).trans (if_pos (bne_iff_ne.mpr h))

theorem Die.windowSignal_of_owner (hright : w.right 3 = true) (h : (d.obj m.obj).owner.toNat = w.part) :
    d.windowSignal m = d.slotSignal (portSource m.head.port) (slotted m w.part) := by
  rw [Die.windowSignal, hopen]
  exact (if_neg (by rw [hright]; decide)).trans (if_neg (by rw [bne_iff_ne]; exact not_not_intro h))

end

/-! ### Acknowledgements and other answers -/

/-- The header that the answer's message is judged by. -/
def answerSeen (m : Response) : MsgHead := judged m.head (.response m)

section
variable {d : Die} {m : Response} {data : List Byte}

theorem Die.takeResponse_of_not_pass (h : d.portCheck (answerSeen m) 4 none ≠ .pass) :
    d.takeResponse m data = (d.notPassed (answerSeen m) 4 (d.portCheck (answerSeen m) 4 none)).freeUnits
      (answerSeen m).port 4 (msgBytes (.response m)) := Die.admitted_of_not_pass h

variable (hpass : d.portCheck (answerSeen m) 4 none = .pass)
include hpass

theorem Die.takeResponse_of_newer (h : d.fenceOf m.head.epoch = .newer) : d.takeResponse m data = d := by
  refine (Die.admitted_of_pass hpass).trans ?_
  rw [h]

theorem Die.takeResponse_of_older (h : d.fenceOf m.head.epoch = .older) :
    d.takeResponse m data = (d.rejectOld m.head false).freeUnits (answerSeen m).port 4 (msgBytes (.response m)) := by
  refine (Die.admitted_of_pass hpass).trans ?_
  rw [h]

theorem Die.takeResponse_of_same (h : d.fenceOf m.head.epoch = .same) :
    d.takeResponse m data = (d.response m.head.tag m.st data).freeUnits (answerSeen m).port 4 (msgBytes (.response m)) := by
  refine (Die.admitted_of_pass hpass).trans ?_
  rw [h]

end

theorem Die.response_of_none {d : Die} {tag : W32} (h : (d.ports.ops.find? fun o => o.tag == tag && o.reply.isNone) = none) (st : Status) (data : List Byte) :
    d.response tag st data = d := by
  rw [Die.response, h]

theorem Die.response_of_some {d : Die} {tag : W32} {o : RemoteOp} (h : (d.ports.ops.find? fun o => o.tag == tag && o.reply.isNone) = some o)
    (st : Status) (data : List Byte) : d.response tag st data = d.remoteEnd o st data := by
  rw [Die.response, h]

/-- An acknowledged write or signal of a core's access (R444). -/
theorem Die.remoteEnd_of_core_ack {d : Die} {o : RemoteOp} {c : CoreIx} (hreq : o.req = .core c) (hread : o.read = none)
    (htier : (d.ports.tierReads.find? fun t => t.1 == o.tag) = none) (data : List Byte) :
    d.remoteEnd o .ok data = (d.onPorts fun u => { u with ops := u.ops.filter fun x => !(x.tag == o.tag) }).ackAsker { req := o.req, id := o.id } := by
  rw [Die.remoteEnd, htier]
  dsimp only
  rw [hreq, hread]
  rfl

/-! ### The obligation -/

theorem syncRegisters (s : State) (who : Who) (n : ObjIx) (v : W32) (hreach : Reaches s.die who true) :
    becomes (.syncOwnerWrite who n v) s (s.die.writeSyncCtrl who n v)
      ∧ becomes (.clear who n) s (if s.die.mayObj who n then s.die.onSync fun u => { u with clears := u.clears ++ [{ obj := n, fn := some who.latch }] } else s.die) := by
  refine ⟨becomes_syncOwnerWrite hreach, becomes_congr (becomes_clear hreach) ?_⟩
  obtain ⟨howner, hclear⟩ := clearWord (s.die.obj n).owner
  rw [Die.writeSyncCtrl_keep (.inr howner)]
  simp only [hclear, true_and]

/-- Settles O34. -/
theorem syncAccesses : Obligations.SyncAccesses := by
  refine ⟨fun s who n v => ⟨fun hreach => ?_, fun hreach => ?_, fun w t hlive hw ht => ?_⟩, fun s m hlive => ?_, fun s head st hlive => ?_⟩
  · obtain ⟨hctrl, hclear⟩ := syncRegisters s who n v hreach
    exact ⟨fun hfree hmay => becomes_congr (becomes_syncAdd hreach hfree) (opSyncAdd_of_may hmay hfree v),
      fun hfree hmay => becomes_congr (becomes_syncAdd hreach hfree) (if_neg (by rw [hmay]; decide)),
      fun x hheld => becomes_syncAdd_held hreach hheld,
      fun hpf howner => becomes_congr hctrl (Die.writeSyncCtrl_owner hpf howner),
      fun hkeep => becomes_congr hctrl (Die.writeSyncCtrl_keep hkeep), hclear⟩
  · have hvalue := becomes_read (i := .syncValueLoRead who n) rfl hreach
    have htick := becomes_read (i := .tickNowLoRead who) rfl hreach
    refine ⟨fun hdue => ?_, fun hdue hmay => ?_, fun hdue hmay => ?_, fun hdue => ?_⟩
    · exact ⟨becomes_congr hvalue (if_pos hdue), becomes_congr htick (if_pos hdue)⟩
    · refine becomes_congr hvalue ((if_neg (by rw [hdue]; decide)).trans ?_)
      rw [PostedRead.read, opSyncValueLoRead, Die.readValueLo_of_may hmay]
    · refine becomes_congr hvalue ((if_neg (by rw [hdue]; decide)).trans ?_)
      rw [PostedRead.read, opSyncValueLoRead, Die.readValueLo_of_not_may hmay]
    · exact becomes_congr htick (if_neg (by rw [hdue]; decide))
  · have hnext : becomes (.waitTimeout w.pid) s (opWaitTimeout w.pid s.die) := onLive_live _ hlive
    exact becomes_congr hnext (opWaitTimeout_of_deadline hw ht)
  · have hnext : becomes (.signalMsgReceive m) s (opSignalMsgReceive m s.die) := by
      change onDie _ s = _
      rw [onDie_eq, fromDie_live hlive]
    intro d h src check takes stays slots refused
    refine ⟨fun hc => becomes_congr hnext (opSignalMsgReceive_of_not_pass hc), fun hc hf => becomes_congr hnext (opSignalMsgReceive_of_newer hc hf),
      fun hc hf => becomes_congr hnext (opSignalMsgReceive_of_older hc hf), fun hc hf hstamp => ?_, fun hc hf hstamp => ?_⟩
    · have htaken {e : Die} (he : d.peerSignal m = some e) : takes e :=
        becomes_congr hnext (opSignalMsgReceive_of_taken hc hf ((if_pos hstamp).trans he))
      have hheld (he : d.peerSignal m = none) : stays :=
        becomes_congr hnext (opSignalMsgReceive_of_held hc hf ((if_pos hstamp).trans he))
      refine ⟨fun howner => ⟨fun x hx => ?_, fun hfree => ?_⟩, fun howner => htaken (Die.peerSignal_of_other howner)⟩
      · exact hheld ((Die.peerSignal_of_owner howner).trans (Die.slotSignal_occupied hx _))
      · exact htaken ((Die.peerSignal_of_owner howner).trans (Die.slotSignal_free hfree _))
    · have hno : ¬ d.byStamp m.head = true := by rw [hstamp]; decide
      have htaken {e : Die} (he : d.windowSignal m = some e) : takes e :=
        becomes_congr hnext (opSignalMsgReceive_of_taken hc hf ((if_neg hno).trans he))
      have hheld (he : d.windowSignal m = none) : stays :=
        becomes_congr hnext (opSignalMsgReceive_of_held hc hf ((if_neg hno).trans he))
      refine ⟨fun c hclosed => htaken (Die.windowSignal_of_closed hclosed), fun w hopen => ⟨fun hright => htaken (Die.windowSignal_of_no_right hopen hright),
        fun hright howner => htaken (Die.windowSignal_of_other hopen hright howner), fun hright howner => ⟨fun x hx => ?_, fun hfree => ?_⟩⟩⟩
      · exact hheld ((Die.windowSignal_of_owner hopen hright howner).trans (Die.slotSignal_occupied hx _))
      · exact htaken ((Die.windowSignal_of_owner hopen hright howner).trans (Die.slotSignal_free hfree _))
  · intro d m
    have hnext : becomes (.signalAckReceive head st) s (d.takeResponse m []) := onLive_live _ hlive
    refine ⟨fun hc => becomes_congr hnext (Die.takeResponse_of_not_pass hc), fun hc hf => becomes_congr hnext (Die.takeResponse_of_newer hc hf),
      fun hc hf => becomes_congr hnext (Die.takeResponse_of_older hc hf), fun hc hf => ?_⟩
    have htake := becomes_congr hnext (Die.takeResponse_of_same hc hf)
    refine ⟨fun hnone => ?_, fun o ho => ⟨?_, fun c hreq hread hok htier => ?_⟩⟩
    · exact becomes_congr htake (by rw [Die.response_of_none hnone] <;> rfl)
    · exact becomes_congr htake (by rw [Die.response_of_some ho] <;> rfl)
    · rw [hok]
      exact Die.remoteEnd_of_core_ack hreq hread htier []

end Sys2Proof.Machine
end

section
/-! PROOF. The homes of lines: acceptance of requests, and what memory and the owner let go on (obligation O35). -/

namespace Sys2Proof.Machine

/-! ### After a command of the homes -/

/-- With no window access and no access of the host waiting, nothing goes on. -/
theorem Die.afterHome_of_idle {d : Die} (hwin : d.ports.winOps = []) (hhost : d.host.posted = []) : d.afterHome = d := by
  rw [Die.afterHome, Die.answerWindows, hwin, List.foldl_nil, Die.drainHost, hhost]
  rfl

/-! ### Atomics -/

theorem amoNew_cas_of_eq {w old cmp : Nat} (h : cmp % 2 ^ (8 * w) = old) (new : Nat) : amoNew .cas w old cmp new = new % 2 ^ (8 * w) :=
  if_pos (beq_iff_eq.mpr h.symm)

theorem amoNew_cas_of_ne {w old cmp : Nat} (h : cmp % 2 ^ (8 * w) ≠ old) (new : Nat) : amoNew .cas w old cmp new = old :=
  if_neg (by rw [beq_iff_eq]; exact fun h' => h h'.symm)

/-! ### Serving an MSHR -/

theorem Die.serve_of_done {filled : Bool} {r : HomeReq} {d e : Die} (h : d.perform r filled = .done e) (hexcl : e.excl r.line r.host = false) (rs : List HomeReq) :
    Die.serve filled (r :: rs) d = Die.serve (filled && !r.host) rs e := by
  rw [Die.serve, h]
  cases rs with
  | nil => rfl
  | cons q qs => exact if_neg (by rw [hexcl]; decide)

theorem Die.serve_of_park {filled : Bool} {r : HomeReq} {d e : Die} {why : MshrWait} (h : d.perform r filled = .park e why) (rs : List HomeReq) :
    Die.serve filled (r :: rs) d = e.parkIn r rs why := by
  rw [Die.serve, h]

/-! ### The front request of a stop -/

section
variable {d : Die} {slice : SliceIx} {stop : Fin 64} {r : HomeReq}

theorem Die.slice_frontReq (h : d.frontReq slice stop = some r) : r.slice = slice ∧ r.stop = stop := by
  have hr := List.find?_some h
  exact ⟨beq_iff_eq.mp (Bool.and_eq_true_iff.mp hr).1, beq_iff_eq.mp (Bool.and_eq_true_iff.mp hr).2⟩

theorem Die.frontNote_of_no_note (h : ∀ q ∈ d.cache.ring, q.slice = slice → q.stop = stop → q.isNote = false) : d.frontNote slice stop = none := by
  rw [Die.frontNote]
  split
  · refine List.find?_eq_none.mpr fun q hq hhit => ?_
    simp only [Bool.and_eq_true, beq_iff_eq] at hhit
    obtain ⟨⟨hslice, hstop⟩, hnote⟩ := hhit
    rw [h q hq hslice hstop] at hnote
    cases hnote
  · rfl

variable (hfront : d.frontReq slice stop = some r)
include hfront

theorem opHomeRequestAccept_of_note (hnote : r.isNote = true) : opHomeRequestAccept slice stop d = d.takeNote r := by
  rw [opHomeRequestAccept, hfront]
  exact if_pos hnote

theorem opHomeRequestAccept_of_accepted (hnote : r.isNote = false) {e : Die} (h : d.acceptReq r = (true, e)) : opHomeRequestAccept slice stop d = e := by
  rw [opHomeRequestAccept, hfront]
  dsimp only
  rw [hnote, if_neg Bool.false_ne_true, h]

/-- A request that is not accepted, with no note of its stop behind it. -/
theorem opHomeRequestAccept_of_stopped (hnote : r.isNote = false) {e : Die} (h : d.acceptReq r = (false, e))
    (hring : ∀ q ∈ e.cache.ring, q.slice = slice → q.stop = stop → q.isNote = false) : opHomeRequestAccept slice stop d = e := by
  rw [opHomeRequestAccept, hfront]
  dsimp only
  rw [hnote, if_neg Bool.false_ne_true, h]
  dsimp only
  rw [Die.frontNote_of_no_note hring]

/-- The slice waits for another stop's request. -/
theorem Die.acceptReq_of_other {other : Fin 64} (hblocked : d.blockedBy slice = some other) (hne : other ≠ stop) : d.acceptReq r = (false, d) := by
  obtain ⟨hslice, hstop⟩ := Die.slice_frontReq hfront
  rw [Die.acceptReq, hslice, hblocked]
  exact if_pos (bne_iff_ne.mpr (by rw [hstop]; exact hne))

variable (hblocked : d.blockedBy slice = none)
include hblocked

theorem Die.acceptReq_of_takeIn {e : Die} (h : (d.popReq r).takeIn r = (true, e)) : d.acceptReq r = (true, e.unblock slice) := by
  obtain ⟨hslice, -⟩ := Die.slice_frontReq hfront
  rw [Die.acceptReq, hslice, hblocked]
  dsimp only
  rw [if_neg Bool.false_ne_true, h]

theorem Die.acceptReq_of_refused {e f : Die} (h : (d.popReq r).takeIn r = (false, e)) (h' : d.takeIn r = (false, f)) : d.acceptReq r = (false, f.block slice stop) := by
  obtain ⟨hslice, hstop⟩ := Die.slice_frontReq hfront
  rw [Die.acceptReq, hslice, hblocked]
  dsimp only
  rw [if_neg Bool.false_ne_true, h]
  dsimp only
  rw [h', hstop]

end

/-! ### Taking a request in -/

section
variable {d : Die} {r : HomeReq}

/-- Placement is about atomics only. -/
theorem Die.place_of_fill (h : r.op = .fill) : d.place r = (r, d) := by
  rw [Die.place, h]

theorem Die.place_of_read {a n : Nat} (h : r.op = .read a n) : d.place r = (r, d) := by
  rw [Die.place, h]

theorem Die.takeIn_of_mshr (hplace : (d.noteRun r).place r = (r, d.noteRun r)) {m : Mshr} (hm : d.mshrOf r.line r.host = some m) :
    d.takeIn r = if m.reqs.length < 9 then (true, (d.noteRun r).onMshr r.line r.host fun m => { m with reqs := m.reqs ++ [r] }) else (false, d) := by
  rw [Die.takeIn, hplace]
  dsimp only
  rw [hm]

variable (hm : d.mshrOf r.line r.host = none)
include hm

theorem Die.takeIn_of_excl (hplace : (d.noteRun r).place r = (r, d.noteRun r)) (hexcl : d.excl r.line r.host = true) (hroom : d.mshrsUsed r.slice < 64) :
    d.takeIn r = (true, ((d.noteRun r).revokeLine r.line r.host).parkIn r [] .revoke) := by
  rw [Die.takeIn, hplace]
  dsimp only
  rw [hm]
  dsimp only
  rw [if_pos hexcl, if_pos (decide_eq_true hroom)]

theorem Die.takeIn_of_done (hplace : (d.noteRun r).place r = (r, d.noteRun r)) (hexcl : d.excl r.line r.host = false) {e : Die}
    (h : (d.noteRun r).perform r false = .done e) : d.takeIn r = (true, e) := by
  rw [Die.takeIn, hplace]
  dsimp only
  rw [hm]
  dsimp only
  rw [hexcl, if_neg Bool.false_ne_true, h]

end

/-- A read of a device line whose sectors its slice has. -/
theorem Die.perform_read {d e : Die} {r : HomeReq} {a n : Nat} {bs : List Byte} (hop : r.op = .read a n) (hspace : r.space = .dev) (hsweep : d.sweeping r.key = false)
    (hbias : d.sharedBias r.line = false) (hhas : d.hasSectors r.line r.key (sectorMask (a - r.line) n) = true) (hread : d.devRead r a n = (some bs, e)) :
    d.perform r false = .done (e.reply r .ok bs) := by
  have hask : d.biasAsk r = none := by
    rw [Die.biasAsk, hbias]
    rfl
  rw [Die.perform, hspace]
  dsimp only
  rw [Die.performDev, hsweep, if_neg Bool.false_ne_true]
  dsimp only
  rw [if_neg Bool.false_ne_true, hask]
  dsimp only
  rw [hop]
  dsimp only
  rw [hhas, if_neg (by rw [Bool.not_true, Bool.and_false]; decide), hread]

/-! ### Notes of an L1 -/

section
variable {d : Die} {r : HomeReq}

theorem Die.takeNote_of_evict (hop : r.op = .evict) (hexcl : d.excl r.line r.host = false) (hdev : r.host = false) :
    d.takeNote r = ((d.popReq r).dropHolder r.line false).settleLine r.line false := by
  rw [Die.takeNote, hop]
  dsimp only
  rw [hexcl, if_neg Bool.false_ne_true, hdev]
  rfl

theorem Die.takeNote_of_result {a : Nat} {bs : List Byte} {e : Die} (hop : r.op = .result a bs) (hsweep : d.sweeping r.key = false)
    (h : ((d.popReq r).noteRun r).homePerformWrite r.stop.val a r.key bs false .usual = (true, e)) : d.takeNote r = e.reply r .ok [] := by
  rw [Die.takeNote, hop]
  dsimp only
  rw [hsweep, if_neg Bool.false_ne_true, h]

end

/-! ### What memory, the controller and the owner let go on -/

section
variable {d : Die} {line : Nat}

theorem opMemoryFillReturn_of_memory {m : Mshr} (hm : d.mshrOf line false = some m) (hwhy : m.why = .memory) :
    opMemoryFillReturn line d = Die.serve true m.reqs (d.dropMshr m.line m.host) := by
  rw [opMemoryFillReturn, hm]
  exact if_pos (by rw [hwhy]; rfl)

theorem opMemoryFillReturn_of_other {m : Mshr} (hm : d.mshrOf line false = some m) (hwhy : m.why ≠ .memory) : opMemoryFillReturn line d = d := by
  rw [opMemoryFillReturn, hm]
  exact if_neg (by rw [beq_iff_eq]; exact hwhy)

theorem opFarAtomicReturn_of_other {m : Mshr} (hm : d.mshrOf line false = some m) (hwhy : m.why ≠ .far) : opFarAtomicReturn line d = d := by
  rw [opFarAtomicReturn, hm]
  dsimp only
  split
  · exact absurd ‹m.why = .far› hwhy
  · rfl

variable {m : Mshr} {r : HomeReq} {rs : List HomeReq} {op : AmoOp} {a n : Nat} {cmp new : W64} {near : Option Bool}
  (hm : d.mshrOf line false = some m) (hwhy : m.why = .far) (hreqs : m.reqs = r :: rs) (hop : r.op = .amo op a n cmp new near)
include hm hwhy hreqs hop

theorem opFarAtomicReturn_of_performed {old : List Byte} {e f : Die} (hread : (d.dropMshr line false).hbmRead r.key a n = (some old, e))
    (hwrite : e.hbmWrite r.key a (leBytes n (amoNew op n (leNat old) cmp.toNat new.toNat)) = (true, f)) :
    opFarAtomicReturn line d = Die.serve false rs (f.reply r .ok old) := by
  rw [opFarAtomicReturn, hm]
  dsimp only
  rw [hwhy, hreqs]
  dsimp only
  rw [hop]
  dsimp only
  rw [hread]
  dsimp only
  rw [hwrite]

theorem opFarAtomicReturn_of_bad {e : Die} (hread : (d.dropMshr line false).hbmRead r.key a n = (none, e)) :
    opFarAtomicReturn line d = Die.serve false rs (e.fails r .eccUncorrectable) := by
  rw [opFarAtomicReturn, hm]
  dsimp only
  rw [hwhy, hreqs]
  dsimp only
  rw [hop]
  dsimp only
  rw [hread]

end

theorem opReleaseReceive_of_owner {d : Die} {slice : SliceIx} {stop : Fin 64} {r : HomeReq} {k : Nat} {t : TallyEntry}
    (hfront : d.frontReq slice stop = some r) (hop : r.op = .release) (ht : (d.popReq r).tallyOf r.line r.host = some (k, t)) (hexcl : t.excl = true)
    (howner : t.owner = stop) : opReleaseReceive slice stop d = ((d.popReq r).dropTally k).settleLine r.line r.host := by
  have hnote : r.isNote = true := by rw [HomeReq.isNote, hop]
  rw [opReleaseReceive, hfront]
  dsimp only
  rw [if_pos hnote]
  dsimp only
  rw [if_pos (by rw [hop]; rfl), ht]
  dsimp only
  rw [if_pos (by rw [hexcl, howner, beq_self_eq_true]; rfl)]

/-- Settles O35. -/
theorem homes : Obligations.Homes := by
  refine ⟨fun s slice stop hlive => ?_, fun s line hlive => ?_, fun s slice stop hlive => ?_, fun filled r rs d e => ⟨fun h hx => Die.serve_of_done h hx rs, fun why h => Die.serve_of_park h rs⟩,
    fun d hwin hhost => Die.afterHome_of_idle hwin hhost, fun w old cmp new hold => ⟨rfl, rfl, fun h => amoNew_cas_of_eq h new, fun h => amoNew_cas_of_ne h new⟩⟩
  · have hnext : becomes (.homeRequestAccept slice stop) s (homeEvent (opHomeRequestAccept slice stop) s.die) := onLive_live _ hlive
    have htakes {e : Die} (h : opHomeRequestAccept slice stop s.die = e) : becomes (.homeRequestAccept slice stop) s e.afterHome :=
      becomes_congr hnext (by rw [homeEvent, h])
    refine ⟨fun hnone => htakes (by rw [opHomeRequestAccept, hnone]), fun r hr => ?_⟩
    obtain ⟨hslice, hstop⟩ := Die.slice_frontReq hr
    refine ⟨?_, ?_, ?_, ?_, ?_, ?_⟩
    · intro a n bs e hb hop hspace hm hexcl hsweep hbias hhas hread
      have hdev : r.host = false := by rw [HomeReq.host, hspace]; rfl
      have hin := Die.takeIn_of_done (d := s.die.popReq r) (by rw [hdev]; exact hm) (Die.place_of_read hop) (by rw [hdev]; exact hexcl)
        (Die.perform_read hop hspace hsweep hbias hhas hread)
      exact htakes (opHomeRequestAccept_of_accepted hr (by rw [HomeReq.isNote, hop]) (Die.acceptReq_of_takeIn hr hb hin))
    · intro hop hexcl hdev
      exact htakes ((opHomeRequestAccept_of_note hr (by rw [HomeReq.isNote, hop])).trans (Die.takeNote_of_evict hop hexcl hdev))
    · intro a bs e hop hsweep hw
      exact htakes ((opHomeRequestAccept_of_note hr (by rw [HomeReq.isNote, hop])).trans (Die.takeNote_of_result hop hsweep (by rw [hstop]; exact hw)))
    · intro m hb hop hm
      have hnote : r.isNote = false := by rw [HomeReq.isNote, hop]
      have hin := Die.takeIn_of_mshr (d := s.die.popReq r) (Die.place_of_fill hop) hm
      refine ⟨fun hroom => htakes (opHomeRequestAccept_of_accepted hr hnote (Die.acceptReq_of_takeIn hr hb (hin.trans (if_pos hroom)))), fun hfull hring => ?_⟩
      have hstay := (Die.takeIn_of_mshr (d := s.die) (Die.place_of_fill hop) hm).trans (if_neg (not_lt.mpr hfull))
      exact htakes (opHomeRequestAccept_of_stopped hr hnote (Die.acceptReq_of_refused hr hb (hin.trans (if_neg (not_lt.mpr hfull))) hstay) hring)
    · intro other hb hne hnote hring
      exact htakes (opHomeRequestAccept_of_stopped hr hnote (Die.acceptReq_of_other hr hb hne) hring)
    · intro hb hop hm hexcl hroom
      have hin := Die.takeIn_of_excl (d := s.die.popReq r) hm (Die.place_of_fill hop) hexcl (by rw [hslice]; exact hroom)
      refine htakes ((opHomeRequestAccept_of_accepted hr (by rw [HomeReq.isNote, hop]) (Die.acceptReq_of_takeIn hr hb hin)).trans ?_)
      rw [Die.parkIn, hslice]
  · have hfill : becomes (.memoryFillReturn line) s (homeEvent (opMemoryFillReturn line) s.die) := onLive_live _ hlive
    have hfar : becomes (.farAtomicReturn line) s (homeEvent (opFarAtomicReturn line) s.die) := onLive_live _ hlive
    refine ⟨fun hnone => ⟨becomes_congr hfill (by rw [homeEvent, opMemoryFillReturn, hnone]), becomes_congr hfar (by rw [homeEvent, opFarAtomicReturn, hnone])⟩, fun m hm => ?_⟩
    refine ⟨fun hwhy hline hdev => becomes_congr hfill ?_, fun hwhy => becomes_congr hfill (congrArg Die.afterHome (opMemoryFillReturn_of_other hm hwhy)),
      fun hwhy => becomes_congr hfar (congrArg Die.afterHome (opFarAtomicReturn_of_other hm hwhy)), fun r rs op a n cmp new near hwhy hreqs hop => ⟨fun old e f hread hwrite => ?_, fun e hread => ?_⟩⟩
    · rw [homeEvent, opMemoryFillReturn_of_memory hm hwhy, hline, hdev]
    · exact becomes_congr hfar (congrArg Die.afterHome (opFarAtomicReturn_of_performed hm hwhy hreqs hop hread hwrite))
    · exact becomes_congr hfar (congrArg Die.afterHome (opFarAtomicReturn_of_bad hm hwhy hreqs hop hread))
  · have hnext : becomes (.releaseReceive slice stop) s (homeEvent (opReleaseReceive slice stop) s.die) := onLive_live _ hlive
    refine ⟨fun hnone => becomes_congr hnext ?_, fun r k t hr hop ht hexcl howner => becomes_congr hnext (congrArg Die.afterHome (opReleaseReceive_of_owner hr hop ht hexcl howner))⟩
    rw [homeEvent, opReleaseReceive, hnone]

end Sys2Proof.Machine
end

section
/-! PROOF. The work of a slice beside its requests (obligation O37). -/

namespace Sys2Proof.Machine

/-! ### Invalidations under way -/

/-- From one die to the next only messages to L1s and the records of invalidations have changed. -/
def Die.invalidates (d t : Die) : Prop := ∃ toL1 invs nextInv, t = { d with cache := { d.cache with toL1 := toL1, invs := invs, nextInv := nextInv } }

theorem Die.invalidates_refl (d : Die) : d.invalidates d := ⟨d.cache.toL1, d.cache.invs, d.cache.nextInv, rfl⟩

theorem Die.invalidates.trans {d e t : Die} (h : d.invalidates e) (h' : e.invalidates t) : d.invalidates t := by
  obtain ⟨l, i, n, rfl⟩ := h
  obtain ⟨l', i', n', rfl⟩ := h'
  exact ⟨l', i', n', rfl⟩

theorem Die.invalidates_foldl {α : Type} {f : Die → α → Die} (hf : ∀ (e : Die) x, e.invalidates (f e x)) (l : List α) (d : Die) : d.invalidates (l.foldl f d) := by
  induction l generalizing d with
  | nil => exact d.invalidates_refl
  | cons x xs ih => exact (hf d x).trans (ih _)

theorem Die.invalidates_tellL1 (d : Die) (stop : Fin 64) (line : Nat) (host : Bool) (kind : L1Kind) : d.invalidates (d.tellL1 stop line host kind) :=
  ⟨_, d.cache.invs, d.cache.nextInv, rfl⟩

theorem Die.broadcast_of_none {d : Die} {line : Nat} {host : Bool} (h : d.tallyOf line host = none) (done : InvDone) : d.broadcast line host done = (false, d) := by
  rw [Die.broadcast, h]

theorem Die.broadcast_of_some {d : Die} {line : Nat} {host : Bool} {x : Nat × TallyEntry} (h : d.tallyOf line host = some x) (done : InvDone) :
    (d.broadcast line host done).1 = true := by
  rw [Die.broadcast, h]

theorem Die.invalidates_broadcast (d : Die) (line : Nat) (host : Bool) (done : InvDone) : d.invalidates (d.broadcast line host done).2 := by
  rw [Die.broadcast]
  split
  · exact d.invalidates_refl
  · refine Die.invalidates.trans (e := d.onCache fun u => { u with
      nextInv := d.cache.nextInv + 1,
      invs := u.invs ++ [{ id := d.cache.nextInv, slice := homeSlice host line, line := line, host := host, left := (d.holders line host).length, done := done }] }) ?_
      (Die.invalidates_foldl (fun e s => e.invalidates_tellL1 s line host _) _ _)
    exact ⟨d.cache.toL1, _, _, rfl⟩

/-! ### Hayloft and prefetches -/

section
variable {d : Die} {slice : SliceIx}

theorem opHayloftWriteback_of_clean (h : ((d.hay slice).find? fun c => c.dirty != 0) = none) : opHayloftWriteback slice d = d := by
  rw [opHayloftWriteback, h]

theorem opHayloftWriteback_of_dirty {c : CLine} (h : ((d.hay slice).find? fun c => c.dirty != 0) = some c) :
    opHayloftWriteback slice d = (d.writeBack c).setHay slice (listUpd (fun x => x == c) (fun x => { x with dirty := 0 }) (d.hay slice)) := by
  rw [opHayloftWriteback, h]

/-- The slice holds a device line, in a way or in its hayloft. -/
def Die.holdsDev (d : Die) (slice : SliceIx) (line : Nat) : Bool :=
  (d.findWay slice line false).isSome || (d.hay slice).any fun c => c.addr == line && !c.host

/-- A prefetch has left its queue. -/
def Die.dropPrefetch (d : Die) (p : Prefetch) : Die := d.onCache fun u => { u with prefetches := u.prefetches.erase p }

theorem opNextLinePrefetch_of_none (h : (d.cache.prefetches.find? fun p => p.slice == slice) = none) : opNextLinePrefetch slice d = d := by
  rw [opNextLinePrefetch, h]

variable {p : Prefetch} (hp : (d.cache.prefetches.find? fun p => p.slice == slice) = some p)
include hp

theorem opNextLinePrefetch_of_held (h : d.holdsDev slice p.line = true ∨ 48 < d.mshrsUsed slice) : opNextLinePrefetch slice d = d.dropPrefetch p := by
  rw [opNextLinePrefetch, hp]
  exact if_pos (by rw [Bool.or_eq_true, decide_eq_true_eq]; exact h)

variable (hheld : d.holdsDev slice p.line = false) (hroom : d.mshrsUsed slice ≤ 48)
include hheld hroom

theorem opNextLinePrefetch_of_blocked (h : (d.blockedBy slice).isSome = true) : opNextLinePrefetch slice d = d := by
  rw [opNextLinePrefetch, hp]
  refine (if_neg ?_).trans (if_pos h)
  rw [show ((d.findWay slice p.line false).isSome || (d.hay slice).any fun c => c.addr == p.line && !c.host) = false from hheld, Bool.false_or, decide_eq_true_eq]
  exact not_lt.mpr hroom

theorem opNextLinePrefetch_of_free (h : d.blockedBy slice = none) :
    opNextLinePrefetch slice d = match (d.dropPrefetch p).takeIn p.req with | (true, e) => e | (false, _) => d := by
  rw [opNextLinePrefetch, hp]
  refine (if_neg ?_).trans (if_neg (by rw [h]; decide))
  rw [show ((d.findWay slice p.line false).isSome || (d.hay slice).any fun c => c.addr == p.line && !c.host) = false from hheld, Bool.false_or, decide_eq_true_eq]
  exact not_lt.mpr hroom

end

/-! ### Sweeps -/

/-- The arrays and haylofts lose the lines of the key; the L1 copies are invalidated. -/
theorem Die.sweepKey_eq (d : Die) (key : Nat) : ∃ e, d.invalidates e ∧ d.sweepKey key = e.onCache fun u => { u with
    lines := u.lines.filter fun x => !(!x.2.host && x.2.key == key)
    hay := (u.hay.map fun x => (x.1, x.2.filter fun c => !(!c.host && c.key == key))).filter fun x => !x.2.isEmpty } := by
  refine ⟨_, Die.invalidates_foldl (fun e (a : Nat) => ?_) _ d, rfl⟩
  split
  · exact e.invalidates_refl
  · exact e.invalidates_broadcast _ _ _

theorem swept_iff {c : CLine} {key : Nat} : (!(!c.host && c.key == key)) = true ↔ c.host = true ∨ c.key ≠ key := by
  rw [Bool.not_and, Bool.not_not, Bool.or_eq_true, Bool.not_eq_true', beq_eq_false_iff_ne]

theorem Die.sweepKey_spec (d : Die) (key : Nat) :
    (∀ e ∈ (d.sweepKey key).cache.lines, e.2.host = true ∨ e.2.key ≠ key) ∧ (∀ e ∈ d.cache.lines, e.2.host = true ∨ e.2.key ≠ key → e ∈ (d.sweepKey key).cache.lines)
      ∧ (∀ e ∈ (d.sweepKey key).cache.hay, ∀ c ∈ e.2, c.host = true ∨ c.key ≠ key) ∧ (d.sweepKey key).mem = d.mem := by
  obtain ⟨e, ⟨l, i, n, rfl⟩, heq⟩ := d.sweepKey_eq key
  rw [heq]
  refine ⟨fun x hx => ?_, fun x hx hkeep => ?_, fun x hx c hc => ?_, rfl⟩
  · exact swept_iff.mp (List.mem_filter.mp hx).2
  · exact List.mem_filter.mpr ⟨hx, swept_iff.mpr hkeep⟩
  · obtain ⟨y, -, rfl⟩ := List.mem_map.mp (List.mem_filter.mp hx).1
    exact swept_iff.mp (List.mem_filter.mp hc).2

section
variable {d : Die} {p : Nat} {rest : List Nat} (h : d.cache.sweeps = p :: rest)
include h

theorem opKeySweepComplete_of_held (hheld : ((d.sweepKey p).cache.tally.any fun t => !t.2.host && t.2.key == p) = true) : opKeySweepComplete d = d.sweepKey p := by
  rw [opKeySweepComplete, h]
  exact if_pos hheld

theorem opKeySweepComplete_of_gone (hheld : ((d.sweepKey p).cache.tally.any fun t => !t.2.host && t.2.key == p) = false) : opKeySweepComplete d
    = ((((d.sweepKey p).onCache fun u => { u with sweeps := rest }).countWrap DC_SWEEP_COUNT 1).putB DC_SWEEP_BUSY (!rest.isEmpty)).retryTally := by
  rw [opKeySweepComplete, h]
  exact if_neg (by rw [hheld]; decide)

end

/-! ### Host snoops -/

/-- What a snoop does once the line is free: the slice's copy goes, and the host is answered when every L1 copy is gone. -/
def Die.snooped (d : Die) (line : Nat) (host : Bool) (at_ : Nat) (held : Bool) : Die :=
  match (d.dropCopy line host).broadcast line host (.snoop at_ held) with
  | (true, d) => d
  | (false, d) => d.emit (.snoopResponse at_ held)

theorem Die.snooped_of_none {d : Die} {line : Nat} {host : Bool} (h : (d.dropCopy line host).tallyOf line host = none) (at_ : Nat) (held : Bool) :
    d.snooped line host at_ held = (d.dropCopy line host).emit (.snoopResponse at_ held) := by
  rw [Die.snooped, Die.broadcast_of_none h]

theorem Die.snooped_of_some {d : Die} {line : Nat} {host : Bool} {x : Nat × TallyEntry} (h : (d.dropCopy line host).tallyOf line host = some x) (at_ : Nat)
    (held : Bool) : d.snooped line host at_ held = ((d.dropCopy line host).broadcast line host (.snoop at_ held)).2 := by
  have hfst := Die.broadcast_of_some h (.snoop at_ held)
  rw [Die.snooped]
  split
  · next heq => rw [heq]
  · next heq =>
    rw [heq] at hfst
    cases hfst

section
variable {d : Die} {kind : Snoop} {addr : Nat}

theorem opHostSnoop_of_host (hdev : d.sharedHere (lineOf addr) = none) : opHostSnoop kind addr d
    = match d.lineFree (lineOf addr) true with | (false, e) => e | (true, e) => e.snooped (lineOf addr) true (lineOf addr) (e.heldLine (lineOf addr) true) := by
  rw [opHostSnoop, hdev]
  rfl

theorem opHostSnoop_of_shared {line : Nat} (hdev : d.sharedHere (lineOf addr) = some line) : opHostSnoop kind addr d
    = match d.lineFree line false with
      | (false, e) => e
      | (true, e) => ((e.cleanLine line).onCache fun u => { u with owned := u.owned.erase line }).snooped line false (lineOf addr) (e.heldLine line false) := by
  rw [opHostSnoop, hdev]
  rfl

end

/-- Settles O37. -/
theorem sliceWork : Obligations.SliceWork := by
  refine ⟨fun s slice hlive => ?_, fun s q hlive => ?_, Die.sweepKey_spec, fun s kind addr hlive => ?_⟩
  · have hhay : becomes (.hayloftWriteback slice) s (opHayloftWriteback slice s.die) := onLive_live _ hlive
    have hpre : becomes (.nextLinePrefetch slice) s (opNextLinePrefetch slice s.die) := onLive_live _ hlive
    refine ⟨fun h => becomes_congr hhay (opHayloftWriteback_of_clean h), fun c h => becomes_congr hhay (opHayloftWriteback_of_dirty h),
      fun h => becomes_congr hpre (opNextLinePrefetch_of_none h), fun p hp => ⟨fun h => becomes_congr hpre (opNextLinePrefetch_of_held hp h),
        fun hheld hroom h => becomes_congr hpre (opNextLinePrefetch_of_blocked hp hheld hroom h), fun e hheld hroom hfree hin => becomes_congr hpre ?_,
        fun e hheld hroom hfree hin => becomes_congr hpre ?_⟩⟩
    all_goals
      refine (opNextLinePrefetch_of_free hp hheld hroom hfree).trans ?_
      rw [show (s.die.dropPrefetch p).takeIn p.req = _ from hin]
  · have hsweep : becomes (.keySweep q) s (opKeySweep q s.die) := onLive_live _ hlive
    have hdone : becomes .keySweepComplete s (homeEvent opKeySweepComplete s.die) := onLive_live _ hlive
    refine ⟨hsweep, fun hnone => becomes_congr hdone ?_, fun rest h => ⟨fun hheld => ?_, fun hheld => ?_⟩⟩
    · rw [homeEvent, opKeySweepComplete, hnone]
    · exact becomes_congr hdone (congrArg Die.afterHome (opKeySweepComplete_of_held h hheld))
    · exact becomes_congr hdone (congrArg Die.afterHome (opKeySweepComplete_of_gone h hheld))
  · have hnext : becomes (.hostSnoop kind addr) s (opHostSnoop kind addr s.die) := onLive_live _ hlive
    refine ⟨fun e hdev hbusy => ?_, fun e hdev hfree => ?_, fun line hdev => ?_⟩
    · exact becomes_congr hnext (by rw [opHostSnoop_of_host hdev, hbusy])
    · have hsnoop := becomes_congr hnext ((opHostSnoop_of_host hdev).trans (by rw [hfree]))
      exact ⟨fun h => becomes_congr hsnoop (Die.snooped_of_none h _ _), fun x h => becomes_congr hsnoop (Die.snooped_of_some h _ _)⟩
    · refine ⟨fun e hbusy => becomes_congr hnext (by rw [opHostSnoop_of_shared hdev, hbusy]), fun e hfree => ?_⟩
      have hsnoop := becomes_congr hnext ((opHostSnoop_of_shared hdev).trans (by rw [hfree]))
      exact ⟨fun h => becomes_congr hsnoop (Die.snooped_of_none h _ _), fun x h => becomes_congr hsnoop (Die.snooped_of_some h _ _)⟩

end Sys2Proof.Machine
end

section
/-! PROOF. Stacks, the host key map, bias flips, keys and patrol reads (obligation O38). -/

namespace Sys2Proof.Machine

/-! ### Register writes -/

/-- A write of a register whose only stored field stands at its low end sets that field. -/
theorem Die.store_eq_put (d : Die) {r : RegRow} {f : Fld} {v : Nat} (hlo : f.lo = 0) (hrw : r.rw = 2 ^ f.w - 1) (hw1c : r.w1c = 0)
    (hrange : d.inRange f.off v = v) : d.store r f.off v = d.put f v := by
  have hland (n : Nat) : n.land (2 ^ f.w - 1) = n % 2 ^ f.w := Nat.and_two_pow_sub_one_eq_mod n f.w
  have hzero (n : Nat) : n.land 0 = 0 := Nat.and_zero n
  simp only [Die.store, Die.put, hrange, hrw, hw1c, hland, hzero, hlo, sub, pow_zero, Nat.div_one, mul_one, Nat.sub_zero]

theorem Die.effect_hbmCtrl (d : Die) (who : Who) (v : Nat) : ∃ r, findRow HBM_CTRL = some r ∧ r.digested = false ∧ r.modeOnly = false
    ∧ d.effect who r HBM_CTRL v = d.put HBM_CTRL_OFFLINE v :=
  ⟨_, rfl, rfl, rfl, Die.store_eq_put d (f := HBM_CTRL_OFFLINE) rfl rfl rfl rfl⟩

theorem Die.effect_hkmData (d : Die) (who : Who) (v : Nat) : ∃ r, findRow HKM_DATA = some r ∧ r.digested = false ∧ r.modeOnly = false
    ∧ d.effect who r HKM_DATA v = d.writeHkm v := ⟨_, rfl, rfl, rfl, rfl⟩

theorem Die.effect_biasFlip (d : Die) (who : Who) (v : Nat) : ∃ r, findRow BIAS_FLIP = some r ∧ r.digested = false ∧ r.modeOnly = false
    ∧ d.effect who r BIAS_FLIP v = d.writeBias v := ⟨_, rfl, rfl, rfl, rfl⟩

theorem Die.effect_memkeyCtrl (d : Die) (who : Who) (v : Nat) : ∃ r, findRow MEMKEY_CTRL = some r ∧ r.digested = false ∧ r.modeOnly = false
    ∧ d.effect who r MEMKEY_CTRL v = if sub v 4 1 == 1 then (d.put MEMKEY_CTRL_PARTITION v).drawKey (v % 16) else d.put MEMKEY_CTRL_PARTITION v := by
  refine ⟨_, rfl, rfl, rfl, ?_⟩
  rw [← Die.store_eq_put d (f := MEMKEY_CTRL_PARTITION) (r := { base := 0xa0050, n1 := 1, s1 := 0x4, n2 := 1, s2 := 0x4, rw := 0xf, w1c := 0x0, w1s := 0x0, digested := false, modeOnly := false })
    rfl rfl rfl rfl]
  rfl

/-- The effect of a write by the physical function of a register that the tick does not hold. -/
theorem Die.writeBar0_of_effect {d : Die} {who : Who} {off v : Nat} {t : Die} (hp : who.part = 0) (ho : off < 0x3000000) (ha : off % 4 = 0)
    (h : ∃ r, findRow off = some r ∧ r.digested = false ∧ r.modeOnly = false ∧ d.effect who r off v = t) : d.writeBar0 who off v = t := by
  obtain ⟨r, hr, hd, hm, heff⟩ := h
  exact (Die.writeBar0_pf hp ho ha hr hd hm).trans heff

section
variable {s : State} {who : Who} (v : W32) (hreach : Reaches s.die who true) (hp : who.part = 0)
include hreach hp

theorem becomes_hbmOffline : becomes (.hbmOffline who v) s (s.die.put HBM_CTRL_OFFLINE v.toNat) :=
  becomes_congr (becomes_regWrite (f := opHbmOffline who v) hreach hp (by decide) rfl)
    (Die.writeBar0_of_effect hp (by decide) (by decide) (Die.effect_hbmCtrl _ _ _))

theorem becomes_hkmDataWrite : becomes (.hkmDataAccess who (some v)) s
    ({ s.die with mem := { s.die.mem with hkm := tblPut (fun _ => 0#4) s.die.mem.hkm (s.die.get HKM_INDEX_GRANULE) (v.setWidth 4) } }.put HKM_INDEX_GRANULE
      ((s.die.get HKM_INDEX_GRANULE + 1) % 73728)) := by
  have hval : BitVec.ofNat 4 (v.toNat % 16) = v.setWidth 4 := by
    apply BitVec.eq_of_toNat_eq
    rw [BitVec.toNat_ofNat, BitVec.toNat_setWidth]
    omega
  refine becomes_congr (becomes_regWrite (f := opHkmDataAccess who (some v)) hreach hp (by decide) rfl)
    ((Die.writeBar0_of_effect hp (by decide) (by decide) (Die.effect_hkmData _ _ _)).trans ?_)
  rw [Die.writeHkm, hval]
  rfl

theorem becomes_biasFlip : becomes (.biasFlip who v) s (s.die.writeBias v.toNat) :=
  becomes_congr (becomes_regWrite (f := opBiasFlip who v) hreach hp (by decide) rfl)
    (Die.writeBar0_of_effect hp (by decide) (by decide) (Die.effect_biasFlip _ _ _))

theorem becomes_rotate : becomes (.rotate who v) s
    (if v.getLsbD 4 then (s.die.put MEMKEY_CTRL_PARTITION v.toNat).drawKey (v.toNat % 16) else s.die.put MEMKEY_CTRL_PARTITION v.toNat) := by
  refine becomes_congr (becomes_regWrite (f := opRotate who v) hreach hp (by decide) rfl)
    ((Die.writeBar0_of_effect hp (by decide) (by decide) (Die.effect_memkeyCtrl _ _ _)).trans ?_)
  rw [sub_one_beq]

end

section
variable (d : Die) (v : W32)

theorem Die.writeBias_of_busy (h : d.mem.flip.isSome = true) :
    d.writeBias v.toNat = (if v.getLsbD 24 then d.putB BIAS_FLIP_DROPPED false else d).putB BIAS_FLIP_DROPPED true := by
  rw [Die.writeBias, sub_one_beq]
  refine if_pos ?_
  split
  · exact h
  · exact h

theorem Die.writeBias_of_idle (h : d.mem.flip = none) : d.writeBias v.toNat
    = (let e := if v.getLsbD 24 then d.putB BIAS_FLIP_DROPPED false else d
      if 2359296 ≤ sub v.toNat 0 22 then e
      else
        let f := (e.put BIAS_FLIP_PAGE (sub v.toNat 0 22)).putB BIAS_FLIP_SHARED (v.getLsbD 22)
        { f with mem := { d.mem with flip := some { page := sub v.toNat 0 22, shared := v.getLsbD 22 } } }) := by
  rw [Die.writeBias, sub_one_beq, sub_one_beq]
  cases v.getLsbD 24
  · exact if_neg (by rw [if_neg Bool.false_ne_true, h]; decide)
  · exact if_neg (by rw [if_pos rfl, show (d.putB BIAS_FLIP_DROPPED false).mem = d.mem from rfl, h]; decide)

end

/-- A read of the host key map by the physical function answers the indexed entry and moves the index on. -/
theorem opHkmDataAccess_read {d : Die} {who : Who} (hp : who.part = 0) : opHkmDataAccess who none d
    = (d.put HKM_INDEX_GRANULE ((d.get HKM_INDEX_GRANULE + 1) % 73728)).emit
        (.regData who HKM_DATA ((tblGet (fun _ => 0#4) d.mem.hkm (d.get HKM_INDEX_GRANULE)).setWidth 32)) := by
  have hread : d.readBar0 who HKM_DATA = (BitVec.ofNat 32 (d.view HKM_DATA), d.put HKM_INDEX_GRANULE ((d.get HKM_INDEX_GRANULE + 1) % 73728)) := by
    unfold Die.readBar0
    rw [hp]
    rfl
  have hview : d.view HKM_DATA = (tblGet (fun _ => 0#4) d.mem.hkm (d.get HKM_INDEX_GRANULE)).toNat := rfl
  rw [opHkmDataAccess, hread, hview, BitVec.ofNat_toNat]

/-! ### Bias flips -/

/-- An atomic or an invalidation of the line is under way (R333, R338). -/
def Die.lineBusy (d : Die) (line : Nat) (host : Bool) : Bool :=
  (match d.mshrOf line host with
    | some m => (match m.why with | .hostAtomic | .hostWriteback _ | .far => true | _ => false)
    | none => false) || d.invPending line host

theorem Die.lineFree_eq (d : Die) (line : Nat) (host : Bool) :
    d.lineFree line host = if d.lineBusy line host then (false, d) else if d.excl line host then (false, d.revokeLine line host) else (true, d) := rfl

theorem Die.mem_lineFree (d : Die) (line : Nat) (host : Bool) : (d.lineFree line host).2.mem = d.mem := by
  rw [Die.lineFree_eq]
  split
  · rfl
  · split
    · dsimp only
      rw [Die.revokeLine]
      split
      · split <;> rfl
      · rfl
    · rfl

/-- A line that is free is left alone. -/
theorem Die.lineFree_of_free {d : Die} {line : Nat} {host : Bool} (h : (d.lineFree line host).1 = true) : d.lineFree line host = (true, d) := by
  rw [Die.lineFree_eq] at h ⊢
  split at h
  · cases h
  · next hbusy =>
    split at h
    · cases h
    · next hexcl => rw [if_neg hbusy, if_neg hexcl]

/-- Whether every one of these lines is free, each asked in turn; one held in E is revoked (R365). -/
def Die.linesFree (acc : Bool × Die) (lines : List Nat) : Bool × Die :=
  lines.foldl (fun (acc : Bool × Die) a => ((acc.1 && (acc.2.lineFree a false).1), (acc.2.lineFree a false).2)) acc

theorem Die.mem_linesFree (lines : List Nat) (acc : Bool × Die) : (Die.linesFree acc lines).2.mem = acc.2.mem := by
  induction lines generalizing acc with
  | nil => rfl
  | cons a as ih => exact (ih _).trans (acc.2.mem_lineFree a false)

theorem Die.linesFree_false (lines : List Nat) (d : Die) : (Die.linesFree (false, d) lines).1 = false := by
  induction lines generalizing d with
  | nil => rfl
  | cons a as ih => exact ih _

theorem Die.linesFree_of_free {lines : List Nat} {d : Die} (h : ∀ a ∈ lines, d.lineFree a false = (true, d)) : Die.linesFree (true, d) lines = (true, d) := by
  induction lines with
  | nil => rfl
  | cons a as ih =>
    rw [Die.linesFree, List.foldl_cons, h a List.mem_cons_self]
    exact ih fun x hx => h x (List.mem_cons_of_mem _ hx)

theorem Die.linesFree_of_busy {lines : List Nat} {d : Die} (h : ∃ a ∈ lines, (d.lineFree a false).1 = false) : (Die.linesFree (true, d) lines).1 = false := by
  induction lines with
  | nil => obtain ⟨a, ha, -⟩ := h; cases ha
  | cons a as ih =>
    rw [Die.linesFree, List.foldl_cons]
    cases hfree : (d.lineFree a false).1 with
    | false => exact Die.linesFree_false as _
    | true =>
      rw [Die.lineFree_of_free hfree]
      refine ih ?_
      obtain ⟨x, hx, hbusy⟩ := h
      refine ⟨x, (List.mem_cons.mp hx).resolve_left fun hxa => ?_, hbusy⟩
      rw [hxa, hfree] at hbusy
      cases hbusy

/-- A flip starts: dirty sectors are written back and L1 copies invalidated, or the host is asked for every line. -/
def Die.flipStarted (d : Die) (f : Flip) (lines : List Nat) : Die :=
  let e : Die := if f.shared then lines.foldl (fun e a => ((e.cleanLine a).broadcast a false .none).2) d else lines.foldl Die.askOwnership d
  { e with mem := { e.mem with flip := some { f with started := true }, shared := if f.shared then tblPut (fun _ => false) e.mem.shared f.page true else e.mem.shared } }

/-- A flip begins over these lines once all of them are free. -/
def Die.flipOver (d : Die) (f : Flip) (lines : List Nat) : Die :=
  if !(Die.linesFree (true, d) lines).1 then (Die.linesFree (true, d) lines).2 else (Die.linesFree (true, d) lines).2.flipStarted f lines

theorem Die.startFlip_eq (d : Die) (f : Flip) {lines : List Nat} (h : (List.range 512).map (fun i => f.page * 65536 + 128 * i) = lines) :
    d.startFlip f = d.flipOver f lines := by
  rw [Die.startFlip, h]
  rfl

theorem Die.flipOver_of_free {d : Die} {f : Flip} {lines : List Nat} (h : ∀ a ∈ lines, d.lineFree a false = (true, d)) : d.flipOver f lines = d.flipStarted f lines := by
  rw [Die.flipOver, Die.linesFree_of_free h]
  rfl

theorem Die.mem_flipOver_of_busy {d : Die} {f : Flip} {lines : List Nat} (h : ∃ a ∈ lines, (d.lineFree a false).1 = false) : (d.flipOver f lines).mem = d.mem := by
  rw [Die.flipOver, Die.linesFree_of_busy h]
  exact Die.mem_linesFree _ _

section
variable {d : Die} {f : Flip} (hf : d.mem.flip = some f)
include hf

theorem opBiasFlipComplete_of_new (h : f.started = false) : opBiasFlipComplete d = d.startFlip f := by
  rw [opBiasFlipComplete, hf]
  exact if_pos (by rw [h]; rfl)

theorem opBiasFlipComplete_of_busy (h : f.started = true) (hbusy : d.flipBusy f = true) : opBiasFlipComplete d = d := by
  rw [opBiasFlipComplete, hf]
  exact (if_neg (by rw [h]; decide)).trans (if_pos hbusy)

theorem opBiasFlipComplete_of_done (h : f.started = true) (hbusy : d.flipBusy f = false) : opBiasFlipComplete d = { d with
    mem := { d.mem with flip := none, shared := tblPut (fun _ => false) d.mem.shared f.page f.shared },
    cache := { d.cache with owned := d.cache.owned.filter fun a => a / 65536 != f.page } } := by
  rw [opBiasFlipComplete, hf]
  exact (if_neg (by rw [h]; decide)).trans (if_neg (by rw [hbusy]; decide))

end

/-! ### Keys -/

/-- Drawing a key pair raises the partition's generation alone and starts its sweep. -/
theorem Die.drawKey_spec (d : Die) (p : Nat) (hheld : d.mem.keysHeld = false) (hwf : tblWf (fun _ => 0) none d.mem.keyGen = true) :
    (d.drawKey p).keyGen p = d.keyGen p + 1 ∧ (∀ q, q ≠ p → (d.drawKey p).keyGen q = d.keyGen q) ∧ (d.drawKey p).sweeping p = true := by
  have hmem : (d.drawKey p).mem.keyGen = tblPut (fun _ => 0) d.mem.keyGen p (d.keyGen p + 1) ∧ (d.drawKey p).cache.sweeps = (d.cache.sweeps.filter (· != p)) ++ [p] := by
    rw [Die.drawKey]
    dsimp only
    rw [if_neg (by rw [show (d.unkeep p).mem = d.mem from rfl, hheld]; decide)]
    exact ⟨rfl, rfl⟩
  obtain ⟨hgen, hsweep⟩ := hmem
  refine ⟨?_, fun q hq => ?_, ?_⟩
  · rw [Die.keyGen, hgen, tblGet_put (lo := none) _ _ _ hwf, if_pos rfl]
  · rw [Die.keyGen, hgen, tblGet_put (lo := none) _ _ _ hwf, if_neg hq, ← Die.keyGen]
  · rw [Die.sweeping, hsweep]
    simp

/-! ### Patrol reads -/

theorem opPatrolScrub_eq (stack : StackIx) (d : Die) : opPatrolScrub stack d
    = if d.get HBM_SCRUB_HOURS = 0 ∨ d.offline stack.val = true ∨ d.bit HBM_STATUS_SELF_REFRESH = true then d
      else
        let i := tblGet (fun _ => 0) d.mem.scrub stack.val
        let e := (List.range 4).foldl (fun e k => (e.checkSector (patrolLine stack.val i / 32 + k)).2) d
        { e with mem := { e.mem with scrub := tblPut (fun _ => 0) e.mem.scrub stack.val ((i + 1) % linesPerStack) } } := by
  rw [opPatrolScrub]
  simp only [Bool.or_eq_true, beq_iff_eq, or_assoc]

/-- Settles O38. -/
theorem memoryControl : Obligations.MemoryControl := by
  refine ⟨fun s who v hreach hp => ?_, fun s who hreach hp hdue => ?_, fun s hlive => ?_, fun d p hheld _ hwf => d.drawKey_spec p hheld hwf, fun s stack hlive => ?_⟩
  · have hflip := becomes_biasFlip v hreach hp
    refine ⟨becomes_hbmOffline v hreach hp, becomes_hkmDataWrite v hreach hp, fun hbusy => becomes_congr hflip (Die.writeBias_of_busy _ _ hbusy),
      fun hidle hpage => becomes_congr hflip ?_, fun hidle hpage => becomes_congr hflip ?_, becomes_rotate v hreach hp⟩
    · exact (Die.writeBias_of_idle _ _ hidle).trans (if_pos hpage)
    · exact (Die.writeBias_of_idle _ _ hidle).trans (if_neg (not_le.mpr hpage))
  · have hread := becomes_read (i := .hkmDataAccess who none) (what := .hkm) rfl hreach
    exact becomes_congr hread ((if_neg (by rw [hdue]; decide)).trans (opHkmDataAccess_read hp))
  · have hnext : becomes .biasFlipComplete s (opBiasFlipComplete s.die) := onLive_live _ hlive
    refine ⟨fun hnone => becomes_congr hnext (by rw [opBiasFlipComplete, hnone]), fun f hf => ⟨fun hnew => ⟨becomes_congr hnext (opBiasFlipComplete_of_new hf hnew),
      fun hfree => (s.die.startFlip_eq f rfl).trans (Die.flipOver_of_free hfree),
        fun hbusy => (congrArg Die.mem (s.die.startFlip_eq f rfl)).trans (Die.mem_flipOver_of_busy hbusy)⟩, fun hold hbusy => becomes_congr hnext (opBiasFlipComplete_of_busy hf hold hbusy),
      fun hold hbusy => becomes_congr hnext (opBiasFlipComplete_of_done hf hold hbusy)⟩⟩
  · have hnext : becomes (.patrolScrub stack) s (opPatrolScrub stack s.die) := onLive_live _ hlive
    exact ⟨fun hoff => becomes_congr hnext ((opPatrolScrub_eq stack s.die).trans (if_pos hoff)),
      fun hon => becomes_congr hnext ((opPatrolScrub_eq stack s.die).trans (if_neg hon))⟩

end Sys2Proof.Machine
end

section
/-! PROOF. What the host answers to translation and page requests, and its invalidations (obligation O39). -/

namespace Sys2Proof.Machine

/-! ### Translation requests -/

section
variable {d : Die} {id hpa : Nat} {r w : Bool} {q : AtsReq} (hq : (d.tr.ats.find? fun q => q.id == id) = some q)
include hq

/-- The cached translations of other pages. -/
def Die.otherAtc (d : Die) (q : AtsReq) : List AtcEntry := d.tr.atc.filter fun a => !(a.part == q.part && a.page == q.page)

theorem opAtsCompletion_of_dead (h : q.dead = true) : opAtsCompletion id hpa r w d = d.onTr fun t => { t with ats := t.ats.erase q } := by
  rw [opAtsCompletion, hq]
  exact if_pos h

theorem opAtsCompletion_of_live (h : q.dead = false) : opAtsCompletion id hpa r w d = d.onTr fun t => { t with
    ats := t.ats.erase q
    atc := (d.otherAtc q ++ [(⟨q.part, q.page, hpa / 4096 * 4096, r, w⟩ : AtcEntry)]).drop ((d.otherAtc q).length + 1 - 4096) } := by
  rw [opAtsCompletion, hq]
  exact if_neg (by rw [h]; decide)

end

/-- The cache keeps the youngest entries. -/
theorem drop_append_of_full {α : Type} {l : List α} (x : α) {n : Nat} (h : l.length = n + 1) : (l ++ [x]).drop (l.length + 1 - (n + 1)) = l.drop 1 ++ [x] := by
  rw [show l.length + 1 - (n + 1) = 1 by omega, List.drop_append_of_le_length (by omega)]

/-! ### Page requests -/

/-- A queued fault on the page of another. -/
def onPageOf (f x : PageFault) : Bool := x.state == .queued && x.part == f.part && x.host == f.host && x.page == f.page

section
variable {d : Die} {f : PageFault} (hf : d.tr.faults.find? d.maySend = some f)
include hf

theorem opPageRequestSend_of_group {g : PrGroup} (hg : d.groupOf f = some g) :
    opPageRequestSend d = d.onTr fun t => { t with faults := t.faults.map fun x => if onPageOf f x then { x with state := .group g.index } else x } := by
  rw [opPageRequestSend, hf]
  dsimp only
  rw [hg]
  rfl

theorem opPageRequestSend_of_index {i : Nat} (hg : d.groupOf f = none) (hi : d.freeIndex f.part = some i) :
    opPageRequestSend d = (d.onTr fun t => { t with
        faults := t.faults.map fun x => if onPageOf f x then { x with state := .group i } else x
        groups := t.groups ++ [{ index := i, part := f.part, host := f.host, page := f.page, sentTick := d.tick.count }] }).emit
      (.pageRequest i f.part (if f.host then d.get (TRANS_PASID_HOST_PASID f.part) else d.get (TRANS_PASID_DEV_PASID f.part)) f.page
        ((d.tr.faults.filter (onPageOf f)).any (·.read)) ((d.tr.faults.filter (onPageOf f)).any (·.write))) := by
  rw [opPageRequestSend, hf]
  dsimp only
  rw [hg, hi]
  rfl

end

section
variable {d : Die} {fn : PartIx} {index : Nat}

/-- A fault that waits in a page request group. -/
def inGroup (fn : PartIx) (index : Nat) (f : PageFault) : Bool := f.state == .group index && f.part == fn.val

/-- A group has been answered: its faults take their next state, and what the cache holds of a host page goes. -/
def answeredGroup (fn : PartIx) (index : Nat) (g : PrGroup) (next : PageFault → PageFault) (t : TransUnit) : TransUnit := { t with
  groups := t.groups.erase g
  atc := if g.host then t.atc.filter fun a => !(a.part == g.part && a.page == g.page) else t.atc
  faults := t.faults.map fun f => if inGroup fn index f then next f else f }

theorem Die.onTr_answeredGroup (g : PrGroup) (next : PageFault → PageFault) :
    ((if g.host then (d.onTr fun t => { t with groups := t.groups.erase g }).onTr fun t => { t with atc := t.atc.filter fun a => !(a.part == g.part && a.page == g.page) }
      else d.onTr fun t => { t with groups := t.groups.erase g }).onTr fun t => { t with faults := t.faults.map fun f => if inGroup fn index f then next f else f })
      = d.onTr (answeredGroup fn index g next) := by
  cases hhost : g.host <;> simp [Die.onTr, answeredGroup, hhost]

theorem Die.pageServed_eq (d : Die) (fs : List PageFault) : d.pageServed fs = { d with cores := (d.pageServed fs).cores } := by
  rw [Die.pageServed]
  induction fs generalizing d with
  | nil => rfl
  | cons f fs ih =>
    rw [List.foldl_cons, ih]
    split <;> rfl

theorem opPrgResponse_of_none (hg : (d.tr.groups.find? fun g => g.part == fn.val && g.index == index) = none) (code : PrgCode) :
    opPrgResponse fn index code d = d.onTr fun t => { t with abandoned := t.abandoned.filter fun a => !(a.1 == fn.val && a.2.1 == index) } := by
  unfold opPrgResponse
  rw [hg]

theorem opPageRequestTimeout_of_none (hg : (d.tr.groups.find? fun g => g.part == fn.val && g.index == index) = none) : opPageRequestTimeout fn index d = d := by
  rw [opPageRequestTimeout, hg]

variable {g : PrGroup} (hg : (d.tr.groups.find? fun g => g.part == fn.val && g.index == index) = some g)
include hg

theorem opPrgResponse_success : opPrgResponse fn index .success d
    = (d.onTr (answeredGroup fn index g fun f => { f with state := .retry, tries := f.tries + 1 })).pageServed (d.tr.faults.filter (inGroup fn index)) := by
  rw [← Die.onTr_answeredGroup, opPrgResponse, hg]
  rfl

theorem opPrgResponse_invalidRequest : opPrgResponse fn index .invalidRequest d
    = (d.onTr (answeredGroup fn index g fun f => { f with state := .failed 2 })).pageServed (d.tr.faults.filter (inGroup fn index)) := by
  rw [← Die.onTr_answeredGroup, opPrgResponse, hg]
  rfl

theorem opPrgResponse_failure : opPrgResponse fn index .failure d
    = ((d.onTr (answeredGroup fn index g fun f => { f with state := .failed 3 })).pageServed (d.tr.faults.filter (inGroup fn index))).onTr fun t => { t with
        prOff := (t.prOff.filter (· != fn.val)) ++ [fn.val]
        faults := t.faults.map fun f => if f.part == fn.val && f.state == .queued then { f with state := .failed 5 } else f } := by
  rw [← Die.onTr_answeredGroup, opPrgResponse, hg]
  rfl

theorem opPageRequestTimeout_of_late (h : g.sentTick + orOne (d.get PR_TIMEOUT_TICKS) ≤ d.tick.count) : opPageRequestTimeout fn index d
    = (d.pageServed (d.tr.faults.filter (inGroup fn index))).onTr fun t => { t with
        groups := t.groups.erase g, abandoned := t.abandoned ++ [(fn.val, index, d.tick.count)]
        faults := t.faults.map fun f => if inGroup fn index f then { f with state := .failed 1 } else f } := by
  rw [opPageRequestTimeout, hg]
  refine (if_pos h).trans ?_
  dsimp only
  rw [show (d.pageServed (d.tr.faults.filter fun f => f.state == .group index && f.part == fn.val)).tick = d.tick by rw [Die.pageServed_eq]]
  rfl

theorem opPageRequestTimeout_of_early (h : d.tick.count < g.sentTick + orOne (d.get PR_TIMEOUT_TICKS)) : opPageRequestTimeout fn index d = d := by
  rw [opPageRequestTimeout, hg]
  exact if_neg (not_le.mpr h)

end

/-! ### Invalidations of the host -/

/-- A translation in progress that is dropped by an invalidation is the same one, discarded. -/
theorem mem_atsDrop_iff {gone : AtsReq → Bool} {q : AtsReq} {l : List AtsReq} (hq : gone q = false) (hkeep : ∀ x, gone { x with dead := true } = gone x) :
    q ∈ atsDrop gone l ↔ q ∈ l := by
  rw [atsDrop, List.mem_map]
  constructor
  · rintro ⟨x, hx, rfl⟩
    split at hq
    · next h => rw [hkeep, h] at hq; cases hq
    · next h => rwa [if_neg h]
  · intro h
    exact ⟨q, h, if_neg (by rw [hq]; decide)⟩

theorem dead_of_mem_atsDrop {gone : AtsReq → Bool} {q : AtsReq} {l : List AtsReq} (hq : q ∈ atsDrop gone l) (h : gone q = true) : q.dead = true := by
  obtain ⟨x, -, rfl⟩ := List.mem_map.mp hq
  split at h
  · next hx => rw [if_pos hx]
  · next hx => exact absurd h hx

/-- Two ranges of addresses meet. -/
def meetsRange (lo hi a n : Nat) : Bool := decide (a < hi) && decide (lo < a + n)

theorem meetsRange_iff {lo hi a n : Nat} : meetsRange lo hi a n = true ↔ a < hi ∧ lo < a + n := by
  rw [meetsRange, Bool.and_eq_true, decide_eq_true_eq, decide_eq_true_eq]

theorem opAtsInvalidation_spec (d : Die) (fn : PartIx) (tag lo hi : Nat) :
    let t := opAtsInvalidation fn tag lo hi d
    (∀ a, a ∈ t.tr.atc ↔ a ∈ d.tr.atc ∧ ¬(a.part = fn.val ∧ a.page * 4096 < hi ∧ lo < a.page * 4096 + 4096))
    ∧ (∀ e, e ∈ t.tr.tlb ↔ e ∈ d.tr.tlb ∧ ¬(e.part = fn.val ∧ e.leaf.attr = 2
        ∧ e.leaf.target / 2 ^ e.bits * 2 ^ e.bits < hi ∧ lo < e.leaf.target / 2 ^ e.bits * 2 ^ e.bits + 2 ^ e.bits))
    ∧ (∀ q, q ∈ t.tr.ats → q.part = fn.val → q.page * 4096 < hi ∧ lo < q.page * 4096 + 4096 → q.dead = true)
    ∧ (∀ q, ¬(q.part = fn.val ∧ q.page * 4096 < hi ∧ lo < q.page * 4096 + 4096) → (q ∈ t.tr.ats ↔ q ∈ d.tr.ats)) := by
  have hgone (q : AtsReq) : (q.part == fn.val && meetsRange lo hi (q.page * 4096) 4096) = true
      ↔ q.part = fn.val ∧ q.page * 4096 < hi ∧ lo < q.page * 4096 + 4096 := by
    rw [Bool.and_eq_true, beq_iff_eq, meetsRange_iff]
  refine ⟨fun a => ?_, fun e => ?_, fun q hq hpart hmeet => ?_, fun q hq => ?_⟩
  · refine List.mem_filter.trans (and_congr_right' ?_)
    rw [Bool.not_eq_true', ← Bool.not_eq_true, Bool.and_eq_true, beq_iff_eq]
    exact not_congr (and_congr_right' meetsRange_iff)
  · refine List.mem_filter.trans (and_congr_right' ?_)
    rw [Bool.not_eq_true', ← Bool.not_eq_true, Bool.and_eq_true, Bool.and_eq_true, beq_iff_eq, beq_iff_eq, and_assoc]
    exact not_congr (and_congr_right' (and_congr_right' meetsRange_iff))
  · exact dead_of_mem_atsDrop (gone := fun q => q.part == fn.val && meetsRange lo hi (q.page * 4096) 4096) hq ((hgone q).mpr ⟨hpart, hmeet⟩)
  · exact mem_atsDrop_iff (gone := fun q => q.part == fn.val && meetsRange lo hi (q.page * 4096) 4096)
      (Bool.eq_false_iff.mpr fun h => hq ((hgone q).mp h)) fun _ => rfl

/-- Settles O39. -/
theorem hostTranslations : Obligations.HostTranslations := by
  refine ⟨fun s fn id index hpa r w hlive => ?_, fun s fn tag lo hi hlive => ?_⟩
  · have hats : becomes (.atsCompletion id hpa r w) s (opAtsCompletion id hpa r w s.die) := onLive_live _ hlive
    have hsend : becomes .pageRequestSend s (opPageRequestSend s.die) := onLive_live _ hlive
    have hprg (code : PrgCode) : becomes (.prgResponse fn index code) s (opPrgResponse fn index code s.die) := onLive_live _ hlive
    have htime : becomes (.pageRequestTimeout fn index) s (opPageRequestTimeout fn index s.die) := onLive_live _ hlive
    have hpri : becomes (.priEnable fn) s (opPriEnable fn s.die) := onLive_live _ hlive
    refine ⟨fun hnone => ?_, fun q hq => ⟨fun hdead => ?_, fun hdead hroom => ?_, fun hdead hfull => ?_⟩, fun hnone => ?_, fun f hf => ⟨fun g hg => ?_, fun i hg hi => ?_⟩,
      fun g hg => ⟨?_, ?_, ?_, fun hlate => ?_, fun hearly => ?_⟩, fun hnone => ⟨fun code => ?_, ?_⟩, hpri⟩
    · exact becomes_congr hats (by rw [opAtsCompletion, hnone])
    · exact becomes_congr hats (opAtsCompletion_of_dead hq hdead)
    · refine becomes_congr hats ((opAtsCompletion_of_live hq hdead).trans ?_)
      rw [show (s.die.otherAtc q).length + 1 - 4096 = 0 from Nat.sub_eq_zero_of_le hroom]
      rfl
    · refine becomes_congr hats ((opAtsCompletion_of_live hq hdead).trans ?_)
      rw [drop_append_of_full (l := s.die.otherAtc q) (n := 4095) _ hfull]
      rfl
    · exact becomes_congr hsend (by rw [opPageRequestSend, hnone])
    · exact becomes_congr hsend (opPageRequestSend_of_group hf hg)
    · exact becomes_congr hsend (opPageRequestSend_of_index hf hg hi)
    · exact becomes_congr (hprg _) (opPrgResponse_success hg)
    · exact becomes_congr (hprg _) (opPrgResponse_invalidRequest hg)
    · exact becomes_congr (hprg _) (opPrgResponse_failure hg)
    · exact becomes_congr htime (opPageRequestTimeout_of_late hg hlate)
    · exact becomes_congr htime (opPageRequestTimeout_of_early hg hearly)
    · exact becomes_congr (hprg code) (opPrgResponse_of_none hnone code)
    · exact becomes_congr htime (opPageRequestTimeout_of_none hnone)
  · have hdone : becomes (.atsInvalidationComplete tag) s (opAtsInvalidationComplete tag s.die) := onLive_live _ hlive
    refine ⟨⟨opAtsInvalidation fn tag lo hi s.die, onLive_live _ hlive, ?_⟩, fun hnone => becomes_congr hdone (by rw [opAtsInvalidationComplete, hnone]),
      fun i hi => becomes_congr hdone (by rw [opAtsInvalidationComplete, hi])⟩
    obtain ⟨hatc, htlb, hdead, hkeep⟩ := opAtsInvalidation_spec s.die fn tag lo hi
    exact ⟨hatc, htlb, hdead, hkeep, rfl, rfl⟩

end Sys2Proof.Machine
end

section
/-! PROOF. Walks of the page tables and translations (obligation O40). -/

namespace Sys2Proof.Machine

/-! ### Walks -/

section
variable {d : Die} {p dva : Nat}

theorem Die.walk_of_unmapped (h : 2 ^ 52 ≤ dva ∨ d.get (PT_ROOT_ROOT p) = 0) : d.walk p dva = (.invalid, d) := by
  rw [Die.walk, Die.root]
  by_cases hroot : d.get (PT_ROOT_ROOT p) = 0
  · rw [if_pos (beq_iff_eq.mpr hroot)]
  · rw [if_neg (by rw [beq_iff_eq]; exact hroot)]
    exact if_neg (not_lt.mpr (h.resolve_right hroot))

theorem Die.walk_of_root (hroot : d.get (PT_ROOT_ROOT p) ≠ 0) (hdva : dva < 2 ^ 52) :
    d.walk p dva = Die.walkFrom p dva 4 0 (d.get (PT_ROOT_ROOT p) * 65536) d := by
  rw [Die.walk, Die.root, if_neg (by rw [beq_iff_eq]; exact hroot)]
  exact if_pos hdva

end

section
variable {d e : Die} {p dva level table : Nat} (n : Nat)

theorem Die.walkFrom_of_ecc (h : d.levelEntry p level table dva = (.ecc, e)) : Die.walkFrom p dva (n + 1) level table d = (.ecc, e) := by
  rw [Die.walkFrom, h]

theorem Die.walkFrom_of_wait (h : d.levelEntry p level table dva = (.wait, e)) : Die.walkFrom p dva (n + 1) level table d = (.wait, e) := by
  rw [Die.walkFrom, h]

theorem Die.walkFrom_of_val {v : Nat} (h : d.levelEntry p level table dva = (.val v, e)) : Die.walkFrom p dva (n + 1) level table d
    = if v % 2 = 0 then (.invalid, e)
      else if sub v 6 1 = 1 then (if level = 0 then (.invalid, e) else (.leaf (leafOf v) (levelBits level), e))
      else if level = 3 then (.invalid, e)
      else Die.walkFrom p dva n (level + 1) (nextTable v) e := by
  rw [Die.walkFrom, h]
  simp only [beq_iff_eq]

end

/-- A leaf entry is read back as the leaf that it was written for. -/
theorem leafOf_entry {l : Leaf} (hattr : l.attr < 8) (htarget : l.target % 2 ^ 16 = 0) : leafOf l.entry = l := by
  obtain ⟨attr, r, w, migrated, prefHost, once, target⟩ := l
  dsimp only at hattr htarget
  have hbit (b : Bool) : b2n b < 2 ∧ (b2n b == 1) = b := by cases b <;> decide
  obtain ⟨⟨hr, hr'⟩, ⟨hw, hw'⟩, ⟨hm, hm'⟩, ⟨hp, hp'⟩, ho, ho'⟩ := And.intro (hbit r) (And.intro (hbit w) (And.intro (hbit migrated) (And.intro (hbit prefHost) (hbit once))))
  dsimp only [leafOf, Leaf.entry, sub]
  generalize b2n r = r' at *
  generalize b2n w = w' at *
  generalize b2n migrated = m' at *
  generalize b2n prefHost = p' at *
  generalize b2n once = o' at *
  generalize hentry : 1 + 2 * attr + 16 * r' + 32 * w' + 64 + 128 * m' + 256 * p' + 512 * o' + target / 2 ^ 16 * 2 ^ 16 = e
  rw [show e / 2 ^ 1 % 2 ^ 3 = attr by omega, show e / 2 ^ 4 % 2 ^ 1 = r' by omega, show e / 2 ^ 5 % 2 ^ 1 = w' by omega, show e / 2 ^ 7 % 2 ^ 1 = m' by omega,
    show e / 2 ^ 8 % 2 ^ 1 = p' by omega, show e / 2 ^ 9 % 2 ^ 1 = o' by omega, show e / 2 ^ 16 * 2 ^ 16 = target by omega, hr', hw', hm', hp', ho']

/-! ### Translations -/

section
variable {d : Die} {s : Src} {dva : Nat} {write noFault : Bool}

theorem Die.translate_of_failed {f : PageFault} (hf : d.tr.faults.find? (heldFault s dva) = some f) {cause : Nat} (h : f.state = .failed cause) :
    d.translate s dva write noFault = (.fail .pageFaultUnresolved, (d.onTr fun t => { t with faults := t.faults.erase f }).transFault cause s.part s.stop dva) := by
  rw [Die.translate, hf]
  dsimp only
  rw [h]

theorem Die.translate_of_held {f : PageFault} (hf : d.tr.faults.find? (heldFault s dva) = some f) (h : ∀ cause, f.state ≠ .failed cause) :
    d.translate s dva write noFault = (.wait, d) := by
  rw [Die.translate, hf]
  dsimp only
  split
  · exact absurd ‹_› (h _)
  · rfl

theorem Die.translate_of_free (hf : d.tr.faults.find? (heldFault s dva) = none) : d.translate s dva write noFault = d.translateNow s dva write noFault := by
  rw [Die.translate, hf]

variable {e : Die}

theorem Die.translateNow_of_wait (h : d.leaf s dva = (.wait, e)) : d.translateNow s dva write noFault = (.wait, e) := by
  rw [Die.translateNow, h]

theorem Die.translateNow_of_ecc (h : d.leaf s dva = (.ecc, e)) :
    d.translateNow s dva write noFault = (.fail .eccUncorrectable, e.raise 6 .contained (detail s.stop 2 s.part)) := by
  rw [Die.translateNow, h]

end

/-- What a leaf permits the access. -/
def Leaf.permits (l : Leaf) (s : Src) (write : Bool) : Bool := if write then l.w && (!s.amo || l.r) else l.r

/-- The leaf's address of an access. -/
def Leaf.addr (l : Leaf) (bits dva : Nat) : Nat := l.target / 2 ^ bits * 2 ^ bits + dva % 2 ^ bits

/-- A leaf in a tier window permits only reads of host memory (R384). -/
def Die.tierOk (d : Die) (s : Src) (dva : Nat) (write : Bool) (l : Leaf) : Prop := d.tier s.part dva = none ∨ (write = false ∧ l.attr = 2)

theorem Die.tier_passes {e : Die} {s : Src} {dva : Nat} {write : Bool} {l : Leaf} (hok : e.tierOk s dva write l) :
    (match e.tier s.part dva with | some _ => write || l.attr != 2 | none => false) = false := by
  rcases hok with h | ⟨hw, hattr⟩
  · rw [h]
  · rw [hw, hattr]
    cases e.tier s.part dva <;> rfl

section
variable {d e : Die} {s : Src} {dva : Nat} {write noFault : Bool} {l : Leaf} {bits : Nat} (hleaf : d.leaf s dva = (.leaf l bits, e))
include hleaf

/-- What a leaf gives once its rights have been judged. -/
theorem Die.translateNow_of_leaf : d.translateNow s dva write noFault
    = (if (match e.tier s.part dva with | some _ => write || l.attr != 2 | none => false) then (.fail .translationDenied, e.transFault 8 s.part s.stop dva)
      else if !l.permits s write then (.fail .translationDenied, e.transFault 6 s.part s.stop dva)
      else if e.moving s.part dva then (.wait, e)
      else
        let f := e.faultDone s false (dva / 65536)
        let advised (r : TRes × Die) : TRes × Die := (match r.1 with | .ok a x _ => .ok a x l.once | y => y, r.2)
        if l.attr == 2 then
          advised (if noFault then
            (match f.tr.atc.find? fun a => a.part == s.part && a.page == l.addr bits dva / 4096 with
             | some a => if a.r then (.ok 2 (a.hpa + l.addr bits dva % 4096) false, f) else (.fail .translationDenied, f)
             | none => f.ats s (l.addr bits dva) dva write)
           else f.ats s (l.addr bits dva) dva write)
        else (.ok l.attr (l.addr bits dva) l.once, f)) := by
  rw [Die.translateNow, hleaf]
  rfl

theorem Die.translateNow_of_tier (h : ¬ e.tierOk s dva write l) :
    d.translateNow s dva write noFault = (.fail .translationDenied, e.transFault 8 s.part s.stop dva) := by
  rw [Die.translateNow_of_leaf hleaf]
  refine if_pos ?_
  rw [Die.tierOk, not_or, not_and] at h
  obtain ⟨htier, hread⟩ := h
  cases hmask : e.tier s.part dva with
  | none => exact absurd hmask htier
  | some m =>
    cases write with
    | true => rfl
    | false => exact bne_iff_ne.mpr (hread rfl)

variable (hok : e.tierOk s dva write l)
include hok

theorem Die.translateNow_of_no_right (hright : l.permits s write = false) :
    d.translateNow s dva write noFault = (.fail .translationDenied, e.transFault 6 s.part s.stop dva) := by
  rw [Die.translateNow_of_leaf hleaf, Die.tier_passes hok, if_neg Bool.false_ne_true, hright]
  rfl

variable (hright : l.permits s write = true)
include hright

theorem Die.translateNow_of_moving (hmoving : e.moving s.part dva = true) : d.translateNow s dva write noFault = (.wait, e) := by
  rw [Die.translateNow_of_leaf hleaf, Die.tier_passes hok, if_neg Bool.false_ne_true, hright, if_neg (by decide), if_pos hmoving]

variable (hmoving : e.moving s.part dva = false)
include hmoving

theorem Die.translateNow_of_device (hattr : l.attr ≠ 2) :
    d.translateNow s dva write noFault = (.ok l.attr (l.addr bits dva) l.once, e.faultDone s false (dva / 65536)) := by
  rw [Die.translateNow_of_leaf hleaf, Die.tier_passes hok, if_neg Bool.false_ne_true, hright, if_neg (by decide), hmoving, if_neg Bool.false_ne_true]
  exact if_neg (by rw [beq_iff_eq]; exact hattr)

theorem Die.translateNow_of_host {a : AtcEntry} (hattr : l.attr = 2) (hnoFault : noFault = false)
    (ha : (e.tr.atc.find? fun a => a.part == s.part && a.page == l.addr bits dva / 4096) = some a) (hgrant : (if write then a.w && (!s.amo || a.r) else a.r) = true) :
    d.translateNow s dva write noFault
      = (.ok 2 (a.hpa + l.addr bits dva % 4096) l.once, (e.faultDone s false (dva / 65536)).faultDone s true (l.addr bits dva / 4096)) := by
  rw [Die.translateNow_of_leaf hleaf, Die.tier_passes hok, if_neg Bool.false_ne_true, hright, if_neg (by decide), hmoving, if_neg Bool.false_ne_true, hnoFault]
  have hats : (e.faultDone s false (dva / 65536)).ats s (l.addr bits dva) dva write
      = (.ok 2 (a.hpa + l.addr bits dva % 4096) false, (e.faultDone s false (dva / 65536)).faultDone s true (l.addr bits dva / 4096)) := by
    rw [Die.ats]
    dsimp only
    rw [show ((e.faultDone s false (dva / 65536)).tr.atc.find? fun a => a.part == s.part && a.page == l.addr bits dva / 4096) = some a from ha]
    exact if_pos hgrant
  refine (if_pos (beq_iff_eq.mpr hattr)).trans ?_
  rw [if_neg Bool.false_ne_true, hats]

end

section
variable {d e : Die} {s : Src} {dva : Nat} {write noFault : Bool} (hleaf : d.leaf s dva = (.invalid, e))
include hleaf

theorem Die.translateNow_of_noFault (h : noFault = true) : d.translateNow s dva write noFault = (.fail .translationDenied, e) := by
  rw [Die.translateNow, hleaf]
  exact if_pos h

variable (h : noFault = false)
include h

theorem Die.translateNow_of_faultMode (hmode : e.bit (TRANS_CTRL_FAULT_MODE s.part) = true) :
    d.translateNow s dva write noFault = (.fail .translationDenied, e.transFault 7 s.part s.stop dva) := by
  rw [Die.translateNow, hleaf, h]
  exact (if_neg Bool.false_ne_true).trans (if_pos hmode)

/-- The first fault of a requester on a page (R372). -/
theorem Die.translateNow_of_fault (hmode : e.bit (TRANS_CTRL_FAULT_MODE s.part) = false) (hnew : e.tr.faults.find? (sameFault s.req s.part false (dva / 65536)) = none) :
    d.translateNow s dva write noFault
      = if e.noPri s.part then (.fail .pageFaultUnresolved, e.transFault 5 s.part s.stop dva)
        else if e.tr.queued < 256 then (.wait, e.onTr fun t => { t with faults := t.faults ++
          [{ req := s.req, part := s.part, host := false, page := dva / 65536, dva := dva, read := s.amo || !write, write := write, tries := 0, state := .queued }] })
        else (.wait, e) := by
  rw [Die.translateNow, hleaf, h]
  refine (if_neg Bool.false_ne_true).trans ((if_neg (by rw [hmode]; decide)).trans ?_)
  rw [Die.faultOn]
  dsimp only
  rw [hnew]

end

/-- Settles O40. -/
theorem translations : Obligations.Translations := by
  refine ⟨⟨fun d p dva h => Die.walk_of_unmapped h, fun d p dva hroot hdva => Die.walk_of_root hroot hdva, fun d e p dva n level table => ⟨Die.walkFrom_of_ecc n, Die.walkFrom_of_wait n, fun v hv => ?_⟩,
    fun l hattr htarget => leafOf_entry hattr htarget⟩, fun d s dva write noFault => ⟨fun f hf => ⟨fun cause h => Die.translate_of_failed hf h, Die.translate_of_held hf⟩, fun hf => ?_⟩⟩
  · rw [Die.walkFrom_of_val n hv]
    refine ⟨fun h => ?_, fun hvalid hl hlevel => ?_, fun hvalid hl hlevel => ?_⟩
    · rcases h with h | ⟨hl, hlevel⟩ | ⟨hl, hlevel⟩
      · exact if_pos h
      · rw [if_pos hl, if_pos hlevel, ite_self]
      · rw [if_neg (show ¬ sub v 6 1 = 1 by rw [hl]; decide), if_pos hlevel, ite_self]
    · rw [if_neg (by omega), if_pos hl, if_neg hlevel]
    · rw [if_neg (by omega), if_neg (by rw [hl]; decide), if_neg (by omega)]
  · rw [Die.translate_of_free hf]
    refine ⟨fun e h => Die.translateNow_of_wait h, fun e h => Die.translateNow_of_ecc h, fun l bits e h => ?_, fun e h => ⟨Die.translateNow_of_noFault h, Die.translateNow_of_faultMode h,
      fun hfault hmode hnew => ?_⟩⟩
    · exact ⟨Die.translateNow_of_tier h, Die.translateNow_of_no_right h, Die.translateNow_of_moving h, Die.translateNow_of_device h,
        fun a hok hright hmoving hattr hfault ha hgrant => Die.translateNow_of_host h hok hright hmoving hattr hfault ha hgrant⟩
    · rw [Die.translateNow_of_fault h hfault hmode hnew]
      exact ⟨fun hpri => if_pos hpri, fun hpri hfull => (if_neg (by rw [hpri]; decide)).trans (if_neg (not_lt.mpr hfull)),
        fun hpri hroom => (if_neg (by rw [hpri]; decide)).trans (if_pos hroom)⟩

end Sys2Proof.Machine
end

section
/-! PROOF. Work at the memory controllers: what it changes, and that canonical forms stay. -/

namespace Sys2Proof.Machine

/-! ### Relations kept along a fold -/

theorem rel_foldl {α β : Type} {R : α → α → Prop} (hrefl : ∀ x, R x x) (htrans : ∀ x y z, R x y → R y z → R x z) {f : α → β → α} (hf : ∀ x b, R x (f x b))
    (l : List β) (x : α) : R x (l.foldl f x) := by
  induction l generalizing x with
  | nil => exact hrefl x
  | cons b bs ih => exact htrans _ _ _ (hf x b) (ih _)

/-! ### Work at the memory controllers -/

/-- From one die to the next only registers, the fault slots and the cells of memory have changed, and the canonical forms of the registers and of memory stay. -/
def Die.memWork (d t : Die) : Prop :=
  ∃ regs fault hbm tag err, t = { d with regs := regs, fault := fault, mem := { d.mem with hbm := hbm, tag := tag, err := err } }
    ∧ (d.regsWf → t.regsWf) ∧ (Memory.wf d.mem.hbm = true → Memory.wf hbm = true)

theorem Die.memWork_refl (d : Die) : d.memWork d := ⟨_, _, _, _, _, rfl, id, id⟩

theorem Die.memWork.trans {d e t : Die} (h : d.memWork e) (h' : e.memWork t) : d.memWork t := by
  obtain ⟨r, f, m, g, x, rfl, hr, hm⟩ := h
  obtain ⟨r', f', m', g', x', rfl, hr', hm'⟩ := h'
  exact ⟨r', f', m', g', x', rfl, hr' ∘ hr, hm' ∘ hm⟩

theorem Die.memWork_foldl {α : Type} {f : Die → α → Die} (hf : ∀ (e : Die) x, e.memWork (f e x)) (l : List α) (d : Die) : d.memWork (l.foldl f d) :=
  rel_foldl (R := Die.memWork) Die.memWork_refl (fun _ _ _ => Die.memWork.trans) hf l d

/-- A fold that carries a result beside the die. -/
theorem Die.memWork_foldl_snd {α β : Type} {f : α × Die → β → α × Die} (hf : ∀ (acc : α × Die) x, acc.2.memWork (f acc x).2) (l : List β) (acc : α × Die) :
    acc.2.memWork (l.foldl f acc).2 :=
  rel_foldl (R := fun a b : α × Die => a.2.memWork b.2) (fun a => a.2.memWork_refl) (fun _ _ _ => Die.memWork.trans) hf l acc

theorem Die.memWork_putRaw (d : Die) (off v : Nat) : d.memWork (d.putRaw off v) := ⟨_, _, _, _, _, rfl, Die.putRaw_wf d off v, id⟩

theorem Die.memWork_put (d : Die) (f : Fld) (v : Nat) : d.memWork (d.put f v) := d.memWork_putRaw _ _

theorem Die.memWork_raise (d : Die) (src : Fin 20) (cls : Cls) (det : W32) : d.memWork (d.raise src cls det) := ⟨_, _, _, _, _, rfl, id, id⟩

theorem Die.memWork_record (d : Die) (valid : Fld) (fields : List (Fld × Nat)) : d.memWork (d.record valid fields) := by
  rw [Die.record]
  split
  · exact d.memWork_refl
  · exact (Die.memWork_foldl (fun e _ => e.memWork_put _ _) fields d).trans (Die.memWork_put _ _ _)

theorem Die.memWork_charge (d : Die) (p r bytes : Nat) : d.memWork (d.charge p r bytes) := by
  rw [Die.charge]
  split
  · exact d.memWork_refl
  · exact d.memWork_putRaw _ _

theorem Die.memWork_setTag (d : Die) (s : Nat) (t : SecTag) : d.memWork (d.setTag s t) := ⟨_, _, _, _, _, rfl, id, id⟩

theorem Die.memWork_dropErrs (d : Die) (s : Nat) : d.memWork (d.dropErrs s) := ⟨_, _, _, _, _, rfl, id, id⟩

theorem Die.memWork_hbmOutcome (d : Die) (a cause : Nat) : d.memWork (d.hbmOutcome a cause) := (d.memWork_record _ _).trans (Die.memWork_raise _ _ _ _)

theorem Die.memWork_checkSector (d : Die) (s : Nat) : d.memWork (d.checkSector s).2 := by
  rw [Die.checkSector]
  split
  · exact d.memWork_hbmOutcome _ _
  · split
    · exact d.memWork_hbmOutcome _ _
    · dsimp only
      split
      · exact ((d.memWork_dropErrs s).trans (Die.memWork_setTag _ _ _)).trans (Die.memWork_hbmOutcome _ _ _)
      · exact (d.memWork_dropErrs s).trans (Die.memWork_foldl (fun e _ => (e.memWork_hbmOutcome _ _).trans (Die.memWork_put _ _ _)) _ _)

theorem Die.memWork_readSector (d : Die) (p s : Nat) : d.memWork (d.readSector p s).2 := by
  have h := d.memWork_checkSector s
  rw [Die.readSector]
  split <;> next heq => rw [heq] at h; exact h

/-- Cells are written in their canonical form. -/
theorem Die.memWork_cells (d : Die) (a : Nat) (bs : List Byte) : d.memWork { d with mem := { d.mem with hbm := memWrite d.mem.hbm a bs } } :=
  ⟨_, _, _, _, _, rfl, id, memWrite_wf _ _ _⟩

theorem Die.memWork_writeSector (d : Die) (p s off : Nat) (bs : List Byte) : d.memWork (d.writeSector p s off bs).2 := by
  have h := d.memWork_checkSector s
  rw [Die.writeSector]
  split
  · split
    · exact d.memWork_hbmOutcome _ _
    · exact ((d.memWork_dropErrs s).trans (Die.memWork_setTag _ _ _)).trans (Die.memWork_cells _ _ _)
  · split
    · next heq =>
      rw [heq] at h
      exact h
    · next heq =>
      rw [heq] at h
      exact (h.trans (Die.memWork_setTag _ _ _)).trans (Die.memWork_cells _ _ _)

theorem Die.memWork_poisonSector (d : Die) (s : Nat) : d.memWork (d.poisonSector s) := by
  rw [Die.poisonSector]
  split
  · exact d.memWork_hbmOutcome _ _
  · exact (d.memWork_dropErrs s).trans (Die.memWork_setTag _ _ _)

theorem Die.memWork_hbmRead (d : Die) (p a n : Nat) : d.memWork (d.hbmRead p a n).2 := by
  refine (d.memWork_charge p 0 n).trans ?_
  refine Die.memWork_foldl_snd (f := fun (acc : Option (List Byte) × Die) s =>
    let (v, e) := acc.2.readSector p s
    (match acc.1, v with | some x, some y => some (x ++ y) | _, _ => none, e)) (fun acc s => ?_) (sectorsOf a n) (some [], d.charge p 0 n)
  exact acc.2.memWork_readSector p s

theorem Die.memWork_hbmWrite (d : Die) (p a : Nat) (bs : List Byte) : d.memWork (d.hbmWrite p a bs).2 := by
  refine (d.memWork_charge p 0 bs.length).trans ?_
  refine Die.memWork_foldl_snd (f := fun (acc : Bool × Die) s =>
    let lo := max a (32 * s)
    let hi := min (a + bs.length) (32 * s + 32)
    let (ok, e) := acc.2.writeSector p s (lo - 32 * s) ((bs.drop (lo - a)).take (hi - lo))
    (acc.1 && ok, e)) (fun acc s => ?_) (sectorsOf a bs.length) (true, d.charge p 0 bs.length)
  exact acc.2.memWork_writeSector p s _ _

theorem Die.memWork_writeBack (d : Die) (c : CLine) : d.memWork (d.writeBack c) := by
  have hcharge : d.memWork (if c.dirty == 0 then d else d.charge c.key 0 (32 * maskCount c.dirty)) := by
    split
    · exact d.memWork_refl
    · exact d.memWork_charge _ _ _
  refine hcharge.trans (Die.memWork_foldl (fun e i => ?_) _ _)
  split
  · split
    · exact e.memWork_poisonSector _
    · exact e.memWork_writeSector _ _ _ _
  · exact e.memWork_refl

end Sys2Proof.Machine
end

section
/-! PROOF. Events of the host port and the orphaned state (obligation O41). -/

namespace Sys2Proof.Machine

/-! ### A bit that is set -/

/-- A bit whose register resets with it clear reads 1 once it is set, in whatever form the registers are. -/
theorem Die.bit_putB_true (d : Die) {f : Fld} (hw : f.w = 1) (hlo : f.lo < 32) (hreset : (regReset f.off).testBit f.lo = false) : (d.putB f true).bit f = true := by
  have hbit : (setBits (d.raw f.off) f.lo f.w 1).testBit f.lo = true := by
    rw [testBit_setBits, if_pos ⟨Nat.le_refl _, by omega⟩, Nat.sub_self]
    rfl
  have hne : BitVec.ofNat 32 (setBits (d.raw f.off) f.lo f.w 1) ≠ BitVec.ofNat 32 (regReset f.off) := fun heq => by
    have h := congrArg (fun v => v.toNat.testBit f.lo) heq
    simp only [BitVec.toNat_ofNat, Nat.testBit_mod_two_pow, hlo, hbit, hreset] at h
    cases h
  rw [Die.bit_eq_testBit hw, Die.putB, Die.put_eq_putRaw, Die.raw, Die.putRaw]
  dsimp only
  rw [if_pos rfl, tblGet_put_of_ne_dflt (dflt := fun o => BitVec.ofNat 32 (regReset o)) d.regs f.off hne, if_pos rfl, BitVec.toNat_ofNat, Nat.testBit_mod_two_pow]
  simpa [hlo] using hbit

/-! ### The link -/

/-- The modules have trained at a rate (R393, R394). -/
def Die.linkUp (d : Die) (modules : BitVec 2) (rate : BitVec 3) (low : Bool) : Die :=
  ((((if d.host.trained then d.count HOST_LINK_RETRAINS 1 else d).put HOST_LINK_MODULES_UP modules.toNat).put HOST_LINK_RATE rate.toNat).putB HOST_LINK_DEGRADED low).onHost
    fun h => { h with trained := true }

/-- The link below its full width or speed. -/
def Die.linkDegraded (d : Die) (modules : BitVec 2) (rate : BitVec 3) : Die :=
  ((d.linkUp modules rate true).raise 7 .corrected (detail 0 9 0)).emit (.aer 0 .correctable)

/-- An orphaned die boots (R390). -/
def Die.orphanBoots (d : Die) : Die :=
  { (d.putB HBM_STATUS_SELF_REFRESH false).putB PRESERVE_STATUS_ORPHANED true with dieId := none, pkgId := none, boot := { d.boot with preserved := true } }.beginBoot

section
variable {d : Die} {modules : BitVec 2} {rate : BitVec 3}

theorem opHostLinkTrain_of_asleep (h : d.boot.phase = .off ∨ d.boot.phase = .dormant) : opHostLinkTrain modules rate d = d := by
  unfold opHostLinkTrain
  rcases h with h | h <;> rw [h]

theorem Die.hostEvent_of_silent (h : d.boot.phase = .off ∨ d.boot.phase = .dormant ∨ d.boot.phase = .orphaned) (ev : HostEvent) : d.hostEvent ev = d := by
  unfold Die.hostEvent
  rcases h with h | h | h <;> rw [h]

theorem Die.hostEvent_of_serving (h : d.boot.phase ≠ .off ∧ d.boot.phase ≠ .dormant) (horphan : d.boot.phase ≠ .orphaned) (ev : HostEvent) :
    d.hostEvent ev = if d.bit PRESERVE_STATUS_ARMED then d.orphan ev else d.dieReset := by
  obtain ⟨hoff, hdormant⟩ := h
  unfold Die.hostEvent
  split
  · exact absurd ‹_› hdormant
  · exact absurd ‹_› hoff
  · exact absurd ‹_› horphan
  · rfl
  · rfl
  · rfl

variable (hawake : d.boot.phase ≠ .off ∧ d.boot.phase ≠ .dormant)
include hawake

theorem opHostLinkTrain_of_down (hup : ¬(modules ≠ 0 ∧ rate ≠ 0 ∧ rate ≠ 7)) : opHostLinkTrain modules rate d
    = (let down := (({ d with host := { d.host with trained := false } }.put HOST_LINK_MODULES_UP 0).put HOST_LINK_RATE 0).putB HOST_LINK_DEGRADED false
      if d.host.trained then down.hostEvent .linkLoss else down) := by
  have hcond : (modules == 0 || rate == 0 || rate == 7) = true := by
    simp only [Bool.or_eq_true, beq_iff_eq]
    tauto
  obtain ⟨hoff, hdormant⟩ := hawake
  unfold opHostLinkTrain
  split
  · exact absurd ‹_› hoff
  · exact absurd ‹_› hdormant
  · exact if_pos hcond

/-- The link trains; an orphaned die boots behind it. -/
theorem opHostLinkTrain_of_up (hup : modules ≠ 0 ∧ rate ≠ 0 ∧ rate ≠ 7) : opHostLinkTrain modules rate d
    = (let e := if modules ≠ 3 ∨ rate.toNat < 6 then d.linkDegraded modules rate else d.linkUp modules rate false
      if d.boot.phase = .orphaned then e.orphanBoots else e) := by
  have hcond : (modules == 0 || rate == 0 || rate == 7) = false := by
    simp only [Bool.or_eq_false_iff, beq_eq_false_iff_ne]
    tauto
  have hlow : (modules != 3 || decide (rate.toNat < 6)) = decide (modules ≠ 3 ∨ rate.toNat < 6) := by
    rw [Bool.eq_iff_iff, Bool.or_eq_true, bne_iff_ne, decide_eq_true_eq, decide_eq_true_eq]
  obtain ⟨hoff, hdormant⟩ := hawake
  unfold opHostLinkTrain
  split
  · exact absurd ‹_› hoff
  · exact absurd ‹_› hdormant
  · rw [if_neg (by rw [hcond]; decide), hlow]
    by_cases h : modules ≠ 3 ∨ rate.toNat < 6
    · rw [if_pos h, decide_eq_true h]
      simp only [beq_iff_eq]
      rfl
    · rw [if_neg h, decide_eq_false h]
      simp only [beq_iff_eq]
      rfl

end

/-! ### The orphaned state -/

/-- Only registers have changed. -/
def Die.regsOnly (d t : Die) : Prop := ∃ regs, t = { d with regs := regs }

theorem Die.regsOnly_foldl {α : Type} {f : Die → α → Die} (hf : ∀ (e : Die) x, e.regsOnly (f e x)) (l : List α) (d : Die) : d.regsOnly (l.foldl f d) :=
  rel_foldl (R := Die.regsOnly) (fun x => ⟨x.regs, rfl⟩) (fun _ _ _ ⟨_, h⟩ ⟨r', h'⟩ => ⟨r', by rw [h', h]⟩) hf l d

/-- What the always-on domains keep over a reset, with the registers they keep. -/
def Die.alwaysOn (d : Die) : Die := {
  fuses := d.fuses, freeCtr := d.freeCtr, clk := d.clk, out := d.out,
  regs := d.regs.filter fun r => keptByReset r.1,
  cache := { nextInv := d.cache.nextInv },
  mem := { hbm := d.mem.hbm, tag := d.mem.tag, err := d.mem.err, keyGen := d.mem.keyGen, keys := d.mem.keys, keysHeld := d.mem.keysHeld, recordGen := d.mem.recordGen },
  fault := { d.fault with irqDue := false },
  power := { d.power with move := none, service := false },
  pins := { d.pins with idFrames := [], idSending := false, vid := 0x3C },
  boot := { phase := .off, cold := false, i3cAddr := d.boot.i3cAddr, jtag := d.boot.jtag } }

theorem Die.bare_eq (d : Die) : ∃ regs, d.bare = { d.alwaysOn with regs := regs } := by
  obtain ⟨regs, h⟩ := Die.regsOnly_foldl (f := fun x i => x.put (THERM_SENSOR_PEAK i) 0) (fun e i => ⟨_, rfl⟩) (List.range 32)
    (d.alwaysOn.putB HBM_STATUS_ZEROED (d.bit HBM_STATUS_ZEROED))
  exact ⟨regs, h⟩

/-- The cache is written back; what stands outside memory, the registers and the cache stays. -/
theorem Die.writeBackAll_spec (d : Die) : ∃ e, d.memWork e ∧ ∃ lines hay, d.writeBackAll = e.onCache fun u => { u with lines := lines, hay := hay } := by
  refine ⟨_, ?_, _, _, rfl⟩
  exact (Die.memWork_foldl (fun (e : Die) (x : Nat × CLine) => e.memWork_writeBack x.2) d.cache.lines d).trans
    (Die.memWork_foldl (fun (e : Die) (x : Nat × List CLine) => Die.memWork_foldl (fun e c => e.memWork_writeBack c) x.2 e) _ _)

theorem Die.writeRecord_keeps (d : Die) (cause : Nat) :
    (d.writeRecord cause).mem.record = d.mem.record ∧ (d.writeRecord cause).mem.keys = d.mem.keys ∧ (d.writeRecord cause).mem.keyGen = d.mem.keyGen ∧ (d.writeRecord cause).tr = d.tr := by
  obtain ⟨r, f, m, g, x, h, -, -⟩ := Die.memWork_hbmWrite { d with mem := { d.mem with recordGen := d.mem.recordGen + 1 } } 0 d.mem.record
    (Die.preservationRecord { d with mem := { d.mem with recordGen := d.mem.recordGen + 1 } } cause)
  rw [show d.writeRecord cause = _ from h]
  exact ⟨rfl, rfl, rfl, rfl⟩

theorem Die.writeBackAll_keeps (d : Die) : d.writeBackAll.mem.record = d.mem.record ∧ d.writeBackAll.mem.keys = d.mem.keys ∧ d.writeBackAll.mem.keyGen = d.mem.keyGen ∧ d.writeBackAll.tr = d.tr := by
  obtain ⟨e, ⟨r, f, m, g, x, rfl, -, -⟩, lines, hay, h⟩ := d.writeBackAll_spec
  rw [h]
  exact ⟨rfl, rfl, rfl, rfl⟩

/-- The die as it stands when the always-on domains alone go on: written back and recorded where it served. -/
def Die.recorded (d : Die) (ev : HostEvent) : Die := if d.boot.phase == .ready then d.writeBackAll.writeRecord ev.cause else d

theorem Die.recorded_keeps (d : Die) (ev : HostEvent) : (d.recorded ev).mem.record = d.mem.record ∧ (d.recorded ev).mem.keys = d.mem.keys
    ∧ (d.recorded ev).mem.keyGen = d.mem.keyGen ∧ (d.recorded ev).tr = d.tr := by
  rw [Die.recorded]
  split
  · obtain ⟨h1, h2, h3, h4⟩ := d.writeBackAll.writeRecord_keeps ev.cause
    obtain ⟨g1, g2, g3, g4⟩ := d.writeBackAll_keeps
    exact ⟨h1.trans g1, h2.trans g2, h3.trans g3, h4.trans g4⟩
  · exact ⟨rfl, rfl, rfl, rfl⟩

/-- What an orphaned die keeps (R387, R388, R389). -/
theorem Die.orphan_spec (d : Die) (ev : HostEvent) :
    (d.orphan ev).boot.phase = .orphaned ∧ (d.orphan ev).mem.record = d.mem.record ∧ (d.orphan ev).tr.frames = d.tr.frames
      ∧ (d.orphan ev).bit HBM_STATUS_SELF_REFRESH = true ∧ (d.orphan ev).mem.keys = d.mem.keys ∧ (d.orphan ev).mem.keyGen = d.mem.keyGen
      ∧ (d.orphan ev).cores = [] ∧ (d.orphan ev).cp = {} ∧ (d.orphan ev).pkts = [] ∧ (d.orphan ev).ports = {} ∧ (d.orphan ev).sync = {} ∧ (d.orphan ev).host = {} := by
  obtain ⟨hrecord, hkeys, hgen, htr⟩ := d.recorded_keeps ev
  obtain ⟨bareRegs, hbare⟩ := (d.recorded ev).bare_eq
  obtain ⟨regs, hfold⟩ := Die.regsOnly_foldl (f := fun (x : Die) (r : Nat × W32) => x.putRaw r.1 r.2.toNat) (fun e r => ⟨_, rfl⟩)
    ((d.recorded ev).regs.filter fun r => r.1 == PRESERVE_STATUS || inArr r.1 (MEMKEY_GEN 0) 16 4) (d.recorded ev).bare
  have horphan : d.orphan ev = { { (d.recorded ev).bare with regs := regs } with
      dieId := (d.recorded ev).dieId, pkgId := (d.recorded ev).pkgId,
      mem := { (d.recorded ev).bare.mem with record := (d.recorded ev).mem.record, keys := (d.recorded ev).mem.keys },
      tr := { (d.recorded ev).bare.tr with frames := (d.recorded ev).tr.frames },
      boot := { (d.recorded ev).bare.boot with phase := .orphaned } }.putB HBM_STATUS_SELF_REFRESH true := by
    rw [Die.orphan, ← Die.recorded]
    dsimp only
    rw [hfold]
  have hframes : (d.recorded ev).tr.frames = d.tr.frames := by rw [htr]
  rw [horphan, hbare]
  exact ⟨rfl, hrecord, hframes, Die.bit_putB_true _ rfl (by decide) rfl, hkeys, hgen, rfl, rfl, rfl, rfl, rfl, rfl⟩

/-- Settles O41. -/
theorem hostEvents : Obligations.HostEvents := by
  refine ⟨fun s ev modules rate => ?_, fun d ev _ => d.orphan_spec ev⟩
  have htrain : becomes (.hostLinkTrain modules rate) s (opHostLinkTrain modules rate s.die) := rfl
  have hreset : becomes (.hostResetEvent ev) s (opHostResetEvent ev s.die) := rfl
  have hentry : becomes (.orphanEntry ev) s (opOrphanEntry ev s.die) := rfl
  have hcxl : becomes .cxlReset s (s.die.hostEvent .cxlReset) := rfl
  have hsilent (hs : s.die.boot.phase = .off ∨ s.die.boot.phase = .dormant ∨ s.die.boot.phase = .orphaned) :
      becomes (.hostResetEvent ev) s s.die ∧ becomes (.orphanEntry ev) s s.die ∧ becomes .cxlReset s s.die :=
    ⟨becomes_congr hreset (by rw [opHostResetEvent, Die.hostEvent_of_silent hs, ite_self]), becomes_congr hentry (by rw [opOrphanEntry, Die.hostEvent_of_silent hs, ite_self]),
      becomes_congr hcxl (Die.hostEvent_of_silent hs _)⟩
  refine ⟨fun hasleep => ?_, fun hawake hdown => becomes_congr htrain (opHostLinkTrain_of_down hawake hdown), fun hawake hup horphan => ⟨fun hlow => ?_, fun hlow => ?_⟩,
    fun horphan => ⟨fun hup => ?_, hsilent (.inr (.inr horphan))⟩, fun hawake horphan => ⟨fun harmed => ?_, fun harmed => ?_⟩⟩
  · have hs : s.die.boot.phase = .off ∨ s.die.boot.phase = .dormant := by tauto
    exact ⟨becomes_congr htrain (opHostLinkTrain_of_asleep hs), hsilent (by tauto)⟩
  · exact becomes_congr htrain ((opHostLinkTrain_of_up hawake hup).trans ((if_neg horphan).trans (if_neg hlow)))
  · exact becomes_congr htrain ((opHostLinkTrain_of_up hawake hup).trans ((if_neg horphan).trans (if_pos hlow)))
  · have hawake : s.die.boot.phase ≠ .off ∧ s.die.boot.phase ≠ .dormant := by
      rw [horphan]
      decide
    have hboots := becomes_congr htrain ((opHostLinkTrain_of_up hawake hup).trans (if_pos horphan))
    exact ⟨fun hlow => becomes_congr hboots (congrArg Die.orphanBoots (if_neg hlow)), fun hlow => becomes_congr hboots (congrArg Die.orphanBoots (if_pos hlow))⟩
  · have hevent (e : HostEvent) : s.die.hostEvent e = s.die.dieReset := (Die.hostEvent_of_serving hawake horphan e).trans (if_neg (by rw [harmed]; decide))
    exact ⟨becomes_congr hreset ((if_neg (by rw [harmed]; decide)).trans (hevent ev)), becomes_congr hcxl (hevent _),
      becomes_congr hentry (if_neg (by rw [harmed]; decide))⟩
  · have hevent (e : HostEvent) : s.die.hostEvent e = s.die.orphan e := (Die.hostEvent_of_serving hawake horphan e).trans (if_pos harmed)
    exact ⟨becomes_congr hentry ((if_pos harmed).trans (hevent ev)), becomes_congr hcxl (hevent _), becomes_congr hreset (if_pos harmed)⟩

end Sys2Proof.Machine
end

section
/-! PROOF. The life of a partition and the end of an orphaned boot (obligation O42). -/

namespace Sys2Proof.Machine

/-! ### Writes of PART_CTRL -/

theorem Die.effect_partCtrl (d : Die) (who : Who) (p : PartIx) (v : Nat) : ∃ r, findRow (PART_CTRL p.val) = some r ∧ r.digested = false ∧ r.modeOnly = false
    ∧ d.effect who r (PART_CTRL p.val) v = d.writePart p.val v := by
  fin_cases p <;> exact ⟨_, rfl, rfl, rfl, rfl⟩

theorem Die.writeBar0_partCtrl {d : Die} {who : Who} (hp : who.part = 0) (p : PartIx) (v : Nat) : d.writeBar0 who (PART_CTRL p.val) v = d.writePart p.val v :=
  Die.writeBar0_of_effect hp (by unfold PART_CTRL; omega) (by unfold PART_CTRL; omega) (d.effect_partCtrl who p v)

section
variable {s : State} {who : Who} {p : PartIx} {v : W32} (hreach : Reaches s.die who true) (hp : who.part = 0)
include hreach hp

theorem becomes_partitionEnable : becomes (.partitionEnable who p v) s (s.die.writePart p.val v.toNat) :=
  becomes_congr (becomes_regWrite (f := opPartitionEnable who p v) hreach hp (by unfold PART_CTRL; omega) rfl) (Die.writeBar0_partCtrl hp p _)

theorem becomes_partitionResetRequest : becomes (.partitionResetRequest who p v) s (s.die.writePart p.val v.toNat) :=
  becomes_congr (becomes_regWrite (f := opPartitionResetRequest who p v) hreach hp (by unfold PART_CTRL; omega) rfl) (Die.writeBar0_partCtrl hp p _)

end

section
variable {d : Die} {p : Nat} {v : W32}

/-- The partition counts as enabled: partition 0 always does. -/
def Die.partEnabled (d : Die) (p : Nat) : Prop := p = 0 ∨ d.bit (PART_CTRL_ENABLE p) = true

/-- What a write of PART_CTRL does behind the store of SPAN (R464, R466, R482). -/
theorem Die.writePart_eq : d.writePart p v.toNat
    = (let e := d.put (PART_CTRL_SPAN p) (sub v.toNat 16 8)
      let was := p == 0 || e.bit (PART_CTRL_ENABLE p)
      let f := if p != 0 && v.getLsbD 0 && !was then e.enablePart p else e
      if p != 0 && !v.getLsbD 0 && was then f.startPartReset p false true else if v.getLsbD 1 then f.startPartReset p false false else f) := by
  rw [Die.writePart]
  simp only [sub_one_beq]

variable {e : Die} (he : e = d.put (PART_CTRL_SPAN p) (sub v.toNat 16 8))
include he

theorem Die.writePart_enables (hon : v.getLsbD 0 = true) (hwas : ¬ e.partEnabled p) :
    d.writePart p v.toNat = if v.getLsbD 1 then (e.enablePart p).startPartReset p false false else e.enablePart p := by
  rw [Die.partEnabled, not_or, Bool.not_eq_true] at hwas
  obtain ⟨hp, hoff⟩ := hwas
  rw [Die.writePart_eq, ← he]
  dsimp only
  rw [hon, hoff, bne_iff_ne.mpr hp, beq_eq_false_iff_ne.mpr hp]
  rfl

theorem Die.writePart_disables (hon : v.getLsbD 0 = false) (hwas : e.partEnabled p) (hp : p ≠ 0) : d.writePart p v.toNat = e.startPartReset p false true := by
  have hbit : e.bit (PART_CTRL_ENABLE p) = true := hwas.resolve_left hp
  rw [Die.writePart_eq, ← he]
  dsimp only
  rw [hon, hbit, bne_iff_ne.mpr hp, beq_eq_false_iff_ne.mpr hp]
  rfl

theorem Die.writePart_keeps (h : (v.getLsbD 0 = true ∧ e.partEnabled p) ∨ (v.getLsbD 0 = false ∧ ¬ e.partEnabled p) ∨ p = 0) :
    d.writePart p v.toNat = if v.getLsbD 1 then e.startPartReset p false false else e := by
  have hwas : (p == 0 || e.bit (PART_CTRL_ENABLE p)) = true ↔ e.partEnabled p := by
    rw [Bool.or_eq_true, beq_iff_eq, Die.partEnabled]
  rw [Die.writePart_eq, ← he]
  dsimp only
  rcases h with ⟨hon, h⟩ | ⟨hon, h⟩ | h
  · rw [hwas.mpr h, hon, Bool.not_true, Bool.and_false, Bool.and_false, Bool.false_and, if_neg Bool.false_ne_true, if_neg Bool.false_ne_true]
  · rw [Bool.eq_false_iff.mpr fun ht => h (hwas.mp ht), hon, Bool.and_false, Bool.and_false, Bool.false_and, if_neg Bool.false_ne_true, if_neg Bool.false_ne_true]
  · rw [h, show ((0 : Nat) != 0) = false from rfl, Bool.false_and, Bool.false_and, Bool.false_and, Bool.false_and, if_neg Bool.false_ne_true, if_neg Bool.false_ne_true]

end

theorem Die.startPartReset_of_resetting {d : Die} {p : Nat} (h : d.bit (PART_CTRL_RESETTING p) = true) (flr disable : Bool) : d.startPartReset p flr disable = d := if_pos h

theorem Die.startPartReset_plain {d : Die} {p : Nat} (h : d.bit (PART_CTRL_RESETTING p) = false) :
    d.startPartReset p false false = { (d.putB (PART_CTRL_RESETTING p) true).putB (PART_CTRL_FLR p) false with
      parts := { d.parts with resets := d.parts.resets ++ [{ part := p, flr := false, disable := false, past := false }] } } := by
  rw [Die.startPartReset, h]
  rfl

/-! ### The end of an orphaned boot -/

theorem Die.effect_preserveCtrl (d : Die) (who : Who) (v : Nat) : ∃ r, findRow PRESERVE_CTRL = some r ∧ r.digested = false ∧ r.modeOnly = false
    ∧ d.effect who r PRESERVE_CTRL v = d.writePreserve v := ⟨_, rfl, rfl, rfl, rfl⟩

section
variable {s : State} {who : Who} (hreach : Reaches s.die who true) (hp : who.part = 0)
include hreach hp

theorem becomes_discard : becomes (.discard who) s s.die.discard :=
  becomes_congr (becomes_regWrite (f := opDiscard who) hreach hp (by decide) rfl)
    (Die.writeBar0_of_effect hp (by decide) (by decide) (s.die.effect_preserveCtrl who 2))

theorem becomes_reattach : becomes (.reattach who) s s.die.reattach :=
  becomes_congr (becomes_regWrite (f := opReattach who) hreach hp (by decide) rfl)
    (Die.writeBar0_of_effect hp (by decide) (by decide) (s.die.effect_preserveCtrl who 1))

end

section
variable {d e : Die} (horphan : d.bit PRESERVE_STATUS_ORPHANED = true)
include horphan

theorem Die.reattach_of_unread (h : d.readDev d.mem.record recordBytes 0 = (none, e)) : d.reattach = (e.putB PRESERVE_STATUS_BAD_RECORD true).discard := by
  rw [Die.reattach, if_pos horphan, h]

theorem Die.reattach_of_read {r : List Byte} (h : d.readDev d.mem.record recordBytes 0 = (some r, e)) : d.reattach
    = if (crc64 (r.take (recordBytes - 8))).toNat = field r (recordBytes - 8) 8 then (e.restore r).endOrphaned.put PRESERVE_STATUS_KEPT 0xFFFE
      else (e.putB PRESERVE_STATUS_BAD_RECORD true).discard := by
  rw [Die.reattach, if_pos horphan, h]
  simp only [beq_iff_eq]

end

/-! ### A partition is cleared -/

/-- Only the device cache has changed. -/
def Die.cacheOnly (d t : Die) : Prop := ∃ cache, t = { d with cache := cache }

theorem Die.cacheOnly_refl (d : Die) : d.cacheOnly d := ⟨_, rfl⟩

theorem Die.cacheOnly.trans {d e t : Die} (h : d.cacheOnly e) (h' : e.cacheOnly t) : d.cacheOnly t := by
  obtain ⟨c, rfl⟩ := h
  obtain ⟨c', rfl⟩ := h'
  exact ⟨c', rfl⟩

theorem Die.cacheOnly_foldl {α : Type} {f : Die → α → Die} (hf : ∀ (e : Die) x, e.cacheOnly (f e x)) (l : List α) (d : Die) : d.cacheOnly (l.foldl f d) :=
  rel_foldl (R := Die.cacheOnly) Die.cacheOnly_refl (fun _ _ _ => Die.cacheOnly.trans) hf l d

theorem Die.cacheOnly_onCache (d : Die) (f : CacheUnit → CacheUnit) : d.cacheOnly (d.onCache f) := ⟨_, rfl⟩

theorem Die.cacheOnly_dropHolder (d : Die) (line : Nat) (host : Bool) : d.cacheOnly (d.dropHolder line host) := by
  rw [Die.dropHolder]
  split
  · exact d.cacheOnly_refl
  · split
    · exact ⟨_, rfl⟩
    · exact ⟨_, rfl⟩

theorem Die.cacheOnly_revokeLine (d : Die) (line : Nat) (host : Bool) : d.cacheOnly (d.revokeLine line host) := by
  rw [Die.revokeLine]
  split
  · split
    · exact ⟨_, rfl⟩
    · exact d.cacheOnly_refl
  · exact d.cacheOnly_refl

theorem Die.cacheOnly.foldl {α : Type} {d e : Die} (h : d.cacheOnly e) {f : Die → α → Die} (hf : ∀ (e : Die) x, e.cacheOnly (f e x)) (l : List α) :
    d.cacheOnly (l.foldl f e) := h.trans (Die.cacheOnly_foldl hf l e)

theorem Die.cacheOnly_l1Empty (d : Die) (stop : Fin 64) : d.cacheOnly (d.l1Empty stop) := by
  rw [Die.l1Empty]
  refine Die.cacheOnly.trans ?_ (Die.cacheOnly_onCache _ _)
  refine .foldl (.foldl (.foldl d.cacheOnly_refl ?_ _) ?_ _) ?_ _
  · exact fun e x => e.cacheOnly_dropHolder _ _
  · exact fun e m => e.cacheOnly_dropHolder _ _
  · exact fun e t => e.cacheOnly_revokeLine _ _

/-- The sync objects, the page tables and the resets in progress are as they were, and so is the root of a partition's tree. -/
def Die.keepsRoot (p : Nat) (d t : Die) : Prop :=
  t.sync = d.sync ∧ t.tr = d.tr ∧ t.parts = d.parts ∧ (d.regsWf → t.regsWf ∧ t.raw (PT_ROOT p) = d.raw (PT_ROOT p))

theorem Die.keepsRoot_of_regs {p : Nat} {d t : Die} (hsync : t.sync = d.sync) (htr : t.tr = d.tr) (hparts : t.parts = d.parts) (hregs : t.regs = d.regs) :
    Die.keepsRoot p d t :=
  ⟨hsync, htr, hparts, fun h => ⟨by rw [Die.regsWf, hregs]; exact h, by rw [Die.raw, hregs, ← Die.raw]⟩⟩

theorem Die.keepsRoot_refl (p : Nat) (d : Die) : Die.keepsRoot p d d := ⟨rfl, rfl, rfl, fun h => ⟨h, rfl⟩⟩

theorem Die.keepsRoot.trans {p : Nat} {d e t : Die} (h : Die.keepsRoot p d e) (h' : Die.keepsRoot p e t) : Die.keepsRoot p d t := by
  obtain ⟨hs, ht, hp, hr⟩ := h
  obtain ⟨hs', ht', hp', hr'⟩ := h'
  refine ⟨hs'.trans hs, ht'.trans ht, hp'.trans hp, fun hwf => ?_⟩
  obtain ⟨hwf1, h1⟩ := hr hwf
  obtain ⟨hwf2, h2⟩ := hr' hwf1
  exact ⟨hwf2, h2.trans h1⟩

theorem Die.keepsRoot_foldl {α : Type} {p : Nat} {f : Die → α → Die} (l : List α) (hf : ∀ (e : Die), ∀ x ∈ l, Die.keepsRoot p e (f e x)) (d : Die) :
    Die.keepsRoot p d (l.foldl f d) := by
  induction l generalizing d with
  | nil => exact Die.keepsRoot_refl p d
  | cons x xs ih => exact (hf d x List.mem_cons_self).trans (ih (fun e y hy => hf e y (List.mem_cons_of_mem _ hy)) _)

/-- A further step that leaves the registers alone. -/
theorem Die.keepsRoot.frame {p : Nat} {d e t : Die} (h : Die.keepsRoot p d e) (hsync : t.sync = e.sync) (htr : t.tr = e.tr) (hparts : t.parts = e.parts)
    (hregs : t.regs = e.regs) : Die.keepsRoot p d t := h.trans (Die.keepsRoot_of_regs hsync htr hparts hregs)

/-- A further write of another register. -/
theorem Die.keepsRoot.putRaw {p : Nat} {d e : Die} (h : Die.keepsRoot p d e) {off : Nat} (hne : PT_ROOT p ≠ off) (v : Nat) : Die.keepsRoot p d (e.putRaw off v) :=
  h.trans ⟨rfl, rfl, rfl, fun hwf => ⟨Die.putRaw_wf e off v hwf, by rw [Die.raw_putRaw e _ _ _ hwf, if_neg hne]⟩⟩

theorem Die.keepsRoot.put {p : Nat} {d e : Die} (h : Die.keepsRoot p d e) {f : Fld} (hne : PT_ROOT p ≠ f.off) (v : Nat) : Die.keepsRoot p d (e.put f v) := h.putRaw hne _

theorem Die.keepsRoot_of_cacheOnly {p : Nat} {d t : Die} (h : d.cacheOnly t) : Die.keepsRoot p d t := by
  obtain ⟨c, rfl⟩ := h
  exact Die.keepsRoot_of_regs rfl rfl rfl rfl

theorem Die.keepsRoot_finish {p : Nat} (d : Die) (pid : Nat) (st : Status) (r : W64) (x : W32) : Die.keepsRoot p d (d.finish pid st r x) := by
  obtain ⟨ps, cp, h⟩ := d.finish_eq pid st r x
  rw [h]
  exact Die.keepsRoot_of_regs rfl rfl rfl rfl

section
variable {p : Nat} (hp : p < 16)
include hp

theorem Die.keepsRoot_drawKey (d : Die) (q : Nat) : Die.keepsRoot p d (d.drawKey q) := by
  have hkept : PT_ROOT p ≠ PRESERVE_STATUS := by unfold PT_ROOT PRESERVE_STATUS; omega
  have hgen : PT_ROOT p ≠ MEMKEY_GEN q := by unfold PT_ROOT MEMKEY_GEN; omega
  have hsweep : PT_ROOT p ≠ DC_SWEEP := by unfold PT_ROOT DC_SWEEP; omega
  have hun : Die.keepsRoot p d (d.unkeep q) := (Die.keepsRoot_refl p d).put (f := PRESERVE_STATUS_KEPT) hkept _
  rw [Die.drawKey]
  dsimp only
  split
  · exact hun
  · refine .frame (e := (((d.unkeep q).countWrap (MEMKEY_GEN_GEN q) 1).putB DC_SWEEP_BUSY true).put DC_SWEEP_PARTITION q) ?_ rfl rfl rfl rfl
    exact .put (f := DC_SWEEP_PARTITION) (.put (f := DC_SWEEP_BUSY) (.put (f := MEMKEY_GEN_GEN q) hun hgen _) hsweep _) hsweep _

theorem Die.keepsRoot_clearCore (d : Die) (c : CoreIx) : Die.keepsRoot p d (d.clearCore c) := by
  have hecc : PT_ROOT p ≠ CRIB_ECC c.val := by unfold PT_ROOT CRIB_ECC; omega
  have hswitch : Die.keepsRoot p d (d.dropSwitch c) := by
    rw [Die.dropSwitch]
    split
    · exact Die.keepsRoot_refl p d
    · exact (Die.keepsRoot_of_regs rfl rfl rfl rfl).trans (Die.keepsRoot_finish _ _ _ _ _)
  refine .put (f := CRIB_ECC_CORRECTED c.val) (.frame (hswitch.trans (Die.keepsRoot_of_cacheOnly (Die.cacheOnly_l1Empty _ (coreStop c)))) ?_ ?_ ?_ ?_) hecc _
  all_goals rfl

end

/-- An object of the partition is cleared but for its owner (R486). -/
def clearedObj (p : Nat) (o : Nat × SyncObj) : Option (Nat × SyncObj) :=
  if o.2.owner.toNat == p then (if o.2.owner == 0 then none else some (o.1, { o.2 with value := 0, poison := false })) else some o

/-- Entries that keep their keys and list no default are in canonical form. -/
theorem tblWf_filterMap {α : Type} [DecidableEq α] {dflt : Nat → α} {g : Nat × α → Option (Nat × α)} {lo : Option Nat} {t : List (Nat × α)}
    (hg : ∀ e x, e.2 ≠ dflt e.1 → g e = some x → x.1 = e.1 ∧ x.2 ≠ dflt x.1) (h : tblWf dflt lo t = true) : tblWf dflt lo (t.filterMap g) = true := by
  induction t generalizing lo with
  | nil => rfl
  | cons e t ih =>
    obtain ⟨j, v⟩ := e
    obtain ⟨hlow, hv, ht⟩ := tblWf_cons.mp h
    rw [List.filterMap_cons]
    cases hx : g (j, v) with
    | none => exact tblWf_weaken (ih ht) hlow
    | some x =>
      obtain ⟨hkey, hne⟩ := hg (j, v) x hv hx
      obtain ⟨k, w⟩ := x
      dsimp only at hkey
      subst hkey
      exact tblWf_cons.mpr ⟨hlow, hne, ih ht⟩

theorem clearedObj_some {p : Nat} {e x : Nat × SyncObj} (he : e.2 ≠ {}) (h : clearedObj p e = some x) : x.1 = e.1 ∧ x.2 ≠ {} := by
  rw [clearedObj] at h
  split at h
  · split at h
    · cases h
    · next hzero =>
      obtain rfl := Option.some.inj h
      refine ⟨rfl, fun heq => hzero ?_⟩
      exact beq_iff_eq.mpr (congrArg SyncObj.owner heq)
  · obtain rfl := Option.some.inj h
    exact ⟨rfl, he⟩

theorem tblWf_clearedObj {p : Nat} {lo : Option Nat} {t : List (Nat × SyncObj)} (h : tblWf (fun _ => ({} : SyncObj)) lo t = true) :
    tblWf (fun _ => ({} : SyncObj)) lo (t.filterMap (clearedObj p)) = true :=
  tblWf_filterMap (fun _ _ he hx => clearedObj_some he hx) h

/-- What an object of the partition, or of another, is after the clearing. -/
def objCleared (p : Nat) (o : SyncObj) : SyncObj := if o.owner.toNat = p then { owner := o.owner } else o

/-- What an object reads as once its partition has been cleared. -/
theorem tblGet_clearedObj (p : Nat) {lo : Option Nat} {t : List (Nat × SyncObj)} (h : tblWf (fun _ => ({} : SyncObj)) lo t = true) (k : Nat) :
    tblGet (fun _ => ({} : SyncObj)) (t.filterMap (clearedObj p)) k = objCleared p (tblGet (fun _ => ({} : SyncObj)) t k) := by
  have hdflt : objCleared p {} = {} := by
    rw [objCleared]
    split <;> rfl
  induction t generalizing lo with
  | nil => exact hdflt.symm
  | cons e t ih =>
    obtain ⟨j, v⟩ := e
    obtain ⟨hlow, hv, ht⟩ := tblWf_cons.mp h
    rw [List.filterMap_cons]
    have hrest : k ≤ j → tblGet (fun _ => ({} : SyncObj)) (t.filterMap (clearedObj p)) k = {} := fun hk => tblGet_low (tblWf_clearedObj ht) hk
    have hget : tblGet (fun _ => ({} : SyncObj)) ((j, v) :: t) k = if k == j then v else if k < j then {} else tblGet (fun _ => {}) t k := rfl
    have hsplit : objCleared p (tblGet (fun _ => ({} : SyncObj)) ((j, v) :: t) k)
        = if k == j then objCleared p v else if k < j then {} else objCleared p (tblGet (fun _ => {}) t k) := by
      rw [hget, apply_ite (objCleared p), apply_ite (objCleared p), hdflt]
    rw [hsplit, ← ih ht]
    by_cases howner : v.owner.toNat = p
    · by_cases hzero : v.owner = 0
      · rw [show clearedObj p (j, v) = none by rw [clearedObj, if_pos (beq_iff_eq.mpr howner), if_pos (beq_iff_eq.mpr hzero)]]
        dsimp only
        split
        · next hk =>
          rw [hrest (beq_iff_eq.mp hk).le, objCleared, if_pos howner, hzero]
        · split
          · next hk => exact hrest hk.le
          · rfl
      · rw [show clearedObj p (j, v) = some (j, { v with value := 0, poison := false }) by
          rw [clearedObj, if_pos (beq_iff_eq.mpr howner), if_neg (by rw [beq_iff_eq]; exact hzero)]]
        rw [objCleared, if_pos howner]
        rfl
    · rw [show clearedObj p (j, v) = some (j, v) by rw [clearedObj, if_neg (by rw [beq_iff_eq]; exact howner)], objCleared, if_neg howner]
      rfl

section
variable {d : Die} {p : PartIx}

theorem opPartitionClear_of_waiting (h : (d.parts.resets.find? fun r => r.part == p.val && r.past) = none ∨ d.partBusy p.val = true) : opPartitionClear p d = d := by
  rw [opPartitionClear]
  split
  · rfl
  · next hr => exact if_pos (h.resolve_left (by rw [hr]; exact nofun))

/-- The translations of the partition are gone, and its root is cleared; it has a new key pair, and its cores are cleared. -/
def Die.clearedUnits (d : Die) (p : Nat) : Die :=
  (List.finRange 48).foldl (fun e c => if e.bit (CORE_ASSIGN_ASSIGNED c.val) && e.get (CORE_ASSIGN_PARTITION c.val) == p then e.clearCore c else e)
    ((((d.forgetPart p).onTr fun t => { t with
      tables := t.tables.filter fun x => x.1 != p, frames := t.frames.filter fun f => f.part != p, moves := t.moves.filter fun m => m.part != p }).put (PT_ROOT_ROOT p) 0).drawKey p)

/-- The rings of the partition are disabled. -/
def Die.clearedRings (d : Die) (p : Nat) : Die :=
  d.cp.rings.foldl (fun e x =>
    let g : Ring := { x.2 with enable := false, disabling := false, reserved := 0, kept := [] }
    if x.2.part.toNat == p then { e with cp := { e.cp with rings := tblPut (fun _ => ({} : Ring)) e.cp.rings x.1 g } } else e) d

/-- The registers of the partition have their reset values, and its buckets are full. -/
def Die.clearedPartRegs (d : Die) (p : Nat) : Die :=
  (List.range 5).foldl (fun e i => e.fillBucket p i) ([PLAN_OFFSET p, SLIP_COUNT p, COALESCE_STAT p, RU_SLOTS p, REDUCE_WIN p].foldl (fun e o => e.putRaw o (regReset o)) d)

/-- Behind that its objects, rings and registers. -/
def Die.clearedRest (d : Die) (p : Nat) : Die :=
  ((d.onSync fun u => { u with objs := u.objs.filterMap (clearedObj p) }).clearedRings p).clearedPartRegs p

/-- Its function, after a function-level reset. -/
def Die.clearedFn (d : Die) (p : Nat) (flr : Bool) : Die :=
  if flr then ((d.maskVectors p).setFn p (if p == 0 then { d.fn 0 with inFlr := false, priEnable := false } else {})).onTr fun t => { t with
    prOff := t.prOff.filter (· != p) }
  else d

/-- The reset of the partition has ended on this die. -/
def Die.resetEnded (d : Die) (p : Nat) : Die :=
  ({ d with parts := { d.parts with resets := d.parts.resets.filter fun x => x.part != p } }.putB (PART_CTRL_RESETTING p) false).count PQ_STATUS_RESETS 1

theorem opPartitionClear_of_past {r : PartReset} (hr : (d.parts.resets.find? fun r => r.part == p.val && r.past) = some r) (hbusy : d.partBusy p.val = false) :
    opPartitionClear p d = (((d.clearedUnits p.val).clearedRest p.val).clearedFn p.val r.flr).resetEnded p.val := by
  rw [opPartitionClear, hr]
  exact if_neg (by rw [hbusy]; decide)

end

/-! ### What a cleared partition is left with -/

section
variable {d : Die} {p : PartIx}

theorem Die.keepsRoot_clearedUnits :
    Die.keepsRoot p.val (((d.forgetPart p.val).onTr fun t => { t with
      tables := t.tables.filter fun x => x.1 != p.val, frames := t.frames.filter fun f => f.part != p.val, moves := t.moves.filter fun m => m.part != p.val }).put
        (PT_ROOT_ROOT p.val) 0) (d.clearedUnits p.val) := by
  refine (Die.keepsRoot_drawKey p.isLt _ p.val).trans (Die.keepsRoot_foldl _ (fun e c _ => ?_) _)
  split
  · exact Die.keepsRoot_clearCore p.isLt e c
  · exact Die.keepsRoot_refl _ e

theorem Die.keepsRoot_clearedRings (d : Die) : Die.keepsRoot p.val d (d.clearedRings p.val) := by
  refine Die.keepsRoot_foldl _ (fun e x _ => ?_) _
  dsimp only
  split
  · exact Die.keepsRoot_of_regs rfl rfl rfl rfl
  · exact Die.keepsRoot_refl _ e

theorem Die.keepsRoot_clearedPartRegs (d : Die) : Die.keepsRoot p.val d (d.clearedPartRegs p.val) := by
  have hp := p.isLt
  refine Die.keepsRoot.trans (Die.keepsRoot_foldl _ (fun e off hoff => (Die.keepsRoot_refl _ e).putRaw ?_ _) d)
    (Die.keepsRoot_foldl _ (fun e i hi => (Die.keepsRoot_refl _ e).putRaw ?_ _) _)
  · simp only [List.mem_cons, List.not_mem_nil, or_false] at hoff
    unfold PLAN_OFFSET SLIP_COUNT COALESCE_STAT RU_SLOTS REDUCE_WIN at hoff
    unfold PT_ROOT
    omega
  · have hfive := List.mem_range.mp hi
    unfold PT_ROOT QOS_LEVEL
    omega

theorem Die.keepsRoot_clearedRest : Die.keepsRoot p.val (d.onSync fun u => { u with objs := u.objs.filterMap (clearedObj p.val) }) (d.clearedRest p.val) :=
  (Die.keepsRoot_clearedRings _).trans (Die.keepsRoot_clearedPartRegs _)

theorem Die.clearedFn_keeps (flr : Bool) : (d.clearedFn p.val flr).sync = d.sync ∧ (d.clearedFn p.val flr).tr.tables = d.tr.tables
    ∧ (d.clearedFn p.val flr).parts = d.parts ∧ (d.clearedFn p.val flr).regs = d.regs := by
  have hmask : ∃ host, d.maskVectors p.val = { d with host := host } :=
    rel_foldl (R := fun x t : Die => ∃ host, t = { x with host := host }) (fun x => ⟨x.host, rfl⟩)
      (fun _ _ _ ⟨_, h⟩ ⟨k, h'⟩ => ⟨k, by rw [h', h]⟩) (fun x dv => ⟨_, rfl⟩) (d.vectorsOf p.val) d
  obtain ⟨host, h⟩ := hmask
  rw [Die.clearedFn]
  split
  · rw [h]
    exact ⟨rfl, rfl, rfl, rfl⟩
  · exact ⟨rfl, rfl, rfl, rfl⟩

end

section
variable {d : Die} {p : PartIx}

theorem Die.resetEnded_spec (hwf : d.regsWf) :
    (d.resetEnded p.val).bit (PART_CTRL_RESETTING p.val) = false ∧ (d.resetEnded p.val).raw (PT_ROOT p.val) = d.raw (PT_ROOT p.val) := by
  have hp := p.isLt
  have hwf' : Die.regsWf { d with parts := { d.parts with resets := d.parts.resets.filter fun x => x.part != p.val } } := hwf
  constructor
  · refine (Die.bit_put_of_apart (hwf'.put _ _) _ (by exact Nat.le_of_ble_eq_true rfl) (.inl ?_)).trans (Die.bit_putB hwf' false (by exact Nat.le_of_ble_eq_true rfl) rfl)
    change PQ_STATUS ≠ PART_CTRL p.val
    unfold PQ_STATUS PART_CTRL
    omega
  · refine (Die.raw_put_of_ne (hwf'.put _ _) _ ?_).trans (Die.raw_put_of_ne hwf' _ ?_)
    · change PT_ROOT p.val ≠ PQ_STATUS
      unfold PT_ROOT PQ_STATUS
      omega
    · change PT_ROOT p.val ≠ PART_CTRL p.val
      unfold PT_ROOT PART_CTRL
      omega

theorem opPartitionClear_spec {r : PartReset} (hcanon : d.canonical) (hresets : d.parts.resets = [r]) (hpart : r.part = p.val) (hpast : r.past = true)
    (hbusy : d.partBusy p.val = false) :
    (opPartitionClear p d).bit (PART_CTRL_RESETTING p.val) = false ∧ (opPartitionClear p d).parts.resets = [] ∧ (opPartitionClear p d).get (PT_ROOT_ROOT p.val) = 0
      ∧ (∀ x ∈ (opPartitionClear p d).tr.tables, x.1 ≠ p.val) ∧ ∀ n, (opPartitionClear p d).obj n = objCleared p.val (d.obj n) := by
  have hfind : (d.parts.resets.find? fun r => r.part == p.val && r.past) = some r := by
    rw [hresets, List.find?_cons_of_pos]
    rw [hpart, hpast, beq_self_eq_true]
    rfl
  have hwf0 := hcanon.regsWf
  obtain ⟨-, -, hobjs, -⟩ := hcanon
  obtain ⟨hsync1, htr1, hparts1, hregs1⟩ := Die.keepsRoot_clearedUnits (d := d) (p := p)
  obtain ⟨hsync2, htr2, hparts2, hregs2⟩ := Die.keepsRoot_clearedRest (d := d.clearedUnits p.val) (p := p)
  obtain ⟨hsync3, htables3, hparts3, hregs3⟩ := Die.clearedFn_keeps (d := (d.clearedUnits p.val).clearedRest p.val) (p := p) r.flr
  rw [opPartitionClear_of_past hfind hbusy]
  obtain ⟨hwf1, hraw1⟩ := hregs1 (hwf0.put (PT_ROOT_ROOT p.val) 0)
  obtain ⟨hwf2, hraw2⟩ := hregs2 hwf1
  generalize (d.clearedUnits p.val).clearedRest p.val = e at *
  have hparts : e.parts = d.parts := hparts2.trans hparts1
  have htables : e.tr.tables = d.tr.tables.filter fun x => x.1 != p.val := (congrArg TransUnit.tables htr2).trans (congrArg TransUnit.tables htr1)
  have hobj : e.sync.objs = d.sync.objs.filterMap (clearedObj p.val) := by
    rw [hsync2]
    exact congrArg (fun u : SyncUnit => u.objs.filterMap (clearedObj p.val)) hsync1
  have hraw : e.raw (PT_ROOT p.val) = (d.put (PT_ROOT_ROOT p.val) 0).raw (PT_ROOT p.val) := hraw2.trans hraw1
  generalize e.clearedFn p.val r.flr = f at *
  have hwf3 : f.regsWf := by rwa [Die.regsWf, hregs3]
  obtain ⟨hbit, hroot⟩ := Die.resetEnded_spec (p := p) hwf3
  refine ⟨hbit, ?_, ?_, fun x hx => ?_, fun n => ?_⟩
  · change f.parts.resets.filter _ = []
    rw [hparts3, hparts, hresets]
    simp [hpart]
  · have hread : (f.resetEnded p.val).raw (PT_ROOT p.val) = (d.put (PT_ROOT_ROOT p.val) 0).raw (PT_ROOT p.val) := by
      rw [hroot, ← hraw, Die.raw, hregs3, ← Die.raw]
    rw [Die.get_of_raw (f := PT_ROOT_ROOT p.val) hread, Die.get_put hwf0 0 (by exact Nat.le_of_ble_eq_true rfl), Nat.zero_mod]
  · change x ∈ f.tr.tables at hx
    rw [htables3, htables] at hx
    exact bne_iff_ne.mp (List.mem_filter.mp hx).2
  · change tblGet (fun _ => ({} : SyncObj)) f.sync.objs n.val = _
    rw [hsync3, hobj]
    exact tblGet_clearedObj p.val hobjs n.val

end

/-- Settles O42. -/
theorem partitionsAndPreservation : Obligations.PartitionsAndPreservation := by
  refine ⟨⟨fun s who p v hreach hp => ?_, fun d p flr disable h => Die.startPartReset_of_resetting h _ _, fun d p h => Die.startPartReset_plain h, fun s p hlive hcanon => ⟨?_, ?_⟩⟩,
    fun s who hreach hp => ⟨becomes_discard hreach hp, fun horphan => ?_, fun horphan => ⟨fun e he => ?_, fun r e he => ⟨fun hgood => ?_, fun hbad => ?_⟩⟩⟩⟩
  · intro d on was begins keyed both
    have hboth {e : Die} (h : s.die.writePart p.val v.toNat = e) : both e :=
      ⟨becomes_congr (becomes_partitionEnable hreach hp) h, becomes_congr (becomes_partitionResetRequest hreach hp) h⟩
    exact ⟨fun hon hwas => hboth (Die.writePart_enables rfl hon hwas), fun hon hwas hne => hboth (Die.writePart_disables rfl hon hwas hne),
      fun h => hboth (Die.writePart_keeps rfl h)⟩
  · have hnext : becomes (.partitionClear p) s (opPartitionClear p s.die) := onLive_live _ hlive
    exact fun h => becomes_congr hnext (opPartitionClear_of_waiting h)
  · intro r hresets hpart hpast hbusy
    obtain ⟨hbit, hdone, hroot, htables, hobjs⟩ := opPartitionClear_spec hcanon hresets hpart hpast hbusy
    exact ⟨opPartitionClear p s.die, onLive_live _ hlive, hbit, hdone, hroot, htables, fun n hn => (hobjs n).trans (if_pos hn), fun n hn => (hobjs n).trans (if_neg hn)⟩
  · exact becomes_congr (becomes_reattach hreach hp) (if_neg (by rw [horphan]; decide))
  · exact becomes_congr (becomes_reattach hreach hp) (Die.reattach_of_unread horphan he)
  · exact becomes_congr (becomes_reattach hreach hp) ((Die.reattach_of_read horphan he).trans (if_pos hgood))
  · exact becomes_congr (becomes_reattach hreach hp) ((Die.reattach_of_read horphan he).trans (if_neg hbad))

end Sys2Proof.Machine
end

section
/-! PROOF. The decoders of host memory, host access to device memory and BAR4 (obligation O43). -/

namespace Sys2Proof.Machine

/-! ### HDM decoders -/

section
variable {d : Die} {decs : List Hdm}

/-- A commit is not taken now: the die is not die 0, or one is in progress (R400). -/
def Die.commitBusy (d : Die) : Prop := d.dieId ≠ some 0 ∨ ∃ o ∈ d.ports.ops, o.req = .reg ∧ o.id = 1

theorem Die.commitBusy_iff : (d.dieId != some 0 || d.ports.ops.any fun o => o.req == .reg && o.id == 1) = true ↔ d.commitBusy := by
  rw [Bool.or_eq_true, bne_iff_ne, List.any_eq_true, Die.commitBusy]
  simp only [Bool.and_eq_true, beq_iff_eq]

theorem opHdmCommit_of_busy (h : d.commitBusy) : opHdmCommit decs d = d := if_pos (Die.commitBusy_iff.mpr h)

theorem opHdmCommit_of_bad (h : ¬ d.commitBusy) (hfits : d.hdmFits decs = false) : opHdmCommit decs d = d.onHost fun h => { h with hdmError := true } := by
  rw [opHdmCommit, if_neg fun hb => h (Die.commitBusy_iff.mp hb)]
  exact if_pos (by rw [show (d.onHost fun h => { h with hdmError := false }).hdmFits decs = d.hdmFits decs from rfl, hfits]; rfl)

theorem opHdmCommit_of_good (h : ¬ d.commitBusy) (hfits : d.hdmFits decs = true) : opHdmCommit decs d
    = d.otherDies.foldl (Die.mirrorTo decs)
      (d.onHost fun h => { h with hdmError := false, hdm := decs.map fun (x : Hdm) => { x with committed := d.otherDies.isEmpty } }) := by
  rw [opHdmCommit, if_neg fun hb => h (Die.commitBusy_iff.mp hb)]
  exact if_neg (by rw [show (d.onHost fun h => { h with hdmError := false }).hdmFits decs = d.hdmFits decs from rfl, hfits]; decide)

end

/-- A decoder of one range interleaves its granules over its ways (R402). -/
theorem Die.hdmTarget_single {d : Die} {x : Hdm} {g k : Nat} (hdm : d.host.hdm = [x]) (hx : x.committed = true) (hig : 0 < x.ig) (hin : g * x.ig + k < x.size) (hk : k < x.ig) :
    d.hdmTarget (x.base + (g * x.ig + k)) = some (g % x.iw, g / x.iw * x.ig + k) := by
  have hfind : d.host.hdm.zipIdx.find? (fun y => y.1.committed && decide (y.1.base ≤ x.base + (g * x.ig + k)) && decide (x.base + (g * x.ig + k) < y.1.base + y.1.size)) = some (x, 0) := by
    rw [hdm]
    refine List.find?_cons_of_pos ?_
    rw [Bool.and_eq_true, Bool.and_eq_true, decide_eq_true_eq, decide_eq_true_eq]
    exact ⟨⟨hx, Nat.le_add_right _ _⟩, Nat.add_lt_add_left hin _⟩
  have hgranule : (g * x.ig + k) / x.ig = g := by
    rw [Nat.mul_comm, Nat.mul_add_div hig, Nat.div_eq_of_lt hk, Nat.add_zero]
  have hoffset : (g * x.ig + k) % x.ig = k := by
    rw [Nat.mul_comm, Nat.mul_add_mod, Nat.mod_eq_of_lt hk]
  rw [Die.hdmTarget, hfind]
  dsimp only
  rw [Nat.add_sub_cancel_left, hgranule, hoffset, show ((0 : Nat) == 0) = true from rfl, if_pos rfl, Nat.zero_add]

/-! ### Management messages -/

section
variable {d : Die} {m : MgmtMsg}

theorem opManagementMsgReceive_of_not_pass (h : d.portCheck m.head 8 none ≠ .pass) :
    opManagementMsgReceive m d = (d.notPassed m.head 8 (d.portCheck m.head 8 none)).freeUnits m.head.port 8 (msgBytes (.mgmt m)) := Die.admitted_of_not_pass h

variable (hpass : d.portCheck m.head 8 none = .pass)
include hpass

theorem opManagementMsgReceive_of_newer (h : d.fenceOf m.head.epoch = .newer) : opManagementMsgReceive m d = d := by
  refine (Die.admitted_of_pass hpass).trans ?_
  dsimp only
  rw [h]

/-- A message of an older epoch is refused: a reply without an answer. -/
theorem opManagementMsgReceive_of_older (h : d.fenceOf m.head.epoch = .older) :
    opManagementMsgReceive m d = (d.rejectOld m.head (match m.body with | .reply .. => false | _ => true)).freeUnits m.head.port 8 (msgBytes (.mgmt m)) := by
  refine (Die.admitted_of_pass hpass).trans ?_
  dsimp only
  rw [h]
  cases m.body <;> rfl

theorem opManagementMsgReceive_of_mirror {decs : List Hdm} (h : d.fenceOf m.head.epoch = .same) (hbody : m.body = .hdmMirror decs) :
    opManagementMsgReceive m d = ((d.takeMirror decs).mgmtReply m.head m.seq 0 .ok).freeUnits m.head.port 8 (msgBytes (.mgmt m)) := by
  refine (Die.admitted_of_pass hpass).trans ?_
  dsimp only
  rw [h]
  dsimp only
  rw [hbody]

end

/-! ### CXL.mem -/

/-- A line is read, or its enabled bytes are written, under the host key map (R349, R354). -/
def Die.memAccess (d : Die) (hpa a : Nat) (write : Option LineData) (mask : BitVec 128) : Die :=
  match write with
  | none => (d.hbmRead (d.hostKey a) a 128).2.emit (.memData hpa (d.hbmRead (d.hostKey a) a 128).1)
  | some data =>
    let n := ((List.range 128).filter mask.getLsbD).length
    (List.range 4).foldl (fun e i => e.maskedSector (d.hostKey a) (a / 32 + i) ((List.range 32).map fun j => mask.getLsbD (32 * i + j)) (lineBytes data (32 * i) 32))
      (if n = 0 then d else d.charge (d.hostKey a) 0 n)

/-- The slice's copy of a line in shared bias is written back and dropped (R364). -/
def Die.biasDropped (d : Die) (a : Nat) : Die := ((d.cleanLine a).dropCopy a false).onCache fun u => { u with owned := u.owned.erase a }

section
variable {d : Die} {hpa a : Nat} {write : Option LineData} {mask : BitVec 128}

theorem opCxlMemRequest_of_error {cause : Nat} (h : d.hdmHere (lineOf hpa) = .error cause) : opCxlMemRequest hpa write mask d
    = (let e := (d.hostErr cause 0 hpa).raise 7 .contained (detail 0 cause 0); if write.isSome then e else e.emit (.memData hpa none)) := by
  rw [opCxlMemRequest, h]

variable (hhere : d.hdmHere (lineOf hpa) = .ok a)
include hhere

theorem opCxlMemRequest_of_device (hbias : d.sharedBias a = false) : opCxlMemRequest hpa write mask d = d.memAccess hpa a write mask := by
  rw [opCxlMemRequest, hhere]
  dsimp only
  rw [hbias]
  cases write with
  | none => rfl
  | some data =>
    simp only [beq_iff_eq]
    rfl

variable (hbias : d.sharedBias a = true)
include hbias

theorem opCxlMemRequest_of_held {e : Die} (hfree : d.lineFree a false = (false, e)) : opCxlMemRequest hpa write mask d = e := by
  rw [opCxlMemRequest, hhere]
  dsimp only
  rw [hbias, hfree]
  rfl

theorem opCxlMemRequest_of_invalidating {e f : Die} (hfree : d.lineFree a false = (true, e)) (hcast : (e.biasDropped a).broadcast a false .none = (true, f)) :
    opCxlMemRequest hpa write mask d = f := by
  rw [opCxlMemRequest, hhere]
  dsimp only
  rw [Die.biasDropped] at hcast
  simp only [hbias, hfree, hcast, ↓reduceIte]
  rfl

theorem opCxlMemRequest_of_dropped {e f : Die} (hfree : d.lineFree a false = (true, e)) (hcast : (e.biasDropped a).broadcast a false .none = (false, f)) :
    opCxlMemRequest hpa write mask d = f.memAccess hpa a write mask := by
  rw [opCxlMemRequest, hhere]
  dsimp only
  rw [Die.biasDropped] at hcast
  simp only [hbias, hfree, hcast, ↓reduceIte]
  cases write with
  | none => rfl
  | some data =>
    simp only [beq_iff_eq]
    rfl

end

/-! ### BAR4 -/

section
variable {d : Die} {off n : Nat} {write : Option (List Byte)}

/-- Bytes of a BAR4 access. -/
def barLen (n : Nat) (write : Option (List Byte)) : Nat := match write with | some bs => bs.length | none => n

theorem opBar4Access_of_long (h : 512 < barLen n write) : opBar4Access off n write d = d.raise 7 .fatal (detail 0 0 0) := if_pos (decide_eq_true h)

theorem opBar4Access_of_outside (h : barLen n write ≤ 512) (hout : 2 ^ 28 < off + barLen n write) : opBar4Access off n write d = d.unsupported 0 0 :=
  (if_neg (by rw [decide_eq_true_eq]; exact not_lt.mpr h)).trans (if_pos (decide_eq_true hout))

/-- The host port's queue holds these accesses, and one more access has come. -/
def Die.barQueued (d : Die) (p : List Posted) : Die := d.onHost fun h => { h with nextBar := d.host.nextBar + 1, posted := p }

/-- The access stands alone in the queue. -/
theorem opBar4Access_of_inside (h : barLen n write ≤ 512) (hin : off + barLen n write ≤ 2 ^ 28) (hempty : d.host.posted = []) :
    opBar4Access off n write d = Die.drainLoop 2 (d.barQueued [.bar d.host.nextBar off (barLen n write) write none]) := by
  refine (if_neg (by rw [decide_eq_true_eq]; exact not_lt.mpr h)).trans ((if_neg (by rw [decide_eq_true_eq]; exact not_lt.mpr hin)).trans ?_)
  rw [Die.enqueueHost, Die.drainHost]
  simp only [Die.onHost, hempty, List.nil_append, List.length_singleton]
  rfl

theorem Die.drainLoop_of_none {d : Die} (h : d.drainStep = none) (n : Nat) : Die.drainLoop n d = d := by
  cases n with
  | zero => rfl
  | succ n => rw [Die.drainLoop, h]

theorem Die.drainLoop_two {d e : Die} (h : d.drainStep = some e) : Die.drainLoop 2 d = e.drainStep.getD e := by
  rw [Die.drainLoop, h]
  dsimp only
  rw [Die.drainLoop]
  cases e.drainStep <;> rfl

theorem Die.drainStep_of_empty {d : Die} (h : d.host.posted = []) : d.drainStep = none := by
  rw [Die.drainStep, h]

variable {id len : Nat}

theorem Die.drainStep_bar (h : d.host.posted = [.bar id off len write none]) :
    d.drainStep = if d.bit HBM_STATUS_SELF_REFRESH then none else some (d.barStart id off len write) := by
  rw [Die.drainStep, h]

/-- An error record of the host port is written whatever the port's queue holds. -/
theorem Die.hostErr_onHost (d : Die) (cause fn addr : Nat) (f : HostUnit → HostUnit) : (d.onHost f).hostErr cause fn addr = (d.hostErr cause fn addr).onHost f := by
  rw [Die.hostErr, Die.hostErr, Die.record, Die.record, show (d.onHost f).bit HOST_ERR_VALID = d.bit HOST_ERR_VALID from rfl]
  split <;> rfl

/-- Past the end of memory a write is dropped and a read answers all ones; both are reported (R406). -/
def Die.barPast (d : Die) (off len : Nat) (write : Option (List Byte)) : Die :=
  match write with
  | some _ => (d.hostErr 3 0 off).raise 7 .contained (detail 0 3 0)
  | none => (d.raise 7 .contained (detail 0 3 0)).emit (.barData 0 (some (List.replicate len 0xFF)))

theorem Die.barStart_of_past (h : hbmTop < d.get BAR4_BASE_BASE * 2 ^ 21 + off + len) : d.barStart id off len write = (d.barPast off len write).popPosted := by
  unfold Die.barStart
  refine (if_pos (decide_eq_true h)).trans ?_
  cases write <;> rfl

/-- The accesses to the lines of a BAR4 access are asked of their slices. -/
def Die.barAsked (d : Die) (id a len : Nat) (write : Option (List Byte)) : Die :=
  (linePieces a len).foldl (fun e p => e.askHome (e.barRequest id p.1 (match write with
    | some bs => .write p.1 ((bs.drop (p.1 - a)).take p.2) | none => .read p.1 p.2))) d

theorem Die.barStart_of_inside (h : d.get BAR4_BASE_BASE * 2 ^ 21 + off + len ≤ hbmTop) : d.barStart id off len write
    = (d.onHost fun h => { h with posted := .bar id off len write (some (d.get BAR4_BASE_BASE * 2 ^ 21 + off)) :: h.posted.drop 1 }).barAsked id
        (d.get BAR4_BASE_BASE * 2 ^ 21 + off) len write := by
  unfold Die.barStart
  refine (if_neg (by rw [decide_eq_true_eq]; exact not_lt.mpr h)).trans ?_
  rfl

/-- The dropped access leaves the queue. -/
theorem Die.popPosted_barPast (d : Die) (x : Posted) : ((d.barQueued [x]).barPast off len write).popPosted = (d.barQueued []).barPast off len write := by
  cases write with
  | none => rfl
  | some bs =>
    change ((((d.barQueued [x]).hostErr 3 0 off).raise 7 .contained (detail 0 3 0)).popPosted) = ((d.barQueued []).hostErr 3 0 off).raise 7 .contained (detail 0 3 0)
    rw [Die.barQueued, Die.barQueued, Die.hostErr_onHost, Die.hostErr_onHost]
    rfl

end

/-- Settles O43. -/
theorem hostMemory : Obligations.HostMemory := by
  refine ⟨⟨fun s decs hlive hlen => ?_, fun s head decs hlive hlen => ?_, fun d x g k hdm hx hig _ hin hk => Die.hdmTarget_single hdm hx hig hin hk⟩, fun s hpa write mask hlive => ?_,
    fun s tlp off n write hreach => ?_, fun d id off n a write rest h => by rw [Die.drainStep, h]⟩
  · have hnext : becomes (.hdmCommit decs) s (opHdmCommit decs s.die) := (onWf_wf _ s (decide_eq_true hlen)).trans (onLive_live _ hlive)
    refine ⟨fun hbusy => becomes_congr hnext (opHdmCommit_of_busy hbusy), fun hbusy hfits => becomes_congr hnext (opHdmCommit_of_bad hbusy hfits),
      fun hbusy hfits => ⟨fun hnone => ?_, fun hsome => ?_⟩⟩
    · refine becomes_congr hnext ((opHdmCommit_of_good hbusy hfits).trans ?_)
      rw [hnone]
      rfl
    · refine becomes_congr hnext ((opHdmCommit_of_good hbusy hfits).trans ?_)
      rw [show s.die.otherDies.isEmpty = false from Bool.eq_false_iff.mpr fun h => hsome (List.isEmpty_iff.mp h)]
  · have hnext : becomes (.hdmMirrorReceive head decs) s (opHdmMirrorReceive head decs s.die) := by
      refine (onWf_wf _ s (decide_eq_true hlen)).trans ?_
      rw [onDie_eq, fromDie_live hlive]
    refine ⟨fun x hx hne => becomes_congr hnext ?_, fun hpass => ⟨fun hf => becomes_congr hnext (opManagementMsgReceive_of_newer hpass hf),
      fun hf => becomes_congr hnext (opManagementMsgReceive_of_older hpass hf), fun hf => ?_⟩⟩
    · rw [← hx]
      exact opManagementMsgReceive_of_not_pass (by rw [hx]; exact hne)
    · have hmirror := becomes_congr hnext (opManagementMsgReceive_of_mirror hpass hf rfl)
      refine ⟨fun hlead => becomes_congr hmirror ?_, fun hother => becomes_congr hmirror ?_⟩
      · rw [Die.takeMirror, if_pos (beq_iff_eq.mpr hlead)]
      · rw [Die.takeMirror, if_neg (by rw [beq_iff_eq]; exact hother)]
  · have hnext (w : Option LineData) : becomes (.cxlMemRequest hpa w mask) s (opCxlMemRequest hpa w mask s.die) := onLive_live _ hlive
    refine ⟨fun cause herr => ?_, fun a hhere => ?_⟩
    · exact ⟨becomes_congr (hnext none) (opCxlMemRequest_of_error herr), fun x => becomes_congr (hnext (some x)) (opCxlMemRequest_of_error herr)⟩
    · intro performs
      have hperforms (f : Die) (h : opCxlMemRequest hpa write mask s.die = f.memAccess hpa a write mask) : performs f := by
        cases write with
        | none => exact fun r e hread => becomes_congr (hnext none) (by rw [h, Die.memAccess, hread])
        | some data => exact becomes_congr (hnext (some data)) h
      refine ⟨fun hbias => hperforms _ (opCxlMemRequest_of_device hhere hbias), fun hbias => ⟨fun e hheld => becomes_congr (hnext write) (opCxlMemRequest_of_held hhere hbias hheld),
        fun e f hfree => ⟨fun hcast => becomes_congr (hnext write) (opCxlMemRequest_of_invalidating hhere hbias hfree hcast),
          fun hcast => hperforms f (opCxlMemRequest_of_dropped hhere hbias hfree hcast)⟩⟩⟩
  · have hempty : s.die.host.posted = [] := by
      have h := hreach.2.1
      rwa [Die.hostBehind, Bool.not_eq_false', List.isEmpty_iff] at h
    have hnext : becomes (.bar4Access tlp off n write) s (opBar4Access off n write s.die) := by
      change onDie _ s = _
      rw [onDie_eq, fromHost_reaches hreach]
    refine ⟨fun hlong => becomes_congr hnext (opBar4Access_of_long hlong), fun hlen hout => becomes_congr hnext (opBar4Access_of_outside hlen hout), fun hlen hin => ?_⟩
    have hqueued := becomes_congr hnext (opBar4Access_of_inside hlen hin hempty)
    let e := s.die.barQueued [.bar s.die.host.nextBar off (barLen n write) write none]
    have hstep : e.drainStep = _ := Die.drainStep_bar (id := s.die.host.nextBar) (off := off) (len := barLen n write) (write := write) rfl
    refine ⟨fun hrefresh => becomes_congr hqueued (Die.drainLoop_of_none (hstep.trans (if_pos hrefresh)) 2), fun hrefresh => ?_⟩
    have hstart := Die.drainLoop_two (hstep.trans (if_neg (by rw [show (s.die.barQueued _).bit HBM_STATUS_SELF_REFRESH = _ from hrefresh]; decide)))
    refine ⟨fun hpast => becomes_congr hqueued (hstart.trans ?_), fun hinside => becomes_congr hqueued (hstart.trans ?_)⟩
    · rw [Die.barStart_of_past (d := e) (len := barLen n write) hpast, Die.popPosted_barPast, Die.drainStep_of_empty, Option.getD_none]
      · cases write <;> rfl
      · cases write with
        | none => rfl
        | some bs =>
          change ((s.die.barQueued []).hostErr 3 0 off).host.posted = []
          rw [Die.barQueued, Die.hostErr_onHost]
          rfl
    · rw [Die.barStart_of_inside (d := e) (len := barLen n write) hinside]
      rfl

end Sys2Proof.Machine
end

section
/-! PROOF. Configuration requests, function-level resets and the DOE mailbox (spec 12, R395, R404, R413, R424, R425). -/

namespace Sys2Proof.Machine

/-! ### Configuration requests -/

section
variable {d : Die} {p : PartIx}

theorem opConfigurationRequest_of_boot {r : CfgReq} (h : d.boot.phase = .boot) : opConfigurationRequest p r d = d.emit (.cfg p.val 1) := by
  rw [opConfigurationRequest, h]

theorem opConfigurationRequest_of_dormant {r : CfgReq} (h : d.boot.phase = .dormant) : opConfigurationRequest p r d = d.emit (.cfg p.val 2) := by
  rw [opConfigurationRequest, h]

theorem opConfigurationRequest_of_silent {r : CfgReq} (h : d.boot.phase = .off ∨ d.boot.phase = .orphaned) : opConfigurationRequest p r d = d := by
  rcases h with h | h <;> rw [opConfigurationRequest, h]

/-- A die that answers takes the request to the function, if there is one. -/
theorem opConfigurationRequest_of_answers {r : CfgReq} (h : d.boot.phase = .ready ∨ d.boot.phase = .failed) :
    opConfigurationRequest p r d = if p.val != 0 && !d.host.vfEnable then d else d.configure p r := by
  rcases h with h | h <;> rw [opConfigurationRequest, h]

theorem Die.configure_vfEnable_of_ready {v : Bool} (h : p.val = 0 ∧ d.boot.phase = .ready) :
    d.configure p (.vfEnable v) = d.onHost fun h => { h with vfEnable := v } :=
  if_pos (by rw [h.1, h.2]; rfl)

theorem Die.configure_vfEnable_of_not {v : Bool} (hans : d.boot.phase = .ready ∨ d.boot.phase = .failed) (h : ¬(p.val = 0 ∧ d.boot.phase = .ready)) :
    d.configure p (.vfEnable v) = d := by
  refine if_neg fun hc => h ?_
  obtain ⟨hp, hne⟩ := Bool.and_eq_true _ _ ▸ hc
  exact ⟨eq_of_beq hp, hans.resolve_right (bne_iff_ne.mp hne)⟩

theorem Die.configure_romEnable_of_pf {v : Bool} (h : p.val = 0 ∧ d.dieId = some 0) : d.configure p (.romEnable v) = d.setFn 0 { d.fn p.val with romEnable := v } :=
  if_pos (by rw [h.1, h.2]; rfl)

theorem Die.configure_romEnable_of_not {v : Bool} (h : ¬(p.val = 0 ∧ d.dieId = some 0)) : d.configure p (.romEnable v) = d :=
  if_neg (by rw [Bool.and_eq_true, beq_iff_eq, beq_iff_eq]; exact h)

theorem Die.configure_readRom (off : Nat) : d.configure p (.readRom off)
    = if p.val = 0 ∧ d.dieId = some 0 ∧ (d.fn p.val).romEnable = true ∧ (d.fn p.val).memEnable = true then (d.romRead off).2.emit (.cfgData 0 (d.romRead off).1)
      else d.unsupported p 0 :=
  if_congr (by rw [Bool.and_eq_true, Bool.and_eq_true, Bool.and_eq_true, beq_iff_eq, beq_iff_eq, and_assoc, and_assoc]) rfl rfl

theorem Die.configure_readPackage : d.configure p .readPackage = if p.val = 0 then d.emit (.cfgData 0 (BitVec.ofNat 64 d.dvsec)) else d.emit (.cfg p.val 0) :=
  if_congr beq_iff_eq rfl rfl

end

/-! ### The mailbox -/

section
variable {d : Die} {f : Die → Die}

theorem Die.onDoe_of_silent (h : ¬(d.boot.phase = .ready ∨ d.boot.phase = .failed)) : d.onDoe f = d :=
  if_neg (by rw [Bool.or_eq_true, beq_iff_eq, beq_iff_eq]; exact h)

theorem Die.onDoe_of_answers (h : d.boot.phase = .ready ∨ d.boot.phase = .failed) : d.onDoe f = f d :=
  if_pos (by rw [Bool.or_eq_true, beq_iff_eq, beq_iff_eq]; exact h)

theorem Die.negotiated_of_not (h : d.boot.phase = .ready ∨ d.boot.phase = .failed)
    (hn : ¬(d.host.spdm.version = true ∧ d.host.spdm.caps = true ∧ d.host.spdm.algs = true)) : d.negotiated f = d.emit (.doe (.error 0x04)) :=
  (Die.onDoe_of_answers h).trans (if_neg (by rw [Bool.and_eq_true, Bool.and_eq_true, and_assoc]; exact hn))

theorem Die.negotiated_of_all (h : d.boot.phase = .ready ∨ d.boot.phase = .failed)
    (hn : d.host.spdm.version = true ∧ d.host.spdm.caps = true ∧ d.host.spdm.algs = true) : d.negotiated f = f d :=
  (Die.onDoe_of_answers h).trans (if_pos (by rw [Bool.and_eq_true, Bool.and_eq_true, and_assoc]; exact hn))

end

/-- The measurements that an index asks for. -/
def measured (index : Nat) : List Nat := if index = 0 then [] else if index = 0xFF then [1, 2, 3, 4] else [index]

/-- The answer to GET_MEASUREMENTS once SPDM is negotiated. -/
theorem opGetMeasurements_of_negotiated {d : Die} {index : Nat} {signed : Bool} {nonce : List Byte} (h : d.boot.phase = .ready ∨ d.boot.phase = .failed)
    (hn : d.host.spdm.version = true ∧ d.host.spdm.caps = true ∧ d.host.spdm.algs = true) (hgood : ∀ i ∈ measured index, 1 ≤ i ∧ i ≤ 4) :
    opGetMeasurements index signed nonce d = if signed then
        ({ d with freeCtr := d.freeCtr + 1 } : Die).emit (.doe (.measurements 4 ((measured index).map fun i => (i, d.measure i))
          (some (Config.spdmSignature d.freeCtr (nonce ++ ((measured index).map fun i => (i, d.measure i)).flatMap (·.2))))))
      else d.emit (.doe (.measurements 4 ((measured index).map fun i => (i, d.measure i)) none)) := by
  refine (Die.negotiated_of_all h hn).trans ?_
  simp only [beq_iff_eq]
  refine (if_neg ?_).trans rfl
  rw [List.any_eq_true]
  rintro ⟨i, hi, hbad⟩
  obtain ⟨hlow, hhigh⟩ := hgood i hi
  rw [Bool.or_eq_true, beq_iff_eq, decide_eq_true_eq] at hbad
  omega

theorem opGetMeasurements_of_invalid {d : Die} {index : Nat} {signed : Bool} {nonce : List Byte} (h : d.boot.phase = .ready ∨ d.boot.phase = .failed)
    (hn : d.host.spdm.version = true ∧ d.host.spdm.caps = true ∧ d.host.spdm.algs = true) (hhigh : 4 < index) (hne : index ≠ 0xFF) :
    opGetMeasurements index signed nonce d = d.emit (.doe (.error 0x01)) := by
  refine (Die.negotiated_of_all h hn).trans (if_pos ?_)
  rw [if_neg (by rw [beq_iff_eq]; omega), if_neg (by rw [beq_iff_eq]; exact hne), List.any_cons, List.any_nil, Bool.or_false, Bool.or_eq_true]
  exact Or.inr (decide_eq_true hhigh)

theorem opGetCertificate_of_good {d : Die} {slot off n : Nat} (h : d.boot.phase = .ready ∨ d.boot.phase = .failed)
    (hn : d.host.spdm.version = true ∧ d.host.spdm.caps = true ∧ d.host.spdm.algs = true) (hslot : slot = 0) (hoff : off < Config.certChain.length) :
    opGetCertificate slot off n d = d.emit (.doe (.certificate ((Config.certChain.drop off).take n) (Config.certChain.length - off - n))) := by
  refine (Die.negotiated_of_all h hn).trans (if_neg ?_)
  rw [Bool.or_eq_true, bne_iff_ne, decide_eq_true_eq]
  omega

theorem opGetCertificate_of_bad {d : Die} {slot off n : Nat} (h : d.boot.phase = .ready ∨ d.boot.phase = .failed)
    (hn : d.host.spdm.version = true ∧ d.host.spdm.caps = true ∧ d.host.spdm.algs = true) (hbad : slot ≠ 0 ∨ Config.certChain.length ≤ off) :
    opGetCertificate slot off n d = d.emit (.doe (.error 0x01)) :=
  (Die.negotiated_of_all h hn).trans (if_pos (by rw [Bool.or_eq_true, bne_iff_ne, decide_eq_true_eq]; exact hbad))

/-- The ranges that the CDAT of a die names (R404). -/
def Die.cdatRanges (d : Die) : List Hdm := if d.dieId = some 0 then d.host.hdm.filter fun (h : Hdm) => h.committed else []

theorem opCxlTableAccess_of_answers {d : Die} {index : Nat} (h : d.boot.phase = .ready ∨ d.boot.phase = .failed) : opCxlTableAccess index d
    = match index with
      | 0 => d.emit (.doe (.cdatHeader d.cdatRanges.length))
      | k + 1 => match d.cdatRanges[k]? with
        | some r => d.emit (.doe (.cdatRange r.base r.size 450 400 (430 * r.iw)))
        | none => d.emit (.doe .cdatEnd) := by
  refine (Die.onDoe_of_answers h).trans ?_
  simp only [beq_iff_eq]
  cases index <;> rfl

section
variable {s : State}

theorem becomes_challenge {slot : Nat} {nonce : List Byte} (hlen : nonce.length = 32) : becomes (.challenge slot nonce) s (opChallenge slot nonce s.die) :=
  onWf_wf _ s (beq_iff_eq.mpr hlen)

theorem becomes_getMeasurements {n : Nat} {signed : Bool} {nonce : List Byte} (hlen : nonce.length = if signed then 32 else 0) :
    becomes (.getMeasurements n signed nonce) s (opGetMeasurements n signed nonce s.die) :=
  onWf_wf _ s (beq_iff_eq.mpr hlen)

/-- The mailbox is silent on any other die. -/
theorem becomes_of_silent_mailbox {slot off n : Nat} {signed : Bool} {nonce bs : List Byte} {code : Byte} (h : ¬(s.die.boot.phase = .ready ∨ s.die.boot.phase = .failed))
    (hnonce : nonce.length = 32) (hbs : bs.length = if signed then 32 else 0) :
    becomes .getVersion s s.die ∧ becomes .getCapabilities s s.die ∧ becomes .negotiateAlgorithms s s.die ∧ becomes .getDigests s s.die
      ∧ becomes (.getCertificate slot off n) s s.die ∧ becomes (.challenge slot nonce) s s.die ∧ becomes (.getMeasurements n signed bs) s s.die
      ∧ becomes (.spdmUnsupportedRequest code) s s.die ∧ becomes (.doeDiscovery n) s s.die ∧ becomes (.cxlTableAccess n) s s.die := by
  have hquiet (f : Die → Die) : s.die.onDoe f = s.die := Die.onDoe_of_silent h
  have hshut (f : Die → Die) : s.die.negotiated f = s.die := hquiet _
  have hversion : becomes .getVersion s (opGetVersion s.die) := rfl
  have hcaps : becomes .getCapabilities s (opGetCapabilities s.die) := rfl
  have halgs : becomes .negotiateAlgorithms s (opNegotiateAlgorithms s.die) := rfl
  have hdigests : becomes .getDigests s (opGetDigests s.die) := rfl
  have hcert : becomes (.getCertificate slot off n) s (opGetCertificate slot off n s.die) := rfl
  have hother : becomes (.spdmUnsupportedRequest code) s (opSpdmUnsupportedRequest code s.die) := rfl
  have hdoe : becomes (.doeDiscovery n) s (opDoeDiscovery n s.die) := rfl
  have hcdat : becomes (.cxlTableAccess n) s (opCxlTableAccess n s.die) := rfl
  exact ⟨becomes_congr hversion (hquiet _), becomes_congr hcaps (hquiet _), becomes_congr halgs (hquiet _), becomes_congr hdigests (hshut _),
    becomes_congr hcert (hshut _), becomes_congr (becomes_challenge hnonce) (hshut _), becomes_congr (becomes_getMeasurements hbs) (hshut _),
    becomes_congr hother (hquiet _), becomes_congr hdoe (hquiet _), becomes_congr hcdat (hquiet _)⟩

end

/-- Settles O45. -/
theorem functionsAndMailbox : Obligations.FunctionsAndMailbox := by
  refine ⟨⟨fun s p r => ?_, fun s p v n c hans hfn => ?_, fun s p hlive => ?_⟩, fun s slot off n signed nonce bs code h hnonce hbs => becomes_of_silent_mailbox h hnonce hbs,
    fun s slot off n nonce code hans hlen => ?_⟩
  · have hnext : becomes (.configurationRequest p r) s (opConfigurationRequest p r s.die) := rfl
    refine ⟨fun h => becomes_congr hnext (opConfigurationRequest_of_boot h), fun h => becomes_congr hnext (opConfigurationRequest_of_dormant h),
      fun h => becomes_congr hnext (opConfigurationRequest_of_silent h), fun h hp hvf => becomes_congr hnext ((opConfigurationRequest_of_answers h).trans (if_pos ?_))⟩
    rw [hvf, bne_iff_ne.mpr hp]
    rfl
  · have hcmd (r : CfgReq) : becomes (.configurationRequest p r) s (s.die.configure p r) := by
      refine becomes_congr (show becomes (.configurationRequest p r) s (opConfigurationRequest p r s.die) from rfl) ((opConfigurationRequest_of_answers hans).trans (if_neg ?_))
      rw [Bool.and_eq_true, bne_iff_ne, Bool.not_eq_true']
      exact fun ⟨hp, hvf⟩ => hfn.elim hp fun h => Bool.false_ne_true (hvf.symm.trans h)
    refine ⟨hcmd .read, hcmd .readIds, hcmd .readSubsystem, fun hp => becomes_congr (hcmd .readPackage) (Die.configure_readPackage.trans (if_pos hp)),
      fun hp => becomes_congr (hcmd .readPackage) (Die.configure_readPackage.trans (if_neg hp)), hcmd (.readCapability c), hcmd .readPending, fun hrom w e hread => ?_,
      fun hrom => becomes_congr (hcmd (.readRom n)) ((Die.configure_readRom n).trans (if_neg hrom)), hcmd (.busMaster v), hcmd (.memEnable v), hcmd (.d3hot v),
      hcmd (.msixEnable v), hcmd (.funcMask v), hcmd (.priAlloc n), fun h => becomes_congr (hcmd (.vfEnable v)) (Die.configure_vfEnable_of_ready h),
      fun h => becomes_congr (hcmd (.vfEnable v)) (Die.configure_vfEnable_of_not hans h), fun h => becomes_congr (hcmd (.romEnable v)) (Die.configure_romEnable_of_pf h),
      fun h => becomes_congr (hcmd (.romEnable v)) (Die.configure_romEnable_of_not h)⟩
    refine becomes_congr (hcmd (.readRom n)) ((Die.configure_readRom n).trans ((if_pos hrom).trans ?_))
    rw [hread]
  · have hvf : becomes (.flrVf p) s (opFlrVf p s.die) := onLive_live _ hlive
    exact ⟨fun hp => becomes_congr hvf (if_pos (beq_iff_eq.mpr hp)), fun hp => becomes_congr hvf (if_neg (by rw [beq_iff_eq]; exact hp)), onLive_live _ hlive⟩
  · have hopen (f : Die → Die) : s.die.onDoe f = f s.die := Die.onDoe_of_answers hans
    have hversion : becomes .getVersion s (opGetVersion s.die) := rfl
    have hcaps : becomes .getCapabilities s (opGetCapabilities s.die) := rfl
    have halgs : becomes .negotiateAlgorithms s (opNegotiateAlgorithms s.die) := rfl
    have hdigests : becomes .getDigests s (opGetDigests s.die) := rfl
    have hcert : becomes (.getCertificate slot off n) s (opGetCertificate slot off n s.die) := rfl
    have hother : becomes (.spdmUnsupportedRequest code) s (opSpdmUnsupportedRequest code s.die) := rfl
    have hchallenge := becomes_challenge (s := s) (slot := slot) hlen
    have hdoe (k : Nat) : becomes (.doeDiscovery k) s (opDoeDiscovery k s.die) := rfl
    have hcdat (k : Nat) : becomes (.cxlTableAccess k) s (opCxlTableAccess k s.die) := rfl
    have hplain (k : Nat) : becomes (.getMeasurements k false []) s (opGetMeasurements k false [] s.die) := becomes_getMeasurements rfl
    have hsigned (k : Nat) : becomes (.getMeasurements k true nonce) s (opGetMeasurements k true nonce s.die) := becomes_getMeasurements hlen
    refine ⟨becomes_congr hversion (hopen _), fun h => becomes_congr hcaps ((hopen _).trans (if_pos h)),
      fun h => becomes_congr hcaps ((hopen _).trans (if_neg (by rw [h]; exact Bool.false_ne_true))),
      fun h => becomes_congr halgs ((hopen _).trans (if_pos (by rw [Bool.and_eq_true]; exact h))),
      fun h => becomes_congr halgs ((hopen _).trans (if_neg (by rw [Bool.and_eq_true]; exact h))), fun h => ?_, fun h => ?_, becomes_congr hother (hopen _),
      becomes_congr (hdoe 0) (hopen _), becomes_congr (hdoe 1) (hopen _), becomes_congr (hdoe 2) (hopen _), fun h => becomes_congr (hdoe n) ((hopen _).trans ?_),
      becomes_congr (hcdat 0) (opCxlTableAccess_of_answers hans), fun r hr => becomes_congr (hcdat (n + 1)) ((opCxlTableAccess_of_answers hans).trans ?_),
      fun hr => becomes_congr (hcdat (n + 1)) ((opCxlTableAccess_of_answers hans).trans ?_)⟩
    · have hno (f : Die → Die) : s.die.negotiated f = s.die.emit (.doe (.error 0x04)) := Die.negotiated_of_not hans h
      exact ⟨becomes_congr hdigests (hno _), becomes_congr hcert (hno _), becomes_congr hchallenge (hno _), becomes_congr (hplain n) (hno _),
        becomes_congr (hsigned n) (hno _)⟩
    · have hyes (f : Die → Die) : s.die.negotiated f = f s.die := Die.negotiated_of_all hans h
      have hall (i : Nat) (hi : i ∈ measured 0xFF) : 1 ≤ i ∧ i ≤ 4 := by
        have hi : i ∈ [1, 2, 3, 4] := hi
        fin_cases hi <;> decide
      have hnone (i : Nat) (hi : i ∈ measured 0) : 1 ≤ i ∧ i ≤ 4 := absurd hi List.not_mem_nil
      refine ⟨becomes_congr hdigests (hyes _), fun hslot hoff => becomes_congr hcert (opGetCertificate_of_good hans h hslot hoff),
        fun hbad => becomes_congr hcert (opGetCertificate_of_bad hans h hbad),
        fun hslot => becomes_congr hchallenge ((hyes _).trans (if_neg (by rw [hslot]; decide))),
        fun hslot => becomes_congr hchallenge ((hyes _).trans (if_pos (bne_iff_ne.mpr hslot))),
        becomes_congr (hplain 0) (opGetMeasurements_of_negotiated hans h hnone), becomes_congr (hplain 0xFF) (opGetMeasurements_of_negotiated hans h hall),
        fun hlow hhigh => ?_, becomes_congr (hsigned 0xFF) (opGetMeasurements_of_negotiated hans h hall), ?_,
        fun hhigh hne => ⟨becomes_congr (hplain n) (opGetMeasurements_of_invalid hans h hhigh hne), becomes_congr (hsigned n) (opGetMeasurements_of_invalid hans h hhigh hne)⟩⟩
      · have hone : measured n = [n] := by rw [measured, if_neg (by omega), if_neg (by omega)]
        have hgood (i : Nat) (hi : i ∈ measured n) : 1 ≤ i ∧ i ≤ 4 := by
          rw [hone, List.mem_singleton] at hi
          omega
        have hread (signed : Bool) (x : List Byte) := opGetMeasurements_of_negotiated (signed := signed) (nonce := x) hans h hgood
        rw [hone] at hread
        refine ⟨becomes_congr (hplain n) (hread false []), becomes_congr (hsigned n) ((hread true nonce).trans ?_)⟩
        rw [List.map_singleton, List.flatMap_singleton]
        rfl
      · refine becomes_congr (hsigned 0) ((opGetMeasurements_of_negotiated hans h hnone).trans ?_)
        rw [show measured 0 = [] from rfl, List.map_nil, List.flatMap_nil, List.append_nil]
        rfl
    · obtain ⟨k, rfl⟩ : ∃ k, n = k + 3 := ⟨n - 3, by omega⟩
      rfl
    · dsimp only
      rw [show s.die.cdatRanges[n]? = some r from hr]
    · dsimp only
      rw [show s.die.cdatRanges[n]? = none from hr]

end Sys2Proof.Machine
end

section
/-! PROOF. Package ports, their routes and their credits (spec 13, R27, R427 to R430, R450). -/

namespace Sys2Proof.Machine

/-! ### Links come up and go down -/

section
variable {d : Die} {n : PortIx} {modules : BitVec 4}

theorem Die.chainFails_of_bad (h : d.boot.chainBad = true) : d.chainFails n = d := if_pos h

theorem opPeerLinkTrain_of_unjoined (h : d.boot.chainBad = true ∨ d.dieId = none) : opPeerLinkTrain n modules d = d.chainFails n :=
  if_pos (by rw [Bool.or_eq_true, Option.isNone_iff_eq_none]; exact h)

/-- A link that trains again goes down first (R430). -/
def Die.linkCleared (d : Die) (n : PortIx) : Die := if d.portUp (.peer n) then d.peerDown n else d

theorem opPeerLinkTrain_of_joined (hgood : d.boot.chainBad = false) (hid : d.dieId ≠ none) : opPeerLinkTrain n modules d
    = if modules = 0 then ((d.linkCleared n).put (PEER_STATE_STATE n.val) 0).put (PEER_STATE_MODULES_UP n.val) 0
      else
        let e := ((d.linkCleared n).put (PEER_STATE_STATE n.val) 1).put (PEER_STATE_MODULES_UP n.val) modules.toNat
        let f := if modules = 15 then e else e.peerEvent n 2 .corrected
        f.emit (.hello (.peer n) f.epoch f.here pools) := by
  refine (if_neg ?_).trans ?_
  · rw [hgood, Bool.or_eq_true, Option.isNone_iff_eq_none]
    exact not_or.mpr ⟨Bool.false_ne_true, hid⟩
  · simp only [beq_iff_eq]
    rfl

/-- The partner's hello does not fit the package (R427). -/
def Die.helloWrong (d : Die) (n : PortIx) (h : Hello) : Prop :=
  h.place.pkg ≠ d.here.pkg ∨ h.place.die = d.here.die ∨ ∃ m, m ≠ n ∧ d.portUp (.peer m) = true ∧ d.get (PEER_STATE_PARTNER_DIE m.val) = h.place.die.val

theorem Die.helloWrong_iff {h : Hello} : (h.place.pkg != d.here.pkg || h.place.die == d.here.die
    || (List.finRange 4).any fun m => m != n && d.portUp (.peer m) && d.get (PEER_STATE_PARTNER_DIE m.val) == h.place.die.val) = true ↔ d.helloWrong n h := by
  rw [Bool.or_eq_true, Bool.or_eq_true, bne_iff_ne, beq_iff_eq, List.any_eq_true, or_assoc]
  refine or_congr_right (or_congr_right (exists_congr fun m => ?_))
  rw [Bool.and_eq_true, Bool.and_eq_true, bne_iff_ne, beq_iff_eq, and_assoc]
  exact and_iff_right (List.mem_finRange m)

theorem Die.peerHello_of_untrained {h : Hello} (hs : d.get (PEER_STATE_STATE n.val) ≠ 1) : d.peerHello n h = d := if_pos (bne_iff_ne.mpr hs)

/-- The port holds what it knows of the die that said hello. -/
def Die.partnered (d : Die) (n : PortIx) (h : Hello) : Die := (d.put (PEER_STATE_PARTNER_DIE n.val) h.place.die.val).put (PEER_STATE_PARTNER_PORT n.val) h.port.val

variable (htrained : d.get (PEER_STATE_STATE n.val) = 1)
include htrained

theorem Die.peerHello_of_wrong {h : Hello} (hw : (d.partnered n h).helloWrong n h) :
    d.peerHello n h = ((d.partnered n h).put (PEER_STATE_STATE n.val) 3).peerEvent n 1 .contained :=
  (if_neg (by rw [bne_iff_ne]; exact not_not_intro htrained)).trans (if_pos (Die.helloWrong_iff.mpr hw))

theorem Die.peerHello_of_right {h : Hello} (hw : ¬(d.partnered n h).helloWrong n h) : d.peerHello n h
    = let p : PeerPort := { hello := some h, credits := { held := h.pools, pool := h.pools, freed := List.replicate 10 0 } }
      let f := (((d.partnered n h).put (PEER_STATE_STATE n.val) 2).setPeer n p).fillRoutes
      f.sendLists f.here.die f.ownLinks none :=
  (if_neg (by rw [bne_iff_ne]; exact not_not_intro htrained)).trans (if_neg (mt Die.helloWrong_iff.mp hw))

end

section
variable {d : Die} {n : PortIx}

theorem opLinkHelloReceive_of_idle {o : OptIx} {h : Hello} (hs : d.optState o = 0 ∨ d.optState o = 5) : opLinkHelloReceive (.opt o) h d = d :=
  if_pos (by rw [Bool.or_eq_true, beq_iff_eq, beq_iff_eq]; exact hs)

theorem opLinkHelloReceive_of_trained {o : OptIx} {h : Hello} (hs : ¬(d.optState o = 0 ∨ d.optState o = 5)) : opLinkHelloReceive (.opt o) h d
    = d.setOpt o { d.optPort o with hello := some h, credits := { held := h.pools, pool := h.pools, freed := List.replicate 10 0 } } :=
  if_neg (by rw [Bool.or_eq_true, beq_iff_eq, beq_iff_eq]; exact hs)

/-- The modules of a port that are left when one is lost. -/
def Die.modulesLeft (d : Die) (n : PortIx) (i : Fin 4) : BitVec 4 := setMask (BitVec.ofNat 4 (d.get (PEER_STATE_MODULES_UP n.val))) i.val false

theorem opPeerModuleLoss_of_down {i : Fin 4} (h : (BitVec.ofNat 4 (d.get (PEER_STATE_MODULES_UP n.val))).getLsbD i.val = false) : opPeerModuleLoss n i d = d :=
  if_neg (by rw [maskBit, h]; exact Bool.false_ne_true)

theorem opPeerModuleLoss_of_up {i : Fin 4} (h : (BitVec.ofNat 4 (d.get (PEER_STATE_MODULES_UP n.val))).getLsbD i.val = true) : opPeerModuleLoss n i d
    = let e := (d.put (PEER_STATE_MODULES_UP n.val) (d.modulesLeft n i).toNat).peerEvent n 2 .corrected
      if d.modulesLeft n i = 0 ∧ e.portUp (.peer n) = true then e.peerDown n else e :=
  (if_pos h).trans (if_congr (by rw [Bool.and_eq_true, beq_iff_eq]; rfl) rfl rfl)

variable {die : DieIx} {links : List (DieIx × PortIx × Bool)}

theorem opLinkListReceive_of_known (h : die = d.here.die ∨ d.partnersOf die.val = (links.filter fun l => l.2.2).map (·.1)) : opLinkListReceive n die links d = d :=
  if_pos (by rw [Bool.or_eq_true, beq_iff_eq, beq_iff_eq]; exact h)

/-- What a link list says is kept. -/
def Die.listed (d : Die) (die : DieIx) (links : List (DieIx × PortIx × Bool)) : Die :=
  d.onPorts fun u => { u with lists := tblPut (fun _ => ([] : List DieIx)) u.lists die.val ((links.filter fun l => l.2.2).map (·.1)) }

theorem opLinkListReceive_of_news (h : ¬(die = d.here.die ∨ d.partnersOf die.val = (links.filter fun l => l.2.2).map (·.1))) : opLinkListReceive n die links d
    = (if d.tick.runs then (d.listed die links).onPorts fun u => { u with newRoute := true } else (d.listed die links).fillRoutes).sendLists die links (some n) :=
  if_neg (by rw [Bool.or_eq_true, beq_iff_eq, beq_iff_eq]; exact h)

end

/-! ### Routes -/

/-- The order that chooses a first hop: fewest hops, then lowest partner, then lowest port (R429). -/
theorem better_iff (a b : Nat × Nat × Nat) : better a b = true ↔ a.1 < b.1 ∨ a.1 = b.1 ∧ (a.2.1 < b.2.1 ∨ a.2.1 = b.2.1 ∧ a.2.2 < b.2.2) := by
  simp only [better, Bool.or_eq_true, Bool.and_eq_true, decide_eq_true_eq, beq_iff_eq]

/-- The fold over the candidates ends with one of them that none is better than. -/
theorem foldl_better_spec (c : Nat × Nat × Nat) (cs : List (Nat × Nat × Nat)) :
    cs.foldl (fun m x => if better x m then x else m) c ∈ c :: cs ∧ ∀ x ∈ c :: cs, ¬better x (cs.foldl (fun m x => if better x m then x else m) c) = true := by
  induction cs generalizing c with
  | nil =>
    refine ⟨List.mem_singleton_self _, fun x hx hb => ?_⟩
    rw [List.mem_singleton] at hx
    rw [hx, List.foldl_nil, better_iff] at hb
    omega
  | cons y ys ih =>
    obtain ⟨hmem, hbest⟩ := ih (if better y c then y else c)
    rw [List.foldl_cons]
    generalize hm : List.foldl (fun m x => if better x m then x else m) (if better y c then y else c) ys = m at hmem hbest
    have hfirst := hbest _ List.mem_cons_self
    rw [better_iff] at hfirst
    by_cases hyc : better y c = true
    · rw [if_pos hyc] at hmem hbest hfirst
      rw [better_iff] at hyc
      refine ⟨List.mem_cons_of_mem _ hmem, fun x hx => ?_⟩
      rcases List.mem_cons.mp hx with rfl | hx
      · rw [better_iff]
        omega
      · exact hbest x hx
    · rw [if_neg hyc] at hmem hbest hfirst
      rw [better_iff] at hyc
      refine ⟨?_, fun x hx => ?_⟩
      · rcases List.mem_cons.mp hmem with hmem | hmem
        · exact hmem ▸ List.mem_cons_self
        · exact List.mem_cons_of_mem _ (List.mem_cons_of_mem _ hmem)
      · rcases List.mem_cons.mp hx with rfl | hx
        · exact hbest x List.mem_cons_self
        · rcases List.mem_cons.mp hx with rfl | hx
          · rw [better_iff]
            omega
          · exact hbest x (List.mem_cons_of_mem _ hx)

/-- The die behind a port. -/
def Die.partnerDie (d : Die) (n : PortIx) : DieIx := ⟨d.get (PEER_STATE_PARTNER_DIE n.val) % 8, Nat.mod_lt _ (by decide)⟩

/-- A port as a first hop towards a die: its hops, its partner and its number; none where it leads nowhere. -/
def Die.firstHop (d : Die) (dst : DieIx) (n : PortIx) : Option (Nat × Nat × Nat) :=
  if d.portUp (.peer n) then if d.hops (d.partnerDie n) dst < 8 then some (d.hops (d.partnerDie n) dst, (d.partnerDie n).val, n.val) else none else none

def Die.firstHops (d : Die) (dst : DieIx) : List (Nat × Nat × Nat) := (List.finRange 4).filterMap (d.firstHop dst)

theorem Die.routeEntry_eq (d : Die) (dst : DieIx) : d.routeEntry dst
    = match d.firstHops dst with | [] => 0 | c :: cs => 4 + (cs.foldl (fun m x => if better x m then x else m) c).2.2 := rfl

theorem Die.mem_firstHops {d : Die} {dst : DieIx} {x : Nat × Nat × Nat} : x ∈ d.firstHops dst
    ↔ ∃ n, d.portUp (.peer n) = true ∧ d.hops (d.partnerDie n) dst < 8 ∧ x = (d.hops (d.partnerDie n) dst, (d.partnerDie n).val, n.val) := by
  rw [Die.firstHops, List.mem_filterMap]
  refine exists_congr fun n => ?_
  rw [and_iff_right (List.mem_finRange n), Die.firstHop]
  by_cases hup : d.portUp (.peer n) = true
  · rw [if_pos hup, and_iff_right hup]
    by_cases hnear : d.hops (d.partnerDie n) dst < 8
    · rw [if_pos hnear, and_iff_right hnear, Option.some_inj, eq_comm]
    · rw [if_neg hnear]
      exact ⟨fun h => absurd h (by simp), fun h => absurd h.1 hnear⟩
  · rw [if_neg hup]
    exact ⟨fun h => absurd h (by simp), fun h => absurd h.1 hup⟩

/-- A die that some port leads to has a valid entry, which no port betters. -/
theorem Die.routeEntry_of_reachable {d : Die} {dst : DieIx} {n : PortIx} (hup : d.portUp (.peer n) = true) (hnear : d.hops (d.partnerDie n) dst < 8) :
    ∃ m : PortIx, d.routeEntry dst = 4 + m.val ∧ d.portUp (.peer m) = true ∧ d.hops (d.partnerDie m) dst ≤ d.hops (d.partnerDie n) dst
      ∧ (d.hops (d.partnerDie m) dst = d.hops (d.partnerDie n) dst → (d.partnerDie m).val ≤ (d.partnerDie n).val) := by
  have hn := Die.mem_firstHops.mpr ⟨n, hup, hnear, rfl⟩
  rw [Die.routeEntry_eq]
  cases hl : d.firstHops dst with
  | nil => rw [hl] at hn; exact absurd hn List.not_mem_nil
  | cons c cs =>
    obtain ⟨hmem, hbest⟩ := foldl_better_spec c cs
    rw [← hl] at hmem hbest
    have hnot := hbest _ hn
    obtain ⟨m, hm, _, heq⟩ := Die.mem_firstHops.mp hmem
    rw [heq, better_iff] at hnot
    dsimp only
    rw [heq]
    refine ⟨m, rfl, hm, ?_⟩
    dsimp only at hnot
    omega

/-- A die that no port leads to has none. -/
theorem Die.routeEntry_of_unreachable {d : Die} {dst : DieIx} (h : ∀ n, d.portUp (.peer n) = true → 8 ≤ d.hops (d.partnerDie n) dst) : d.routeEntry dst = 0 := by
  have hnil : d.firstHops dst = [] := List.eq_nil_iff_forall_not_mem.mpr fun x hx => by
    obtain ⟨n, hup, hnear, _⟩ := Die.mem_firstHops.mp hx
    exact absurd (h n hup) (not_le.mpr hnear)
  rw [Die.routeEntry_eq, hnil]

/-! ### Credits -/

section
variable {d : Die} {port : LinkPort}

theorem Die.giveUnits_of_fits {cls n : Nat} (h : (d.credits port).held.getD cls 0 + n ≤ (d.credits port).pool.getD cls 0) : d.giveUnits port cls n
    = d.setCredits { d.credits port with held := (d.credits port).held.set cls ((d.credits port).held.getD cls 0 + n) } port := if_pos h

theorem Die.giveUnits_of_over {cls n : Nat} (h : (d.credits port).pool.getD cls 0 < (d.credits port).held.getD cls 0 + n) : d.giveUnits port cls n = d.count (GATE_DROP_COUNT 0) 1 :=
  if_neg (not_le.mpr h)

theorem Die.mayLeave_of_few {part : Nat} {m : FabMsg} (h : (d.credits port).held.getD m.cls 0 < units (msgBytes m)) : d.mayLeave port part m = false := by
  have hno : decide (units (msgBytes m) ≤ (d.credits port).held.getD m.cls 0) = false := decide_eq_false (not_le.mpr h)
  unfold Die.mayLeave
  rw [hno, Bool.and_false]
  simp only [Bool.false_and]

/-- Messages of its port, partition and class wait in front of it. -/
def Die.behind (d : Die) (port : LinkPort) (part : Nat) (m : FabMsg) : Prop := ∃ q ∈ d.ports.outq, q.1 = port ∧ q.2.1 = part ∧ q.2.2.cls = m.cls

theorem Die.behind_iff {part : Nat} {m : FabMsg} : (d.ports.outq.any fun q => q.1 == port && q.2.1 == part && q.2.2.cls == m.cls) = true ↔ d.behind port part m := by
  rw [List.any_eq_true]
  refine exists_congr fun q => and_congr_right fun _ => ?_
  rw [Bool.and_eq_true, Bool.and_eq_true, beq_iff_eq, beq_iff_eq, beq_iff_eq, and_assoc]

theorem Die.post_of_front {part : Nat} {m : FabMsg} (hb : ¬d.behind port part m) (h : d.mayLeave port part m = true) : d.post port part m = d.leave port part m :=
  if_pos (by rw [Bool.and_eq_true, Bool.not_eq_true', Bool.eq_false_iff]; exact ⟨mt Die.behind_iff.mp hb, h⟩)

theorem Die.post_of_wait {part : Nat} {m : FabMsg} (h : d.behind port part m ∨ d.mayLeave port part m = false) :
    d.post port part m = d.onPorts fun u => { u with outq := u.outq ++ [(port, part, m)] } := by
  refine if_neg fun hc => ?_
  obtain ⟨hfront, hmay⟩ := Bool.and_eq_true _ _ ▸ hc
  rcases h with h | h
  · rw [Die.behind_iff.mpr h] at hfront
    exact Bool.false_ne_true hfront
  · exact Bool.false_ne_true (h.symm.trans hmay)

end

/-- Settles O46. -/
theorem peerLinks : Obligations.PeerLinks := by
  refine ⟨fun s n modules h hlive hlen => ?_, fun s n i die links kind hlive hlen => ?_,
    fun d dst n hup => ⟨Die.routeEntry_of_reachable hup, Die.routeEntry_of_unreachable⟩, fun s port units hlive hlen => ?_,
    fun d port cls n => ⟨Die.giveUnits_of_fits, Die.giveUnits_of_over⟩, fun d port part m => ⟨Die.mayLeave_of_few, Die.post_of_front, Die.post_of_wait⟩⟩
  · have htrain : becomes (.peerLinkTrain n modules) s (opPeerLinkTrain n modules s.die) := onPortsLive_ports _ hlive
    have hhello (port : LinkPort) : becomes (.linkHelloReceive port h) s (opLinkHelloReceive port h s.die) :=
      (onWf_wf _ s (beq_iff_eq.mpr hlen)).trans (onPortsLive_ports _ hlive)
    refine ⟨fun hbad => becomes_congr htrain ((opPeerLinkTrain_of_unjoined (.inl hbad)).trans (Die.chainFails_of_bad hbad)),
      fun _ hid => becomes_congr htrain (opPeerLinkTrain_of_unjoined (.inr hid)), fun hgood hid => ?_,
      fun hs => becomes_congr (hhello (.peer n)) (Die.peerHello_of_untrained hs),
      fun hs => ⟨fun hw => becomes_congr (hhello (.peer n)) (Die.peerHello_of_wrong hs hw), fun hw => becomes_congr (hhello (.peer n)) (Die.peerHello_of_right hs hw)⟩,
      fun o => ⟨fun hs => becomes_congr (hhello (.opt o)) (opLinkHelloReceive_of_idle hs), fun hs => becomes_congr (hhello (.opt o)) (opLinkHelloReceive_of_trained hs)⟩⟩
    have hjoined := becomes_congr htrain (opPeerLinkTrain_of_joined hgood hid)
    refine ⟨fun h0 => becomes_congr hjoined (if_pos h0), fun h15 => becomes_congr hjoined ?_, fun h0 h15 => becomes_congr hjoined ((if_neg h0).trans ?_)⟩
    · refine (if_neg (by rw [h15]; decide)).trans ?_
      dsimp only
      rw [if_pos h15] <;> rfl
    · dsimp only
      rw [if_neg h15] <;> rfl
  · have hdown : becomes (.peerLinkDown n) s (opPeerLinkDown n s.die) := onPortsLive_ports _ hlive
    have hloss : becomes (.peerModuleLoss n i) s (opPeerModuleLoss n i s.die) := onPortsLive_ports _ hlive
    have hlist : becomes (.linkListReceive n die links) s (opLinkListReceive n die links s.die) :=
      (onWf_wf _ s (decide_eq_true hlen)).trans (onPortsLive_ports _ hlive)
    have hretry (p : Option PortIx) : becomes (.linkLevelRetry p kind) s (opLinkLevelRetry p kind s.die) := onPortsLive_ports _ hlive
    refine ⟨fun hup => becomes_congr hdown (if_pos hup), fun hup => becomes_congr hdown (if_neg (by rw [hup]; exact Bool.false_ne_true)),
      ⟨fun hm => becomes_congr hloss (opPeerModuleLoss_of_down hm), fun hm => ⟨fun hc => ?_, fun hc => ?_⟩⟩,
      ⟨fun hk => becomes_congr hlist (opLinkListReceive_of_known hk), fun hk => ⟨fun hr => ?_, fun hr => ?_⟩⟩, hretry none, fun hk => ?_, fun hk => ?_⟩
    · exact becomes_congr hloss ((opPeerModuleLoss_of_up hm).trans (if_pos hc))
    · exact becomes_congr hloss ((opPeerModuleLoss_of_up hm).trans (if_neg hc))
    · refine becomes_congr hlist ((opLinkListReceive_of_news hk).trans ?_)
      rw [if_pos hr] <;> rfl
    · refine becomes_congr hlist ((opLinkListReceive_of_news hk).trans ?_)
      rw [if_neg (by rw [hr]; exact Bool.false_ne_true)] <;> rfl
    · exact becomes_congr (hretry (some n)) (congrArg (fun e : Die => (e.markRetry (.peer n)).peerEvent n 0 .corrected) (if_pos (beq_iff_eq.mpr hk)))
    · exact becomes_congr (hretry (some n)) (congrArg (fun e : Die => (e.markRetry (.peer n)).peerEvent n 0 .corrected) (if_neg (by rw [beq_iff_eq]; exact hk)))
  · have hreturn : becomes (.creditReturnTimer port) s (opCreditReturnTimer port s.die) := onLive_live _ hlive
    refine ⟨becomes_congr ((onWf_wf _ s (beq_iff_eq.mpr hlen)).trans (onLive_live _ hlive)) ?_, fun h => becomes_congr hreturn (if_pos h),
      fun h => becomes_congr hreturn (if_neg (by rw [h]; exact Bool.false_ne_true))⟩
    rw [opCreditReceive]
    simp only [beq_iff_eq]

end Sys2Proof.Machine
end

section
/-! PROOF. Window messages, answers, error reports and management messages (spec 13, R440, R441, R444, R458; R71). -/

namespace Sys2Proof.Machine

/-! ### Admission of a message that may have to wait -/

section
variable {d : Die} {h : MsgHead} {cls bytes : Nat} {go : Die → Took}

theorem Die.admittedOr_of_not_pass (hpass : d.portCheck h cls none ≠ .pass) :
    d.admittedOr h cls bytes go = (false, (d.notPassed h cls (d.portCheck h cls none)).freeUnits h.port cls bytes) := by
  rw [Die.admittedOr]
  cases hx : d.portCheck h cls none with
  | pass => exact absurd hx hpass
  | drop => rfl
  | refuse st => rfl

variable (hpass : d.portCheck h cls none = .pass)
include hpass

theorem Die.admittedOr_of_newer (hf : d.fenceOf h.epoch = .newer) : d.admittedOr h cls bytes go = (true, d) := by
  rw [Die.admittedOr, hpass]
  dsimp only
  rw [hf]

theorem Die.admittedOr_of_older (hf : d.fenceOf h.epoch = .older) :
    d.admittedOr h cls bytes go = (false, ((d.winRefused h cls 2).rejectOld h true).freeUnits h.port cls bytes) := by
  rw [Die.admittedOr, hpass]
  dsimp only
  rw [hf]

variable (hf : d.fenceOf h.epoch = .same)
include hf

theorem Die.admittedOr_of_done {e : Die} (hgo : go d = .done e) : d.admittedOr h cls bytes go = (false, e.freeUnits h.port cls bytes) := by
  rw [Die.admittedOr, hpass]
  dsimp only
  rw [hf]
  dsimp only
  rw [hgo]

theorem Die.admittedOr_of_hold {e : Die} (hgo : go d = .hold e) : d.admittedOr h cls bytes go = (true, e) := by
  rw [Die.admittedOr, hpass]
  dsimp only
  rw [hf]
  dsimp only
  rw [hgo]

end

/-! ### Writes -/

/-- The header that a window write is judged by. -/
def writeSeen (m : WinWrite) : MsgHead := judged m.head (.winWrite m)

/-- The write stays at its port and holds the later ones of its source (R277). -/
def Die.writeKept (d : Die) (m : WinWrite) : Die :=
  d.onPorts fun u => { u with held := if u.held.contains (m.head.port, m.head.src, m.head.tag) then u.held else u.held ++ [(m.head.port, m.head.src, m.head.tag)] }

/-- The write has left its port. -/
def Die.writeGone (d : Die) (m : WinWrite) : Die :=
  (d.freeUnits (writeSeen m).port 2 (msgBytes (.winWrite m))).onPorts fun u => { u with held := u.held.erase (m.head.port, m.head.src, m.head.tag) }

/-- What becomes of a write that its port and its epoch let pass. -/
def Die.tryWrite (d : Die) (m : WinWrite) : Took :=
  if d.heldBefore m.head then .hold d else if m.aperture then d.winSignal m else d.winAccess m.head m.offset m.data.length 1 (some m.data)

theorem opWindowWrite_eq (m : WinWrite) (d : Die) : opWindowWrite m d = match d.admittedOr (writeSeen m) 2 (msgBytes (.winWrite m)) (fun d => d.tryWrite m) with
    | (true, e) => e.writeKept m
    | (false, e) => e.onPorts fun u => { u with held := u.held.erase (m.head.port, m.head.src, m.head.tag) } := rfl

section
variable {d : Die} {m : WinWrite}

theorem opWindowWrite_of_not_pass (h : d.portCheck (writeSeen m) 2 none ≠ .pass) :
    opWindowWrite m d = (d.notPassed (writeSeen m) 2 (d.portCheck (writeSeen m) 2 none)).writeGone m := by
  rw [opWindowWrite_eq, Die.admittedOr_of_not_pass h] <;> rfl

variable (hpass : d.portCheck (writeSeen m) 2 none = .pass)
include hpass

theorem opWindowWrite_of_newer (h : d.fenceOf (writeSeen m).epoch = .newer) : opWindowWrite m d = d.writeKept m := by
  rw [opWindowWrite_eq, Die.admittedOr_of_newer hpass h]

theorem opWindowWrite_of_older (h : d.fenceOf (writeSeen m).epoch = .older) :
    opWindowWrite m d = ((d.winRefused (writeSeen m) 2 2).rejectOld (writeSeen m) true).writeGone m := by
  rw [opWindowWrite_eq, Die.admittedOr_of_older hpass h] <;> rfl

variable (hsame : d.fenceOf (writeSeen m).epoch = .same)
include hsame

theorem opWindowWrite_of_done {e : Die} (h : d.tryWrite m = .done e) : opWindowWrite m d = e.writeGone m := by
  rw [opWindowWrite_eq, Die.admittedOr_of_done hpass hsame h] <;> rfl

theorem opWindowWrite_of_hold {e : Die} (h : d.tryWrite m = .hold e) : opWindowWrite m d = e.writeKept m := by
  rw [opWindowWrite_eq, Die.admittedOr_of_hold hpass hsame h]

end

/-! ### Reads -/

/-- The header that a window read is judged by. -/
def readSeen (m : WinRead) : MsgHead := judged m.head (.winRead m)

/-- What becomes of a read that its port and its epoch let pass. -/
def Die.tryRead (d : Die) (m : WinRead) : Took :=
  if decide (256 ≤ d.readsWaiting m.head.port) then .hold d
  else if m.aperture then
    (match d.winOpen m.head with
     | .error check => d.outOfWindow m.head check
     | .ok w => d.outOfWindow m.head (if w.right 3 then 6 else 5))
  else d.winAccess m.head m.offset m.n 0 none

theorem opWindowRead_eq (m : WinRead) (d : Die) : opWindowRead m d = (d.admittedOr (readSeen m) 3 24 fun d => d.tryRead m).2 := rfl

section
variable {d : Die} {m : WinRead}

theorem opWindowRead_of_not_pass (h : d.portCheck (readSeen m) 3 none ≠ .pass) :
    opWindowRead m d = (d.notPassed (readSeen m) 3 (d.portCheck (readSeen m) 3 none)).freeUnits (readSeen m).port 3 24 := by
  rw [opWindowRead_eq, Die.admittedOr_of_not_pass h]

variable (hpass : d.portCheck (readSeen m) 3 none = .pass)
include hpass

theorem opWindowRead_of_newer (h : d.fenceOf (readSeen m).epoch = .newer) : opWindowRead m d = d := by
  rw [opWindowRead_eq, Die.admittedOr_of_newer hpass h]

theorem opWindowRead_of_older (h : d.fenceOf (readSeen m).epoch = .older) :
    opWindowRead m d = ((d.winRefused (readSeen m) 3 2).rejectOld (readSeen m) true).freeUnits (readSeen m).port 3 24 := by
  rw [opWindowRead_eq, Die.admittedOr_of_older hpass h]

variable (hsame : d.fenceOf (readSeen m).epoch = .same)
include hsame

theorem opWindowRead_of_done {e : Die} (h : d.tryRead m = .done e) : opWindowRead m d = e.freeUnits (readSeen m).port 3 24 := by
  rw [opWindowRead_eq, Die.admittedOr_of_done hpass hsame h]

theorem opWindowRead_of_hold {e : Die} (h : d.tryRead m = .hold e) : opWindowRead m d = e := by
  rw [opWindowRead_eq, Die.admittedOr_of_hold hpass hsame h]

end

section
variable {d : Die} {m : WinRead}

theorem Die.tryRead_of_full (h : 256 ≤ d.readsWaiting m.head.port) : d.tryRead m = .hold d := if_pos (decide_eq_true h)

variable (hroom : d.readsWaiting m.head.port < 256)
include hroom

theorem Die.tryRead_of_memory (h : m.aperture = false) : d.tryRead m = d.winAccess m.head m.offset m.n 0 none :=
  (if_neg (by rw [decide_eq_true_eq]; exact not_le.mpr hroom)).trans (if_neg (by rw [h]; exact Bool.false_ne_true))

theorem Die.tryRead_of_closed (h : m.aperture = true) {check : Nat} (hopen : d.winOpen m.head = .error check) : d.tryRead m = d.outOfWindow m.head check := by
  refine (if_neg (by rw [decide_eq_true_eq]; exact not_le.mpr hroom)).trans ((if_pos h).trans ?_)
  rw [hopen]

theorem Die.tryRead_of_open (h : m.aperture = true) {w : Window} (hopen : d.winOpen m.head = .ok w) :
    d.tryRead m = d.outOfWindow m.head (if w.right 3 then 6 else 5) := by
  refine (if_neg (by rw [decide_eq_true_eq]; exact not_le.mpr hroom)).trans ((if_pos h).trans ?_)
  rw [hopen]

end

/-! ### The checks of an access -/

section
variable {d : Die} {h : MsgHead}

theorem Die.winOpen_of_unnamed (hw : h.window = none) : d.winOpen h = .error 3 := by
  rw [Die.winOpen, hw]

section
variable {i : WinIx} (hw : h.window = some i)
include hw

theorem Die.winOpen_of_shut (hx : d.window? i = none) : d.winOpen h = .error 3 := by
  rw [Die.winOpen, hw]
  dsimp only
  rw [hx]

theorem Die.winOpen_of_window {w : Window} (hx : d.window? i = some w) :
    d.winOpen h = if h.src.pkg = w.srcPkg ∧ maskBit w.srcDies h.src.die.val = true then .ok w else .error 4 := by
  rw [Die.winOpen, hw]
  dsimp only
  rw [hx]
  exact if_congr (by rw [Bool.and_eq_true, beq_iff_eq]) rfl rfl

end

variable {offset n right : Nat} {write : Option (List Byte)}

theorem Die.winAccess_of_closed {check : Nat} (hopen : d.winOpen h = .error check) : d.winAccess h offset n right write = d.outOfWindow h check := by
  rw [Die.winAccess, hopen]

variable {w : Window} (hopen : d.winOpen h = .ok w)
include hopen

theorem Die.winAccess_of_no_right (hright : w.right right = false) : d.winAccess h offset n right write = d.outOfWindow h 5 := by
  rw [Die.winAccess, hopen]
  exact if_pos (by rw [hright]; rfl)

variable (hright : w.right right = true)
include hright

theorem Die.winAccess_of_beyond (hout : w.bytes < offset + n) : d.winAccess h offset n right write = d.outOfWindow h 6 := by
  rw [Die.winAccess, hopen]
  exact (if_neg (by rw [hright]; decide)).trans (if_pos (decide_eq_true hout))

/-- The pages of an access of a window. -/
def Die.accessPages (d : Die) (w : Window) (offset n : Nat) (write : Option (List Byte)) : Except WinPage (List WinPiece) × Die :=
  Die.winPages w.part write.isSome (linePieces (w.base + offset) n) [] d

variable (hin : offset + n ≤ w.bytes)
include hin

theorem Die.winAccess_of_bad {e : Die} (hp : d.accessPages w offset n write = (.error .bad, e)) : d.winAccess h offset n right write = e.outOfWindow h 7 := by
  rw [Die.winAccess, hopen]
  refine (if_neg (by rw [hright]; decide)).trans ((if_neg (by rw [decide_eq_true_eq]; exact not_lt.mpr hin)).trans ?_)
  rw [show Die.winPages w.part write.isSome (linePieces (w.base + offset) n) [] d = _ from hp] <;> rfl

theorem Die.winAccess_of_wait {e : Die} (hp : d.accessPages w offset n write = (.error .wait, e)) : d.winAccess h offset n right write = .hold e := by
  rw [Die.winAccess, hopen]
  refine (if_neg (by rw [hright]; decide)).trans ((if_neg (by rw [decide_eq_true_eq]; exact not_lt.mpr hin)).trans ?_)
  rw [show Die.winPages w.part write.isSome (linePieces (w.base + offset) n) [] d = _ from hp] <;> rfl

theorem Die.winAccess_of_ecc {e : Die} (hp : d.accessPages w offset n write = (.error .ecc, e)) :
    d.winAccess h offset n right write = .done ((e.raise 6 .contained (detail (portStop h.port).val 2 w.part)).respondAs w.part h .eccUncorrectable []) := by
  rw [Die.winAccess, hopen]
  refine (if_neg (by rw [hright]; decide)).trans ((if_neg (by rw [decide_eq_true_eq]; exact not_lt.mpr hin)).trans ?_)
  rw [show Die.winPages w.part write.isSome (linePieces (w.base + offset) n) [] d = _ from hp] <;> rfl

/-- The requests of an access wait: the memory is in self-refresh, or a write to shared memory waits at its stop. -/
def Die.requestsWait (d : Die) (rs : List HomeReq) : Prop :=
  d.bit HBM_STATUS_SELF_REFRESH = true ∨ ∃ r ∈ rs, r.space = .shr ∧ r.writes = true ∧ d.shrHeld (fun q => q.stop == r.stop) r = true

/-- The requests of an access whose pages are known. -/
def Die.accessRequests (d : Die) (h : MsgHead) (w : Window) (write : Option (List Byte)) (ps : List WinPiece) : List HomeReq :=
  winRequests h.port w.part d.ports.nextWin write (splitPair w ps)

theorem Die.winAccess_of_pages {e : Die} {ps : List WinPiece} (hp : d.accessPages w offset n write = (.ok ps, e)) :
    (e.requestsWait (e.accessRequests h w write ps) → d.winAccess h offset n right write = .hold e)
    ∧ (¬e.requestsWait (e.accessRequests h w write ps) → d.winAccess h offset n right write =
        .done (((e.charge w.part 1 n).onPorts fun u => { u with nextWin := e.ports.nextWin + 1, winOps := u.winOps ++
          [{ id := e.ports.nextWin, part := w.part, head := h, write := write.isSome, pieces := (splitPair w ps).map fun p => (p.addr, p.n) }] }).winSend
            (e.accessRequests h w write ps)).afterHome) := by
  have hwait : (e.bit HBM_STATUS_SELF_REFRESH || (e.accessRequests h w write ps).any fun r => r.space == .shr && r.writes && e.shrHeld (fun q => q.stop == r.stop) r) = true
      ↔ e.requestsWait (e.accessRequests h w write ps) := by
    rw [Bool.or_eq_true, List.any_eq_true]
    refine or_congr_right (exists_congr fun r => and_congr_right fun _ => ?_)
    rw [Bool.and_eq_true, Bool.and_eq_true, beq_iff_eq, and_assoc]
  rw [Die.winAccess, hopen]
  dsimp only
  rw [if_neg (by rw [hright]; decide), if_neg (by rw [decide_eq_true_eq]; exact not_lt.mpr hin),
    show Die.winPages w.part write.isSome (linePieces (w.base + offset) n) [] d = _ from hp]
  exact ⟨fun hw => if_pos (hwait.mpr hw), fun hw => if_neg (mt hwait.mp hw)⟩

end

theorem splitPair_word {w : Window} {p : WinPiece} (hn : p.n = 8) (ha : p.addr % 8 = 0) :
    splitPair w [p] = if w.right 2 then [p] else [{ p with n := 4 }, { p with addr := p.addr + 4, n := 4 }] := by
  rw [splitPair, hn, ha]
  cases w.right 2 <;> rfl

/-! ### Signals through the aperture -/

/-- A write that can be a signal: a word of 4 or 8 bytes that names an object (R438). -/
def signalFits (m : WinWrite) : Prop := (m.data.length = 4 ∨ m.data.length = 8) ∧ m.offset < 65536 ∧ m.offset % 8 = 0

theorem signalFits_iff (m : WinWrite) : ((m.data.length == 4 || m.data.length == 8) && m.offset / 65536 == 0 && m.offset % 8 == 0) = true ↔ signalFits m := by
  rw [Bool.and_eq_true, Bool.and_eq_true, Bool.or_eq_true, beq_iff_eq, beq_iff_eq, beq_iff_eq, beq_iff_eq, and_assoc, Nat.div_eq_zero_iff_lt (by decide)]
  rfl

section
variable {d : Die} {m : WinWrite}

theorem Die.winSignal_of_fits (h : signalFits m) : d.winSignal m
    = match d.windowSignal { head := m.head, obj := objIx (m.offset / 8), inc := le64 m.data } with | some e => .done e | none => .hold d :=
  if_pos ((signalFits_iff m).mpr h)

theorem Die.winSignal_of_closed (h : ¬signalFits m) {check : Nat} (hopen : d.winOpen m.head = .error check) : d.winSignal m = d.outOfWindow m.head check := by
  refine (if_neg (mt (signalFits_iff m).mp h)).trans ?_
  rw [hopen]

theorem Die.winSignal_of_open (h : ¬signalFits m) {w : Window} (hopen : d.winOpen m.head = .ok w) :
    d.winSignal m = d.outOfWindow m.head (if w.right 3 then 6 else 5) := by
  refine (if_neg (mt (signalFits_iff m).mp h)).trans ?_
  rw [hopen]

end

/-! ### Operations without an answer, and error reports -/

section
variable {d : Die} {tag : W32} {o : RemoteOp}

theorem opWindowOpTimeout_of_none (h : (d.ports.ops.find? fun o => o.tag == tag && o.reply.isNone) = none) : opWindowOpTimeout tag d = d := by
  rw [opWindowOpTimeout, h]

/-- The message of an operation has left, and its time is up (R444). -/
def Die.late (d : Die) (tag : W32) (o : RemoteOp) : Prop :=
  (∀ q ∈ d.ports.outq, msgTag q.2.2 = some tag → q.2.1 = otherPart) ∧ o.sentTick + orOne (d.get FAB_TIMEOUT_OP_TICKS) ≤ d.tick.count

theorem opWindowOpTimeout_of_some (h : (d.ports.ops.find? fun o => o.tag == tag && o.reply.isNone) = some o) [Decidable (d.late tag o)] :
    opWindowOpTimeout tag d = if d.late tag o then d.remoteEnd o .linkLost [] else d := by
  rw [opWindowOpTimeout, h]
  refine if_congr ?_ rfl rfl
  rw [Bool.and_eq_true, Bool.not_eq_true', List.any_eq_false, decide_eq_true_eq]
  refine and_congr_left fun _ => forall_congr' fun q => forall_congr' fun _ => ?_
  rw [Bool.and_eq_true, beq_iff_eq, bne_iff_ne, not_and, not_not]

end

/-- An error report is recorded (R458). -/
def Die.remoteError (d : Die) (h : MsgHead) : Die :=
  (((d.put FAB_REMOTE_ERR_PACKAGE h.src.pkg.val).put FAB_REMOTE_ERR_DIE h.src.die.val).putB FAB_REMOTE_ERR_VALID true).count FAB_REMOTE_ERR_COUNT 1

section
variable {d : Die} {x : ErrorReport}

theorem opErrorReport_of_not_pass (h : d.portCheck x.head 7 none ≠ .pass) :
    opErrorReport x d = (d.notPassed x.head 7 (d.portCheck x.head 7 none)).freeUnits x.head.port 7 28 := Die.admitted_of_not_pass h

variable (hpass : d.portCheck x.head 7 none = .pass)
include hpass

theorem opErrorReport_of_newer (h : d.fenceOf x.head.epoch = .newer) : opErrorReport x d = d := by
  refine (Die.admitted_of_pass hpass).trans ?_
  rw [h]

theorem opErrorReport_of_older (h : d.fenceOf x.head.epoch = .older) : opErrorReport x d = (d.rejectOld x.head false).freeUnits x.head.port 7 28 := by
  refine (Die.admitted_of_pass hpass).trans ?_
  rw [h]

theorem opErrorReport_of_same (h : d.fenceOf x.head.epoch = .same) : opErrorReport x d
    = (match x.head.port with
      | .opt n => (d.remoteError x.head).optEvent n 0x23 .corrected
      | .peer n => (d.remoteError x.head).raise 9 .corrected (detail n.val 0x23 x.head.src.pkg.val)).freeUnits x.head.port 7 28 := by
  refine (Die.admitted_of_pass hpass).trans ?_
  rw [h] <;> rfl

end

/-! ### Management -/

/-- What the body of an admitted management message asks for. -/
def Die.manage (d : Die) (m : MgmtMsg) : Die :=
  match m.body with
  | .modeForward id recs target => d.takeForward m.head m.seq id recs target
  | .hdmMirror decs => (d.takeMirror decs).mgmtReply m.head m.seq 0 .ok
  | .query item =>
    if decide (4 < item) then d.mgmtReply m.head m.seq 0 .reservedValue
    else (d.freshBytes (8 - (d.queryBytes item).length)).2.mgmtReply m.head m.seq (le64 ((d.queryBytes item ++ (d.freshBytes (8 - (d.queryBytes item).length)).1).take 8)) .ok
  | .reply answer st => d.takeReply m.head answer st

theorem opManagementMsgReceive_of_same {d : Die} {m : MgmtMsg} (hpass : d.portCheck m.head 8 none = .pass) (h : d.fenceOf m.head.epoch = .same) :
    opManagementMsgReceive m d = (d.manage m).freeUnits m.head.port 8 (msgBytes (.mgmt m)) := by
  refine (Die.admitted_of_pass hpass).trans ?_
  dsimp only
  rw [h] <;> rfl

section
variable {d : Die} {h : MsgHead} {seq : W32} {id : W16} {recs : List ModeRec} {target : Nat}

theorem Die.takeForward_of_follower (hl : d.leads = false) : d.takeForward h seq id recs target = d.mgmtReply h seq 0 .noAuthority :=
  if_pos (by rw [hl]; rfl)

variable (hl : d.leads = true)
include hl

theorem Die.takeForward_of_outstanding {t : Nat} (ht : d.outstandingChange = some t) :
    d.takeForward h seq id recs target = d.mgmtReply h seq (BitVec.ofNat 64 (t + 1)) .deferred := by
  refine (if_neg (by rw [hl]; decide)).trans ?_
  rw [ht]

theorem Die.takeForward_of_free (ht : d.outstandingChange = none) : d.takeForward h seq id recs target
    = (d.acceptChange id target recs).mgmtReply h seq (BitVec.ofNat 64 (if target = 0 then d.tick.now + 8 else target)) .ok := by
  refine (if_neg (by rw [hl]; decide)).trans ?_
  rw [ht]
  simp only [beq_iff_eq]

end

section
variable {s : State}

theorem becomes_windowWrite (hlive : s.die.live = true) (m : WinWrite) : becomes (.windowWrite m) s (opWindowWrite m s.die) := by
  change onDie _ s = _
  rw [onDie_eq, fromDie_live hlive]

theorem becomes_windowRead (hlive : s.die.live = true) (m : WinRead) : becomes (.windowRead m) s (opWindowRead m s.die) := by
  change onDie _ s = _
  rw [onDie_eq, fromDie_live hlive]

theorem becomes_managementMsgReceive (hlive : s.die.live = true) {g : MgmtMsg} (hwf : g.body.wf = true) :
    becomes (.managementMsgReceive g) s (opManagementMsgReceive g s.die) := by
  refine (onWf_wf _ s hwf).trans ?_
  rw [onDie_eq, fromDie_live hlive]

end

/-- A management message that its port admits, of the die's epoch, acts by its body. -/
theorem becomes_management_of_same {s : State} {g : MgmtMsg} (hlive : s.die.live = true) (hwf : g.body.wf = true) (hpass : s.die.portCheck g.head 8 none = .pass)
    (hf : s.die.fenceOf g.head.epoch = .same) {e : Die} (h : s.die.manage g = e) :
    becomes (.managementMsgReceive g) s (e.freeUnits g.head.port 8 (msgBytes (.mgmt g))) := by
  subst h
  exact becomes_congr (becomes_managementMsgReceive hlive hwf) (opManagementMsgReceive_of_same hpass hf)

section
variable {d : Die} {g : MgmtMsg}

theorem Die.manage_of_bad_query {item : Nat} (hbody : g.body = .query item) (h : 4 < item) : d.manage g = d.mgmtReply g.head g.seq 0 .reservedValue := by
  rw [Die.manage, hbody]
  exact if_pos (decide_eq_true h)

theorem Die.manage_of_query {item : Nat} (hbody : g.body = .query item) (h : item ≤ 4) {bs : List Byte} {e : Die}
    (hfree : d.freshBytes (8 - (d.queryBytes item).length) = (bs, e)) : d.manage g = e.mgmtReply g.head g.seq (le64 ((d.queryBytes item ++ bs).take 8)) .ok := by
  rw [Die.manage, hbody]
  refine (if_neg (by rw [decide_eq_true_eq]; exact not_lt.mpr h)).trans ?_
  rw [hfree]

theorem Die.manage_of_mirror {decs : List Hdm} (hbody : g.body = .hdmMirror decs) : d.manage g = (d.takeMirror decs).mgmtReply g.head g.seq 0 .ok := by
  rw [Die.manage, hbody]

theorem Die.manage_of_forward {id : W16} {recs : List ModeRec} {target : Nat} (hbody : g.body = .modeForward id recs target) :
    d.manage g = d.takeForward g.head g.seq id recs target := by
  rw [Die.manage, hbody]

theorem Die.manage_of_reply {answer : W64} {st : Status} (hbody : g.body = .reply answer st) : d.manage g = d.takeReply g.head answer st := by
  rw [Die.manage, hbody]

end

/-- Settles O47. -/
theorem windowMessages : Obligations.WindowMessages := by
  refine ⟨fun s m hlive => ?_, fun s m hlive => ?_, fun d h offset n right write m => ?_, fun s m x g tag hlive hwf => ?_⟩
  · have hnext := becomes_windowWrite hlive m
    refine ⟨fun x hx hne => ?_, fun hpass => ⟨fun hf => becomes_congr hnext (opWindowWrite_of_newer hpass hf), fun hf => becomes_congr hnext (opWindowWrite_of_older hpass hf),
      fun hf => ⟨fun hheld => becomes_congr hnext (opWindowWrite_of_hold hpass hf (if_pos hheld)), fun hheld took htook => ?_⟩⟩⟩
    · rw [← hx]
      exact becomes_congr hnext (opWindowWrite_of_not_pass (by rw [← hx] at hne; exact hne))
    · have htry : s.die.tryWrite m = took := (if_neg (by rw [hheld]; exact Bool.false_ne_true)).trans htook.symm
      exact ⟨fun e he => becomes_congr hnext (opWindowWrite_of_done hpass hf (htry.trans he)), fun e he => becomes_congr hnext (opWindowWrite_of_hold hpass hf (htry.trans he))⟩
  · have hnext := becomes_windowRead hlive m
    refine ⟨fun x hx hne => ?_, fun hpass => ⟨fun hf => becomes_congr hnext (opWindowRead_of_newer hpass hf), fun hf => becomes_congr hnext (opWindowRead_of_older hpass hf),
      fun hf => ⟨fun hfull => becomes_congr hnext (opWindowRead_of_hold hpass hf (Die.tryRead_of_full hfull)), fun hroom => ⟨fun hap => ⟨fun check ho => ?_, fun w ho => ?_⟩, fun hap => ?_⟩⟩⟩⟩
    · rw [← hx]
      exact becomes_congr hnext (opWindowRead_of_not_pass (by rw [← hx] at hne; exact hne))
    · exact becomes_congr hnext (opWindowRead_of_done hpass hf (Die.tryRead_of_closed hroom hap ho))
    · exact becomes_congr hnext (opWindowRead_of_done hpass hf (Die.tryRead_of_open hroom hap ho))
    · have htry := Die.tryRead_of_memory (m := m) hroom hap
      exact ⟨fun e he => becomes_congr hnext (opWindowRead_of_done hpass hf (htry.trans he)), fun e he => becomes_congr hnext (opWindowRead_of_hold hpass hf (htry.trans he))⟩
  · exact ⟨Die.winOpen_of_unnamed, fun i => Die.winOpen_of_shut,
      fun i w hw hx => ⟨fun hfrom => (Die.winOpen_of_window hw hx).trans (if_pos hfrom), fun hfrom => (Die.winOpen_of_window hw hx).trans (if_neg hfrom)⟩,
      fun check => Die.winAccess_of_closed, fun w ho => ⟨Die.winAccess_of_no_right ho, Die.winAccess_of_beyond ho, fun hr hin => ⟨fun e => Die.winAccess_of_bad ho hr hin,
        fun e => Die.winAccess_of_wait ho hr hin, fun e => Die.winAccess_of_ecc ho hr hin, fun ps e => Die.winAccess_of_pages ho hr hin⟩⟩,
      fun w p => splitPair_word, Die.winSignal_of_fits, fun hno => ⟨fun check => Die.winSignal_of_closed hno, fun w => Die.winSignal_of_open hno⟩⟩
  · have hresponse : becomes (.readResponse m) s (s.die.takeResponse m m.data) := onLive_live _ hlive
    have htimeout : becomes (.windowOpTimeout tag) s (opWindowOpTimeout tag s.die) := onLive_live _ hlive
    have herror : becomes (.errorReport x) s (opErrorReport x s.die) := onLive_live _ hlive
    have hmgmt := becomes_managementMsgReceive hlive hwf
    refine ⟨⟨fun c hc hne => ?_, fun hpass => ⟨fun hf => becomes_congr hresponse (Die.takeResponse_of_newer hpass hf),
        fun hf => becomes_congr hresponse (Die.takeResponse_of_older hpass hf), fun hf => ⟨fun o ho => ?_, fun ho => ?_⟩⟩⟩,
      ⟨fun ho => becomes_congr htimeout (opWindowOpTimeout_of_none ho), fun o ho => ?_⟩,
      ⟨fun c hc hne => ?_, fun hpass => ⟨fun hf => becomes_congr herror (opErrorReport_of_newer hpass hf),
        fun hf => becomes_congr herror (opErrorReport_of_older hpass hf), fun hf => ?_⟩⟩,
      ⟨fun c hc hne => ?_, fun hpass => ⟨fun hf => becomes_congr hmgmt (opManagementMsgReceive_of_newer hpass hf),
        fun hf => becomes_congr hmgmt (opManagementMsgReceive_of_older hpass hf), fun hf => ?_⟩⟩⟩
    · rw [← hc]
      exact becomes_congr hresponse (Die.takeResponse_of_not_pass (by rw [← hc] at hne; exact hne))
    · refine becomes_congr hresponse ((Die.takeResponse_of_same hpass hf).trans ?_)
      rw [Die.response_of_some ho] <;> rfl
    · refine becomes_congr hresponse ((Die.takeResponse_of_same hpass hf).trans ?_)
      rw [Die.response_of_none ho] <;> rfl
    · classical
      exact ⟨fun hlate => becomes_congr htimeout ((opWindowOpTimeout_of_some ho).trans (if_pos hlate)),
        fun hlate => becomes_congr htimeout ((opWindowOpTimeout_of_some ho).trans (if_neg hlate))⟩
    · rw [← hc]
      exact becomes_congr herror (opErrorReport_of_not_pass (by rw [hc]; exact hne))
    · have hsame := becomes_congr herror (opErrorReport_of_same hpass hf)
      refine ⟨fun n hn => becomes_congr hsame ?_, fun n hn => becomes_congr hsame ?_⟩ <;> rw [hn] <;> rfl
    · rw [← hc]
      exact becomes_congr hmgmt (opManagementMsgReceive_of_not_pass (by rw [hc]; exact hne))
    · have hacts {e : Die} (h : s.die.manage g = e) := becomes_management_of_same hlive hwf hpass hf h
      refine ⟨fun item hb => ⟨fun hi => hacts (Die.manage_of_bad_query hb hi), fun hi bs e he => hacts (Die.manage_of_query hb hi he)⟩, fun decs hb => hacts (Die.manage_of_mirror hb),
        fun id recs target hb => ⟨fun hl => hacts ((Die.manage_of_forward hb).trans (Die.takeForward_of_follower hl)),
          fun hl => ⟨fun t ht => hacts ((Die.manage_of_forward hb).trans (Die.takeForward_of_outstanding hl ht)),
            fun ht => hacts ((Die.manage_of_forward hb).trans (Die.takeForward_of_free hl ht))⟩⟩,
        fun answer st hb => hacts (Die.manage_of_reply hb)⟩

end Sys2Proof.Machine
end

section
/-! PROOF. The gate of an optical port, and messages for a third die of the package (spec 13, R429, R431, R432, R435, R448). -/

namespace Sys2Proof.Machine

/-- A ready die takes what comes on its ports. -/
theorem fromPort_live {d : Die} {port : LinkPort} {m : FabMsg} {f : Die → Die} (h : d.live = true) : fromPort port m f d = f d := by
  have hready : (d.boot.phase == .ready) = true := h
  rw [fromPort]
  cases msgHead (atPort port m) with
  | none => exact if_pos hready
  | some x => exact (congrArg (ite _ · _) (fromDie_live h)).trans (by rw [if_pos hready, ite_self])

/-! ### Messages on an optical port -/

section
variable {d : Die} {n : OptIx} {m : FabMsg} {offset chain : W16}

/-- The gate takes no message of this class (R431). -/
def Die.classBarred (d : Die) (n : OptIx) (x : FabMsg) : Prop := 7 < x.cls ∨ d.authClass x.cls (.opt n) = false

theorem Die.classBarred_iff {d : Die} {x : FabMsg} : (decide (7 < x.cls) || !d.authClass x.cls (.opt n)) = true ↔ d.classBarred n x := by
  rw [Bool.or_eq_true, decide_eq_true_eq, Bool.not_eq_true']
  rfl

theorem opOpticalMsgReceive_of_down (h : d.portUp (.opt n) = false) : opOpticalMsgReceive n m offset chain d = d :=
  if_pos (by rw [h]; rfl)

variable (hup : d.portUp (.opt n) = true)
include hup

/-- A message that the gate drops without an answer. -/
theorem opOpticalMsgReceive_of_barred (h : d.classBarred n (atPort (.opt n) m) ∨ (atPort (.opt n) m).dst = none) :
    opOpticalMsgReceive n m offset chain d = (d.gateDrop (.opt n) (atPort (.opt n) m).cls).freeUnits (.opt n) (min (atPort (.opt n) m).cls 9) (msgBytes (atPort (.opt n) m)) := by
  refine (if_neg (by rw [hup]; decide)).trans ?_
  by_cases hb : d.classBarred n (atPort (.opt n) m)
  · exact if_pos (Die.classBarred_iff.mpr hb)
  · refine (if_neg (mt Die.classBarred_iff.mp hb)).trans ?_
    rw [h.resolve_left hb]

variable (hb : ¬d.classBarred n (atPort (.opt n) m))
include hb

/-- What becomes of a message that the gate takes in. -/
theorem opOpticalMsgReceive_of_taken {dst : Place} (hdst : (atPort (.opt n) m).dst = some dst) : opOpticalMsgReceive n m offset chain d
    = if dst = d.here then d.toUnit (.opt n) (atPort (.opt n) m) offset chain
      else if dst.pkg ≠ d.here.pkg then (d.optErr n 9).freeUnits (.opt n) (atPort (.opt n) m).cls (msgBytes (atPort (.opt n) m))
      else if d.opticalPasses n (atPort (.opt n) m) then (d.sendOn dst (atPort (.opt n) m)).freeUnits (.opt n) (atPort (.opt n) m).cls (msgBytes (atPort (.opt n) m))
      else (d.gateDrop (.opt n) (atPort (.opt n) m).cls).freeUnits (.opt n) (atPort (.opt n) m).cls (msgBytes (atPort (.opt n) m)) := by
  refine (if_neg (by rw [hup]; decide)).trans ((if_neg (mt Die.classBarred_iff.mp hb)).trans ?_)
  rw [hdst]
  exact if_congr beq_iff_eq rfl (if_congr bne_iff_ne rfl rfl)

end

/-! ### Messages for a third die -/

section
variable {d : Die} {port : LinkPort} {m : FabMsg}

theorem opPeerMsgForward_of_nowhere (h : m.dst = none) : opPeerMsgForward port m d = d := by
  rw [opPeerMsgForward, h]

/-- The message is for a third die of the package, and its port is up. -/
def Die.isThird (d : Die) (port : LinkPort) (dst : Place) : Prop := dst ≠ d.here ∧ dst.pkg = d.here.pkg ∧ d.portUp port = true

theorem Die.not_isThird_iff {dst : Place} : (dst == d.here || dst.pkg != d.here.pkg || !d.portUp port) = true ↔ ¬d.isThird port dst := by
  rw [Bool.or_eq_true, Bool.or_eq_true, beq_iff_eq, bne_iff_ne, Bool.not_eq_true', Die.isThird, not_and_or, not_and_or, not_not, Bool.not_eq_true, or_assoc]

variable {dst : Place} (hdst : m.dst = some dst)
include hdst

theorem opPeerMsgForward_of_not_third (h : ¬d.isThird port dst) : opPeerMsgForward port m d = d := by
  rw [opPeerMsgForward, hdst]
  exact if_pos (Die.not_isThird_iff.mpr h)

variable (hthird : d.isThird port dst)
include hthird

theorem opPeerMsgForward_of_pass {h : MsgHead} (hh : msgHead (atPort port m) = some h) (hpass : d.portCheck h (atPort port m).cls none = .pass) :
    opPeerMsgForward port m d = (d.sendOn dst (atPort port m)).freeUnits port (atPort port m).cls (msgBytes (atPort port m)) := by
  rw [opPeerMsgForward, hdst]
  refine (if_neg (mt Die.not_isThird_iff.mp (not_not_intro hthird))).trans ?_
  dsimp only
  rw [hh]
  dsimp only
  rw [hpass]

theorem opPeerMsgForward_of_not_pass {h : MsgHead} (hh : msgHead (atPort port m) = some h) {c : Admit} (hc : d.portCheck h (atPort port m).cls none = c) (hne : c ≠ .pass) :
    opPeerMsgForward port m d = (d.notPassed h (atPort port m).cls c).freeUnits port (atPort port m).cls (msgBytes (atPort port m)) := by
  rw [opPeerMsgForward, hdst]
  refine (if_neg (mt Die.not_isThird_iff.mp (not_not_intro hthird))).trans ?_
  dsimp only
  rw [hh]
  dsimp only
  rw [hc]
  cases c with
  | pass => exact absurd rfl hne
  | drop => rfl
  | refuse st => rfl

/-- A message of the tick or without a kind carries no header to judge; its class alone counts. -/
theorem opPeerMsgForward_of_headless (hh : msgHead (atPort port m) = none) : opPeerMsgForward port m d
    = (if d.authClass (atPort port m).cls port then d.sendOn dst (atPort port m)
       else match atPort port m with
         | .tick _ _ t => d.refuseTick port t.src
         | .ack _ a => d.refuseTick port a.src
         | _ => d.gateDrop port (atPort port m).cls).freeUnits port (atPort port m).cls (msgBytes (atPort port m)) := by
  rw [opPeerMsgForward, hdst]
  refine (if_neg (mt Die.not_isThird_iff.mp (not_not_intro hthird))).trans ?_
  dsimp only
  rw [hh] <;> rfl

end

/-- Settles O48. -/
theorem opticalGate : Obligations.OpticalGate := by
  refine ⟨fun s n m offset chain hlive hwf => ?_, fun s port m hlive hwf => ?_⟩
  · have hnext : becomes (.opticalMsgReceive n m offset chain) s (opOpticalMsgReceive n m offset chain s.die) := by
      refine (onWf_wf _ s hwf).trans ?_
      rw [onDie_eq, fromPort_live hlive]
    refine ⟨fun hdown => becomes_congr hnext (opOpticalMsgReceive_of_down hdown), fun hup => ⟨fun h => becomes_congr hnext (opOpticalMsgReceive_of_barred hup h),
      fun hb dst hdst => ?_⟩⟩
    have htaken := becomes_congr hnext (opOpticalMsgReceive_of_taken hup hb hdst)
    refine ⟨fun hhere => becomes_congr htaken (if_pos hhere),
      fun hpkg => becomes_congr htaken ((if_neg fun h => hpkg (congrArg Place.pkg h)).trans (if_pos hpkg)), fun hpkg hhere => ?_⟩
    have hon := becomes_congr htaken ((if_neg hhere).trans (if_neg (not_not_intro hpkg)))
    exact ⟨fun hp => becomes_congr hon (if_pos hp), fun hp => becomes_congr hon (if_neg (by rw [hp]; exact Bool.false_ne_true))⟩
  · have hnext : becomes (.peerMsgForward port m) s (opPeerMsgForward port m s.die) := by
      refine (onWf_wf _ s hwf).trans ?_
      rw [onDie_eq, fromPort_live hlive]
    refine ⟨fun hno => becomes_congr hnext (opPeerMsgForward_of_nowhere hno), fun dst hdst => ⟨fun ht => becomes_congr hnext (opPeerMsgForward_of_not_third hdst ht),
      fun ht => ⟨fun h hh => ⟨fun hpass => becomes_congr hnext (opPeerMsgForward_of_pass hdst ht hh hpass),
        fun c hc hne => becomes_congr hnext (opPeerMsgForward_of_not_pass hdst ht hh hc hne)⟩, fun hh => ?_⟩⟩⟩
    have hlone := becomes_congr hnext (opPeerMsgForward_of_headless hdst ht hh)
    refine ⟨fun ha => becomes_congr hlone (by rw [if_pos ha]), fun ha => ?_⟩
    have hrefused := becomes_congr hlone (congrArg (fun e : Die => e.freeUnits port (atPort port m).cls (msgBytes (atPort port m))) (if_neg (by rw [ha]; exact Bool.false_ne_true)))
    refine ⟨fun y e t hx => becomes_congr hrefused ?_, fun y a hx => becomes_congr hrefused ?_, fun y c hx => becomes_congr hrefused ?_⟩ <;> rw [hx]

end Sys2Proof.Machine
end

section
/-! PROOF. Optical links: flits, lanes, keys, training, sessions and OPT_CTRL (spec 13, R445 to R457). -/

namespace Sys2Proof.Machine

/-! ### A link in service -/

section
variable {d : Die} {n : OptIx}

/-- No flit is exchanged in the states before training and in quarantine. -/
def Die.flitless (d : Die) (n : OptIx) : Prop := d.optState n < 2 ∨ d.optState n = 5

theorem Die.flitless_iff : (decide (d.optState n < 2) || d.optState n == 5) = true ↔ d.flitless n := by
  rw [Bool.or_eq_true, decide_eq_true_eq, beq_iff_eq]
  rfl

section
variable {crcOk tagOk phase ack : Bool} {seq : Nat} {credit : Option (Fin 8 × Nat)}

theorem opNivikFlitReceive_of_flitless (h : d.flitless n) : opNivikFlitReceive n crcOk tagOk seq phase ack credit d = d := if_pos (Die.flitless_iff.mpr h)

variable (hon : ¬d.flitless n)
include hon

theorem opNivikFlitReceive_of_bad_crc (hc : crcOk = false) : opNivikFlitReceive n crcOk tagOk seq phase ack credit d = d.sayOn (.opt n) (.replayRequest n) :=
  (if_neg (mt Die.flitless_iff.mp hon)).trans (if_pos (by rw [hc]; rfl))

variable (hc : crcOk = true)
include hc

theorem opNivikFlitReceive_of_no_session (hs : (d.optPort n).session = none) : opNivikFlitReceive n crcOk tagOk seq phase ack credit d = d := by
  refine (if_neg (mt Die.flitless_iff.mp hon)).trans ((if_neg (by rw [hc]; decide)).trans ?_)
  rw [hs]

/-- The port of a good flit: its number counts, and an acknowledgement ends the row of replays. -/
def Die.flitTaken (d : Die) (n : OptIx) (x : Session) (phase ack : Bool) : Die :=
  d.setOpt n { d.optPort n with session := some { x with rxSeq := x.rxSeq + 1, rxPhase := phase }, replays := if ack then 0 else (d.optPort n).replays }

theorem opNivikFlitReceive_of_session {x : Session} (hs : (d.optPort n).session = some x) : opNivikFlitReceive n crcOk tagOk seq phase ack credit d
    = if tagOk = false then d.optDown n 5 (some 5) else if seq ≠ x.rxSeq % 2 ^ 32 then d.optDown n 5 (some 6)
      else match credit with
        | some (c, k) => ((d.flitTaken n x phase ack).giveUnits (.opt n) c.val k).pump
        | none => d.flitTaken n x phase ack := by
  refine (if_neg (mt Die.flitless_iff.mp hon)).trans ((if_neg (by rw [hc]; decide)).trans ?_)
  rw [hs]
  exact if_congr (Bool.not_eq_true' tagOk ▸ Iff.rfl) rfl (if_congr bne_iff_ne rfl rfl)

end

theorem opFlitReplay_of_flitless (h : d.flitless n) : opFlitReplay n d = d := if_pos (Die.flitless_iff.mpr h)

section
variable (hon : ¬d.flitless n)
include hon

theorem opFlitReplay_of_over (h : orOne (d.get (OPT_CTRL_RETRY_LIMIT n.val)) < (d.optPort n).replays + 1) : opFlitReplay n d = d.optDown n 0 (some 7) :=
  (if_neg (mt Die.flitless_iff.mp hon)).trans (if_pos h)

theorem opFlitReplay_of_within (h : (d.optPort n).replays + 1 ≤ orOne (d.get (OPT_CTRL_RETRY_LIMIT n.val))) :
    opFlitReplay n d = ((d.setOpt n { d.optPort n with replays := (d.optPort n).replays + 1 }).markRetry (.opt n)).emit (.replay n) :=
  (if_neg (mt Die.flitless_iff.mp hon)).trans (if_neg (not_lt.mpr h))

end

/-! ### Lanes -/

/-- A whole half of the lanes is there (R446). -/
def halfLanes (lanes : BitVec 16) : Prop := lanes &&& 0xFF = 0xFF ∨ lanes &&& 0xFF00 = 0xFF00

theorem halfLanes_iff {lanes : BitVec 16} : (lanes &&& 0xFF == 0xFF || lanes &&& 0xFF00 == 0xFF00) = true ↔ halfLanes lanes := by
  rw [Bool.or_eq_true, beq_iff_eq, beq_iff_eq]
  rfl

section
variable {lane : Fin 16}

/-- The lane is of no use to the port. -/
def Die.laneIdle (d : Die) (n : OptIx) (lane : Fin 16) : Prop := d.optState n = 0 ∨ d.optState n = 5 ∨ maskBit (d.optPort n).lanes lane.val = false

theorem Die.laneIdle_iff : (d.optState n == 0 || d.optState n == 5 || !maskBit (d.optPort n).lanes lane.val) = true ↔ d.laneIdle n lane := by
  rw [Bool.or_eq_true, Bool.or_eq_true, beq_iff_eq, beq_iff_eq, Bool.not_eq_true', or_assoc]
  rfl

theorem opOpticalLaneLoss_of_idle (h : d.laneIdle n lane) : opOpticalLaneLoss n lane d = d := if_pos (Die.laneIdle_iff.mpr h)

variable (hused : ¬d.laneIdle n lane)
include hused

theorem opOpticalLaneLoss_of_few (h : ¬halfLanes (setMask (d.optPort n).lanes lane.val false)) : opOpticalLaneLoss n lane d = d.optDown n 0 none :=
  (if_neg (mt Die.laneIdle_iff.mp hused)).trans (if_neg (mt halfLanes_iff.mp h))

theorem opOpticalLaneLoss_of_half (h : halfLanes (setMask (d.optPort n).lanes lane.val false)) : opOpticalLaneLoss n lane d
    = let e := d.setOpt n { d.optPort n with lanes := setMask (d.optPort n).lanes lane.val false }
      if e.bit (OPT_STATE_HALF n.val) then e else (e.putB (OPT_STATE_HALF n.val) true).optEvent n 0x24 .corrected :=
  (if_neg (mt Die.laneIdle_iff.mp hused)).trans (if_pos (halfLanes_iff.mpr h))

end

/-! ### Keys and credit -/

theorem opKeyUpdate_of_no_session (h : (d.optPort n).session = none) : opKeyUpdate n d = d := by
  rw [opKeyUpdate, h]

theorem opKeyUpdate_of_session {x : Session} (h : (d.optPort n).session = some x) : opKeyUpdate n d
    = if x.txPhase ≠ decide (x.txSeq / 2 ^ 32 % 2 = 1) then
        (d.setOpt n { d.optPort n with session := some { x with txPhase := !x.txPhase } }).sayOn (.opt n) (.keyUpdate n d.epoch)
      else d := by
  rw [opKeyUpdate, h]
  exact if_congr bne_iff_ne rfl rfl

theorem opCreditStall_eq : opCreditStall n d
    = if d.starved n = true ∧ orOne (d.get FAB_TIMEOUT_STALL_TICKS) ≤ (d.optPort n).stall then d.optDown n 0 (some 8) else d :=
  if_congr (by rw [Bool.and_eq_true, decide_eq_true_eq]) rfl rfl

/-! ### Training and sessions -/

section
variable {lanes : BitVec 16}

/-- The lanes of a port have locked, all of them or a half. -/
def Die.trainedLanes (d : Die) (n : OptIx) (lanes : BitVec 16) (full : Bool) : Die :=
  ((d.put (OPT_STATE_STATE n.val) 2).putB (OPT_STATE_HALF n.val) (!full)).setOpt n { lanes := lanes }

/-- The port says hello and opens its session. -/
def Die.opens (d : Die) (n : OptIx) : Die := (d.emit (.hello (.opt n) d.epoch d.here pools)).emit (.spdmRecord n d.epoch)

theorem Die.mayTrain_iff : (decide (d.optState n ≤ 1) && d.optMayTrain n) = true ↔ d.optState n ≤ 1 ∧ d.optMayTrain n = true := by
  rw [Bool.and_eq_true, decide_eq_true_eq]

theorem opOpticalLinkTrain_of_barred (h : ¬(d.optState n ≤ 1 ∧ d.optMayTrain n = true)) : opOpticalLinkTrain n lanes d = d :=
  if_neg (mt Die.mayTrain_iff.mp h)

variable (hmay : d.optState n ≤ 1 ∧ d.optMayTrain n = true)
include hmay

theorem opOpticalLinkTrain_of_whole (h : lanes = 0xFFFF) : opOpticalLinkTrain n lanes d = (d.trainedLanes n lanes true).opens n := by
  refine (if_pos (Die.mayTrain_iff.mpr hmay)).trans ?_
  rw [h]
  rfl

section
variable (hpart : lanes ≠ 0xFFFF)
include hpart

theorem opOpticalLinkTrain_of_half (h : halfLanes lanes) :
    opOpticalLinkTrain n lanes d = ((d.trainedLanes n lanes false).optEvent n 0x24 .corrected).opens n := by
  have hsome : (lanes == BitVec.allOnes 16) = false := beq_eq_false_iff_ne.mpr hpart
  refine (if_pos (Die.mayTrain_iff.mpr hmay)).trans ?_
  simp only [hsome, Bool.false_or]
  exact if_pos (halfLanes_iff.mpr h)

theorem opOpticalLinkTrain_of_few (h : ¬halfLanes lanes) : opOpticalLinkTrain n lanes d = d.put (OPT_STATE_STATE n.val) 1 := by
  have hsome : (lanes == BitVec.allOnes 16) = false := beq_eq_false_iff_ne.mpr hpart
  refine (if_pos (Die.mayTrain_iff.mpr hmay)).trans ?_
  simp only [hsome, Bool.false_or]
  exact if_neg (mt halfLanes_iff.mp h)

end

end

section
variable {r : SessionResult}

theorem opSessionTimeout_of_other (h : d.optState n ≠ 2) : opSessionTimeout n d = d := if_neg (by rw [beq_iff_eq]; exact h)

theorem opSessionTimeout_of_session (h : d.optState n = 2) : opSessionTimeout n d = d.optDown n 0 (some 1) := if_pos (beq_iff_eq.mpr h)

theorem opSpdmRecordReceive_of_other (h : d.optState n ≠ 2) : opSpdmRecordReceive n r d = d := if_neg (by rw [beq_iff_eq]; exact h)

theorem opSpdmRecordReceive_of_session (h : d.optState n = 2) : opSpdmRecordReceive n r d
    = match r with
      | .continues => d.sayOn (.opt n) (.spdmRecord n d.epoch)
      | .certRefused => d.optDown n 0 (some 2)
      | .established partner =>
        if partner.pkg = d.here.pkg then d.optDown n 0 (some 3)
        else
          let e := ((d.put (OPT_PEER_PACKAGE n.val) partner.pkg.val).put (OPT_PEER_DIE n.val) partner.die.val).put (OPT_STATE_STATE n.val) 3
          (e.setOpt n { e.optPort n with session := some { partner := partner } }).tryAdmit n := by
  refine (if_pos (beq_iff_eq.mpr h)).trans ?_
  cases r with
  | continues => rfl
  | certRefused => rfl
  | established partner => exact if_congr beq_iff_eq rfl rfl

end

/-! ### OPT_CTRL -/

/-- OPT_CTRL as a write leaves it: TICK_SRC is refused while the other port has it (R457). -/
def Die.ctrlStored (d : Die) (n : OptIx) (v : Nat) : Die :=
  let e := (((d.putB (OPT_CTRL_ENABLE n.val) (sub v 0 1 == 1)).putB (OPT_CTRL_ADMIT n.val) (sub v 1 1 == 1)).put (OPT_CTRL_QUARANTINE_DROPS n.val) (sub v 8 8)).put
    (OPT_CTRL_RETRY_LIMIT n.val) (sub v 16 4)
  if sub v 2 1 = 1 ∧ d.bit (OPT_CTRL_TICK_SRC (1 - n.val)) = true then e else e.putB (OPT_CTRL_TICK_SRC n.val) (sub v 2 1 == 1)

/-- The port is free of its quarantine. -/
def Die.unbarred (d : Die) (n : OptIx) : Die := d.setOpt n { d.optPort n with barred := false }

theorem Die.writeOptCtrl_eq (d : Die) (n : OptIx) (v : Nat) : d.writeOptCtrl n v
    = if (!(sub v 0 1 == 1)) = true then
        (if (d.ctrlStored n v).optState n == 0 then d.ctrlStored n v
          else if (d.ctrlStored n v).optState n == 5 then (d.ctrlStored n v).put (OPT_STATE_STATE n.val) 0 else (d.ctrlStored n v).optDown n 0 none).unbarred n
      else if (d.bit (OPT_CTRL_ADMIT n.val) && !(sub v 1 1 == 1) && ((d.ctrlStored n v).optStart n).optState n == 4) = true then
        (((d.ctrlStored n v).optStart n).loseOps fun o => o.port == .opt n).put (OPT_STATE_STATE n.val) 3
      else if (sub v 1 1 == 1) = true then ((d.ctrlStored n v).optStart n).tryAdmit n else (d.ctrlStored n v).optStart n := by
  have hstored : d.ctrlStored n v = (let e := (((d.putB (OPT_CTRL_ENABLE n.val) (sub v 0 1 == 1)).putB (OPT_CTRL_ADMIT n.val) (sub v 1 1 == 1)).put
        (OPT_CTRL_QUARANTINE_DROPS n.val) (sub v 8 8)).put (OPT_CTRL_RETRY_LIMIT n.val) (sub v 16 4)
      if (sub v 2 1 == 1 && d.bit (OPT_CTRL_TICK_SRC (1 - n.val))) = true then e else e.putB (OPT_CTRL_TICK_SRC n.val) (sub v 2 1 == 1)) :=
    if_congr (by rw [Bool.and_eq_true, beq_iff_eq]) rfl rfl
  rw [hstored]
  rfl

section
variable {v : Nat}

section
variable (hoff : sub v 0 1 ≠ 1)
include hoff

theorem Die.writeOptCtrl_of_off : d.writeOptCtrl n v
    = (if (d.ctrlStored n v).optState n = 0 then d.ctrlStored n v
        else if (d.ctrlStored n v).optState n = 5 then (d.ctrlStored n v).put (OPT_STATE_STATE n.val) 0 else (d.ctrlStored n v).optDown n 0 none).unbarred n := by
  rw [Die.writeOptCtrl_eq, if_pos (by rw [Bool.not_eq_true']; exact beq_eq_false_iff_ne.mpr hoff)]
  simp only [beq_iff_eq]

end

section
variable (hon : sub v 0 1 = 1)
include hon

theorem Die.writeOptCtrl_of_admit (ha : sub v 1 1 = 1) : d.writeOptCtrl n v = ((d.ctrlStored n v).optStart n).tryAdmit n := by
  rw [Die.writeOptCtrl_eq, if_neg (by rw [hon]; decide), if_neg (by rw [ha]; simp only [beq_self_eq_true, Bool.not_true, Bool.and_false, Bool.false_and]; exact Bool.false_ne_true),
    if_pos (beq_iff_eq.mpr ha)]

theorem Die.writeOptCtrl_of_no_admit (ha : sub v 1 1 ≠ 1) : d.writeOptCtrl n v
    = if d.bit (OPT_CTRL_ADMIT n.val) = true ∧ ((d.ctrlStored n v).optStart n).optState n = 4 then
        (((d.ctrlStored n v).optStart n).loseOps fun o => o.port == .opt n).put (OPT_STATE_STATE n.val) 3
      else (d.ctrlStored n v).optStart n := by
  have hno : (sub v 1 1 == 1) = false := beq_eq_false_iff_ne.mpr ha
  rw [Die.writeOptCtrl_eq, if_neg (by rw [hon]; decide), hno]
  refine if_congr ?_ rfl (if_neg Bool.false_ne_true)
  rw [Bool.not_false, Bool.and_true, Bool.and_eq_true, beq_iff_eq]

end

end

/-- A port in state 3 whose ADMIT is set is admitted if its partner's package lies in OPT_SRC (R456). -/
theorem Die.tryAdmit_eq : d.tryAdmit n
    = if d.optState n = 3 ∧ d.bit (OPT_CTRL_ADMIT n.val) = true then
        (if d.get (OPT_SRC_LO n.val) ≤ d.get (OPT_PEER_PACKAGE n.val) ∧ d.get (OPT_PEER_PACKAGE n.val) ≤ d.get (OPT_SRC_HI n.val) then
          (d.put (OPT_STATE_STATE n.val) 4).pump else d.optErr n 4)
      else d :=
  if_congr (by rw [Bool.and_eq_true, beq_iff_eq]) (if_congr (by rw [Bool.and_eq_true, decide_eq_true_eq, decide_eq_true_eq]) rfl rfl) rfl

end

theorem Die.effect_optCtrl (d : Die) (who : Who) (n : OptIx) (v : Nat) : ∃ r, findRow (OPT_CTRL n.val) = some r ∧ r.digested = false ∧ r.modeOnly = false
    ∧ d.effect who r (OPT_CTRL n.val) v = if (d.writeOptCtrl n v).bit (OPT_CTRL_TICK_SRC 0) || (d.writeOptCtrl n v).bit (OPT_CTRL_TICK_SRC 1) then
        (d.writeOptCtrl n v).putB TICK_STATUS_NO_SOURCE false else d.writeOptCtrl n v := by
  fin_cases n <;> exact ⟨_, rfl, rfl, rfl, rfl⟩

theorem Die.writeBar0_optCtrl {d : Die} {who : Who} (hp : who.part = 0) (n : OptIx) (v : Nat) : d.writeBar0 who (OPT_CTRL n.val) v
    = if (d.writeOptCtrl n v).bit (OPT_CTRL_TICK_SRC 0) || (d.writeOptCtrl n v).bit (OPT_CTRL_TICK_SRC 1) then
        (d.writeOptCtrl n v).putB TICK_STATUS_NO_SOURCE false else d.writeOptCtrl n v :=
  Die.writeBar0_of_effect hp (by unfold OPT_CTRL; omega) (by unfold OPT_CTRL; omega) (d.effect_optCtrl who n v)

theorem optCtrl_low (n : OptIx) : OPT_CTRL n.val < 0x2000000 := by
  unfold OPT_CTRL
  omega

/-- Settles O49. -/
theorem opticalLinks : Obligations.OpticalLinks := by
  refine ⟨fun s n lane seq phase ack crcOk tagOk credit hlive => ?_, fun s n lanes r hlive => ?_, fun s who n v hreach hp => ?_, fun d n v => ?_, fun d n => ?_⟩
  · have hflit : becomes (.nivikFlitReceive n crcOk tagOk seq phase ack credit) s (opNivikFlitReceive n crcOk tagOk seq phase ack credit s.die) := onLive_live _ hlive
    have hreplay : becomes (.flitReplay n) s (opFlitReplay n s.die) := onLive_live _ hlive
    have hlane : becomes (.opticalLaneLoss n lane) s (opOpticalLaneLoss n lane s.die) := onLive_live _ hlive
    have hkey : becomes (.keyUpdate n) s (opKeyUpdate n s.die) := onLive_live _ hlive
    have hstall : becomes (.creditStall n) s (opCreditStall n s.die) := onLive_live _ hlive
    refine ⟨fun hoff => ⟨becomes_congr hflit (opNivikFlitReceive_of_flitless hoff), becomes_congr hreplay (opFlitReplay_of_flitless hoff)⟩,
      fun hon => ⟨fun hc => becomes_congr hflit (opNivikFlitReceive_of_bad_crc hon hc), fun hc hs => becomes_congr hflit (opNivikFlitReceive_of_no_session hon hc hs),
        fun hc x hs => ?_, fun h => becomes_congr hreplay (opFlitReplay_of_over hon h), fun h => becomes_congr hreplay (opFlitReplay_of_within hon h)⟩,
      ⟨fun hidle => becomes_congr hlane (opOpticalLaneLoss_of_idle hidle), fun hused => ⟨fun hfew => becomes_congr hlane (opOpticalLaneLoss_of_few hused hfew), fun hhalf => ?_⟩⟩,
      fun hs => becomes_congr hkey (opKeyUpdate_of_no_session hs), fun x hs => ?_,
      ⟨fun h => becomes_congr hstall (opCreditStall_eq.trans (if_pos h)), fun h => becomes_congr hstall (opCreditStall_eq.trans (if_neg h))⟩⟩
    · have hsession := becomes_congr hflit (opNivikFlitReceive_of_session hon hc hs)
      refine ⟨fun ht => becomes_congr hsession (if_pos ht), fun ht hq => becomes_congr hsession ((if_neg (by rw [ht]; decide)).trans (if_pos hq)), fun ht hq => ?_⟩
      have hgood := becomes_congr hsession ((if_neg (by rw [ht]; decide)).trans (if_neg (not_not_intro hq)))
      exact ⟨fun hcr => becomes_congr hgood (by rw [hcr] <;> rfl), fun c k hcr => becomes_congr hgood (by rw [hcr] <;> rfl)⟩
    · have hleft := becomes_congr hlane (opOpticalLaneLoss_of_half hused hhalf)
      exact ⟨fun hb => becomes_congr hleft (if_pos hb), fun hb => becomes_congr hleft (if_neg (by rw [hb]; exact Bool.false_ne_true))⟩
    · have hphase := becomes_congr hkey (opKeyUpdate_of_session hs)
      exact ⟨fun h => becomes_congr hphase (if_neg (not_not_intro h)), fun h => becomes_congr hphase (if_pos h)⟩
  · have htrain : becomes (.opticalLinkTrain n lanes) s (opOpticalLinkTrain n lanes s.die) := onLive_live _ hlive
    have htime : becomes (.sessionTimeout n) s (opSessionTimeout n s.die) := onLive_live _ hlive
    have hrecord (r : SessionResult) : becomes (.spdmRecordReceive n r) s (opSpdmRecordReceive n r s.die) := onLive_live _ hlive
    refine ⟨fun h => becomes_congr htrain (opOpticalLinkTrain_of_barred h), fun hmay => ⟨fun hw => becomes_congr htrain (opOpticalLinkTrain_of_whole hmay hw),
        fun hw hhalf => becomes_congr htrain (opOpticalLinkTrain_of_half hmay hw hhalf),
        fun hw hhalf => becomes_congr htrain (opOpticalLinkTrain_of_few hmay hw hhalf)⟩,
      fun h => ⟨becomes_congr htime (opSessionTimeout_of_other h), becomes_congr (hrecord r) (opSpdmRecordReceive_of_other h)⟩,
      fun h => ⟨becomes_congr htime (opSessionTimeout_of_session h), becomes_congr (hrecord .continues) (opSpdmRecordReceive_of_session h),
        becomes_congr (hrecord .certRefused) (opSpdmRecordReceive_of_session h), fun partner => ?_⟩⟩
    have hpartner := becomes_congr (hrecord (.established partner)) (opSpdmRecordReceive_of_session h)
    exact ⟨fun hpkg => becomes_congr hpartner (if_pos hpkg), fun hpkg => becomes_congr hpartner (if_neg hpkg)⟩
  · have hstored := Die.writeBar0_optCtrl (d := s.die) hp n v.toNat
    exact ⟨becomes_congr (becomes_regWrite (f := opOptEnable who n v) hreach hp (optCtrl_low n) rfl) hstored,
      becomes_congr (becomes_regWrite (f := opAdmit who n v) hreach hp (optCtrl_low n) rfl) hstored,
      becomes_congr (becomes_regWrite (f := opTickSrc who n v) hreach hp (optCtrl_low n) rfl) hstored⟩
  · refine ⟨fun hoff => ⟨fun h0 => ?_, fun h5 => ?_, fun h0 h5 => ?_⟩, fun hon => ⟨fun ha => Die.writeOptCtrl_of_admit hon ha, fun ha => ⟨fun h => ?_, fun h => ?_⟩⟩⟩
    · exact (Die.writeOptCtrl_of_off hoff).trans (congrArg (Die.unbarred · n) (if_pos h0))
    · exact (Die.writeOptCtrl_of_off hoff).trans (congrArg (Die.unbarred · n) ((if_neg (by rw [show (d.ctrlStored n v).optState n = 5 from h5]; decide)).trans (if_pos h5)))
    · exact (Die.writeOptCtrl_of_off hoff).trans (congrArg (Die.unbarred · n) ((if_neg h0).trans (if_neg h5)))
    · exact (Die.writeOptCtrl_of_no_admit hon ha).trans (if_pos h)
    · exact (Die.writeOptCtrl_of_no_admit hon ha).trans (if_neg h)
  · exact ⟨fun h => Die.tryAdmit_eq.trans (if_neg h), fun h => ⟨fun hk => Die.tryAdmit_eq.trans ((if_pos h).trans (if_pos hk)),
      fun hk => Die.tryAdmit_eq.trans ((if_pos h).trans (if_neg hk))⟩⟩

end Sys2Proof.Machine
end

section
/-! PROOF. Cages and the fabric supply (spec 13, R433, R459 to R462). -/

namespace Sys2Proof.Machine

section
variable {d : Die} {n : OptIx}

theorem Die.removal_of_down {cause : Nat} (h : d.optState n = 0) : d.removal n cause = d := if_pos (beq_iff_eq.mpr h)

theorem Die.removal_of_used {cause : Nat} (h : d.optState n ≠ 0) : d.removal n cause = d.optDown n 0 (some cause) := if_neg (by rw [beq_iff_eq]; exact h)

/-- A change of presence is latched and reported (R460). -/
def Die.presenceSeen (d : Die) (n : OptIx) (present : Bool) : Die :=
  ((d.putB (CAGE_PRESENT n.val) present).putB (CAGE_PRESENCE_CHANGED n.val) true).optEvent n 0x21 .corrected

theorem opPresenceChange_of_same {present : Bool} (h : d.bit (CAGE_PRESENT n.val) = present) : opPresenceChange n present d = d := if_pos (beq_iff_eq.mpr h)

theorem opPresenceChange_of_other {present : Bool} (h : d.bit (CAGE_PRESENT n.val) ≠ present) : opPresenceChange n present d
    = if present then d.presenceSeen n present else (((d.presenceSeen n present).putB (CAGE_LASER_EN n.val) false).setLaserGood n).removal n 11 :=
  if_neg (by rw [beq_iff_eq]; exact h)

theorem opFabricSupplyLoss_eq (d : Die) : opFabricSupplyLoss d
    = (let told := if d.awake = true ∧ d.pins.fabricRails = true ∧ d.optState 0 = 0 ∧ d.optState 1 = 0 then d.optEvent 0 13 .contained else d
      let down (n : OptIx) (e : Die) : Die := (if e.optState n = 0 then e else e.optDown n 0 (some 13)).setLaserGood n
      down 1 (down 0 { told with pins := { told.pins with fabricRails := false } })) := by
  have hcond : (d.awake && d.pins.fabricRails && d.optState 0 == 0 && d.optState 1 == 0) = true
      ↔ d.awake = true ∧ d.pins.fabricRails = true ∧ d.optState 0 = 0 ∧ d.optState 1 = 0 := by
    rw [Bool.and_eq_true, Bool.and_eq_true, Bool.and_eq_true, beq_iff_eq, beq_iff_eq, and_assoc, and_assoc]
  rw [opFabricSupplyLoss]
  simp only [hcond, beq_iff_eq]
  rfl

/-! ### A write of CAGE -/

section
variable {v : Nat}

/-- A latch falls where the write has a one for it. -/
def Die.clearedLatch (d : Die) (v : Nat) (f : Fld) (i : Nat) : Die := if sub v i 1 = 1 then d.putB f false else d

/-- The latches and the indicators of a cage as a write leaves them (R460, R461). -/
def Die.cageStored (d : Die) (n : OptIx) (v : Nat) : Die :=
  let e := ((d.clearedLatch v (CAGE_PRESENCE_CHANGED n.val) 1).clearedLatch v (CAGE_BUTTON n.val) 2).clearedLatch v (CAGE_POWER_FAULT n.val) 5
  let e := if sub v 6 2 = 3 then e else e.put (CAGE_PWR_IND n.val) (sub v 6 2)
  if sub v 8 2 = 3 then e else e.put (CAGE_ATTN_IND n.val) (sub v 8 2)

/-- The laser is out. -/
def Die.laserOut (d : Die) (n : OptIx) : Die := (d.putB (CAGE_LASER_EN n.val) false).setLaserGood n

theorem Die.writeCage_eq (d : Die) (n : OptIx) (v : Nat) : d.writeCage n v
    = if sub v 3 1 = 1 then
        (if (d.cageStored n v).bit (CAGE_PRESENT n.val) then (((d.cageStored n v).putB (CAGE_LASER_EN n.val) true).setLaserGood n).optStart n else d.cageStored n v)
      else if (d.cageStored n v).bit (CAGE_LASER_EN n.val) then ((d.cageStored n v).laserOut n).removal n 14 else (d.cageStored n v).laserOut n := by
  unfold Die.writeCage
  simp only [beq_iff_eq]
  rfl

theorem Die.writeCage_of_lit (hon : sub v 3 1 = 1) : d.writeCage n v
    = if (d.cageStored n v).bit (CAGE_PRESENT n.val) then (((d.cageStored n v).putB (CAGE_LASER_EN n.val) true).setLaserGood n).optStart n else d.cageStored n v := by
  rw [Die.writeCage_eq, if_pos hon]

section
variable (hoff : sub v 3 1 ≠ 1)
include hoff

theorem Die.writeCage_of_removed (h : (d.cageStored n v).bit (CAGE_LASER_EN n.val) = true ∧ ((d.cageStored n v).laserOut n).optState n ≠ 0) :
    d.writeCage n v = ((d.cageStored n v).laserOut n).optDown n 0 (some 14) := by
  obtain ⟨hlit, hused⟩ := h
  rw [Die.writeCage_eq, if_neg hoff, if_pos hlit, Die.removal_of_used hused]

theorem Die.writeCage_of_out (h : ¬((d.cageStored n v).bit (CAGE_LASER_EN n.val) = true ∧ ((d.cageStored n v).laserOut n).optState n ≠ 0)) :
    d.writeCage n v = (d.cageStored n v).laserOut n := by
  rw [Die.writeCage_eq, if_neg hoff]
  by_cases hlit : (d.cageStored n v).bit (CAGE_LASER_EN n.val) = true
  · rw [if_pos hlit, Die.removal_of_down (not_not.mp (not_and.mp h hlit))]
  · rw [if_neg hlit]

end

end

end

theorem Die.effect_cage (d : Die) (who : Who) (n : OptIx) (v : Nat) : ∃ r, findRow (CAGE n.val) = some r ∧ r.digested = false ∧ r.modeOnly = false
    ∧ d.effect who r (CAGE n.val) v = d.writeCage n v := by
  fin_cases n <;> exact ⟨_, rfl, rfl, rfl, rfl⟩

theorem becomes_laserEn {s : State} {who : Who} {n : OptIx} {v : W32} (hreach : Reaches s.die who true) (hp : who.part = 0) :
    becomes (.laserEn who n v) s (s.die.writeCage n v.toNat) :=
  becomes_congr (becomes_regWrite (f := opLaserEn who n v) hreach hp (by unfold CAGE; omega) rfl)
    (Die.writeBar0_of_effect hp (by unfold CAGE; omega) (by unfold CAGE; omega) (s.die.effect_cage who n v.toNat))

/-- Settles O50. -/
theorem cages : Obligations.Cages := by
  refine ⟨fun s n present hlive => ?_, fun s n hlive => ?_, fun s => ⟨?_, rfl⟩, fun s who n v hreach hp => becomes_laserEn hreach hp, fun d n v => ?_⟩
  · have hnext : becomes (.presenceChange n present) s (opPresenceChange n present s.die) := onPortsLive_ports _ hlive
    refine ⟨fun h => becomes_congr hnext (opPresenceChange_of_same h), fun h => ?_⟩
    have hchange := becomes_congr hnext (opPresenceChange_of_other h)
    refine ⟨fun hp => becomes_congr hchange (if_pos hp), fun hp => ?_⟩
    have hgone := becomes_congr hchange (if_neg (by rw [hp]; exact Bool.false_ne_true))
    exact ⟨fun hz => becomes_congr hgone (Die.removal_of_down hz), fun hz => becomes_congr hgone (Die.removal_of_used hz)⟩
  · have hfault : becomes (.laserPowerFault n) s (opLaserPowerFault n s.die) := onLive_live _ hlive
    exact ⟨onLive_live _ hlive, fun hz => becomes_congr hfault (Die.removal_of_down hz), fun hz => becomes_congr hfault (Die.removal_of_used hz)⟩
  · exact becomes_congr (show becomes .fabricSupplyLoss s (opFabricSupplyLoss s.die) from rfl) (opFabricSupplyLoss_eq s.die)
  · refine ⟨fun hon => ⟨fun hp => (Die.writeCage_of_lit hon).trans (if_pos hp), fun hp => (Die.writeCage_of_lit hon).trans (if_neg ?_)⟩,
      fun hoff => ⟨Die.writeCage_of_removed hoff, Die.writeCage_of_out hoff⟩⟩
    rw [show (d.cageStored n v).bit (CAGE_PRESENT n.val) = false from hp]
    exact Bool.false_ne_true

end Sys2Proof.Machine
end

section
/-! PROOF. The fault collector takes events and clears its words (spec 15, R495 to R507, R509, R515). -/

namespace Sys2Proof.Machine

/-! ### Edits of a few registers -/

/-- A die whose registers are those of another but for the ones at some offsets. -/
def Die.writesOnly (d t : Die) (offs : List Nat) : Prop := d.regsWf → t.regsWf ∧ d.keepsRegs t offs

section
variable {d e t : Die} {offs : List Nat}

theorem Die.writesOnly.refl (d : Die) (offs : List Nat) : d.writesOnly d offs := fun hwf => ⟨hwf, fun _ _ => rfl⟩

theorem Die.writesOnly.trans (h : d.writesOnly e offs) (h' : e.writesOnly t offs) : d.writesOnly t offs := fun hwf => by
  obtain ⟨hwf, hkeep⟩ := h hwf
  obtain ⟨hwf', hkeep'⟩ := h' hwf
  exact ⟨hwf', fun off hoff => (hkeep' off hoff).trans (hkeep off hoff)⟩

theorem Die.writesOnly.of_regs (h : t.regs = d.regs) : d.writesOnly t offs := fun hwf =>
  ⟨show tblWf _ _ t.regs = true by rw [h]; exact hwf, fun off _ => by rw [Die.raw, Die.raw, h]⟩

theorem Die.writesOnly.putRaw (d : Die) {off : Nat} (v : Nat) (hoff : off ∈ offs) : d.writesOnly (d.putRaw off v) offs := fun hwf =>
  ⟨Die.putRaw_wf d _ _ hwf, fun q hq => by rw [Die.raw_putRaw d _ _ q hwf, if_neg fun h : q = off => hq (h ▸ hoff)]⟩

theorem Die.writesOnly.put (d : Die) {f : Fld} (v : Nat) (hf : f.off ∈ offs) : d.writesOnly (d.put f v) offs := fun hwf =>
  ⟨hwf.put _ _, fun _ hq => Die.raw_put_of_ne hwf v fun h => hq (h ▸ hf)⟩

theorem Die.writesOnly.putB (d : Die) {f : Fld} (v : Bool) (hf : f.off ∈ offs) : d.writesOnly (d.putB f v) offs := Die.writesOnly.put d _ hf

/-- A step that is taken or not. -/
theorem Die.writesOnly.step (h : d.writesOnly e offs) {c : Bool} {f : Die → Die} (hf : ∀ x : Die, x.writesOnly (f x) offs) : d.writesOnly (if c then f e else e) offs := by
  cases c with
  | false => exact h
  | true => exact h.trans (hf e)

theorem Die.writesOnly.mono {more : List Nat} (h : d.writesOnly e offs) (hsub : offs ⊆ more) : d.writesOnly e more := fun hwf => by
  obtain ⟨hwf, hkeep⟩ := h hwf
  exact ⟨hwf, fun off hoff => hkeep off fun hin => hoff (hsub hin)⟩

end

/-! ### The history -/

/-- The entry for a new event, and the count or the loss of an entry (R498, R501). -/
def Die.histSlot (d : Die) : Nat × Die :=
  if d.get FAULT_HIST_CTRL_COUNT < 16 then (d.get FAULT_HIST_CTRL_NEXT, d.put FAULT_HIST_CTRL_COUNT (d.get FAULT_HIST_CTRL_COUNT + 1))
  else ((d.pickHist false fun h => !h.first).getD 0, d.count FAULT_HIST_CTRL_LOST 1)

/-- What the history holds of an event that it has not. -/
def Die.newEntry (d : Die) (e : Event) : HistEntry :=
  { tick := d.faultTime.1, src := e.src, cls := clsCode e.cls, first := !d.bit FAULT_HIST_CTRL_FIRST_VALID, forced := e.forced, noTick := d.faultTime.2,
    valid := true, repeat_ := 0, detail := e.detail, order := d.histSlot.2.fault.order + 1 }

/-- An event lies in its entry, and NEXT moves on. -/
def Die.placed (d : Die) (e : Event) : Die :=
  ((d.histSlot.2.setHist d.histSlot.1 (d.newEntry e)).onFault fun u => { u with order := u.order + 1 }).put FAULT_HIST_CTRL_NEXT (d.histSlot.1 + 1)

/-- An event is entered behind the last one, and as the first where there is none. -/
def Die.entered (d : Die) (e : Event) : Die :=
  if !d.bit FAULT_HIST_CTRL_FIRST_VALID then ((d.placed e).put FAULT_HIST_CTRL_FIRST d.histSlot.1).putB FAULT_HIST_CTRL_FIRST_VALID true else d.placed e

/-- The entry of the history that an event of the same tick repeats (R500). -/
def Die.histMatch (d : Die) (e : Event) : Option Nat :=
  (d.pickHist true fun h => h.valid && h.src == e.src && h.cls == clsCode e.cls).filter fun i => sameTick ((d.histAt i).tick, (d.histAt i).noTick) d.faultTime

theorem Die.writeHist_eq (d : Die) (e : Event) : d.writeHist e
    = match d.histMatch e with
      | some i => d.setHist i { d.histAt i with repeat_ := min 15 ((d.histAt i).repeat_ + 1) }
      | none => d.entered e := by
  unfold Die.writeHist
  change (match d.histMatch e with | some i => _ | none => _) = _
  cases d.histMatch e <;> rfl

theorem Die.histSlot_writes (d : Die) : d.writesOnly d.histSlot.2 [FAULT_HIST_CTRL] := by
  rw [Die.histSlot]
  split
  · exact .put d _ List.mem_cons_self
  · exact .put d _ List.mem_cons_self

theorem Die.writeHist_writes (d : Die) (e : Event) : d.writesOnly (d.writeHist e) [FAULT_HIST_CTRL] := by
  have hentered : d.writesOnly (d.entered e) [FAULT_HIST_CTRL] := by
    have hplaced : d.writesOnly (d.placed e) [FAULT_HIST_CTRL] :=
      (d.histSlot_writes.trans (t := (d.histSlot.2.setHist d.histSlot.1 (d.newEntry e)).onFault fun u => { u with order := u.order + 1 }) (.of_regs rfl)).trans
        (.put _ _ List.mem_cons_self)
    rw [Die.entered]
    exact hplaced.step (f := fun x => (x.put FAULT_HIST_CTRL_FIRST d.histSlot.1).putB FAULT_HIST_CTRL_FIRST_VALID true)
      fun x => (Die.writesOnly.put x _ (by decide)).trans (.putB _ _ (by decide))
  rw [Die.writeHist_eq]
  cases d.histMatch e with
  | some i => exact .of_regs rfl
  | none => exact hentered

section
variable {d : Die} (hhist : d.fault.hist = [])
include hhist

theorem Die.histMatch_of_empty (e : Event) : d.histMatch e = none := by
  rw [Die.histMatch, Die.pickHist, hhist]
  rfl

variable (hcount : d.get FAULT_HIST_CTRL_COUNT = 0) (hfirst : d.bit FAULT_HIST_CTRL_FIRST_VALID = false)
include hcount hfirst

/-- The first event of an empty history. -/
theorem Die.writeHist_of_empty (e : Event) : d.writeHist e
    = (((((d.put FAULT_HIST_CTRL_COUNT 1).setHist (d.get FAULT_HIST_CTRL_NEXT) (d.newEntry e)).onFault fun u => { u with order := u.order + 1 }).put
        FAULT_HIST_CTRL_NEXT (d.get FAULT_HIST_CTRL_NEXT + 1)).put FAULT_HIST_CTRL_FIRST (d.get FAULT_HIST_CTRL_NEXT)).putB FAULT_HIST_CTRL_FIRST_VALID true := by
  have hslot : d.histSlot = (d.get FAULT_HIST_CTRL_NEXT, d.put FAULT_HIST_CTRL_COUNT 1) := by
    rw [Die.histSlot, hcount]
    rfl
  rw [Die.writeHist_eq, Die.histMatch_of_empty hhist]
  dsimp only
  rw [Die.entered, Die.placed, hslot, hfirst]
  rfl

end

theorem tblGet_singleton_put {α : Type} [DecidableEq α] (dflt : Nat → α) (k : Nat) (v : α) : tblGet dflt (tblPut dflt [] k v) k = v := by
  rw [tblGet_put (lo := none) k v k rfl, if_pos rfl]

/-- The first event of an empty history lies at NEXT, which moves on (R498, R499). -/
theorem Die.writeHist_spec {d : Die} (hwf : d.regsWf) (hhist : d.fault.hist = []) (hcount : d.get FAULT_HIST_CTRL_COUNT = 0)
    (hfirst : d.bit FAULT_HIST_CTRL_FIRST_VALID = false) (hruns : d.tick.runs = true) (e : Event) :
    (d.writeHist e).histAt (d.get FAULT_HIST_CTRL_NEXT)
        = { tick := d.tick.now, src := e.src, cls := clsCode e.cls, first := true, forced := e.forced, noTick := false, valid := true, repeat_ := 0, detail := e.detail,
            order := d.fault.order + 1 }
      ∧ (d.writeHist e).get FAULT_HIST_CTRL_COUNT = 1 ∧ (d.writeHist e).get FAULT_HIST_CTRL_NEXT = (d.get FAULT_HIST_CTRL_NEXT + 1) % 16
      ∧ (d.writeHist e).get FAULT_HIST_CTRL_FIRST = d.get FAULT_HIST_CTRL_NEXT ∧ (d.writeHist e).bit FAULT_HIST_CTRL_FIRST_VALID = true := by
  have hentry : d.newEntry e
      = { tick := d.tick.now, src := e.src, cls := clsCode e.cls, first := true, forced := e.forced, noTick := false, valid := true, repeat_ := 0, detail := e.detail,
          order := d.fault.order + 1 } := by
    rw [Die.newEntry, hfirst, show d.faultTime = (d.tick.now, false) from if_pos hruns, Die.histSlot, hcount]
    rfl
  rw [Die.writeHist_of_empty hhist hcount hfirst, ← hentry]
  generalize hi : d.get FAULT_HIST_CTRL_NEXT = i
  have hlt : i < 16 := hi ▸ d.get_lt FAULT_HIST_CTRL_NEXT
  have hwf1 : (((d.put FAULT_HIST_CTRL_COUNT 1).setHist i (d.newEntry e)).onFault fun u => { u with order := u.order + 1 }).regsWf := hwf.put FAULT_HIST_CTRL_COUNT 1
  have hwf2 := hwf1.put FAULT_HIST_CTRL_NEXT (i + 1)
  have hwf3 := hwf2.put FAULT_HIST_CTRL_FIRST i
  refine ⟨?_, ?_, ?_, ?_, Die.bit_putB hwf3 true (by decide) rfl⟩
  · change tblGet (fun _ => ({} : HistEntry)) (tblPut (fun _ => ({} : HistEntry)) d.fault.hist i (d.newEntry e)) i = _
    rw [hhist]
    exact tblGet_singleton_put _ _ _
  · rw [Die.putB, Die.get_put_of_apart hwf3 _ (by decide) (.inr (by decide)), Die.get_put_of_apart hwf2 _ (by decide) (.inr (by decide)),
      Die.get_put_of_apart hwf1 _ (by decide) (.inr (by decide))]
    exact Die.get_put hwf 1 (by decide)
  · rw [Die.putB, Die.get_put_of_apart hwf3 _ (by decide) (.inr (by decide)), Die.get_put_of_apart hwf2 _ (by decide) (.inr (by decide)), Die.get_put hwf1 _ (by decide)]
    rfl
  · rw [Die.putB, Die.get_put_of_apart hwf3 _ (by decide) (.inr (by decide)), Die.get_put hwf2 _ (by decide)]
    exact Nat.mod_eq_of_lt hlt

/-! ### An event is taken -/

/-- The word of an event's class, with the bit of its source set (R496). -/
def Die.marked (d : Die) (e : Event) : Die := d.putRaw (classWord e.cls) ((d.raw (classWord e.cls)).lor (2 ^ e.src.val))

/-- The reactions that a cycle ends with come after these: interrupt, trap, pin and AER (R503 to R508). -/
def Die.reacts (d : Die) (e : Event) (r : BitVec 5) : Die :=
  let d := if r.getLsbD 0 then d.onFault fun u => { u with irqDue := true } else d
  let d := if r.getLsbD 1 then d.trap else d
  let d := if r.getLsbD 4 then d.putRaw FAULT_PIN_HOLD ((d.raw FAULT_PIN_HOLD).lor (2 ^ e.src.val)) else d
  if e.cls == .fatal && d.running then d.emit (.aer 0 .internalFatal) else d

/-- The history takes an event unless it keeps no corrected ones. -/
def Die.logged (d : Die) (e : Event) : Die := if e.cls == .corrected && !d.bit FAULT_HIST_CTRL_CORR_EN then d else d.writeHist e

theorem Die.take_eq (d : Die) (e : Event) : d.take e = ((d.marked e).logged e).reacts e (((d.marked e).logged e).reaction e.src e.cls) := rfl

theorem Die.reacts_writes (d : Die) (e : Event) (r : BitVec 5) : d.writesOnly (d.reacts e r) [FAULT_IRQ, FAULT_PIN_HOLD] :=
  ((((Die.writesOnly.refl d _).step (f := fun x => x.onFault fun u => { u with irqDue := true }) fun _ => .of_regs rfl).step (f := Die.trap)
    fun x => .putB x _ (by decide)).step (f := fun x => x.putRaw FAULT_PIN_HOLD ((x.raw FAULT_PIN_HOLD).lor (2 ^ e.src.val)))
    fun x => .putRaw x _ (by decide)).step (f := fun x => x.emit (.aer 0 .internalFatal)) fun _ => .of_regs rfl

theorem Die.take_writes (d : Die) (e : Event) : (d.marked e).writesOnly (d.take e) [FAULT_HIST_CTRL, FAULT_IRQ, FAULT_PIN_HOLD] := by
  have hlogged : (d.marked e).writesOnly ((d.marked e).logged e) [FAULT_HIST_CTRL] := by
    rw [Die.logged]
    split
    · exact .refl _ _
    · exact Die.writeHist_writes _ e
  rw [Die.take_eq]
  exact (hlogged.mono (by simp)).trans ((Die.reacts_writes _ e _).mono (by simp))

theorem classWord_inj {a b : Cls} (h : classWord a = classWord b) : a = b := by
  revert h
  cases a <;> cases b <;> decide

theorem classWord_not_edited (c : Cls) : classWord c ∉ [FAULT_HIST_CTRL, FAULT_IRQ, FAULT_PIN_HOLD] := by cases c <;> decide

theorem lor_two_pow_lt {x n : Nat} (hx : x < 2 ^ 32) (hn : n < 32) : x.lor (2 ^ n) < 2 ^ 32 :=
  Nat.or_lt_two_pow hx (Nat.pow_lt_pow_right (by decide) hn)

/-- An event sets the bit of its source in the word of its class, and no other bit of a class word. -/
theorem Die.raw_take {d : Die} (hwf : d.regsWf) (e : Event) (c : Cls) :
    (d.take e).raw (classWord c) = if c = e.cls then (d.raw (classWord c)).lor (2 ^ e.src.val) else d.raw (classWord c) := by
  have hmarked : (d.marked e).regsWf := Die.putRaw_wf d _ _ hwf
  obtain ⟨-, hkeep⟩ := d.take_writes e hmarked
  rw [hkeep _ (classWord_not_edited c), Die.marked, Die.raw_putRaw d _ _ _ hwf]
  by_cases hc : c = e.cls
  · rw [if_pos (congrArg classWord hc), if_pos hc, hc]
    exact Nat.mod_eq_of_lt (lor_two_pow_lt (BitVec.isLt _) (by omega))
  · rw [if_neg (mt classWord_inj hc), if_neg hc]

/-! ### Cycles -/

theorem mem_cycleOf_src {es : List Event} {x : Event} (h : x ∈ cycleOf es) : (es.find? fun e => e.src == x.src) = some x := by
  obtain ⟨src, -, hfind⟩ := List.mem_filterMap.mp h
  have hsrc : (x.src == src) = true := List.find?_some (p := fun e : Event => e.src == src) hfind
  rw [eq_of_beq hsrc]
  exact hfind

/-- A cycle takes one event of a source (R495). -/
theorem cycleOf_src_inj {es : List Event} {x y : Event} (hx : x ∈ cycleOf es) (hy : y ∈ cycleOf es) (h : x.src = y.src) : x = y := by
  have hfx := mem_cycleOf_src hx
  rw [h, mem_cycleOf_src hy] at hfx
  exact (Option.some.inj hfx).symm

theorem Die.collectAll_nil (n : Nat) (d : Die) : Die.collectAll n [] d = d := by cases n <;> rfl

section
variable {d : Die} {es : List Event}

/-- The events of a cycle with their reactions. -/
def Die.reactions (d : Die) (es : List Event) : List (Event × BitVec 5) := es.map fun e => (e, d.reaction e.src e.cls)

/-- The block resets of a cycle (R506). -/
def Die.blockResets (d : Die) (rs : List (Event × BitVec 5)) : Die :=
  rs.foldl (fun x r => if r.2.getLsbD 2 then x.blockReset r.1.src (r.1.detail.toNat % 256) else x) d

theorem Die.collect_of_stopped (h : (es.foldl Die.take d).running = false) : d.collect es = es.foldl Die.take d :=
  if_pos (by rw [h]; rfl)

theorem Die.any_reaction_iff (d : Die) (es : List Event) : ((d.reactions es).any fun r => r.2.getLsbD 3) = true ↔ ∃ e ∈ es, (d.reaction e.src e.cls).getLsbD 3 = true := by
  rw [Die.reactions, List.any_map, List.any_eq_true]
  rfl

theorem Die.collect_of_running (h : (es.foldl Die.take d).running = true) : d.collect es
    = if ((d.reactions es).any fun r => r.2.getLsbD 3) = true then (es.foldl Die.take d).dieReset
      else if ((es.foldl Die.take d).blockResets (d.reactions es)).tick.runs then (es.foldl Die.take d).blockResets (d.reactions es)
      else ((es.foldl Die.take d).blockResets (d.reactions es)).faultIrq :=
  if_neg (by rw [h]; decide)

end

/-! ### Clearing -/

theorem Die.faultStatus_eq {d e : Die} (h : ∀ c, d.raw (classWord c) = e.raw (classWord c)) : d.faultStatus = e.faultStatus := by
  have hcorrected := h .corrected
  have hcontained := h .contained
  have hfatal := h .fatal
  dsimp only [classWord] at hcorrected hcontained hfatal
  rw [Die.faultStatus, Die.faultStatus, hcorrected, hcontained, hfatal]

theorem classWord_ne_hold (c : Cls) : classWord c ≠ FAULT_PIN_HOLD := by cases c <;> decide

/-- The written bits of a class word fall, and a hold with the last bit of its source (R509, R515). -/
theorem Die.clearClass_spec {d : Die} (hwf : d.regsWf) (c : Cls) (v : Nat) {i : Nat} (hi : i < 20) :
    ((d.clearClass c v).raw (classWord c)).testBit i = ((d.raw (classWord c)).testBit i && !v.testBit i)
      ∧ (∀ x, x ≠ c → (d.clearClass c v).raw (classWord x) = d.raw (classWord x))
      ∧ ((d.clearClass c v).raw FAULT_PIN_HOLD).testBit i = ((d.raw FAULT_PIN_HOLD).testBit i && (d.clearClass c v).faultStatus.testBit i) := by
  have hword : i < 32 := by omega
  rw [Die.clearClass]
  generalize hcleared : d.putRaw (classWord c) (d.raw (classWord c) - (d.raw (classWord c)).land (v % 2 ^ 20)) = e
  have hwf' : e.regsWf := hcleared ▸ Die.putRaw_wf d _ _ hwf
  have hraw (q : Nat) : e.raw q = if q = classWord c then (d.raw (classWord c) - (d.raw (classWord c)).land (v % 2 ^ 20)) % 2 ^ 32 else d.raw q :=
    hcleared ▸ Die.raw_putRaw d _ _ q hwf
  have hclass (x : Cls) : (e.putRaw FAULT_PIN_HOLD ((e.raw FAULT_PIN_HOLD).land e.faultStatus)).raw (classWord x) = e.raw (classWord x) := by
    rw [Die.raw_putRaw e _ _ _ hwf', if_neg (classWord_ne_hold x)]
  refine ⟨?_, fun x hx => ?_, ?_⟩
  · rw [hclass, hraw, if_pos rfl, Nat.testBit_mod_two_pow, testBit_sub_land, Nat.testBit_mod_two_pow, decide_eq_true hword, decide_eq_true hi, Bool.true_and, Bool.true_and]
  · rw [hclass, hraw, if_neg (mt classWord_inj hx)]
  · rw [Die.faultStatus_eq hclass, Die.raw_putRaw e _ _ _ hwf', if_pos rfl, Nat.testBit_mod_two_pow, decide_eq_true hword, Bool.true_and,
      hraw FAULT_PIN_HOLD, if_neg (classWord_ne_hold c).symm]
    exact Nat.testBit_and _ _ _

/-- Settles O51. -/
theorem collector : Obligations.Collector := by
  refine ⟨⟨fun s us hawake => ?_, fun d n e es => ⟨Die.collectAll_nil n d, rfl, fun x hx y hy => cycleOf_src_inj hx hy⟩, fun d es => ⟨Die.collect_of_stopped, fun hrun hdie => ?_,
    fun hrun hdie => ⟨fun ht => ?_, fun ht => ?_⟩⟩, fun d e c hcanon => Die.raw_take hcanon.regsWf e c, fun d e hcanon hhist hcount hfirst hruns => ?_⟩,
    fun d c v i hcanon hi => Die.clearClass_spec hcanon.regsWf c v hi⟩
  · exact becomes_congr (show becomes (.faultEvent us) s (opFaultEvent us s.die) from onAwake_awake _ hawake) rfl
  · exact (Die.collect_of_running hrun).trans (if_pos ((d.any_reaction_iff es).mpr hdie))
  · exact (Die.collect_of_running hrun).trans ((if_neg (mt (d.any_reaction_iff es).mp hdie)).trans (if_pos ht))
  · exact (Die.collect_of_running hrun).trans ((if_neg (mt (d.any_reaction_iff es).mp hdie)).trans (if_neg (by
      rw [show ((es.foldl Die.take d).blockResets (d.reactions es)).tick.runs = false from ht]
      exact Bool.false_ne_true)))
  · obtain ⟨hentry, hcount', hnext, hfirst', hvalid⟩ := Die.writeHist_spec hcanon.regsWf hhist hcount hfirst hruns e
    obtain ⟨-, hkeep⟩ := d.writeHist_writes e hcanon.regsWf
    exact ⟨hentry, hcount', hnext, hfirst', hvalid, hkeep⟩

end Sys2Proof.Machine
end

section
/-! PROOF. Registers and pins of the collector, and the dormant state (spec 15, R505, R512, R513, R517 to R520). -/

namespace Sys2Proof.Machine

section
variable {d : Die}

/-- Groom, serving on a die that runs, has a trap to acknowledge. -/
def Die.acksTrap (d : Die) : Prop := d.bit FAULT_IRQ_NMI_HELD = true ∧ d.cp.restarting = false ∧ d.running = true

theorem Die.acksTrap_iff : (d.bit FAULT_IRQ_NMI_HELD && !d.cp.restarting && d.running) = true ↔ d.acksTrap := by
  rw [Bool.and_eq_true, Bool.and_eq_true, Bool.not_eq_true', and_assoc]
  rfl

theorem opNmiAck_of_trap (h : d.acksTrap) : opNmiAck d = (d.putB FAULT_IRQ_NMI_HELD false).onFault fun u => { u with readOrder := u.order } :=
  if_pos (Die.acksTrap_iff.mpr h)

theorem opNmiAck_of_none (h : ¬d.acksTrap) : opNmiAck d = d := if_neg (mt Die.acksTrap_iff.mp h)

/-- Another die has driven ERR_N low. -/
def Die.senseFell (d : Die) : Die := ({ d with pins := { d.pins with errSense := false } } : Die).putB FAULT_PIN_SENSE_FELL true

theorem opErrNSenseFall_of_driven (h : d.errDrive = true) : opErrNSenseFall d = d := if_pos h

theorem opErrNSenseFall_of_sensed (h : d.errDrive = false) :
    opErrNSenseFall d = if d.senseFell.bit FAULT_PIN_SENSE_NMI then d.senseFell.putB FAULT_IRQ_NMI_HELD true else d.senseFell :=
  if_neg (by rw [h]; exact Bool.false_ne_true)

theorem opDormantEntry_of_good (h : d.fault.check = none) : opDormantEntry d = d := by
  rw [opDormantEntry, h]

section
variable {c : SelfCheck} (hc : d.fault.check = some c)
include hc

theorem opDormantEntry_of_running (h : d.running = true) : opDormantEntry d = d.enterDormant c := by
  rw [opDormantEntry, hc]
  exact if_pos h

theorem opDormantEntry_of_dormant (h : d.boot.phase = .dormant) : opDormantEntry d = d := by
  rw [opDormantEntry, hc]
  exact (if_neg (by rw [Die.running, h]; decide)).trans (if_pos (beq_iff_eq.mpr h))

theorem opDormantEntry_of_reset (h : d.boot.phase = .off) : opDormantEntry d = (d.dormantCause c).leaveDormant := by
  rw [opDormantEntry, hc]
  exact (if_neg (by rw [Die.running, h]; decide)).trans (if_neg (by rw [h]; decide))

end

theorem Die.force_eq (cls : Cls) (v : W32) : d.force cls v.toNat
    = d.onFault fun u => { u with slots := u.slots ++ (((List.finRange 20).filter fun i => v.getLsbD i.val).map fun i =>
        { src := i, cls := cls, detail := 0, forced := true }) } := by
  rw [Die.force, BitVec.ofNat_toNat, BitVec.setWidth_eq]
  rfl

theorem Die.effect_force (who : Who) (cls : Cls) (v : Nat) : ∃ r, findRow (forceReg cls) = some r ∧ r.digested = false ∧ r.modeOnly = false
    ∧ d.effect who r (forceReg cls) v = d.force cls v := by
  cases cls <;> exact ⟨_, rfl, rfl, rfl, rfl⟩

theorem Die.effect_inject (who : Who) : ∃ r, findRow FAULT_CHECK = some r ∧ r.digested = false ∧ r.modeOnly = false ∧ d.effect who r FAULT_CHECK 1 = d.inject :=
  ⟨_, rfl, rfl, rfl, rfl⟩

end

theorem forceReg_low (cls : Cls) : forceReg cls < 0x2000000 ∧ forceReg cls % 4 = 0 := by cases cls <;> decide

/-- Settles O52. -/
theorem collectorControl : Obligations.CollectorControl := by
  refine ⟨fun s hawake => ?_, fun s who cls v hreach hp => ⟨?_, ?_⟩⟩
  · have hack : becomes .nmiAck s (opNmiAck s.die) := onAwake_awake _ hawake
    have hfall : becomes .errNSenseFall s (opErrNSenseFall s.die) := onAwake_awake _ hawake
    have hentry : becomes .dormantEntry s (opDormantEntry s.die) := onAwake_awake _ hawake
    exact ⟨fun h => becomes_congr hack (opNmiAck_of_trap h), fun h => becomes_congr hack (opNmiAck_of_none h), fun h => becomes_congr hfall (opErrNSenseFall_of_driven h),
      fun h => becomes_congr hfall (opErrNSenseFall_of_sensed h), fun h => becomes_congr hentry (opDormantEntry_of_good h),
      fun c hc => ⟨fun h => becomes_congr hentry (opDormantEntry_of_running hc h), fun h => becomes_congr hentry (opDormantEntry_of_dormant hc h),
        fun h => becomes_congr hentry (opDormantEntry_of_reset hc h)⟩⟩
  · obtain ⟨hlow, halign⟩ := forceReg_low cls
    exact becomes_congr (becomes_regWrite (f := opFaultForce who cls v) hreach hp hlow rfl)
      ((Die.writeBar0_of_effect hp (by omega) halign (s.die.effect_force who cls v.toNat)).trans (Die.force_eq cls v))
  · exact becomes_congr (becomes_regWrite (f := opInject who) hreach hp (by decide) rfl) (Die.writeBar0_of_effect hp (by decide) (by decide) (s.die.effect_inject who))

end Sys2Proof.Machine
end

section
/-! PROOF. Duty, temperature samples, the end of a halt, and failures of supplies and clocks (spec 16, R521, R526, R528 to R530, R554, R561, R566). -/

namespace Sys2Proof.Machine

/-! ### Events of the power controller -/

section
variable {d : Die} {cause unit extra : Nat} {cls : Cls}

theorem Die.power_pwrEvent : (d.pwrEvent cause unit extra cls).power = d.power := by
  rw [Die.pwrEvent, Die.record_eq]
  rfl

theorem Die.slots_pwrEvent : (d.pwrEvent cause unit extra cls).fault.slots = d.fault.slots ++ [{ src := 18, cls := cls, detail := detail unit cause extra, forced := false }] := by
  rw [Die.pwrEvent, Die.record_eq]
  rfl

theorem Die.pwrEvent_of_valid (h : d.bit PWR_ERR_VALID = true) : d.pwrEvent cause unit extra cls = d.raise 18 cls (detail unit cause extra) := by
  rw [Die.pwrEvent, Die.record, if_pos h]

theorem Die.record_writes {offs : List Nat} {valid : Fld} (hvalid : valid.off ∈ offs) {fs : List (Fld × Nat)} (hfs : ∀ x ∈ fs, x.1.off ∈ offs) :
    d.writesOnly (d.record valid fs) offs := by
  have hputs (fs : List (Fld × Nat)) (hfs : ∀ x ∈ fs, x.1.off ∈ offs) (e : Die) (he : d.writesOnly e offs) :
      d.writesOnly (fs.foldl (fun e fv => e.put fv.1 fv.2) e) offs := by
    induction fs generalizing e with
    | nil => exact he
    | cons x fs ih =>
      obtain ⟨hx, hfs⟩ := List.forall_mem_cons.mp hfs
      exact ih hfs _ (he.trans (.put e _ hx))
  rw [Die.record]
  split
  · exact .refl d _
  · exact (hputs fs hfs d (.refl d _)).trans (.putB _ _ hvalid)

theorem Die.pwrEvent_writes : d.writesOnly (d.pwrEvent cause unit extra cls) [PWR_ERR] := by
  have hfields : ∀ x ∈ [(PWR_ERR_CAUSE, cause), (PWR_ERR_UNIT, unit)], x.1.off ∈ [PWR_ERR] := fun x hx => by
    rcases List.mem_pair.mp hx with rfl | rfl <;> exact List.mem_cons_self
  have hrecord : d.writesOnly (d.record PWR_ERR_VALID [(PWR_ERR_CAUSE, cause), (PWR_ERR_UNIT, unit)]) [PWR_ERR] := Die.record_writes List.mem_cons_self hfields
  exact hrecord.trans (.of_regs rfl)

theorem Die.bit_pwrEvent (hwf : d.regsWf) : (d.pwrEvent cause unit extra cls).bit PWR_ERR_VALID = true := by
  cases hv : d.bit PWR_ERR_VALID with
  | true => rw [Die.pwrEvent_of_valid hv]; exact hv
  | false => exact Die.bit_record hwf _ hv (by decide) rfl

theorem Die.cause_pwrEvent (hwf : d.regsWf) (hv : d.bit PWR_ERR_VALID = false) (hc : cause < 16) : (d.pwrEvent cause unit extra cls).get PWR_ERR_CAUSE = cause := by
  have hpair : [(PWR_ERR_CAUSE, cause), (PWR_ERR_UNIT, unit)].Pairwise fun x y => y.1.apart x.1 :=
    List.pairwise_pair.mpr (show PWR_ERR_UNIT.apart PWR_ERR_CAUSE from .inr (by decide))
  exact (Die.get_record hwf hv (by decide) (.inr (by decide)) hpair List.mem_cons_self).trans (Nat.mod_eq_of_lt hc)

end

/-! ### The duty in force -/

/-- The duty that the halt, the limits and the controller leave (R526, R528, R530). -/
def Die.duty (d : Die) : Nat :=
  if d.power.haltDue || d.bit PWR_CTRL_THERMAL_HALT then 0 else if d.power.hot then 8 else if d.power.fast then d.get PWR_CTRL_FAST_K else d.power.k

theorem Die.setDuty_eq (d : Die) : d.setDuty = d.put PWR_STATUS_K d.duty := rfl

theorem Die.setDuty_writes (d : Die) : d.writesOnly d.setDuty [PWR_STATUS] := .put d _ (List.mem_singleton.mpr rfl)

section
variable {d : Die}

theorem Die.get_setDuty (hwf : d.regsWf) (h : d.duty < 32) : d.setDuty.get PWR_STATUS_K = d.duty :=
  (Die.get_put hwf d.duty (by decide)).trans (Nat.mod_eq_of_lt h)

theorem Die.duty_of_halt (h : d.power.haltDue = true ∨ d.bit PWR_CTRL_THERMAL_HALT = true) : d.duty = 0 := if_pos ((Bool.or_eq_true _ _).mpr h)

variable (hdue : d.power.haltDue = false) (hhalt : d.bit PWR_CTRL_THERMAL_HALT = false)
include hdue hhalt

theorem Die.duty_of_running : d.duty = if d.power.hot then 8 else if d.power.fast then d.get PWR_CTRL_FAST_K else d.power.k :=
  if_neg (by rw [hdue, hhalt]; decide)

theorem Die.duty_of_hot (hhot : d.power.hot = true) : d.duty = 8 := (Die.duty_of_running hdue hhalt).trans (if_pos hhot)

theorem Die.duty_of_fast (hhot : d.power.hot = false) (hfast : d.power.fast = true) : d.duty = d.get PWR_CTRL_FAST_K :=
  (Die.duty_of_running hdue hhalt).trans ((if_neg (by rw [hhot]; decide)).trans (if_pos hfast))

theorem Die.duty_of_controller (hhot : d.power.hot = false) (hfast : d.power.fast = false) : d.duty = d.power.k :=
  (Die.duty_of_running hdue hhalt).trans ((if_neg (by rw [hhot]; decide)).trans (if_neg (by rw [hfast]; decide)))

end

/-! ### What a sample decides -/

/-- The hottest sensor in use, as the registers show it. -/
def Die.tempShown (d : Die) (s : Nat) (t : Int) : Die := (d.put THERM_MAX_TEMP (tempByte t)).put THERM_MAX_SENSOR s

def Die.warnTo (d : Die) (s extra : Nat) (warm : Bool) : Die :=
  (if warm && !d.power.warned then d.pwrEvent 1 s extra .corrected else d).onPower fun u => { u with warned := warm }

def Die.throttleTo (d : Die) (s extra : Nat) (tooHot cool : Bool) : Die :=
  if tooHot && !d.power.throttled then (d.pwrEvent 2 s extra .corrected).onPower fun u => { u with throttled := true }
  else if !tooHot && cool then d.onPower fun u => { u with throttled := false } else d

def Die.hotTo (d : Die) (s extra : Nat) (hot : Bool) : Die :=
  (if hot then d.pwrEvent 3 s extra .contained else d).onPower fun u => { u with hot := hot }

def Die.haltTo (d : Die) (s extra : Nat) (t : Int) : Die :=
  if 110 ≤ t && !d.power.haltDue && !d.bit PWR_CTRL_THERMAL_HALT then (d.pwrEvent 4 s extra .fatal).onPower fun u => { u with haltDue := true } else d

/-- A sample is too hot: the hottest sensor is at THROTTLE, or more than 4 are out of use (R528, R531). -/
def Die.tooHot (d e : Die) : Bool := decide ((e.get THERM_LIMITS_THROTTLE : Int) ≤ (hottest d.readings).2) || decide (4 < 32 - d.readings.length)

def Die.cool (d e : Die) : Bool := d.readings.all fun r => decide (r.2 < (e.get THERM_LIMITS_THROTTLE : Int) - 3)

/-- The die before the throttling bit is shown. -/
def Die.throttled (d : Die) : Die :=
  let s := (hottest d.readings).1
  let t := (hottest d.readings).2
  let e := d.tempShown s t
  (e.warnTo s (t % 65536).toNat (decide ((e.get THERM_LIMITS_WARN : Int) ≤ t))).throttleTo s (t % 65536).toNat (d.tooHot e) (d.cool e)

theorem Die.thermal_eq (d : Die) : d.thermal
    = (((d.throttled.putB THERM_MAX_THROTTLING d.throttled.power.throttled).hotTo (hottest d.readings).1 ((hottest d.readings).2 % 65536).toNat
        (decide (105 ≤ (hottest d.readings).2))).haltTo (hottest d.readings).1 ((hottest d.readings).2 % 65536).toNat (hottest d.readings).2).setDuty := rfl

section
variable {d : Die} {s extra : Nat}

theorem Die.power_warnTo {warm : Bool} : (d.warnTo s extra warm).power = { d.power with warned := warm } := by
  unfold Die.warnTo
  split
  · exact congrArg (fun u : PowerUnit => { u with warned := warm }) Die.power_pwrEvent
  · rfl

theorem Die.power_throttleTo {tooHot cool : Bool} : (d.throttleTo s extra tooHot cool).power
    = { d.power with throttled := if tooHot then true else if cool then false else d.power.throttled } := by
  unfold Die.throttleTo
  cases tooHot with
  | true =>
    cases ht : d.power.throttled with
    | true => exact congrArg (fun x => { d.power with throttled := x }) ht
    | false => exact congrArg (fun u : PowerUnit => { u with throttled := true }) Die.power_pwrEvent
  | false => cases cool <;> rfl

theorem Die.power_hotTo {hot : Bool} : (d.hotTo s extra hot).power = { d.power with hot := hot } := by
  unfold Die.hotTo
  split
  · exact congrArg (fun u : PowerUnit => { u with hot := hot }) Die.power_pwrEvent
  · rfl

theorem Die.power_haltTo {t : Int} : (d.haltTo s extra t).power
    = if 110 ≤ t && !d.power.haltDue && !d.bit PWR_CTRL_THERMAL_HALT then { d.power with haltDue := true } else d.power := by
  unfold Die.haltTo
  split
  · exact congrArg (fun u : PowerUnit => { u with haltDue := true }) Die.power_pwrEvent
  · rfl

theorem Die.throttled_writes (d : Die) : d.writesOnly d.throttled [THERM_MAX, PWR_ERR] := by
  have hshown (s : Nat) (t : Int) : d.writesOnly (d.tempShown s t) [THERM_MAX, PWR_ERR] :=
    (Die.writesOnly.put d _ (by decide)).trans (.put _ _ (by decide))
  have hevent (e : Die) (c s x : Nat) (cls : Cls) : e.writesOnly (e.pwrEvent c s x cls) [THERM_MAX, PWR_ERR] := Die.pwrEvent_writes.mono (by simp)
  have hwarn (e : Die) (s x : Nat) (w : Bool) : e.writesOnly (e.warnTo s x w) [THERM_MAX, PWR_ERR] := by
    unfold Die.warnTo
    split
    · exact (hevent e 1 s x .corrected).trans (.of_regs rfl)
    · exact .of_regs rfl
  have hthrottle (e : Die) (s x : Nat) (a b : Bool) : e.writesOnly (e.throttleTo s x a b) [THERM_MAX, PWR_ERR] := by
    unfold Die.throttleTo
    split
    · exact (hevent e 2 s x .corrected).trans (.of_regs rfl)
    · split <;> exact .of_regs rfl
  exact (hshown _ _).trans ((hwarn _ _ _ _).trans (hthrottle _ _ _ _ _))

theorem Die.hotTo_writes {hot : Bool} : d.writesOnly (d.hotTo s extra hot) [THERM_MAX, PWR_ERR] := by
  have hevent : d.writesOnly (d.pwrEvent 3 s extra .contained) [THERM_MAX, PWR_ERR] := Die.pwrEvent_writes.mono (by simp)
  unfold Die.hotTo
  split
  · exact hevent.trans (.of_regs rfl)
  · exact .of_regs rfl

end

/-- The limits and the halt that a sample reads are those of the die. -/
theorem Die.get_of_writesOnly {d t : Die} {offs : List Nat} (h : d.writesOnly t offs) (hwf : d.regsWf) {f : Fld} (hf : f.off ∉ offs) : t.get f = d.get f := by
  obtain ⟨-, hkeep⟩ := h hwf
  exact Die.get_of_raw (hkeep _ hf)

theorem Die.bit_of_writesOnly {d t : Die} {offs : List Nat} (h : d.writesOnly t offs) (hwf : d.regsWf) {f : Fld} (hf : f.off ∉ offs) : t.bit f = d.bit f := by
  obtain ⟨-, hkeep⟩ := h hwf
  exact Die.bit_of_raw (hkeep _ hf)

theorem Die.get_tempShown {d : Die} (hwf : d.regsWf) (s : Nat) (t : Int) {f : Fld} (hf : f.off ≠ THERM_MAX) : (d.tempShown s t).get f = d.get f :=
  Die.get_of_writesOnly (offs := [THERM_MAX]) ((Die.writesOnly.put d _ (by decide)).trans (.put _ _ (by decide))) hwf (by rw [List.mem_singleton]; exact hf)

/-- A halt falls due unless it is due or has begun. -/
theorem powerUnit_haltDue (u : PowerUnit) (a b : Bool) :
    (if a && !u.haltDue && !b then { u with haltDue := true } else u) = { u with haltDue := u.haltDue || (a && !b) } := by
  obtain ⟨move, service, k, watts, warned, throttled, fast, hot, due, absent⟩ := u
  cases due <;> cases a <;> cases b <;> rfl

/-- The power unit behind a sample. -/
theorem Die.power_thermal {d : Die} (hwf : d.regsWf) :
    let t := (hottest d.readings).2
    d.thermal.power = { d.power with
      warned := decide ((d.get THERM_LIMITS_WARN : Int) ≤ t)
      throttled := if d.tooHot d then true else if d.cool d then false else d.power.throttled
      hot := decide (105 ≤ t)
      haltDue := d.power.haltDue || (decide (110 ≤ t) && !d.bit PWR_CTRL_THERMAL_HALT) } := by
  intro t
  have hlimit {f : Fld} (hf : f.off ≠ THERM_MAX) : (d.tempShown (hottest d.readings).1 t).get f = d.get f := Die.get_tempShown hwf _ _ hf
  have hthrottled : d.throttled.power = { d.power with
      warned := decide ((d.get THERM_LIMITS_WARN : Int) ≤ t), throttled := if d.tooHot d then true else if d.cool d then false else d.power.throttled } := by
    rw [Die.throttled, Die.power_throttleTo, Die.power_warnTo, Die.tooHot, Die.cool, Die.tooHot, Die.cool, hlimit (by decide), hlimit (by decide)]
    rfl
  have hhalt (x : Bool) (s extra : Nat) (hot : Bool) : ((d.throttled.putB THERM_MAX_THROTTLING x).hotTo s extra hot).bit PWR_CTRL_THERMAL_HALT = d.bit PWR_CTRL_THERMAL_HALT :=
    Die.bit_of_writesOnly (d.throttled_writes.trans ((Die.writesOnly.putB _ _ (by decide)).trans Die.hotTo_writes)) hwf (by decide)
  rw [Die.thermal_eq]
  change (Die.haltTo _ _ _ _).power = _
  rw [Die.power_haltTo, hhalt, Die.power_hotTo, Die.putB_power, hthrottled]
  exact powerUnit_haltDue _ _ _

/-! ### PWR_CTRL -/

/-- A halt may end: every sensor in use reads below WARN (R530). -/
def Die.coolEnough (d : Die) : Prop := d.bit PWR_CTRL_THERMAL_HALT = true ∧ ∀ x ∈ d.readings, x.2 < (d.get THERM_LIMITS_WARN : Int)

/-- The halt has ended at P5. -/
def Die.halted5 (d : Die) : Die := ((((d.putB PWR_CTRL_THERMAL_HALT false).setPoint 5).setVid 5).putB HBM_STATUS_SELF_REFRESH false).setDuty

theorem Die.coolEnough_iff {d : Die} : (d.bit PWR_CTRL_THERMAL_HALT && (d.readings.all fun r => decide (r.2 < (d.get THERM_LIMITS_WARN : Int)))) = true ↔ d.coolEnough := by
  rw [Bool.and_eq_true, List.all_eq_true]
  exact and_congr_right fun _ => forall_congr' fun r => forall_congr' fun _ => decide_eq_true_iff

theorem Die.resume_of_cool {d : Die} (h : d.coolEnough) : d.resume = d.halted5 := if_pos (Die.coolEnough_iff.mpr h)

theorem Die.resume_of_warm {d : Die} (h : ¬d.coolEnough) : d.resume = d := if_neg (mt Die.coolEnough_iff.mp h)

theorem Die.effect_pwrCtrl (d : Die) (who : Who) (r : RegRow) (v : W32) :
    d.effect who r PWR_CTRL v.toNat = if v.getLsbD 9 then (d.store r PWR_CTRL v.toNat).resume else d.store r PWR_CTRL v.toNat := by
  rw [← sub_one_beq v 9]
  rfl

/-- What a write of PWR_CTRL by the physical function does. -/
theorem becomes_thermalResume {s : State} {who : Who} {v : W32} {r : RegRow} (hreach : Reaches s.die who true) (hp : who.part = 0) (hr : findRow PWR_CTRL = some r) :
    becomes (.thermalResume who v) s (if v.getLsbD 9 then (s.die.store r PWR_CTRL v.toNat).resume else s.die.store r PWR_CTRL v.toNat) := by
  have hflags : r.digested = false ∧ r.modeOnly = false := by
    cases hr
    exact ⟨rfl, rfl⟩
  obtain ⟨hd, hm⟩ := hflags
  exact becomes_congr (becomes_regWrite (f := opThermalResume who v) hreach hp (by decide) rfl)
    ((Die.writeBar0_pf hp (by decide) (by decide) hr hd hm).trans (Die.effect_pwrCtrl _ _ _ _))

section
variable {d : Die} (hwf : d.regsWf)
include hwf

/-- THERMAL_HALT is no bit that a write stores. -/
theorem Die.halt_store {r : RegRow} (hr : findRow PWR_CTRL = some r) (v : Nat) : (d.store r PWR_CTRL v).bit PWR_CTRL_THERMAL_HALT = d.bit PWR_CTRL_THERMAL_HALT := by
  have hbits : r.w1c.testBit 10 = false ∧ r.rw.testBit 10 = false := by
    cases hr
    exact ⟨rfl, rfl⟩
  obtain ⟨hw1c, hrw⟩ := hbits
  rw [Die.bit_eq_testBit rfl, Die.bit_eq_testBit rfl]
  change ((d.store r PWR_CTRL v).raw PWR_CTRL).testBit 10 = (d.raw PWR_CTRL).testBit 10
  rw [Die.testBit_raw_store hwf r PWR_CTRL v 10 (by decide), hw1c, hrw]
  rfl

end

theorem Die.readings_of_raw {d e : Die} (h : ∀ i, i < 32 → e.raw (THERM_SENSOR i) = d.raw (THERM_SENSOR i)) : e.readings = d.readings := by
  have hbit (i : Nat) (hi : i < 32) : e.bit (THERM_SENSOR_EXCLUDED i) = d.bit (THERM_SENSOR_EXCLUDED i) := Die.bit_of_raw (h i hi)
  have htemp (i : Nat) (hi : i < 32) : e.get (THERM_SENSOR_TEMP i) = d.get (THERM_SENSOR_TEMP i) := Die.get_of_raw (h i hi)
  rw [Die.readings, Die.readings, List.filter_congr fun i hi => congrArg (!·) (hbit i (List.mem_range.mp hi))]
  refine List.map_congr_left fun i hi => ?_
  rw [htemp i (List.mem_range.mp (List.mem_filter.mp hi).1)]

section
variable {d : Die} (hwf : d.regsWf)
include hwf

theorem Die.readings_store (r : RegRow) (v : Nat) : (d.store r PWR_CTRL v).readings = d.readings :=
  Die.readings_of_raw fun i hi => Die.raw_store_of_ne hwf r v (by unfold THERM_SENSOR PWR_CTRL; omega)

theorem Die.coolEnough_store {r : RegRow} (hr : findRow PWR_CTRL = some r) (v : Nat) (h : d.coolEnough) : (d.store r PWR_CTRL v).coolEnough := by
  obtain ⟨hhalt, hcool⟩ := h
  refine ⟨(Die.halt_store hwf hr v).trans hhalt, ?_⟩
  rw [Die.readings_store hwf r v, show (d.store r PWR_CTRL v).get THERM_LIMITS_WARN = d.get THERM_LIMITS_WARN from
    Die.get_of_raw (Die.raw_store_of_ne hwf r v (by decide))]
  exact hcool

/-- The end of a halt: P5 with its voltage, and the memory out of self-refresh (R530). -/
theorem Die.halted5_spec : d.halted5.bit PWR_CTRL_THERMAL_HALT = false ∧ d.halted5.get PWR_STATUS_POINT = 5 ∧ d.halted5.pins.vid = 0x1E
    ∧ d.halted5.bit HBM_STATUS_SELF_REFRESH = false := by
  have hwf1 := hwf.putB PWR_CTRL_THERMAL_HALT false
  have hwf2 : (((d.putB PWR_CTRL_THERMAL_HALT false).setPoint 5).setVid 5).regsWf := hwf1.put PWR_STATUS_POINT 5
  have hwf3 := hwf2.putB HBM_STATUS_SELF_REFRESH false
  refine ⟨?_, ?_, rfl, ?_⟩
  · rw [Die.halted5, Die.setDuty_eq, Die.bit_put_of_apart hwf3 _ (by decide) (.inl (by decide)), Die.bit_putB_of_apart hwf2 _ (by decide) (.inl (by decide))]
    exact (Die.bit_put_of_apart hwf1 5 (by decide) (.inl (by decide))).trans (Die.bit_putB hwf false (by decide) rfl)
  · rw [Die.halted5, Die.setDuty_eq, Die.get_put_of_apart hwf3 _ (by decide) (.inr (by decide)), Die.putB, Die.get_put_of_apart hwf2 _ (by decide) (.inl (by decide))]
    exact Die.get_put hwf1 5 (by decide)
  · rw [Die.halted5, Die.setDuty_eq, Die.bit_put_of_apart hwf3 _ (by decide) (.inl (by decide))]
    exact Die.bit_putB hwf2 false (by decide) rfl

end

/-- Settles O54. -/
theorem powerAndClocks : Obligations.PowerAndClocks := by
  refine ⟨⟨fun s temps hawake hlen => ⟨onAwake_awake _ hawake, (onWf_wf _ s (beq_iff_eq.mpr hlen)).trans (onAwake_awake _ hawake)⟩, fun d hcanon => ?_, fun d hcanon => ?_,
    fun s who v r hreach hp hr => ?_, fun s who v hreach hp hcanon hv hhalt hcool => ?_⟩, fun s rail pll hawake => ?_⟩
  · obtain ⟨-, hkeep⟩ := d.setDuty_writes hcanon.regsWf
    have hduty {n : Nat} (h : d.duty = n) (hn : n < 32) : d.setDuty.get PWR_STATUS_K = n := (Die.get_setDuty hcanon.regsWf (h ▸ hn)).trans h
    exact ⟨hkeep, fun h => hduty (Die.duty_of_halt h) (by decide), fun hdue hhalt => ⟨fun hhot => hduty (Die.duty_of_hot hdue hhalt hhot) (by decide),
      fun hhot hfast => hduty (Die.duty_of_fast hdue hhalt hhot hfast) (d.get_lt PWR_CTRL_FAST_K),
      fun hhot hfast hk => hduty (Die.duty_of_controller hdue hhalt hhot hfast) (by omega)⟩⟩
  · have hpower := Die.power_thermal hcanon.regsWf
    dsimp only at hpower ⊢
    rw [hpower]
    dsimp only
    refine ⟨decide_eq_true_iff, decide_eq_true_iff, fun h => if_pos ?_, fun h => if_pos ?_, fun h => ?_, fun h => ?_⟩
    · rw [Die.tooHot, decide_eq_true h, Bool.true_or]
    · rw [Die.tooHot, Bool.or_eq_true, decide_eq_true_eq, decide_eq_true_eq]
      exact .inr (by omega)
    · rw [decide_eq_true h, Bool.true_and, Bool.or_eq_true, Bool.not_eq_true']
      cases d.bit PWR_CTRL_THERMAL_HALT with
      | true => exact .inr rfl
      | false => exact .inl (.inr rfl)
    · rw [decide_eq_false (not_le.mpr h), Bool.false_and, Bool.or_false]
  · have hwrite := becomes_thermalResume (v := v) hreach hp hr
    refine ⟨fun ⟨hv, hcool⟩ => becomes_congr hwrite ((if_pos hv).trans (Die.resume_of_cool hcool)), fun h => becomes_congr hwrite ?_⟩
    by_cases hv : v.getLsbD 9 = true
    · exact (if_pos hv).trans (Die.resume_of_warm fun hcool => h ⟨hv, hcool⟩)
    · exact if_neg hv
  · obtain ⟨r, hr⟩ : ∃ r, findRow PWR_CTRL = some r := ⟨_, rfl⟩
    have hwf := hcanon.regsWf.store r PWR_CTRL v.toNat
    exact ⟨_, becomes_congr (becomes_thermalResume hreach hp hr) ((if_pos hv).trans (Die.resume_of_cool (Die.coolEnough_store hcanon.regsWf hr _ ⟨hhalt, hcool⟩))),
      Die.halted5_spec hwf⟩
  · refine ⟨onAwake_awake _ hawake, onAwake_awake _ hawake, onAwake_awake _ hawake, ?_, fun e cause unit extra cls hcanon hc => ?_⟩
    · exact becomes_congr (show becomes .thermtrip s (opThermtrip s.die) from onAwake_awake _ hawake) (if_pos hawake)
    · obtain ⟨-, hkeep⟩ := Die.pwrEvent_writes (d := e) (cause := cause) (unit := unit) (extra := extra) (cls := cls) hcanon.regsWf
      exact ⟨Die.slots_pwrEvent, hkeep, Die.bit_pwrEvent hcanon.regsWf, Die.pwrEvent_of_valid, fun hv => Die.cause_pwrEvent hcanon.regsWf hv hc⟩

end Sys2Proof.Machine
end

section
/-! PROOF. Power, reset and boot, the ID chain, the I3C target and the JTAG port (spec 16, R26, R358, R519, R532 to R536, R560, R563, R568, R569). -/

namespace Sys2Proof.Machine

/-! ### Boot -/

section
variable {d : Die}

theorem opBootStart_of_off (h : d.boot.phase = .off) : opBootStart d = ({ d with pins := { d.pins with pwrGood := true, resetN := true } } : Die).beginBoot :=
  if_pos (by rw [h]; rfl)

theorem opBootStart_of_on (h : d.boot.phase ≠ .off) : opBootStart d = d := if_neg (by rw [beq_iff_eq]; exact h)

theorem opResetNFall_of_up (h : d.pins.pwrGood = true ∧ d.pins.resetN = true) : opResetNFall d
    = (let e : Die := { d with pins := { d.pins with resetN := false } }
      if d.boot.phase = .dormant then e.leaveDormant else e.dieReset) := by
  obtain ⟨hpower, hreset⟩ := h
  refine (if_neg (by rw [hpower, hreset]; decide)).trans ?_
  simp only [beq_iff_eq]

theorem opResetNFall_of_down (h : ¬(d.pins.pwrGood = true ∧ d.pins.resetN = true)) : opResetNFall d = d := by
  refine if_pos ?_
  rw [Bool.or_eq_true, Bool.not_eq_true', Bool.not_eq_true', ← Bool.not_eq_true, ← Bool.not_eq_true]
  exact not_and_or.mp h

section
variable {a b : BootSlot}

theorem opBootImageVerify_of_other (h : ¬(d.boot.phase = .boot ∧ d.boot.verified = false)) : opBootImageVerify [a, b] d = d := by
  refine if_pos ?_
  rw [Bool.or_eq_true, bne_iff_ne, ← Bool.not_eq_false]
  exact not_and_or.mp h

variable (hboot : d.boot.phase = .boot ∧ d.boot.verified = false)
include hboot

/-- The boot ROM tries the slots, in stages 1 and 2. -/
theorem opBootImageVerify_of_none {e : Die} (h : Die.trySlots (slotOrder [a, b]) false (d.put BOOT_STATUS_STAGE 1) = (none, e)) : opBootImageVerify [a, b] d
    = { ((e.put BOOT_STATUS_STAGE 2).secEvent 1 .fatal).put BOOT_STATUS_STAGE 15 with
        boot := { ((e.put BOOT_STATUS_STAGE 2).secEvent 1 .fatal).boot with phase := .failed } } := by
  obtain ⟨hphase, hfresh⟩ := hboot
  refine (if_neg (by rw [hphase, hfresh]; decide)).trans ?_
  dsimp only
  rw [h] <;> rfl

theorem opBootImageVerify_of_some {e : Die} {slot aFailed : Bool} {x : BootSlot}
    (h : Die.trySlots (slotOrder [a, b]) false (d.put BOOT_STATUS_STAGE 1) = (some (slot, x, aFailed), e)) : opBootImageVerify [a, b] d
    = (let f := if slot = true ∧ aFailed = true then (e.put BOOT_STATUS_STAGE 2).secEvent 2 .corrected else e.put BOOT_STATUS_STAGE 2
      let f := ((((f.putB BOOT_STATUS_SLOT slot).putB BOOT_STATUS_OWNER_KEY (!x.genfeson)).put BOOT_STATUS_SVN x.svn).put BOOT_STATUS_STAGE 3).putB BOOT_STATUS_PRESERVED f.boot.preserved
      let f := (f.put PWR_CAP_BOARD_MAX x.boardMax).putB ST_CTRL_BOOT_BIST x.bootBist
      { f with host := { f.host with subVendor := x.subVendor, subId := x.subId, rom := x.romPresent }, boot := { f.boot with verified := true, altRoot := x.altRoot } }) := by
  obtain ⟨hphase, hfresh⟩ := hboot
  refine (if_neg (by rw [hphase, hfresh]; decide)).trans ?_
  dsimp only
  rw [h]
  simp only [Bool.and_eq_true]

end

theorem opHbmZeroing_eq : opHbmZeroing d = if d.mustZero = true ∧ d.bit ST_CTRL_BOOT_BIST = false then d.zeroDone else d :=
  if_congr (by rw [Bool.and_eq_true, Bool.not_eq_true']) rfl rfl

theorem opBootBist_eq {fails : List Nat} : opBootBist fails d
    = if d.mustZero = true ∧ d.bit ST_CTRL_BOOT_BIST = true then (fails.foldl Die.bistFails d).zeroDone.putB BOOT_STATUS_BIST_RAN true else d :=
  if_congr (by rw [Bool.and_eq_true]) rfl rfl

/-- An image is verified, memory is ready and the host link is up (R532). -/
def Die.bootReady (d : Die) : Prop := d.boot.phase = .boot ∧ d.boot.verified = true ∧ d.mustZero = false ∧ d.host.trained = true

theorem Die.bootReady_iff : (d.boot.phase == .boot && d.boot.verified && !d.mustZero && d.host.trained) = true ↔ d.bootReady := by
  rw [Bool.and_eq_true, Bool.and_eq_true, Bool.and_eq_true, beq_iff_eq, Bool.not_eq_true', and_assoc, and_assoc]
  rfl

theorem opBootReady_of_ready {ms : Nat} (h : d.bootReady) : opBootReady ms d
    = (let e := ((d.put BOOT_STATUS_STAGE 6).put BOOT_STATUS_MS (ms / 2)).put GROOM_STATUS_STATE 1
      { e with boot := { e.boot with phase := .ready }, tick := { e.tick with beats := true },
               cp := { e.cp with groom := { e.cp.groom with budgetLeft := e.get GROOM_BUDGET_UNITS, skip := [], served := none, wdog := 0 } } }) :=
  if_pos (Die.bootReady_iff.mpr h)

theorem opBootReady_of_not {ms : Nat} (h : ¬d.bootReady) : opBootReady ms d = d := if_neg (mt Die.bootReady_iff.mp h)

theorem Die.trySlots_cons (slot aFailed : Bool) (x : BootSlot) (rest : List (Bool × BootSlot)) (d : Die) : Die.trySlots ((slot, x) :: rest) aFailed d
    = (let e := if x.retried then d.secEvent 3 .corrected else d
      if e.imageOk x then (some (slot, x, aFailed), e) else Die.trySlots rest (aFailed || !slot) e) := rfl

/-! ### The ID chain -/

section
variable {die : DieIx} {pkg : PkgIx} {ok : Bool}

theorem opIdFrameReceive_of_stopped (h : d.running = false) : opIdFrameReceive die pkg ok d = d := if_pos (by rw [h]; rfl)

theorem opIdFrameSend_of_stopped (h : d.running = false) : opIdFrameSend d = d := if_pos (by rw [h]; rfl)

/-- The frames in a row that a die has (R564). -/
def Die.frames (d : Die) (die : DieIx) (pkg : PkgIx) (ok : Bool) : List (DieIx × PkgIx) :=
  if ok then (if d.pins.idFrames.head? = some (die, pkg) then ((die, pkg) :: d.pins.idFrames).take 3 else [(die, pkg)]) else []

/-- The die keeps these frames. -/
def Die.framed (d : Die) (die : DieIx) (pkg : PkgIx) (ok : Bool) : Die := { d with pins := { d.pins with idFrames := d.frames die pkg ok } }

variable (hrun : d.running = true)
include hrun

theorem opIdFrameReceive_of_running : opIdFrameReceive die pkg ok d
    = if (d.frames die pkg ok).length ≠ 3 then d.framed die pkg ok
      else if d.pins.lead = true then (d.framed die pkg ok).chainFails 0
      else if d.dieId = none ∧ d.boot.chainBad = false then { d.framed die pkg ok with dieId := some die, pkgId := some pkg } else d.framed die pkg ok := by
  have hframes : (if (!ok) = true then [] else if (d.pins.idFrames.head? == some (die, pkg)) = true then ((die, pkg) :: d.pins.idFrames).take 3 else [(die, pkg)])
      = d.frames die pkg ok := by
    simp only [beq_iff_eq]
    cases ok <;> rfl
  refine (if_neg (by rw [hrun]; decide)).trans ?_
  dsimp only
  rw [hframes]
  exact if_congr bne_iff_ne rfl (if_congr Iff.rfl rfl (if_congr (by rw [Bool.and_eq_true, Option.isNone_iff_eq_none, Bool.not_eq_true']) rfl rfl))

/-- The die sends its frame. -/
def Die.sendsFrame (d : Die) (x : DieIx) (p : PkgIx) : Die := ({ d with pins := { d.pins with idSending := true } } : Die).emit (.idFrame x p)

theorem opIdFrameSend_of_lead (hl : d.pins.lead = true) : opIdFrameSend d = d.sendsFrame 0 d.pins.pkgStrap :=
  (if_neg (by rw [hrun]; decide)).trans (if_pos hl)

variable (hl : d.pins.lead = false)
include hl

theorem opIdFrameSend_of_next {x y : DieIx} {p : PkgIx} (hx : d.dieId = some x) (hp : d.pkgId = some p) (hy : y.val = x.val + 1) : opIdFrameSend d = d.sendsFrame y p := by
  have hlt : x.val + 1 < 8 := hy ▸ y.isLt
  refine (if_neg (by rw [hrun]; decide)).trans ((if_neg (by rw [hl]; decide)).trans ?_)
  split
  next x' p' hx' hp' =>
    obtain rfl := Option.some.inj (hx.symm.trans hx')
    obtain rfl := Option.some.inj (hp.symm.trans hp')
    exact (dif_pos hlt).trans (congrArg (d.sendsFrame · p) (Fin.ext hy.symm))
  next hno => exact absurd hp (hno x p hx)

theorem opIdFrameSend_of_last (h : d.dieId = none ∨ d.pkgId = none ∨ d.dieId = some 7) : opIdFrameSend d = d := by
  refine (if_neg (by rw [hrun]; decide)).trans ((if_neg (by rw [hl]; decide)).trans ?_)
  split
  next x p hx hp =>
    rw [hx, hp] at h
    obtain rfl : x = 7 := by simpa using h
    exact dif_neg (by decide)
  next => rfl

end

/-! ### The I3C target and the JTAG port -/

/-- An instruction of the JTAG port is in force, and a word leaves. -/
def Die.shifts (d : Die) (ir : JtagIr) (w : Nat) : Die := ({ d with boot := { d.boot with jtag := ir } } : Die).emit (.tdo w)

section
variable (hpower : d.pins.pwrGood = true)
include hpower

theorem Die.jtag_of_power (ir : JtagIr) : d.jtag ir = d.shifts ir (match ir with | .idcode => d.idcode | _ => 0) := if_neg (by rw [hpower]; decide)

theorem opFuseProgram_of_reset {digest : BitVec 384} (hr : d.pins.resetN = false) : opFuseProgram digest d
    = if d.fuses.ownerKey = none then { d.shifts .fuseProgram 0 with fuses := { d.fuses with ownerKey := some digest } } else d.shifts .fuseProgram 0 := by
  have hjtag : d.jtag .fuseProgram = d.shifts .fuseProgram 0 := Die.jtag_of_power hpower _
  refine (if_neg (by rw [hr]; decide)).trans ?_
  rw [hjtag]
  exact if_congr (by rw [hpower, Bool.true_and, Option.isNone_iff_eq_none]) rfl rfl

end

section
variable (hpower : d.pins.pwrGood = false)
include hpower

theorem Die.jtag_of_no_power (ir : JtagIr) : d.jtag ir = d := if_pos (by rw [hpower]; rfl)

theorem opFuseProgram_of_no_power {digest : BitVec 384} : opFuseProgram digest d = d := by
  rw [opFuseProgram, Die.jtag_of_no_power hpower, Die.jtag_of_no_power hpower, hpower, Bool.false_and, if_neg Bool.false_ne_true, ite_self]

end

end

/-- Settles O55. -/
theorem bootAndPins : Obligations.BootAndPins := by
  refine ⟨fun s a b ms fails hfails => ?_, fun slot aFailed x rest d => ⟨rfl, Die.trySlots_cons slot aFailed x rest d⟩, fun s die pkg ok off v addr digest => ?_⟩
  · have hstart : becomes .bootStart s (opBootStart s.die) := rfl
    have hfall : becomes .resetNFall s (opResetNFall s.die) := rfl
    have hverify : becomes (.bootImageVerify [a, b]) s (opBootImageVerify [a, b] s.die) := onWf_wf _ s rfl
    have hzero : becomes .hbmZeroing s (opHbmZeroing s.die) := rfl
    have hbist : becomes (.bootBist fails) s (opBootBist fails s.die) :=
      onWf_wf _ s (List.all_eq_true.mpr fun c hc => decide_eq_true (hfails c hc))
    have hready : becomes (.bootReady ms) s (opBootReady ms s.die) := rfl
    refine ⟨fun h => becomes_congr hstart (opBootStart_of_off h), fun h => becomes_congr hstart (opBootStart_of_on h), fun h => becomes_congr hfall (opResetNFall_of_up h),
      fun h => becomes_congr hfall (opResetNFall_of_down h), rfl, fun h => becomes_congr hverify (opBootImageVerify_of_other h), fun h r e htry => ⟨fun hr => ?_, fun slot x aFailed hr => ?_⟩,
      fun h => if_pos h, fun h => if_neg (not_lt.mpr h), ⟨fun h => becomes_congr hzero (opHbmZeroing_eq.trans (if_pos h)), fun h => becomes_congr hzero (opHbmZeroing_eq.trans (if_neg h))⟩,
      ⟨fun h => becomes_congr hbist (opBootBist_eq.trans (if_pos h)), fun h => becomes_congr hbist (opBootBist_eq.trans (if_neg h))⟩, ⟨rfl, rfl, rfl⟩,
      ⟨fun h => becomes_congr hready (opBootReady_of_ready h), fun h => becomes_congr hready (opBootReady_of_not h)⟩⟩
    · subst hr
      exact becomes_congr hverify (opBootImageVerify_of_none h htry)
    · subst hr
      exact becomes_congr hverify (opBootImageVerify_of_some h htry)
  · have hreceive : becomes (.idFrameReceive die pkg ok) s (opIdFrameReceive die pkg ok s.die) := rfl
    have hsend : becomes .idFrameSend s (opIdFrameSend s.die) := rfl
    have hwrite : becomes (.i3cPrivateWrite off v) s (opI3cPrivateWrite off v s.die) := rfl
    have hread : becomes .i3cPrivateRead s (opI3cPrivateRead s.die) := rfl
    have haddr : becomes (.dynamicAddressAssignment addr) s (opDynamicAddressAssignment addr s.die) := rfl
    have hidcode : becomes .idcode s (s.die.jtag .idcode) := rfl
    have hbypass : becomes .bypass s (s.die.jtag .bypass) := rfl
    have hextest : becomes .extest s (s.die.jtag (if s.die.pins.resetN then .bypass else .extest)) := rfl
    have hfuse : becomes (.fuseProgram digest) s (opFuseProgram digest s.die) := rfl
    refine ⟨fun h => ⟨becomes_congr hreceive (opIdFrameReceive_of_stopped h), becomes_congr hsend (opIdFrameSend_of_stopped h)⟩, fun h => ⟨?_, ?_⟩, fun h => ?_, fun h => ?_⟩
    · have hrun := becomes_congr hreceive (opIdFrameReceive_of_running (die := die) (pkg := pkg) (ok := ok) h)
      refine ⟨fun hn => becomes_congr hrun (if_pos hn), fun hn => ?_⟩
      have hthree := becomes_congr hrun (if_neg (not_not_intro hn))
      refine ⟨fun hl => becomes_congr hthree (if_pos hl), fun hl => ?_⟩
      have hother := becomes_congr hthree (if_neg (by rw [hl]; decide))
      exact ⟨fun hc => becomes_congr hother (if_pos hc), fun hc => becomes_congr hother (if_neg hc)⟩
    · exact ⟨fun hl => becomes_congr hsend (opIdFrameSend_of_lead h hl), fun hl => ⟨fun x y p hx hp hy => becomes_congr hsend (opIdFrameSend_of_next h hl hx hp hy),
        fun hlast => becomes_congr hsend (opIdFrameSend_of_last h hl hlast)⟩⟩
    · refine ⟨becomes_congr hwrite (if_pos h), becomes_congr hread (if_pos h), becomes_congr haddr (if_pos h), becomes_congr hidcode (Die.jtag_of_power h _),
        becomes_congr hbypass (Die.jtag_of_power h _), becomes_congr hextest ((Die.jtag_of_power h _).trans ?_),
        fun hr => becomes_congr hfuse ((if_pos hr).trans (Die.jtag_of_power h _)), fun hr => ?_⟩
      · cases s.die.pins.resetN <;> rfl
      · have hburn := becomes_congr hfuse (opFuseProgram_of_reset (digest := digest) h hr)
        exact ⟨fun hk => becomes_congr hburn (if_pos hk), fun hk => becomes_congr hburn (if_neg hk)⟩
    · have hno : ¬s.die.pins.pwrGood = true := by rw [h]; exact Bool.false_ne_true
      exact ⟨becomes_congr hwrite (if_neg hno), becomes_congr hread (if_neg hno), becomes_congr haddr (if_neg hno), becomes_congr hidcode (Die.jtag_of_no_power h _),
        becomes_congr hbypass (Die.jtag_of_no_power h _), becomes_congr hextest (Die.jtag_of_no_power h _), becomes_congr hfuse (opFuseProgram_of_no_power h)⟩

end Sys2Proof.Machine
end

section
/-! PROOF. Register accesses, reserved offsets and memory (spec 17, R264, R295 to R300, R542, R544; R273). -/

namespace Sys2Proof.Machine

/-! ### Accesses of the host -/

/-- Bytes of the BAR that a requester sees (R404, R541, R549). -/
def barTop (who : Who) (bar2 : Bool) : Nat := if bar2 then 0x2000000 else if who.part = 0 then 0x4000000 else 0x100000

/-- The access does not lie outside a BAR of the host. -/
def insideBar (who : Who) (bar2 : Bool) (off : Nat) : Prop := (∃ p x, who = .dev p x) ∨ off < barTop who bar2

section
variable {d : Die} {who : Who} {bar2 : Bool} {off : Nat} {f : Die → Die}

theorem inBar_size : (if bar2 then 0x2000000 else if who.part.val == 0 then 0x4000000 else 0x100000) = barTop who bar2 :=
  if_congr Iff.rfl rfl (if_congr (by rw [beq_iff_eq, Fin.ext_iff]; rfl) rfl rfl)

theorem inBar_of_inside (h : insideBar who bar2 off) : inBar who bar2 off f d = f d := by
  cases who with
  | dev p x => rfl
  | fn p tlp =>
    rcases h with ⟨p', x, hdev⟩ | h
    · cases hdev
    · exact if_pos (inBar_size.symm ▸ h)

theorem inBar_of_outside {p : PartIx} {tlp : Tlp} (h : barTop (.fn p tlp) bar2 ≤ off) : inBar (.fn p tlp) bar2 off f d = d.unsupported p 0 :=
  if_neg (inBar_size.symm ▸ not_lt.mpr h)

end

section
variable {s : State} {who : Who} {bar2 : Bool} {off : Nat}

theorem becomes_registerWrite (v : W32) (hreach : Reaches s.die who true) :
    becomes (.registerWrite who bar2 off v) s (inBar who bar2 off (posted who bar2 off v (opRegisterWrite who bar2 off v)) s.die) := by
  change onDie _ s = _
  rw [onDie_eq, fromHost_reaches hreach]

theorem becomes_reservedAccess {write : Bool} (size : Bool) (hreach : Reaches s.die who write) :
    becomes (.reservedAccess who bar2 off write size) s (inBar who bar2 off (postedReserved who bar2 off write size) s.die) := by
  change onDie _ s = _
  rw [onDie_eq, fromHost_reaches hreach]

end

section
variable {d : Die} {who : Who} {bar2 : Bool} {off : Nat}

theorem posted_of_held {v : W32} {f : Die → Die} (h : bar2 = false ∧ d.addHeld who.part.val off = true) :
    posted who bar2 off v f d = d.enqueueHost (.regWrite who bar2 off v.toNat) := by
  obtain ⟨hbar, hheld⟩ := h
  exact if_pos (by rw [hbar, hheld, Bool.not_false, Bool.and_true, Bool.or_true])

theorem not_held_iff : ¬(bar2 = false ∧ d.addHeld who.part.val off = true) ↔ (!bar2 && d.addHeld who.part.val off) = false := by
  rw [← Bool.not_eq_true (!bar2 && d.addHeld who.part.val off), Bool.and_eq_true, Bool.not_eq_true']

variable {write size : Bool} (hfirst : d.hostBehind who = false)
include hfirst

theorem postedReserved_of_due (h : write = false ∧ d.effectDue who = true) : postedReserved who bar2 off write size d = d.enqueueHost (.reserved who bar2 off write size) := by
  obtain ⟨hwrite, hdue⟩ := h
  exact if_pos (by rw [hfirst, hwrite, hdue]; rfl)

theorem postedReserved_of_free (h : ¬(write = false ∧ d.effectDue who = true)) : postedReserved who bar2 off write size d = opReservedAccess who bar2 off write size d :=
  if_neg (by rw [hfirst, Bool.false_or, Bool.and_eq_true, Bool.not_eq_true']; exact h)

end

section
variable {d : Die} {who : Who} {bar2 write size : Bool} {off : Nat}

theorem opReservedAccess_of_size (h : write = true ∧ size = true) : opReservedAccess who bar2 off write size d = d.reserved who bar2 true true off :=
  if_pos (by rw [Bool.and_eq_true]; exact h)

theorem opReservedAccess_of_reserved (hs : ¬(write = true ∧ size = true)) (h : d.isReserved who bar2 off write = true) : opReservedAccess who bar2 off write size d
    = if write then d.reserved who bar2 write false off else (d.reserved who bar2 write false off).emit (.regData who off 0) :=
  (if_neg (by rw [Bool.and_eq_true]; exact hs)).trans (if_pos h)

theorem opReservedAccess_of_register (hs : ¬(write = true ∧ size = true)) (h : d.isReserved who bar2 off write = false) : opReservedAccess who bar2 off write size d = d :=
  (if_neg (by rw [Bool.and_eq_true]; exact hs)).trans (if_neg (by rw [h]; exact Bool.false_ne_true))

end

/-! ### Offsets without a register -/

section
variable {d : Die} {who : Who} {off v : Nat}

theorem Die.writeBar0_of_unaligned (h : off % 4 ≠ 0) : d.writeBar0 who off v = d.reserved who false true true off := if_pos (bne_iff_ne.mpr h)

variable (hlow : off < 0x2000000) (hp : who.part = 0) (ha : off % 4 = 0) (hreg : isReg off = false)
include hlow hp ha hreg

theorem Die.writeBar0_of_no_register : d.writeBar0 who off v = d.reserved who false true false off := by
  have hrow : findRow off = none := by
    rw [isReg, Bool.or_eq_false_iff] at hreg
    exact Option.isNone_iff_eq_none.mp (by rw [← Option.not_isSome, hreg.1]; rfl)
  have htable (lo hi : Nat) (h : off < lo) : (decide (lo ≤ off) && decide (off < hi)) = false := by rw [decide_eq_false (not_le.mpr h), Bool.false_and]
  unfold Die.writeBar0
  rw [if_neg (by rw [ha]; decide), if_pos (by rw [hp]; rfl), if_neg (by rw [htable _ _ (by omega)]; decide), if_neg (by rw [htable _ _ (by omega)]; decide), Die.writePf, hrow]
  exact if_neg (by rw [hreg]; decide)

theorem Die.isReserved_of_no_register (write : Bool) : d.isReserved who false off write = true := by
  have htable (lo hi : Nat) (h : off < lo) : (decide (lo ≤ off) && decide (off < hi)) = false := by rw [decide_eq_false (not_le.mpr h), Bool.false_and]
  unfold Die.isReserved
  rw [if_neg Bool.false_ne_true, if_neg (by rw [ha]; decide), if_pos (by rw [hp]; rfl), if_neg (by rw [htable _ _ (by omega)]; decide),
    if_neg (by rw [htable _ _ (by omega)]; decide), hreg]
  rfl

end

/-! ### Registers without side effects -/

/-- A register is stored by the access codes of its bits; no other register changes (R16, R544). -/
theorem Die.store_spec {d : Die} (hwf : d.regsWf) {r : RegRow} {off v i : Nat} (hi : i < 32) (hrange : d.inRange off v = v) :
    ((d.store r off v).raw off).testBit i = ((if r.rw.testBit i then v.testBit i else (d.raw off).testBit i) && !(r.w1c.testBit i && v.testBit i))
      ∧ d.keepsRegs (d.store r off v) [off] := by
  refine ⟨?_, fun q hq => Die.raw_store_of_ne hwf r v fun h => hq (List.mem_singleton.mpr h)⟩
  rw [Die.testBit_raw_store hwf r off v i hi, hrange]
  cases r.w1c.testBit i && v.testBit i
  · rw [if_neg Bool.false_ne_true, Bool.not_false, Bool.and_true]
  · rw [if_pos rfl, Bool.not_true, Bool.and_false]

/-- The row of the low words of the peer-to-peer ranges (R418). -/
def p2pRow : RegRow := { base := 0x300, n1 := 8, s1 := 0x10, n2 := 1, s2 := 0x4, rw := 0xffffffff, w1c := 0x0, w1s := 0x0, digested := false, modeOnly := false }

theorem Die.effect_p2pBase (d : Die) (who : Who) {k : Nat} (hk : k < 8) (v : Nat) : ∃ r, findRow (P2P_BASE_LO k) = some r ∧ r.digested = false ∧ r.modeOnly = false
    ∧ d.effect who r (P2P_BASE_LO k) v = d.store p2pRow (P2P_BASE_LO k) v := by
  interval_cases k <;> exact ⟨_, rfl, rfl, rfl, rfl⟩

theorem Die.inRange_p2pBase (d : Die) {k : Nat} (hk : k < 8) (v : Nat) : d.inRange (P2P_BASE_LO k) v = v := by
  interval_cases k <;> rfl

/-- A word whose bits are all RW holds what is written. -/
theorem Die.raw_store_of_rw {d : Die} (hwf : d.regsWf) {r : RegRow} (hrw : r.rw = 0xffffffff) (hw1c : r.w1c = 0) {off : Nat} (v : W32) (hrange : d.inRange off v.toNat = v.toNat) :
    (d.store r off v.toNat).raw off = v.toNat := by
  refine Nat.eq_of_testBit_eq fun i => ?_
  by_cases hi : i < 32
  · have hall : (0xffffffff : Nat).testBit i = true := by
      rw [show (0xffffffff : Nat) = 2 ^ 32 - 1 from rfl, Nat.testBit_two_pow_sub_one]
      exact decide_eq_true hi
    rw [Die.testBit_raw_store hwf r off _ i hi, hrange, hw1c, hrw, Nat.zero_testBit, hall]
    rfl
  · have hbig (x : BitVec 32) : x.toNat.testBit i = false := Nat.testBit_eq_false_of_lt (Nat.lt_of_lt_of_le x.isLt (Nat.pow_le_pow_right (by decide) (not_lt.mp hi)))
    rw [hbig]
    exact hbig _

/-- Settles O56. -/
theorem registerAccesses : Obligations.RegisterAccesses := by
  refine ⟨⟨fun s who bar2 size off v write hreach => ?_, fun d who off v hlow => ⟨Die.writeBar0_of_unaligned, fun hp ha hreg =>
      ⟨Die.writeBar0_of_no_register hlow hp ha hreg, Die.isReserved_of_no_register hlow hp ha hreg true, Die.isReserved_of_no_register hlow hp ha hreg false⟩⟩,
    fun s who k v hreach hp hk hcanon => ?_, fun d r off v i hcanon hi hrange => Die.store_spec hcanon.regsWf hi hrange⟩,
    fun m a b x hm => ⟨memPut_wf m a x hm, memGet_memPut m a b x hm⟩⟩
  · have haccess := becomes_reservedAccess (bar2 := bar2) (off := off) size hreach
    have hfirst : s.die.hostBehind who = false := by
      obtain ⟨-, hfirst, -⟩ := hreach
      exact hfirst
    refine ⟨fun p tlp hwho hout => ?_, fun hin hwrite => ⟨fun hheld => ?_, fun hheld => ?_⟩,
      fun hin hdue => becomes_congr haccess ((inBar_of_inside hin).trans (postedReserved_of_due hfirst hdue)), fun hin hdue => ?_⟩
    · subst hwho
      refine ⟨becomes_congr haccess (inBar_of_outside hout), fun hwrite => ?_⟩
      subst hwrite
      exact becomes_congr (becomes_registerWrite v hreach) (inBar_of_outside hout)
    · subst hwrite
      exact becomes_congr (becomes_registerWrite v hreach) ((inBar_of_inside hin).trans (posted_of_held hheld))
    · subst hwrite
      exact becomes_congr (becomes_registerWrite v hreach) ((inBar_of_inside hin).trans (posted_reaches hreach (not_held_iff.mp hheld)))
    · have hfree := becomes_congr haccess ((inBar_of_inside hin).trans (postedReserved_of_free hfirst hdue))
      exact ⟨fun hs => becomes_congr hfree (opReservedAccess_of_size hs), fun hs => ⟨fun h => becomes_congr hfree (opReservedAccess_of_reserved hs h),
        fun h => becomes_congr hfree (opReservedAccess_of_register hs h)⟩⟩
  · have hoff : P2P_BASE_LO k < 0x2000000 ∧ P2P_BASE_LO k % 4 = 0 := by
      unfold P2P_BASE_LO
      omega
    obtain ⟨hlow, halign⟩ := hoff
    have hin : insideBar who false (P2P_BASE_LO k) := .inr (by rw [barTop, if_neg Bool.false_ne_true, if_pos hp]; omega)
    have hwrite := becomes_congr (becomes_registerWrite (bar2 := false) v hreach) ((inBar_of_inside hin).trans (posted_reaches hreach (by rw [hp]; exact addHeld_low s.die _ hlow)))
    refine ⟨_, becomes_congr hwrite (Die.writeBar0_of_effect hp (by omega) halign (s.die.effect_p2pBase who hk v.toNat)),
      fun q hq => Die.raw_store_of_ne hcanon.regsWf _ _ fun h => hq (List.mem_singleton.mpr h), Die.raw_store_of_rw (r := p2pRow) hcanon.regsWf rfl rfl v (s.die.inRange_p2pBase hk _), rfl⟩

end Sys2Proof.Machine
end

section
/-! PROOF. The canonical forms under the operations on tables, registers, memory and cores, and under the shapes in which the model composes them: what the
preservation of the canonical forms by every function of the model (the files that follow) starts from. -/

namespace Sys2Proof.Machine

/-- A table from which entries are dropped stays in its canonical form. -/
theorem tblWf_filter {α : Type} [DecidableEq α] {dflt : Nat → α} (keep : Nat × α → Bool) {lo : Option Nat} {t : List (Nat × α)}
    (h : tblWf dflt lo t = true) : tblWf dflt lo (t.filter keep) = true := by
  induction t generalizing lo with
  | nil => rfl
  | cons e t ih =>
    obtain ⟨hlo, hv, ht⟩ := tblWf_cons.mp h
    rw [List.filter_cons]
    split
    · exact tblWf_cons.mpr ⟨hlo, hv, ih ht⟩
    · exact ih (tblWf_weaken ht hlo)

/-- A table in which several keys are written stays in its canonical form. -/
theorem tblWf_foldl_tblPut {α β : Type} [DecidableEq α] {dflt : Nat → α} {key : β → Nat} {v : β → α} (l : List β) {t : List (Nat × α)}
    (h : tblWf dflt none t = true) : tblWf dflt none (l.foldl (fun t x => tblPut dflt t (key x) (v x)) t) = true := by
  induction l generalizing t with
  | nil => exact h
  | cons x xs ih => exact ih (tblPut_wf (key x) (v x) h fun _ hl => nomatch hl)

section
variable {d t : Die} {k q : Core}

/-! ### A core -/

theorem Core.canonical.default : ({} : Core).canonical := ⟨rfl, rfl, rfl⟩

/-- What a record update leaves canonical: the scalar registers, the store and the accumulators are those of the core, and so are the free values. -/
theorem Core.canonical.update {run : Option SliceRun} {inReset stopAcked tileBuf active switched : Bool} {pc nextOp nextSeq notBefore : Nat}
    {vreg : List (Nat × VecData)} {mask : List (Nat × LaneMask)} {srSeed srTensor srStep rowMask colMask : W64} {crib : List Host.Cell}
    {cribErr : List (Nat × CribErr)} {tileScale moveScale : List (Nat × Byte)} {moveBuf storeFmt : BitVec 4} {held : List ScaleRead}
    {storeBad accBad progBad loading : List Nat} {scaleBad : List (Bool × BitVec 2 × Byte)} {streams : List Stream} {engines : List (Nat × EngOp)}
    {ops : List CoreOpEntry} {prog : List (Nat × W64)} {switch : Option Nat} {switchCount : W16} {wait : Option CoreWait} (h : k.canonical) :
    Core.canonical { k with
      run, inReset, stopAcked, pc, vreg, mask, srSeed, srTensor, srStep, crib, cribErr, tileScale, tileBuf, moveScale, moveBuf, held, storeFmt, storeBad, accBad,
      scaleBad, rowMask, colMask, streams, engines, ops, nextOp, nextSeq, prog, progBad, active, switch, switched, loading, switchCount, wait, notBefore } := h

theorem Core.canonical.ite {c : Prop} [Decidable c] (h : k.canonical) (hq : q.canonical) : (if c then k else q).canonical := by
  split
  · exact h
  · exact hq

theorem Core.canonical.foldl {α : Type} {f : Core → α → Core} {l : List α} (hf : ∀ k x, k.canonical → (f k x).canonical) (h : k.canonical) :
    (l.foldl f k).canonical := by
  induction l generalizing k with
  | nil => exact h
  | cons x xs ih => exact ih (hf k x h)

theorem Core.canonical.setS {r : Reg} {v : W64} (h : k.canonical) : (k.setS r v).canonical := Core.setS_canonical h r v

theorem Core.canonical.accPut {a row lane : Nat} {v : W32} (h : k.canonical) : (k.accPut a row lane v).canonical := by
  obtain ⟨hs, hstore, hacc⟩ := h
  exact ⟨hs, hstore, tblPut_wf (accIx a row lane) v hacc fun _ hl => nomatch hl⟩

/-- The store takes new values, in its canonical form. -/
theorem Core.canonical.withStore {store : List (Nat × W16)} {storeBad : List Nat} (h : k.canonical) (hst : tblWf k.cellDflt none store = true) :
    Core.canonical { k with store, storeBad } := by
  obtain ⟨hs, _, hacc⟩ := h
  exact ⟨hs, hst, hacc⟩

/-! ### The die -/

/-- What a record update leaves canonical: the registers and the cores are those of the die, and so are the bytes of memory and the objects. -/
theorem Die.canonical.update {fuses : Fuses} {dieId : Option DieIx} {pkgId : Option PkgIx} {freeCtr clk clkInTick : Nat} {tick : TickUnit} {ru : RuUnit}
    {sync : SyncUnit} {launches : List Launch} {pkts : List Pkt} {cp : CpUnit} {cache : CacheUnit} {mem : MemUnit} {tr : TransUnit} {host : HostUnit}
    {ports : PortUnit} {parts : PartUnit} {fault : FaultUnit} {power : PowerUnit} {boot : BootUnit} {pins : Pins} {out : List Out}
    (hm : mem.hbm = d.mem.hbm) (ho : sync.objs = d.sync.objs) (h : d.canonical) :
    Die.canonical { d with
      fuses, dieId, pkgId, freeCtr, clk, clkInTick, tick, ru, sync, launches, pkts, cp, cache, mem, tr, host, ports, parts, fault, power, boot, pins, out } := by
  obtain ⟨hregs, hmem, hobjs, hcores, hcore⟩ := h
  exact ⟨hregs, hm ▸ hmem, ho ▸ hobjs, hcores, hcore⟩

theorem Die.canonical.ite {c : Prop} [Decidable c] (h : d.canonical) (ht : t.canonical) : (if c then d else t).canonical := by
  split
  · exact h
  · exact ht

theorem Die.canonical.dite {c : Prop} [Decidable c] {f : c → Die} {g : ¬c → Die} (hf : ∀ hc, (f hc).canonical) (hg : ∀ hc, (g hc).canonical) :
    (if hc : c then f hc else g hc).canonical := by
  split
  · exact hf _
  · exact hg _

theorem Die.canonical.iteSnd {α : Type} {c : Prop} [Decidable c] {p q : α × Die} (hp : p.2.canonical) (hq : q.2.canonical) : (if c then p else q).2.canonical := by
  split
  · exact hp
  · exact hq

theorem Die.canonical.iteThird {α β : Type} {c : Prop} [Decidable c] {p q : α × β × Die} (hp : p.2.2.canonical) (hq : q.2.2.canonical) :
    (if c then p else q).2.2.canonical := by
  split
  · exact hp
  · exact hq

theorem Die.canonical.foldl {α : Type} {f : Die → α → Die} {l : List α} (hf : ∀ e x, e.canonical → (f e x).canonical) (h : d.canonical) :
    (l.foldl f d).canonical := by
  induction l generalizing d with
  | nil => exact h
  | cons x xs ih => exact ih (hf d x h)

theorem Die.canonical.foldlSnd {α β : Type} {f : β × Die → α → β × Die} {p : β × Die} {l : List α}
    (hf : ∀ acc x, acc.2.canonical → (f acc x).2.canonical) (h : p.2.canonical) : (l.foldl f p).2.canonical := by
  induction l generalizing p with
  | nil => exact h
  | cons x xs ih => exact ih (hf p x h)

theorem Die.canonical.foldlFst {α β : Type} {f : Die × β → α → Die × β} {p : Die × β} {l : List α}
    (hf : ∀ acc x, acc.1.canonical → (f acc x).1.canonical) (h : p.1.canonical) : (l.foldl f p).1.canonical := by
  induction l generalizing p with
  | nil => exact h
  | cons x xs ih => exact ih (hf p x h)

theorem Die.canonical.foldlThird {α β γ : Type} {f : β × γ × Die → α → β × γ × Die} {p : β × γ × Die} {l : List α}
    (hf : ∀ acc x, acc.2.2.canonical → (f acc x).2.2.canonical) (h : p.2.2.canonical) : (l.foldl f p).2.2.canonical := by
  induction l generalizing p with
  | nil => exact h
  | cons x xs ih => exact ih (hf p x h)

/-- The die of a pair that a function has returned. -/
theorem Die.canonical.of_pair {α : Type} {p : α × Die} {a : α} (he : p = (a, t)) (h : p.2.canonical) : t.canonical := by
  subst he
  exact h

theorem Die.canonical.of_fst {α : Type} {p : Die × α} {a : α} (he : p = (t, a)) (h : p.1.canonical) : t.canonical := by
  subst he
  exact h

theorem Die.canonical.of_triple {α β : Type} {p : α × β × Die} {a : α} {b : β} (he : p = (a, b, t)) (h : p.2.2.canonical) : t.canonical := by
  subst he
  exact h

/-- The die that a function answers, if it answers one, is canonical. -/
def canonicalIn (o : Option Die) : Prop := ∀ e, o = some e → e.canonical

theorem canonicalIn.none : canonicalIn none := fun _ he => nomatch he

theorem canonicalIn.some (h : d.canonical) : canonicalIn (some d) := fun _ he => Option.some.inj he ▸ h

theorem canonicalIn.ite {c : Prop} [Decidable c] {o p : Option Die} (ho : canonicalIn o) (hp : canonicalIn p) : canonicalIn (if c then o else p) := by
  split
  · exact ho
  · exact hp

theorem Die.canonical.of_some {o : Option Die} (he : o = some t) (h : canonicalIn o) : t.canonical := h t he

theorem Die.canonical.getD {o : Option Die} (ho : canonicalIn o) (h : d.canonical) : (o.getD d).canonical := by
  cases o with
  | none => exact h
  | some e => exact ho e rfl

/-- The die of the pair that a function answers, if it answers one, is canonical. -/
def canonicalSnd {α : Type} (o : Option (α × Die)) : Prop := ∀ p, o = some p → p.2.canonical

theorem canonicalSnd.none {α : Type} : canonicalSnd (none : Option (α × Die)) := fun _ he => nomatch he

theorem canonicalSnd.some {α : Type} {p : α × Die} (h : p.2.canonical) : canonicalSnd (some p) := fun _ he => Option.some.inj he ▸ h

theorem canonicalSnd.ite {α : Type} {c : Prop} [Decidable c] {o p : Option (α × Die)} (ho : canonicalSnd o) (hp : canonicalSnd p) :
    canonicalSnd (if c then o else p) := by
  split
  · exact ho
  · exact hp

theorem Die.canonical.of_somePair {α : Type} {a : α} {o : Option (α × Die)} (he : o = some (a, t)) (h : canonicalSnd o) : t.canonical := h (a, t) he

/-- The die with which the home's attempt at a request ends is canonical. -/
def Perf.canonical : Perf → Prop
  | .done d | .stall d | .park d _ => d.canonical

theorem Perf.canonical.done (h : d.canonical) : (Perf.done d).canonical := h

theorem Perf.canonical.stall (h : d.canonical) : (Perf.stall d).canonical := h

theorem Perf.canonical.park {why : MshrWait} (h : d.canonical) : (Perf.park d why).canonical := h

theorem Perf.canonical.ite {c : Prop} [Decidable c] {p q : Perf} (hp : p.canonical) (hq : q.canonical) : (if c then p else q).canonical := by
  split
  · exact hp
  · exact hq

theorem Die.canonical.of_done {p : Perf} (he : p = .done t) (h : p.canonical) : t.canonical := by
  subst he
  exact h

theorem Die.canonical.of_stall {p : Perf} (he : p = .stall t) (h : p.canonical) : t.canonical := by
  subst he
  exact h

theorem Die.canonical.of_park {p : Perf} {why : MshrWait} (he : p = .park t why) (h : p.canonical) : t.canonical := by
  subst he
  exact h

/-- The die with which the attempt at a message ends is canonical. -/
def Took.canonical : Took → Prop
  | .done d | .hold d => d.canonical

theorem Took.canonical.done (h : d.canonical) : (Took.done d).canonical := h

theorem Took.canonical.hold (h : d.canonical) : (Took.hold d).canonical := h

theorem Took.canonical.ite {c : Prop} [Decidable c] {p q : Took} (hp : p.canonical) (hq : q.canonical) : (if c then p else q).canonical := by
  split
  · exact hp
  · exact hq

theorem Die.canonical.of_tookDone {p : Took} (he : p = .done t) (h : p.canonical) : t.canonical := by
  subst he
  exact h

theorem Die.canonical.of_hold {p : Took} (he : p = .hold t) (h : p.canonical) : t.canonical := by
  subst he
  exact h

theorem Die.canonical.getDSnd {α : Type} {o : Option (α × Die)} {p : α × Die} (ho : canonicalSnd o) (h : p.2.canonical) : (o.getD p).2.canonical := by
  cases o with
  | none => exact h
  | some q => exact ho q rfl

theorem canonicalIn.map {α : Type} {o : Option α} {f : α → Die} (hf : ∀ x, (f x).canonical) : canonicalIn (o.map f) := by
  cases o with
  | none => exact .none
  | some x => exact .some (hf x)

/-! ### Registers, memory, objects, cores -/

theorem Die.canonical.putRaw {off v : Nat} (h : d.canonical) : (d.putRaw off v).canonical := by
  obtain ⟨hregs, hrest⟩ := h
  exact ⟨Die.putRaw_wf d off v hregs, hrest⟩

/-- Registers dropped from the list read as at reset. -/
theorem Die.canonical.filterRegs {keep : Nat × W32 → Bool} (h : d.canonical) : Die.canonical { d with regs := d.regs.filter keep } := by
  obtain ⟨hregs, hrest⟩ := h
  exact ⟨tblWf_filter keep hregs, hrest⟩

theorem Die.canonical.hbm (h : d.canonical) : Memory.wf d.mem.hbm = true := by
  obtain ⟨_, hmem, _⟩ := h
  exact hmem

theorem Die.canonical.withMem {mem : MemUnit} (h : d.canonical) (hm : Memory.wf mem.hbm = true) : Die.canonical { d with mem } := by
  obtain ⟨hregs, _, hrest⟩ := h
  exact ⟨hregs, hm, hrest⟩

theorem Die.canonical.withObjs {objs : List (Nat × SyncObj)} (h : d.canonical) (ho : tblWf (fun _ => ({} : SyncObj)) none objs = true) :
    Die.canonical { d with sync := { d.sync with objs := objs } } := by
  obtain ⟨hregs, hmem, _, hrest⟩ := h
  exact ⟨hregs, hmem, ho, hrest⟩

theorem Die.canonical.setObj {n : ObjIx} {o : SyncObj} (h : d.canonical) : (d.setObj n o).canonical := by
  obtain ⟨hregs, hmem, hobjs, hrest⟩ := h
  exact ⟨hregs, hmem, tblPut_wf n.val o hobjs (fun _ hl => nomatch hl), hrest⟩

theorem Core.canonical.core {c : CoreIx} (h : d.canonical) : (d.core c).canonical := by
  obtain ⟨_, _, _, _, hcore⟩ := h
  exact hcore c

theorem Die.canonical.setCore {c : CoreIx} (h : d.canonical) (hk : k.canonical) : (d.setCore c k).canonical := by
  obtain ⟨hregs, hmem, hobjs, hcores, hcore⟩ := h
  refine ⟨hregs, hmem, hobjs, tblPut_wf c.val k hcores (fun _ hl => nomatch hl), fun x => ?_⟩
  rw [Die.core_setCore d c x k hcores]
  exact .ite hk (hcore x)

theorem Die.canonical.onCore {c : CoreIx} {f : Core → Core} (h : d.canonical) (hf : ∀ k, k.canonical → (f k).canonical) : (d.onCore c f).canonical :=
  .setCore h (hf _ (.core h))

end

end Sys2Proof.Machine
end

section
/-! PROOF. The canonical forms under the registers, the launches, the instructions of a core and its arrays (Ops, Flags, CoreOps, Scalar, Vector, Array). -/

namespace Sys2Proof.Machine

section
variable {d t : Die} {k q : Core}

theorem Die.canonical.put {f : Fld} {v : ℕ} (h : d.canonical) : (d.put f v).canonical :=
  .putRaw h

theorem Die.canonical.putB {f : Fld} {v : Bool} (h : d.canonical) : (d.putB f v).canonical :=
  .put h

theorem Die.canonical.count {f : Fld} {n : ℕ} (h : d.canonical) : (d.count f n).canonical :=
  .put h

theorem Die.canonical.countWrap {f : Fld} {n : ℕ} (h : d.canonical) : (d.countWrap f n).canonical :=
  .put h

theorem Die.canonical.fresh (h : d.canonical) : d.fresh.2.canonical :=
  h

theorem Die.canonical.freshBytes {n : ℕ} (h : d.canonical) : (d.freshBytes n).2.canonical :=
  h

theorem Core.canonical.setV {r : Reg} {v : VecData} (h : k.canonical) : (k.setV r v).canonical :=
  h

theorem Core.canonical.setM {i : BitVec 2} {v : LaneMask} (h : k.canonical) : (k.setM i v).canonical :=
  .ite h h

theorem Die.canonical.raise {src : Fin 20} {cls : Cls} {det : W32} (h : d.canonical) : (d.raise src cls det).canonical :=
  h

theorem Die.canonical.record {valid : Fld} {fields : List (Fld × ℕ)} (h : d.canonical) : (d.record valid fields).canonical :=
  .ite h (.putB (.foldl (fun _ _ h2 => .put h2) h))

theorem Die.canonical.onLaunch {key : ℕ} {f : Launch → Launch} (h : d.canonical) : (d.onLaunch key f).canonical :=
  h

theorem Die.canonical.cancelLaunch {key rel : ℕ} (h : d.canonical) : (d.cancelLaunch key rel).canonical := by
  unfold Die.cancelLaunch
  split
  · exact h
  · exact .ite (.update rfl rfl (.onLaunch h)) (.onLaunch h)

theorem Die.canonical.failLaunch {key rel core : ℕ} {st : Status} (h : d.canonical) : (d.failLaunch key rel core st).canonical :=
  .cancelLaunch (.onLaunch h)

theorem Core.canonical.leave (h : k.canonical) : k.leave.canonical :=
  h

theorem Die.canonical.settle {c : CoreIx} (h : d.canonical) : (d.settle c).canonical := by
  unfold Die.settle
  extract_lets
  split
  · exact h
  · split
    · exact h
    · exact .ite (.setCore h (.leave (.core h))) h

theorem Die.canonical.stopSlice {c : CoreIx} {st : Status} (h : d.canonical) : (d.stopSlice c st).canonical := by
  unfold Die.stopSlice
  extract_lets
  split
  · exact h
  · split
    · exact h
    · exact .settle (.failLaunch (.setCore h (.update (.core h))))

theorem Die.canonical.coreFaultRecord {c : CoreIx} {cause pc : ℕ} (h : d.canonical) : (d.coreFaultRecord c cause pc).canonical :=
  .record h

theorem Die.canonical.coreFault {c : CoreIx} {cause pc : ℕ} {st : Status} (h : d.canonical) : (d.coreFault c cause pc st).canonical :=
  .stopSlice (.raise (.coreFaultRecord h))

theorem Die.canonical.noteReady (h : d.canonical) : d.noteReady.canonical :=
  h

theorem Core.canonical.next (h : k.canonical) : k.next.canonical :=
  h

theorem Die.canonical.cribRead {c : CoreIx} {a n : ℕ} (h : d.canonical) : (d.cribRead c a n).2.canonical := by
  unfold Die.cribRead
  extract_lets _ _ d2
  have h2 : d2.canonical := by
    refine .foldl (fun e x h2 => ?_) h
    split
    · exact .raise (.count (.onCore h2 (fun _ hk => hk)))
    · exact .raise (.putB h2)
    · exact h2
  exact .iteSnd h2 h2

theorem Core.canonical.cribWrite {a : ℕ} {bs : List Byte} (h : k.canonical) : (k.cribWrite a bs).canonical :=
  h

theorem Die.canonical.cribStop {c : CoreIx} {pc : ℕ} (h : d.canonical) : (d.cribStop c pc).canonical :=
  .stopSlice (.coreFaultRecord h)

/-- An instruction leaves the canonical forms if its effect, once it issues, does. -/
theorem Die.canonical.issue {c : CoreIx} {op : CoreOp} {ready : Core → Bool} {run : Die → Core → Die} (h : d.canonical)
    (hrun : ∀ e k, e.canonical → k.canonical → (run e k).canonical) : (d.issue c op ready run).canonical := by
  unfold Die.issue
  refine .ite ?_ h
  split
  · exact .coreFault h
  · exact .ite (hrun _ _ h (.core h)) h

theorem Die.canonical.issueCore {c : CoreIx} {op : CoreOp} {f : Core → Core} (h : d.canonical) (hf : ∀ k, k.canonical → (f k).canonical) :
    (d.issueCore c op f).canonical :=
  .issue h (fun _ _ h hk => .setCore h (.next (hf _ hk)))

theorem Die.canonical.aluReg {op : AluOp} {c : CoreIx} {sd sa sb : Reg} (h : d.canonical) : (aluReg op c sd sa sb d).canonical :=
  .issueCore h (fun _ hk => .setS hk)

theorem Die.canonical.aluImm {op : AluOp} {c : CoreIx} {sd sa : Reg} {imm : W32} (h : d.canonical) : (aluImm op c sd sa imm d).canonical :=
  .issueCore h (fun _ hk => .setS hk)

theorem Die.canonical.opLi {c : CoreIx} {sd : Reg} {imm : W32} (h : d.canonical) : (opLi c sd imm d).canonical :=
  .issueCore h (fun _ hk => .setS hk)

theorem Die.canonical.opLih {c : CoreIx} {sd : Reg} {imm : W32} (h : d.canonical) : (opLih c sd imm d).canonical :=
  .issueCore h (fun _ hk => .setS hk)

theorem Die.canonical.opNop {c : CoreIx} (h : d.canonical) : (opNop c d).canonical :=
  .issueCore h (fun _ hk => hk)

theorem Die.canonical.opBranch {op : BrOp} {c : CoreIx} {sa sb : Reg} {imm : W32} (h : d.canonical) : (opBranch op c sa sb imm d).canonical :=
  .issue h (fun _ _ h2 hk => .setCore h2 (.ite hk (.next hk)))

theorem Die.canonical.opJal {c : CoreIx} {sd : Reg} {imm : W32} (h : d.canonical) : (opJal c sd imm d).canonical :=
  .issue h (fun _ _ h2 hk => .setCore h2 (.update (.setS hk)))

theorem Die.canonical.opJr {c : CoreIx} {sa : Reg} (h : d.canonical) : (opJr c sa d).canonical :=
  .issue h (fun _ _ h2 hk => .setCore h2 hk)

theorem Die.canonical.opLdc {c : CoreIx} {sd sa : Reg} {imm : W32} (h : d.canonical) : (opLdc c sd sa imm d).canonical := by
  unfold Machine.opLdc
  refine .issue h (fun e k2 h2 hk => ?_)
  split
  next heq => exact .cribStop (.of_pair heq (.cribRead h2))
  next heq => exact .onCore (.of_pair heq (.cribRead h2)) (fun _ hk2 => .next (.setS hk2))

theorem Die.canonical.opSdc {c : CoreIx} {sd sa : Reg} {imm : W32} (h : d.canonical) : (opSdc c sd sa imm d).canonical :=
  .issue h (fun _ _ h2 hk => .setCore h2 (.next (.cribWrite hk)))

theorem Die.canonical.opCsrr {c : CoreIx} {sd : Reg} {n : BitVec 12} (h : d.canonical) : (opCsrr c sd n d).canonical :=
  .issue h (fun _ _ h2 hk => .setCore (.fresh h2) (.next (.setS hk)))

theorem Die.canonical.opCsrw {c : CoreIx} {sa : Reg} {n : BitVec 12} (h : d.canonical) : (opCsrw c sa n d).canonical := by
  unfold Machine.opCsrw
  refine .issueCore h (fun k2 hk => ?_)
  split <;> exact hk

theorem Core.canonical.putLanes {vd : Reg} {m : BitVec 2} {new : List W32} (h : k.canonical) : (k.putLanes vd m new).canonical :=
  .setV h

theorem Die.canonical.vec2 {op : Vec2Op} {c : CoreIx} {vd va vb : Reg} {m : BitVec 2} {ty : VType} (h : d.canonical) :
    (vec2 op c vd va vb m ty d).canonical :=
  .issueCore h (fun _ hk => .putLanes hk)

theorem Die.canonical.opVabs {c : CoreIx} {vd va : Reg} {m : BitVec 2} {ty : VType} (h : d.canonical) : (opVabs c vd va m ty d).canonical :=
  .issueCore h (fun _ hk => .putLanes hk)

theorem Die.canonical.opVfma {c : CoreIx} {vd va vb vc : Reg} {m : BitVec 2} {ty : VType} (h : d.canonical) : (opVfma c vd va vb vc m ty d).canonical :=
  .issueCore h (fun _ hk => .putLanes hk)

theorem Die.canonical.opVcmp {c : CoreIx} {md : BitVec 2} {va vb : Reg} {m : BitVec 2} {ty : VType} {op : CmpOp} (h : d.canonical) :
    (opVcmp c md va vb m ty op d).canonical :=
  .issueCore h (fun _ hk => .setM hk)

theorem Die.canonical.opVsel {c : CoreIx} {vd va vb : Reg} {m : BitVec 2} (h : d.canonical) : (opVsel c vd va vb m d).canonical :=
  .issueCore h (fun _ hk => .setV hk)

theorem Die.canonical.opVcvt {c : CoreIx} {vd va vb : Reg} {m : BitVec 2} {ty : VType} {out : OutFmt} {rnd : Rounding} (h : d.canonical) :
    (opVcvt c vd va vb m ty out rnd d).canonical :=
  .issueCore h (fun _ hk => .putLanes hk)

theorem Die.canonical.opVbcast {c : CoreIx} {vd sa : Reg} {m : BitVec 2} (h : d.canonical) : (opVbcast c vd sa m d).canonical :=
  .issueCore h (fun _ hk => .putLanes hk)

theorem Die.canonical.opVred {c : CoreIx} {vd va : Reg} {m : BitVec 2} {ty : VType} (h : d.canonical) : (opVred c vd va m ty d).canonical :=
  .issueCore h (fun _ hk => .putLanes hk)

theorem Die.canonical.opVmovs {c : CoreIx} {sd va : Reg} {ln : BitVec 7} (h : d.canonical) : (opVmovs c sd va ln d).canonical :=
  .issueCore h (fun _ hk => .setS hk)

theorem Die.canonical.vtrans {op : TransOp} {c : CoreIx} {vd va : Reg} {m : BitVec 2} (h : d.canonical) : (vtrans op c vd va m d).canonical :=
  .issueCore h (fun _ hk => .putLanes hk)

theorem Die.canonical.opVld {c : CoreIx} {vd sa : Reg} {m : BitVec 2} {imm : W32} (h : d.canonical) : (opVld c vd sa m imm d).canonical := by
  unfold Machine.opVld
  refine .issue h (fun e k2 h2 hk => ?_)
  split
  next heq => exact .cribStop (.of_pair heq (.cribRead h2))
  next heq => exact .onCore (.of_pair heq (.cribRead h2)) (fun _ hk2 => .next (.putLanes hk2))

theorem Die.canonical.opVst {c : CoreIx} {vd sa : Reg} {imm : W32} (h : d.canonical) : (opVst c vd sa imm d).canonical :=
  .issue h (fun _ _ h2 hk => .setCore h2 (.next (.cribWrite hk)))

theorem Core.canonical.fold {fold : Bool} {a row lane : ℕ} {s : W32} (h : k.canonical) : (k.fold fold a row lane s).canonical :=
  .accPut h

theorem Core.canonical.passRow {tr : Bool} {mvFmt stFmt : ArrFmt} {fold : Bool} {a acc i : ℕ} {row scales : List Byte} (h : k.canonical) :
    (passRow k tr mvFmt stFmt fold a acc i row scales).canonical :=
  .ite (.foldl (fun _ _ hk => .fold hk) h) (.foldl (fun _ _ hk => .fold hk) h)

theorem Core.canonical.wildRows {tr : Bool} {lanes : ℕ → Bool} {a : ℕ} {rows : List ℕ} {base : ℕ} (h : k.canonical) :
    (k.wildRows tr lanes a rows base).canonical :=
  .foldl (fun _ _ hk => .foldl (fun _ _ hk2 => .accPut hk2) hk) h

theorem Core.canonical.fillScales {tile : Bool} {arr : ℕ} {buf : Bool} {bs : List Byte} (h : k.canonical) : (k.fillScales tile arr buf bs).canonical :=
  h

theorem Die.canonical.takeScales {c : CoreIx} {pc : ℕ} {tile : Bool} {arr a n : ℕ} (h : d.canonical) : (d.takeScales c pc tile arr a n).2.canonical := by
  unfold Die.takeScales
  extract_lets
  refine .iteSnd h ?_
  split
  · exact .setCore h (.update (.ite (.update (.core h)) (.update (.core h))))
  · split
    next heq2 => exact .of_pair heq2 (.cribRead h)
    next heq2 => exact .onCore (.of_pair heq2 (.cribRead h)) (fun _ hk => .ite (.update (.fillScales hk)) (.update (.fillScales hk)))

theorem Die.canonical.readAhead {c : CoreIx} {n pc : ℕ} (h : d.canonical) : (Die.readAhead c n pc d).canonical := by
  induction n generalizing pc d with
  | zero => exact h
  | succ n ih =>
    unfold Die.readAhead
    extract_lets
    split
    · exact h
    · refine .ite h ?_
      split
      · exact ih h
      · refine .ite (ih h) (.ite h ?_)
        split
        next heq3 => exact .cribStop (.of_pair heq3 (.cribRead h))
        next heq3 => exact ih (.onCore (.of_pair heq3 (.cribRead h)) (fun _ hk => .update (.fillScales hk)))

theorem Die.canonical.lookAhead {c : CoreIx} (h : d.canonical) : (d.lookAhead c).canonical :=
  .ite (.readAhead h) h

theorem Die.canonical.arrayStop {c : CoreIx} {arr struct row : ℕ} (h : d.canonical) : (d.arrayStop c arr struct row).canonical :=
  .stopSlice (.raise (.record h))

theorem Core.canonical.startStream {s : Stream} (h : k.canonical) : (k.startStream s).canonical :=
  h

theorem Die.canonical.opLoadw {c : CoreIx} {fmt : ArrFmt} {src : BitVec 22} (h : d.canonical) : (Machine.opLoadw c fmt src d).canonical := by
  unfold Machine.opLoadw
  refine .issue h fun e k h hk => ?_
  extract_lets pc start e' r
  have hstart : e'.canonical := .setCore h (.update (.next (.startStream hk)))
  have hr : r.1.canonical := by
    unfold r
    refine .foldlFst (fun acc row h => .onCore (.cribRead h) fun k hk => ?_) hstart
    obtain ⟨_, hstore, _⟩ := id hk
    exact .withStore hk (tblWf_foldl_tblPut _ hstore)
  clear_value r
  split
  next heq => exact .lookAhead (.ite (.cribStop (.of_pair heq (.takeScales hr))) (.of_pair heq (.takeScales hr)))

theorem Die.canonical.wildRow {c : CoreIx} {tr : Bool} {lanes : ℕ → Bool} {a : ℕ} {rows : List ℕ} (h : d.canonical) :
    (d.wildRow c tr lanes a rows).canonical :=
  .update rfl rfl (.onCore h (fun _ hk => .wildRows hk))

theorem Die.canonical.passLoop {c : CoreIx} {tr : Bool} {mvFmt stFmt : ArrFmt} {fold : Bool} {a acc src pc : ℕ} {scales : List Byte} {scaleErr : Bool}
    {n i : ℕ} {told : Bool} (h : d.canonical) : (passLoop c tr mvFmt stFmt fold a acc src pc scales scaleErr n i told d).canonical := by
  induction n generalizing i told d with
  | zero => exact h
  | succ n ih =>
    unfold Machine.passLoop
    extract_lets
    split
    next heq =>
      extract_lets k2 _ q2 d3 _ _ d4 d5
      have h2 : k2.canonical := .core (.of_pair heq (.cribRead h))
      have h3 : q2.canonical := .ite (.passRow h2) (.update (.passRow h2))
      have h4 : d3.canonical := .setCore (.of_pair heq (.cribRead h)) h3
      have h5 : d4.canonical := .ite (.wildRow h4) h4
      have h6 : d5.canonical := .ite (.cribStop h5) h5
      split
      next heq2 =>
        refine ih (.of_pair heq2 (.iteSnd h6 ?_))
        split
        · exact .arrayStop h6
        · exact .arrayStop h6
        · exact h6

theorem Die.canonical.pass {tr : Bool} {c : CoreIx} {fmt : ArrFmt} {fold : Bool} {arr : BitVec 2} {rowsM1 acc : BitVec 8} {src : BitVec 22}
    (h : d.canonical) : (pass tr c fmt fold arr rowsM1 acc src d).canonical := by
  unfold Machine.pass
  extract_lets
  refine .issue h (fun e k2 h2 hk => ?_)
  extract_lets _ d2 d3
  have h3 : d2.canonical := .setCore h2 (.next (.startStream hk))
  have h4 : d3.canonical := .countWrap h3
  split
  next heq => exact .cribStop (.onCore (.of_pair heq (.takeScales h4)) (fun _ hk2 => hk2))
  next heq =>
    extract_lets _ bad d5
    have h6 : d5.canonical := by
      unfold d5
      clear_value bad
      split
      · exact .arrayStop (.of_pair heq (.takeScales h4))
      · exact .of_pair heq (.takeScales h4)
    exact .lookAhead (.passLoop h6)

theorem Core.canonical.drainRow {a row : ℕ} {out : OutFmt} {rnd : Rounding} {base : W64} {dst : ℕ} (h : k.canonical) :
    (drainRow k a row out rnd base dst).canonical :=
  .foldl (fun _ _ hk => .cribWrite hk) h

theorem Die.canonical.wildDrain {c : CoreIx} {out : OutFmt} {dst : ℕ} (h : d.canonical) : (d.wildDrain c out dst).canonical :=
  .onCore (.freshBytes h) (fun _ hk => .foldl (fun _ _ hk2 => .cribWrite hk2) hk)

theorem Die.canonical.drainRows {c : CoreIx} {a acc dst : ℕ} {out : OutFmt} {rnd : Rounding} {base stride : W64} {n i : ℕ} {told : Bool} (h : d.canonical) :
    (Machine.drainLoop c a acc dst out rnd base stride n i told d).canonical := by
  induction n generalizing i told d with
  | zero => exact h
  | succ n ih => exact .ite (ih (.ite (.wildDrain h) (.arrayStop (.wildDrain h)))) (ih (.setCore h (.drainRow (.core h))))

theorem Die.canonical.opDrain {c : CoreIx} {sa sb : Reg} {arr : BitVec 2} {rowsM1 acc : BitVec 8} {out : OutFmt} {rnd : Rounding} {dst : BitVec 22}
    (h : d.canonical) : (opDrain c sa sb arr rowsM1 acc out rnd dst d).canonical :=
  .issue h (fun _ _ h2 hk => .drainRows (.setCore h2 (.next (.startStream hk))))

theorem Die.canonical.opMask {c : CoreIx} {sa sb : Reg} (h : d.canonical) : (opMask c sa sb d).canonical :=
  .issueCore h (fun _ hk => hk)

theorem Die.canonical.opArrayStreamComplete {c : CoreIx} {n : ℕ} (h : d.canonical) : (opArrayStreamComplete c n d).canonical := by
  unfold Machine.opArrayStreamComplete
  extract_lets
  split
  · exact h
  · exact .settle (.setCore h (.update (.core h)))

end

end Sys2Proof.Machine
end

section
/-! PROOF. The canonical forms under memory, the cache and the routes (Memory, Cache, Routes). -/

namespace Sys2Proof.Machine

section
variable {d t : Die} {k q : Core}

theorem Die.canonical.emit {o : Out} (h : d.canonical) : (d.emit o).canonical :=
  h

theorem Die.canonical.setLevel {p r : ℕ} {v : ℤ} (h : d.canonical) : (d.setLevel p r v).canonical :=
  .putRaw h

theorem Die.canonical.charge {p r bytes : ℕ} (h : d.canonical) : (d.charge p r bytes).canonical :=
  .ite h (.setLevel h)

theorem Die.canonical.useTokens {p r bytes : ℕ} (h : d.canonical) : (d.useTokens p r bytes).canonical :=
  .ite h (.charge h)

theorem Die.canonical.hbmOutcome {a cause : ℕ} (h : d.canonical) : (d.hbmOutcome a cause).canonical :=
  .raise (.record h)

theorem Die.canonical.setTag {s : ℕ} {t : SecTag} (h : d.canonical) : (d.setTag s t).canonical :=
  h

theorem Die.canonical.dropErrs {s : ℕ} (h : d.canonical) : (d.dropErrs s).canonical :=
  h

theorem Die.canonical.hbmUpset {a : ℕ} {x : HbmUpset} (h : d.canonical) : (d.hbmUpset a x).canonical :=
  h

theorem Die.canonical.checkSector {s : ℕ} (h : d.canonical) : (d.checkSector s).2.canonical := by
  unfold Die.checkSector
  extract_lets
  exact .iteSnd (.hbmOutcome h) (.iteSnd (.hbmOutcome h) (.iteSnd (.hbmOutcome (.setTag (.dropErrs h))) (.foldl (fun _ _ h2 => .count (.hbmOutcome h2))
      (.dropErrs h))))

theorem Die.canonical.readSector {p s : ℕ} (h : d.canonical) : (d.readSector p s).2.canonical := by
  unfold Die.readSector
  split
  next heq => exact .of_pair heq (.checkSector h)
  next heq => exact .of_pair heq (.checkSector h)

theorem Die.canonical.writeSector {p s off : ℕ} {bs : List Byte} (h : d.canonical) : (d.writeSector p s off bs).2.canonical := by
  unfold Die.writeSector
  refine .iteSnd (.iteSnd (.hbmOutcome h) ?_) ?_
  · have ht : ((d.dropErrs s).setTag s (.keyed p (d.keyGen p))).canonical := .setTag (.dropErrs h)
    exact .withMem ht (memWrite_wf _ _ _ ht.hbm)
  · split
    next heq => exact .of_pair heq (.checkSector h)
    next e heq =>
      have ht : (e.setTag s (.keyed p (e.keyGen p))).canonical := .setTag (.of_pair heq (.checkSector h))
      exact .withMem ht (memWrite_wf _ _ _ ht.hbm)

theorem Die.canonical.poisonSector {s : ℕ} (h : d.canonical) : (d.poisonSector s).canonical :=
  .ite (.hbmOutcome h) (.setTag (.dropErrs h))

theorem Die.canonical.hbmRead {p a n : ℕ} (h : d.canonical) : (d.hbmRead p a n).2.canonical :=
  .foldlSnd (fun _ _ h2 => .readSector h2) (.charge h)

theorem Die.canonical.hbmWrite {p a : ℕ} {bs : List Byte} (h : d.canonical) : (d.hbmWrite p a bs).2.canonical :=
  .foldlSnd (fun _ _ h2 => .writeSector h2) (.charge h)

theorem Die.canonical.unkeep {p : ℕ} (h : d.canonical) : (d.unkeep p).canonical :=
  .put h

theorem Die.canonical.loseKey {p : ℕ} (h : d.canonical) : (d.loseKey p).canonical :=
  h

theorem Die.canonical.drawKey {p : ℕ} (h : d.canonical) : (d.drawKey p).canonical :=
  .ite (.unkeep h) (.put (.putB (.update rfl rfl (.countWrap (.update rfl rfl (.loseKey (.fresh (.fresh (.unkeep h)))))))))

theorem Die.canonical.opPatrolScrub {stack : StackIx} (h : d.canonical) : (opPatrolScrub stack d).canonical :=
  .ite h (.update rfl rfl (.foldl (fun _ _ h2 => .checkSector h2) h))

theorem Die.canonical.zeroHbm (h : d.canonical) : d.zeroHbm.canonical := .withMem h rfl

theorem Die.canonical.zeroStack {stack : ℕ} (h : d.canonical) : (d.zeroStack stack).canonical := .withMem h (tblWf_filter _ h.hbm)

theorem Die.canonical.onCache {f : CacheUnit → CacheUnit} (h : d.canonical) : (d.onCache f).canonical :=
  h

theorem Die.canonical.setCline {k : ℕ} {c : CLine} (h : d.canonical) : (d.setCline k c).canonical :=
  .onCache h

theorem Die.canonical.dropCline {k : ℕ} (h : d.canonical) : (d.dropCline k).canonical :=
  .onCache h

theorem Die.canonical.touch {slice : SliceIx} {set way : ℕ} {towards : Bool} (h : d.canonical) : (d.touch slice set way towards).canonical :=
  .onCache h

theorem Die.canonical.setHay {slice : SliceIx} {h : List CLine} (hd : d.canonical) : (d.setHay slice h).canonical :=
  .onCache hd

theorem Die.canonical.dcRecord {slice : SliceIx} {way set cause : ℕ} (h : d.canonical) : (d.dcRecord slice way set cause).canonical :=
  .record h

theorem Die.canonical.dcError {slice : SliceIx} {way set cause : ℕ} {cls : Cls} (h : d.canonical) : (d.dcError slice way set cause cls).canonical :=
  .raise (.dcRecord h)

theorem Die.canonical.writeBack {c : CLine} (h : d.canonical) : (d.writeBack c).canonical :=
  .foldl (fun _ _ h2 => .ite (.ite (.poisonSector h2) (.writeSector h2)) h2) (.ite h (.charge h))

theorem Die.canonical.cleanGone {c : CLine} (h : d.canonical) : (d.cleanGone c).canonical :=
  .ite (.emit h) h

theorem Die.canonical.evict {slice : SliceIx} {c : CLine} (h : d.canonical) : (d.evict slice c).canonical := by
  unfold Die.evict
  extract_lets
  refine .ite (.setHay h) ?_
  split
  · exact .cleanGone (.setHay h)
  · exact .cleanGone (.count (.writeBack h))

theorem Die.canonical.takeWay {slice : SliceIx} {set : ℕ} (h : d.canonical) : (d.takeWay slice set).2.canonical := by
  unfold Die.takeWay
  split
  · exact h
  · refine .iteSnd h ?_
    extract_lets
    split
    · exact .evict (.dropCline h)
    · exact h

theorem Die.canonical.dropTally {k : ℕ} (h : d.canonical) : (d.dropTally k).canonical :=
  .onCache h

theorem Die.canonical.setTally {k : ℕ} {t : TallyEntry} (h : d.canonical) : (d.setTally k t).canonical :=
  .onCache h

theorem Die.canonical.tellL1 {stop : Fin 64} {line : ℕ} {host : Bool} {kind : L1Kind} (h : d.canonical) : (d.tellL1 stop line host kind).canonical :=
  .onCache h

theorem Die.canonical.broadcast {line : ℕ} {host : Bool} {done : InvDone} (h : d.canonical) : (d.broadcast line host done).2.canonical := by
  unfold Die.broadcast
  split
  · exact h
  · exact .foldl (fun _ _ h2 => .tellL1 h2) (.onCache h)

theorem Die.canonical.revokeLine {line : ℕ} {host : Bool} (h : d.canonical) : (d.revokeLine line host).canonical := by
  unfold Die.revokeLine
  split
  · exact .ite (.tellL1 (.setTally h)) h
  · exact h

theorem Die.canonical.onMshr {line : ℕ} {host : Bool} {f : Mshr → Mshr} (h : d.canonical) : (d.onMshr line host f).canonical :=
  .onCache h

theorem Die.canonical.dropMshr {line : ℕ} {host : Bool} (h : d.canonical) : (d.dropMshr line host).canonical :=
  .onCache h

theorem Die.canonical.locate {slice : SliceIx} {line : ℕ} {host : Bool} {key : ℕ} (h : d.canonical) : (d.locate slice line host key).2.canonical := by
  unfold Die.locate
  extract_lets
  split
  · split
    · exact .iteSnd h (.broadcast (.dropCline (.writeBack h)))
    · exact h
  · split
    · exact h
    · extract_lets
      refine .iteSnd ?_ (.broadcast (.writeBack (.setHay h)))
      split
      next heq3 => exact .touch (.setCline (.of_pair heq3 (.takeWay (.setHay h))))
      next heq3 => exact .writeBack (.of_pair heq3 (.takeWay (.setHay h)))

theorem Die.canonical.fetchSectors {slice : SliceIx} {line way : ℕ} {mask : BitVec 4} (h : d.canonical) :
    (d.fetchSectors slice line way mask).2.canonical := by
  unfold Die.fetchSectors
  extract_lets
  refine .foldlSnd (fun acc x h2 => ?_) ?_
  · split
    · exact h2
    · refine .iteSnd ?_ h2
      split
      next heq2 => exact .setCline (.of_pair heq2 (.readSector h2))
      next heq2 => exact .of_pair heq2 (.readSector h2)
  · split
    · exact .ite h (.charge h)
    · exact h

theorem Die.canonical.allocLine {slice : SliceIx} {line : ℕ} {host : Bool} {key : ℕ} {once : Bool} (h : d.canonical) :
    (d.allocLine slice line host key once).2.canonical := by
  unfold Die.allocLine
  split
  next heq => exact .of_pair heq (.takeWay h)
  next heq => exact .touch (.setCline (.of_pair heq (.takeWay h)))

theorem Die.canonical.sendPrefetch {line key : ℕ} {once : Bool} (h : d.canonical) : (d.sendPrefetch line key once).canonical :=
  .ite (.onCache h) h

theorem Die.canonical.haveSectors {line key : ℕ} {mask : BitVec 4} {once demand : Bool} (h : d.canonical) :
    (d.haveSectors line key mask once demand).2.canonical := by
  unfold Die.haveSectors
  extract_lets
  split
  next heq =>
    split
    · exact .iteSnd (.touch (.countWrap (.of_pair heq (.locate h)))) (.touch (.fetchSectors (.countWrap (.of_pair heq (.locate h)))))
    · exact .of_pair heq (.locate h)
  next heq =>
    split
    next heq2 => exact .of_pair heq2 (.allocLine (.countWrap (.of_pair heq (.locate h))))
    next heq2 =>
      split
      next heq3 => exact .ite (.sendPrefetch (.of_pair heq3 (.fetchSectors (.of_pair heq2 (.allocLine (.countWrap (.of_pair heq (.locate h)))))))) (.of_pair
          heq3 (.fetchSectors (.of_pair heq2 (.allocLine (.countWrap (.of_pair heq (.locate h)))))))

theorem Die.canonical.homeRead {a n key : ℕ} {once : Bool} (h : d.canonical) : (d.homeRead a n key once).2.canonical := by
  unfold Die.homeRead
  extract_lets
  split
  next heq => exact .of_pair heq (.haveSectors h)
  next heq => exact .hbmRead (.of_pair heq (.haveSectors h))
  next heq =>
    split
    · exact .of_pair heq (.haveSectors h)
    · exact .iteSnd (.dcError (.of_pair heq (.haveSectors h))) (.of_pair heq (.haveSectors h))

theorem Die.canonical.homeLine {line key : ℕ} {once demand : Bool} (h : d.canonical) : (d.homeLine line key once demand).2.canonical := by
  unfold Die.homeLine
  extract_lets
  split
  next heq => exact .of_pair heq (.haveSectors h)
  next heq =>
    split
    next heq2 => exact .of_pair heq2 (.hbmRead (.of_pair heq (.haveSectors h)))
    next heq2 => exact .of_pair heq2 (.hbmRead (.of_pair heq (.haveSectors h)))
  next heq =>
    split
    · exact .of_pair heq (.haveSectors h)
    · exact .iteSnd (.dcError (.of_pair heq (.haveSectors h))) (.of_pair heq (.haveSectors h))

theorem Die.canonical.setRun {slice : SliceIx} {stop n : ℕ} (h : d.canonical) : (d.setRun slice stop n).canonical :=
  .onCache h

theorem Die.canonical.mergeSector {slice : SliceIx} {line way i off : ℕ} {bs : List Byte} (h : d.canonical) :
    (d.mergeSector slice line way i off bs).2.canonical := by
  unfold Die.mergeSector
  extract_lets _ put
  have h2 : ∀ (e : Die) (c : CLine), e.canonical → (put e c).canonical := fun _ _ h2 => .setCline h2
  refine .iteSnd ?_ ?_
  · split
    · exact h2 _ _ h
    · exact h
  · split
    next heq => exact .of_pair heq (.fetchSectors h)
    next heq =>
      split
      · exact .iteSnd (.dcError (.of_pair heq (.fetchSectors h))) (h2 _ _ (.of_pair heq (.fetchSectors h)))
      · exact .of_pair heq (.fetchSectors h)

theorem Die.canonical.homePerformWrite {stop a key : ℕ} {bs : List Byte} {once : Bool} {how : Alloc} (h : d.canonical) :
    (d.homePerformWrite stop a key bs once how).2.canonical := by
  unfold Die.homePerformWrite
  extract_lets _ _ _ pieces
  have h2 : ∀ (e : Die) (w : ℕ), e.canonical → (pieces e w).2.canonical := by
    intro _ _ h2
    unfold pieces
    exact .foldlSnd (fun _ _ h3 => .iteSnd (.mergeSector h3) h3) h2
  split
  next heq => exact h2 _ _ (.touch (.countWrap (.of_pair heq (.locate h))))
  next heq =>
    extract_lets d3
    have h3 : d3.canonical := .countWrap (.of_pair heq (.locate h))
    refine .iteSnd (.hbmWrite h3) ?_
    split
    next heq2 => exact h2 _ _ (.of_pair heq2 (.allocLine h3))
    next heq2 => exact .hbmWrite (.of_pair heq2 (.allocLine h3))

theorem Die.canonical.hostLine {line : ℕ} (h : d.canonical) : (d.hostLine line).2.canonical := by
  unfold Die.hostLine
  extract_lets
  split
  next heq => split <;> exact .of_pair heq (.locate h)
  next heq => exact .of_pair heq (.locate h)

theorem Die.canonical.forceTally {slice : SliceIx} {set : ℕ} (h : d.canonical) : (d.forceTally slice set).canonical := by
  unfold Die.forceTally
  extract_lets
  refine .ite h (.ite (.fresh h) ?_)
  extract_lets
  split
  · exact h
  · exact .ite (.revokeLine (.setTally (.countWrap h))) (.ite (.setTally (.countWrap h)) (.broadcast (.setTally (.countWrap h))))

theorem Die.canonical.addHolder {line : ℕ} {host excl : Bool} {key : ℕ} {stop : Fin 64} (h : d.canonical) :
    (d.addHolder line host excl key stop).2.canonical := by
  unfold Die.addHolder
  extract_lets
  split
  · exact .setTally h
  · split
    · exact .onCache (.setTally h)
    · exact .forceTally h

theorem Die.canonical.dropHolder {line : ℕ} {host : Bool} (h : d.canonical) : (d.dropHolder line host).canonical := by
  unfold Die.dropHolder
  split
  · exact h
  · exact .ite (.dropTally h) (.setTally h)

theorem Die.canonical.hostGone {line : ℕ} (h : d.canonical) : (d.hostGone line).canonical :=
  .ite h (.emit h)

theorem Die.canonical.pushTo {p : PushReq} (h : d.canonical) : (d.pushTo p).2.canonical := by
  unfold Die.pushTo
  extract_lets
  refine .iteSnd h ?_
  split
  · exact h
  · refine .iteSnd h ?_
    split
    next heq2 => exact .of_pair heq2 (.addHolder h)
    next heq2 => exact .tellL1 (.of_pair heq2 (.addHolder h))

theorem Die.canonical.hintPush {p : PushReq} (h : d.canonical) : (d.hintPush p).canonical := by
  unfold Die.hintPush
  split
  next heq => exact .of_pair heq (.pushTo h)
  next heq => exact .onCache (.of_pair heq (.pushTo h))

theorem Die.canonical.retryPushes (h : d.canonical) : d.retryPushes.canonical :=
  .foldl (fun _ _ h2 => .hintPush h2) (.onCache h)

theorem Die.canonical.l1Drop {k : ℕ} (h : d.canonical) : (d.l1Drop k).canonical :=
  .onCache h

theorem Die.canonical.l1Put {k : ℕ} {l : L1Line} (h : d.canonical) : (d.l1Put k l).canonical :=
  .onCache h

theorem Die.canonical.l1Touch {k : ℕ} (h : d.canonical) : (d.l1Touch k).canonical :=
  .onCache h

theorem Die.canonical.updateOwn {stop : Fin 64} {line : ℕ} {host : Bool} {a : ℕ} {bs : List Byte} (h : d.canonical) :
    (d.updateOwn stop line host a bs).canonical := by
  unfold Die.updateOwn
  split
  · exact .ite h (.l1Put h)
  · exact h

theorem Die.canonical.sendHome {r : HomeReq} (h : d.canonical) : (d.sendHome r).canonical :=
  .onCache h

theorem Die.canonical.l1Note {stop : Fin 64} {line : ℕ} {host : Bool} {op : HomeOp} (h : d.canonical) : (d.l1Note stop line host op).canonical :=
  .sendHome h

theorem Die.canonical.sendEvict {stop : Fin 64} {line : ℕ} {host : Bool} (h : d.canonical) : (d.sendEvict stop line host).canonical :=
  .l1Note h

theorem Die.canonical.l1Install {stop : Fin 64} {l : L1Line} (h : d.canonical) : (d.l1Install stop l).canonical := by
  unfold Die.l1Install
  extract_lets
  split
  · exact .l1Touch (.l1Put h)
  · split
    · exact .ite (.ite h (.sendEvict h)) (.l1Touch (.l1Put (.sendEvict h)))
    · exact h

theorem Die.canonical.l1Empty {stop : Fin 64} (h : d.canonical) : (d.l1Empty stop).canonical :=
  .onCache (.foldl (fun _ _ h2 => .revokeLine h2) (.foldl (fun _ _ h2 => .dropHolder h2) (.foldl (fun _ _ h2 => .dropHolder h2) h)))

theorem Die.canonical.sweepKey {key : ℕ} (h : d.canonical) : (d.sweepKey key).canonical :=
  .onCache (.foldl (fun _ _ h2 => .ite h2 (.broadcast h2)) h)

theorem Die.canonical.writeBackAll (h : d.canonical) : d.writeBackAll.canonical :=
  .onCache (.foldl (fun _ _ h2 => .foldl (fun _ _ h3 => .writeBack h3) h2) (.foldl (fun _ _ h2 => .writeBack h2) h))

theorem Die.canonical.onPorts {f : PortUnit → PortUnit} (h : d.canonical) : (d.onPorts f).canonical :=
  h

theorem Die.canonical.setPeer {n : PortIx} {p : PeerPort} (h : d.canonical) : (d.setPeer n p).canonical :=
  .onPorts h

theorem Die.canonical.setOpt {n : OptIx} {p : OptPort} (h : d.canonical) : (d.setOpt n p).canonical :=
  .onPorts h

theorem Die.canonical.setCredits {c : Credits} {port : LinkPort} (h : d.canonical) : (d.setCredits c port).canonical := by
  unfold Die.setCredits
  split
  · exact .setPeer h
  · exact .setOpt h

theorem Die.canonical.gateDrop {port : LinkPort} {cls : ℕ} (h : d.canonical) : (d.gateDrop port cls).canonical := by
  unfold Die.gateDrop
  extract_lets
  split
  · exact .setOpt (.count h)
  · exact .count h

theorem Die.canonical.flit {n : OptIx} (h : d.canonical) : (Die.flit n d).canonical := by
  unfold Die.flit
  extract_lets
  split
  · exact h
  · exact .emit (.setOpt h)

theorem Die.canonical.sayOn {port : LinkPort} {o : Out} (h : d.canonical) : (d.sayOn port o).canonical := by
  unfold Die.sayOn
  refine .emit ?_
  split
  · exact .flit h
  · exact h

theorem Die.canonical.leave {port : LinkPort} {part : ℕ} {m : FabMsg} (h : d.canonical) : (d.leave port part m).canonical := by
  unfold Die.leave
  extract_lets _ _ _ d2 d3 d4
  have h2 : d2.canonical := .setCredits h
  have h3 : d3.canonical := .ite (.useTokens h2) h2
  have h4 : d4.canonical := by
    unfold d4
    split
    · exact .onPorts h3
    · exact h3
  exact .sayOn h4

theorem Die.canonical.post {port : LinkPort} {part : ℕ} {m : FabMsg} (h : d.canonical) : (d.post port part m).canonical :=
  .ite (.leave h) (.onPorts h)

theorem Die.canonical.pump (h : d.canonical) : d.pump.canonical :=
  .foldl (fun _ _ h2 => .post h2) (.onPorts h)

theorem Die.canonical.remote {who : Asker} {part : ℕ} {dst : Place} {window : Option WinIx} {read : Option (ℕ × ℕ)} {aperture : Bool}
    {mk : MsgHead → FabMsg} (h : d.canonical) : (d.remote who part dst window read aperture mk).2.canonical := by
  unfold Die.remote
  split
  · exact h
  · exact .iteSnd h (.post (.onPorts h))

end

end Sys2Proof.Machine
end

section
/-! PROOF. The canonical forms under the homes of the device cache (Homes). -/

namespace Sys2Proof.Machine

section
variable {d t : Die} {k q : Core}

theorem Die.canonical.onOp {c : CoreIx} {id : ℕ} {f : CoreOpEntry → CoreOpEntry} (h : d.canonical) : (d.onOp c id f).canonical :=
  .onCore h (fun _ hk => hk)

theorem Die.canonical.coreAccessFails {c : CoreIx} {pc : ℕ} {st : Status} (h : d.canonical) : (d.coreAccessFails c pc st).canonical :=
  .ite h (.ite (.coreFault h) (.stopSlice h))

theorem Die.canonical.coreDrops {c : CoreIx} {p : CoreOpEntry → Bool} {st : Status} (h : d.canonical) : (d.coreDrops c p st).canonical :=
  .settle (.ite (.coreFault (.onCore h (fun _ hk => hk))) (.coreAccessFails (.onCore h (fun _ hk => hk))))

theorem Die.canonical.answer {who : Asker} {bs : List Byte} (h : d.canonical) : (d.answer who bs).canonical := by
  unfold Die.answer
  split
  · exact .onOp h
  · exact h

theorem Die.canonical.ackAsker {who : Asker} (h : d.canonical) : (d.ackAsker who).canonical := by
  unfold Die.ackAsker
  split
  · exact .onOp h
  · exact h

theorem Die.canonical.reply {r : HomeReq} {st : Status} {data : List Byte} (h : d.canonical) : (d.reply r st data).canonical := by
  unfold Die.reply
  split
  extract_lets keep
  have h2 : ∀ (d : Die), d.canonical → (keep d).canonical := fun _ h2 => .onCache h2
  split
  · exact .ite (.tellL1 h) h
  · exact h
  · exact h2 _ h
  · exact h2 _ h
  · exact .ite (h2 _ h) (.ite (.noteReady h) (.noteReady (.onCache h)))

theorem Die.canonical.fails {r : HomeReq} {st : Status} (h : d.canonical) : (d.fails r st).canonical := by
  unfold Die.fails
  split
  · exact .tellL1 h
  · exact .tellL1 h
  · exact .reply h

theorem Die.canonical.failAsker {who : Asker} {line : ℕ} {st : Status} (h : d.canonical) : (d.failAsker who line st).canonical := by
  unfold Die.failAsker
  split
  · exact .coreDrops h
  · exact .onCache h

theorem Die.canonical.sendCxlFor {mshr : Bool} {tier : Option MsgHead} {kind : CxlKind} {addr : ℕ} {data : List Byte} {r : HomeReq} (h : d.canonical) :
    (d.sendCxlFor mshr tier kind addr data r).canonical :=
  .emit h

theorem Die.canonical.sendCxl {kind : CxlKind} {addr : ℕ} {data : List Byte} {r : HomeReq} (h : d.canonical) : (d.sendCxl kind addr data r).canonical :=
  .sendCxlFor h

theorem Die.canonical.dropCopy {line : ℕ} {host : Bool} (h : d.canonical) : (d.dropCopy line host).canonical := by
  unfold Die.dropCopy
  extract_lets _ d2
  have h2 : d2.canonical := by
    unfold d2
    split
    · exact .dropCline h
    · exact h
  exact .setHay h2

theorem Die.canonical.askHost {r : HomeReq} (h : d.canonical) : (d.askHost r).2.canonical := by
  unfold Die.askHost
  split
  · exact .sendCxl h
  · refine .iteSnd (.iteSnd (.sendCxl h) h) ?_
    extract_lets
    split
    next heq2 => exact .onPorts (.of_pair heq2 (.remote h))
    next heq2 => exact .of_pair heq2 (.remote h)

theorem Die.canonical.giveUpLine {r : HomeReq} (h : d.canonical) : (d.giveUpLine r).canonical := by
  unfold Die.giveUpLine
  split
  next heq =>
    split
    · exact .dropCline (.writeBack (.of_pair heq (.locate h)))
    · exact .of_pair heq (.locate h)
  next heq => exact .of_pair heq (.locate h)

theorem Perf.canonical.performShr {r : HomeReq} {filled : Bool} (h : d.canonical) : (d.performShr r filled).canonical := by
  unfold Die.performShr
  refine .ite (.stall h) ?_
  split
  · exact .park (.sendCxl h)
  · extract_lets d2
    have h2 : d2.canonical := .giveUpLine h
    split
    · split
      next heq3 => exact .done (.reply (.of_pair heq3 (.hbmRead h2)))
      next heq3 => exact .done (.fails (.of_pair heq3 (.hbmRead h2)))
    · split
      next heq3 => exact .done (.reply (.of_pair heq3 (.hbmWrite h2)))
      next heq3 => exact .done (.fails (.of_pair heq3 (.hbmWrite h2)))
    · exact .park (.count h2)
    · exact .done h2

theorem Perf.canonical.giveHost {r : HomeReq} {data : LineData} {hit : Die → Die} (h : d.canonical) (hhit : ∀ e, e.canonical → (hit e).canonical) :
    (d.giveHost r data hit).canonical := by
  unfold Die.giveHost
  split
  · refine .ite (.park h) ?_
    split
    next heq => exact .done (.tellL1 (hhit _ (.of_pair heq (.addHolder h))))
    next heq => exact .stall (.of_pair heq (.addHolder h))
  · exact .done (.reply (hhit _ h))
  · exact .done (.reply h)

theorem Perf.canonical.performHost {r : HomeReq} {filled : Bool} (h : d.canonical) : (d.performHost r filled).canonical := by
  unfold Die.performHost
  split
  iterate 3
    · split
      next heq2 => exact .giveHost (.of_pair heq2 (.hostLine h)) (fun _ h2 => .ite h2 (.touch (.countWrap h2)))
      next heq2 =>
        split
        next heq3 => exact .park (.of_pair heq3 (.askHost (.countWrap (.of_pair heq2 (.hostLine h)))))
        next heq3 => exact .done (.fails (.of_pair heq3 (.askHost (.countWrap (.of_pair heq2 (.hostLine h))))))
  · exact .ite (.park (.ite (.dropCopy (.updateOwn h)) (.broadcast (.dropCopy (.updateOwn h))))) (.park (.sendCxl (.dropCopy (.updateOwn h))))
  · exact .ite (.park (.ite (.dropCopy h) (.broadcast (.dropCopy h)))) (.ite (.park (.dropCopy h)) (.park (.sendCxl (.count (.dropCopy h)))))
  · exact .done h

theorem Die.canonical.mayHold {r : HomeReq} (h : d.canonical) : (d.mayHold r).2.canonical :=
  .iteSnd h (.iteSnd (.broadcast h) h)

theorem Die.canonical.devWrite {r : HomeReq} {a : ℕ} {bs : List Byte} (h : d.canonical) : (d.devWrite r a bs).canonical := by
  unfold Die.devWrite
  extract_lets
  split
  next heq => exact .fails (.of_pair heq (.homePerformWrite h))
  next heq =>
    extract_lets d3 d4
    have h2 : d3.canonical := .updateOwn (.of_pair heq (.homePerformWrite h))
    have h3 : d4.canonical := by
      unfold d4
      split
      next heq2 => exact .of_pair heq2 (.broadcast h2)
      next heq2 => exact .reply (.of_pair heq2 (.broadcast h2))
    split
    · exact .hintPush h3
    · exact h3

theorem Die.canonical.devRead {r : HomeReq} {a n : ℕ} (h : d.canonical) : (d.devRead r a n).2.canonical := by
  unfold Die.devRead
  split
  · split
    next heq2 => exact .homeRead (.of_pair heq2 (.locate h))
    next heq2 => exact .hbmRead (.of_pair heq2 (.locate h))
  · exact .homeRead h

theorem Perf.canonical.grant {r : HomeReq} {filled : Bool} (h : d.canonical) : (d.grant r filled).canonical := by
  unfold Die.grant
  refine .ite (.park h) ?_
  split
  next heq => exact .stall (.of_pair heq (.addHolder h))
  next heq =>
    split
    next heq2 => exact .done (.fails (.dropHolder (.of_pair heq2 (.homeLine (.of_pair heq (.addHolder h))))))
    next heq2 => exact .done (.tellL1 (.count (.of_pair heq2 (.homeLine (.of_pair heq (.addHolder h))))))

theorem Perf.canonical.performDev {r : HomeReq} {filled : Bool} (h : d.canonical) : (d.performDev r filled).canonical := by
  unfold Die.performDev
  refine .ite (.stall h) ?_
  extract_lets
  split
  · exact .park (.sendCxl h)
  · split
    · refine .ite (.park h) ?_
      split
      next heq3 => exact .park (.of_pair heq3 (.mayHold h))
      next heq3 =>
        split
        next heq4 => exact .stall (.of_pair heq4 (.addHolder (.of_pair heq3 (.mayHold h))))
        next heq4 =>
          split
          next heq5 => exact .done (.fails (.dropHolder (.of_pair heq5 (.homeLine (.of_pair heq4 (.addHolder (.of_pair heq3 (.mayHold h))))))))
          next heq5 => exact .done (.tellL1 (.of_pair heq5 (.homeLine (.of_pair heq4 (.addHolder (.of_pair heq3 (.mayHold h)))))))
    · refine .ite (.park h) ?_
      split
      next heq3 => exact .done (.reply (.of_pair heq3 (.devRead h)))
      next heq3 => exact .done (.fails (.of_pair heq3 (.devRead h)))
    · exact .ite (.park h) (.done (.devWrite h))
    · exact .ite (.park (.ite h (.broadcast h))) (.ite (.grant h) (.park (.count (.giveUpLine h))))
    · refine .ite (.done (.reply h)) ?_
      split
      next heq3 => exact .done (.fails (.of_pair heq3 (.haveSectors h)))
      next heq3 => exact .done (.reply (.of_pair heq3 (.haveSectors h)))
    · exact .done h

theorem Perf.canonical.perform {r : HomeReq} {filled : Bool} (h : d.canonical) : (d.perform r filled).canonical := by
  unfold Die.perform
  split
  · exact .performDev h
  · exact .performShr h
  · exact .performHost h

theorem Die.canonical.addMshr {m : Mshr} (h : d.canonical) : (d.addMshr m).canonical :=
  .onCache h

theorem Die.canonical.parkIn {r : HomeReq} {rs : List HomeReq} {why : MshrWait} (h : d.canonical) : (d.parkIn r rs why).canonical :=
  .addMshr h

theorem Die.canonical.serve {filled : Bool} {l : List HomeReq} (h : d.canonical) : (Die.serve filled l d).canonical := by
  induction l generalizing d filled with
  | nil => exact h
  | cons r rs ih =>
    unfold Die.serve
    split
    next heq =>
      split
      · exact .of_done heq (.perform h)
      · exact .ite (.parkIn (.revokeLine (.of_done heq (.perform h)))) (ih (.of_done heq (.perform h)))
    next heq => exact .parkIn (.of_stall heq (.perform h))
    next heq => exact .parkIn (.of_park heq (.perform h))

theorem Die.canonical.serveMshr {filled : Bool} {m : Mshr} (h : d.canonical) : (d.serveMshr filled m).canonical :=
  .serve (.dropMshr h)

theorem Die.canonical.placeLine {m : Mshr} {key : ℕ} {once dirty : Bool} {data : LineData} (h : d.canonical) :
    (d.placeLine m key once dirty data).2.canonical := by
  unfold Die.placeLine
  split
  next heq =>
    split
    · refine .of_pair heq ?_
      split
      next heq2 => exact .of_pair heq2 (.locate h)
      next heq2 => exact .allocLine (.of_pair heq2 (.locate h))
    · extract_lets
      split
      · refine .setCline (.of_pair heq ?_)
        split
        next heq3 => exact .of_pair heq3 (.locate h)
        next heq3 => exact .allocLine (.of_pair heq3 (.locate h))
      · refine .of_pair heq ?_
        split
        next heq3 => exact .of_pair heq3 (.locate h)
        next heq3 => exact .allocLine (.of_pair heq3 (.locate h))

theorem Die.canonical.serveFrom {data : LineData} {l : List HomeReq} (h : d.canonical) : (Die.serveFrom data l d).canonical := by
  induction l generalizing d with
  | nil => exact h
  | cons r rs ih =>
    unfold Die.serveFrom
    refine .ite (.serve h) ?_
    split
    next heq => exact ih (.of_done heq (.giveHost h (fun _ h2 => h2)))
    next heq => exact .parkIn (.of_stall heq (.giveHost h (fun _ h2 => h2)))
    next heq => exact .parkIn (.of_park heq (.giveHost h (fun _ h2 => h2)))

theorem Die.canonical.hostLineCame {m : Mshr} {once : Bool} {data : LineData} (h : d.canonical) : (d.hostLineCame m once data).canonical := by
  unfold Die.hostLineCame
  split
  next heq => exact .serve (.of_pair heq (.placeLine (.dropMshr h)))
  next heq => exact .serveFrom (.of_pair heq (.placeLine (.dropMshr h)))

theorem Die.canonical.failReads {st : Status} {l : List HomeReq} (h : d.canonical) : (Die.failReads st l d).canonical := by
  induction l generalizing d with
  | nil => exact h
  | cons r rs ih =>
    unfold Die.failReads
    exact .ite (.serve h) (ih (.fails h))

theorem Die.canonical.failMshr {m : Mshr} {st : Status} (h : d.canonical) : (d.failMshr m st).canonical := by
  unfold Die.failMshr
  extract_lets
  split
  · exact .dropMshr h
  · exact .ite (.serve (.fails (.dropMshr h))) (.failReads (.dropMshr h))

theorem Die.canonical.finishInv {v : InvPend} (h : d.canonical) : (d.finishInv v).canonical := by
  unfold Die.finishInv
  split
  · exact .ite (.hostGone h) h
  · exact .reply h
  · exact .emit h

theorem Die.canonical.endInvs {line : ℕ} {host : Bool} {n : ℕ} (h : d.canonical) : (Die.endInvs line host n d).canonical := by
  induction n generalizing d with
  | zero => exact h
  | succ n ih =>
    unfold Die.endInvs
    split
    · exact h
    · exact .ite (ih (.finishInv (.onCache h))) h

theorem Die.canonical.wakeLine {line : ℕ} {host : Bool} (h : d.canonical) : (d.wakeLine line host).canonical := by
  unfold Die.wakeLine
  split
  · exact h
  · split
    · exact .ite h (.serveMshr h)
    · exact .ite h (.serveMshr h)
    · exact h

theorem Die.canonical.retryTally (h : d.canonical) : d.retryTally.canonical :=
  .foldl (fun _ _ h2 => .ite (.serveMshr h2) h2) h

theorem Die.canonical.settleLine {line : ℕ} {host : Bool} (h : d.canonical) : (d.settleLine line host).canonical :=
  .retryPushes (.retryTally (.wakeLine (.endInvs h)))

theorem Die.canonical.place {r : HomeReq} (h : d.canonical) : (d.place r).2.canonical := by
  unfold Die.place
  split
  · exact .iteSnd h (.onCache h)
  · exact h

theorem Die.canonical.popReq {r : HomeReq} (h : d.canonical) : (d.popReq r).canonical :=
  .onCache h

theorem Die.canonical.unblock {slice : SliceIx} (h : d.canonical) : (d.unblock slice).canonical :=
  .onCache h

theorem Die.canonical.block {slice : SliceIx} {stop : Fin 64} (h : d.canonical) : (d.block slice stop).canonical :=
  .onCache (.unblock h)

theorem Die.canonical.noteRun {r : HomeReq} (h : d.canonical) : (d.noteRun r).canonical :=
  .setRun h

theorem Die.canonical.takeIn {r : HomeReq} (h : d.canonical) : (d.takeIn r).2.canonical := by
  unfold Die.takeIn
  split
  next heq =>
    extract_lets
    split
    · exact .iteSnd (.onMshr (.of_pair heq (.place (.noteRun h)))) h
    · refine .iteSnd (.iteSnd (.parkIn (.revokeLine (.of_pair heq (.place (.noteRun h))))) h) ?_
      split
      next heq3 => exact .of_done heq3 (.perform (.of_pair heq (.place (.noteRun h))))
      next heq3 => exact .iteSnd (.parkIn (.of_park heq3 (.perform (.of_pair heq (.place (.noteRun h)))))) h
      · split
        next heq4 => exact .of_stall heq4 (.perform h)
        · exact h

theorem Die.canonical.acceptReq {r : HomeReq} (h : d.canonical) : (d.acceptReq r).2.canonical := by
  unfold Die.acceptReq
  refine .iteSnd h ?_
  split
  next heq => exact .unblock (.of_pair heq (.takeIn (.popReq h)))
  · exact .block (.takeIn h)

theorem Die.canonical.takeNote {r : HomeReq} (h : d.canonical) : (d.takeNote r).canonical := by
  unfold Die.takeNote
  split
  · exact .ite (.settleLine (.popReq h)) (.settleLine (.ite (.hostGone (.dropHolder (.popReq h))) (.dropHolder (.popReq h))))
  · refine .ite h ?_
    split
    next heq2 => exact .reply (.of_pair heq2 (.homePerformWrite (.noteRun (.popReq h))))
    next heq2 => exact .reply (.of_pair heq2 (.homePerformWrite (.noteRun (.popReq h))))
  · exact h

theorem Die.canonical.opHomeRequestAccept {slice : SliceIx} {stop : Fin 64} (h : d.canonical) : (opHomeRequestAccept slice stop d).canonical := by
  unfold Machine.opHomeRequestAccept
  split
  · exact h
  · refine .ite (.takeNote h) ?_
    split
    next heq2 => exact .of_pair heq2 (.acceptReq h)
    next heq2 =>
      split
      · exact .takeNote (.of_pair heq2 (.acceptReq h))
      · exact .of_pair heq2 (.acceptReq h)

theorem Die.canonical.askHome {r : HomeReq} (h : d.canonical) : (d.askHome r).canonical :=
  .ite (.acceptReq (.sendHome h)) (.sendHome h)

theorem canonicalIn.pushOn {who : Asker} {a n : ℕ} {write : Bool} (h : d.canonical) : canonicalIn (d.pushOn who a n write) := by
  unfold Die.pushOn
  split
  · exact .none
  · exact .some (.ite (.acceptReq h) h)

theorem Die.canonical.takeReplyTo {who : Asker} {a n : ℕ} {write : Bool} (h : d.canonical) : (d.takeReplyTo who a n write).2.canonical := by
  unfold Die.takeReplyTo
  split
  · exact .onCache h
  · exact h

theorem Die.canonical.forget {gone : HomeReq → Bool} (h : d.canonical) : (d.forget gone).canonical :=
  .onCache h

theorem Die.canonical.opMemoryFillReturn {line : ℕ} (h : d.canonical) : (opMemoryFillReturn line d).canonical := by
  unfold Machine.opMemoryFillReturn
  split
  · exact .ite (.serveMshr h) h
  · exact h

theorem Die.canonical.opReleaseReceive {slice : SliceIx} {stop : Fin 64} (h : d.canonical) : (opReleaseReceive slice stop d).canonical := by
  unfold Machine.opReleaseReceive
  extract_lets front
  clear_value front
  split
  · refine .ite (.settleLine ?_) h
    split
    · exact .ite (.dropTally (.popReq h)) (.popReq h)
    · exact .popReq h
  · exact h

theorem Die.canonical.opFarAtomicReturn {line : ℕ} (h : d.canonical) : (opFarAtomicReturn line d).canonical := by
  unfold Machine.opFarAtomicReturn
  split
  · exact h
  · split
    · extract_lets _ d3
      have h2 : d3.canonical := by
        unfold d3
        split
        · split
          next heq5 => exact .fails (.of_pair heq5 (.hbmRead (.dropMshr h)))
          next heq5 =>
            split
            next heq6 => exact .reply (.of_pair heq6 (.hbmWrite (.of_pair heq5 (.hbmRead (.dropMshr h)))))
            next heq6 => exact .fails (.of_pair heq6 (.hbmWrite (.of_pair heq5 (.hbmRead (.dropMshr h)))))
        · exact .dropMshr h
      exact .serve h2
    · exact h

theorem Die.canonical.popL1 {m : L1Msg} (h : d.canonical) : (d.popL1 m).canonical :=
  .onCache h

theorem Die.canonical.ackInv {id : ℕ} (h : d.canonical) : (d.ackInv id).canonical := by
  unfold Die.ackInv
  split
  · exact h
  · exact .settleLine (.onCache h)

theorem Die.canonical.l1Invalidation {stop : Fin 64} (h : d.canonical) : (d.l1Invalidation stop).canonical := by
  unfold Die.l1Invalidation
  split
  · split
    · extract_lets _ d3
      have h2 : d3.canonical := by
        unfold d3
        split
        · exact .dropHolder (.l1Drop (.popL1 h))
        · exact .popL1 h
      exact .ackInv (.onCache h2)
    · exact h
  · exact h

theorem Die.canonical.nearAmo {stop : Fin 64} {key k : ℕ} {l : L1Line} {c : CoreIx} {o : CoreOpEntry} {pa : ℕ} (h : d.canonical) :
    (d.nearAmo stop key k l c o pa).2.canonical := by
  unfold Die.nearAmo
  split
  · exact .sendHome (.onOp (.l1Put h))
  · exact h

theorem Die.canonical.serveLoads {c : CoreIx} {line : ℕ} {host : Bool} {data : LineData} (h : d.canonical) : (d.serveLoads c line host data).canonical :=
  .onCore h (fun _ hk => hk)

theorem Die.canonical.nearAmos {stop : Fin 64} {c : CoreIx} {k : ℕ} {l : L1Line} (h : d.canonical) : (d.nearAmos stop c k l).2.canonical := by
  unfold Die.nearAmos
  refine .foldlSnd (fun acc x h2 => ?_) h
  split
  · exact .iteSnd (.nearAmo h2) h2
  · exact h2

theorem Die.canonical.opL1Fill {stop : Fin 64} (h : d.canonical) : (opL1Fill stop d).canonical := by
  unfold Machine.opL1Fill
  split
  · extract_lets _ clear keep
    have h2 : ∀ (e : Die), e.canonical → (clear e).canonical := fun _ h2 => .onCache (.popL1 h2)
    have h3 : ∀ (e : Die) (data : LineData), e.canonical → (keep e data).canonical := fun _ _ h3 => .l1Install h3
    split
    · exact .ite (.sendEvict (.serveLoads (h2 _ h))) (h3 _ _ (.serveLoads (h2 _ h)))
    · extract_lets d3 d4 d5
      have h4 : d3.canonical := .serveLoads (h2 _ h)
      have h5 : d4.canonical := by
        unfold d4
        split
        · exact .l1Drop h4
        · exact h4
      have h6 : d5.canonical := .l1Install h5
      split
      · exact .nearAmos h6
      · exact .l1Note (.l1Drop (.nearAmos h6))
    · exact .ite (.sendEvict (.popL1 h)) (h3 _ _ (.popL1 h))
    · exact .ite (.coreDrops (h2 _ h)) (h2 _ h)
    · exact h
  · exact h

theorem Die.canonical.opRevoke {stop : Fin 64} (h : d.canonical) : (opRevoke stop d).canonical := by
  unfold Machine.opRevoke
  split
  · split
    · extract_lets
      split
      · exact .ite (.l1Put (.popL1 h)) (.popL1 h)
      · exact .popL1 h
    · exact h
  · exact h

theorem Die.canonical.opExclusiveRelease {stop : Fin 64} {line : ℕ} (h : d.canonical) : (opExclusiveRelease stop line d).canonical := by
  unfold Machine.opExclusiveRelease
  split
  · exact .ite (.l1Note (.l1Drop h)) h
  · exact h

theorem Die.canonical.opNextLinePrefetch {slice : SliceIx} (h : d.canonical) : (opNextLinePrefetch slice d).canonical := by
  unfold Machine.opNextLinePrefetch
  split
  · exact h
  · extract_lets
    refine .ite (.onCache h) (.ite h ?_)
    split
    next heq2 => exact .of_pair heq2 (.takeIn (.onCache h))
    · exact h

theorem Die.canonical.opHayloftWriteback {slice : SliceIx} (h : d.canonical) : (opHayloftWriteback slice d).canonical := by
  unfold Machine.opHayloftWriteback
  split
  · exact h
  · exact .setHay (.writeBack h)

theorem Die.canonical.opKeySweep {p : PartIx} (h : d.canonical) : (opKeySweep p d).canonical :=
  .ite (.sweepKey h) h

theorem Die.canonical.opKeySweepComplete (h : d.canonical) : (opKeySweepComplete d).canonical := by
  unfold Machine.opKeySweepComplete
  split
  · exact h
  · exact .ite (.sweepKey h) (.retryTally (.putB (.countWrap (.onCache (.sweepKey h)))))

end

end Sys2Proof.Machine
end

section
/-! PROOF. The canonical forms under translation, the ports and the sync objects (Translation, Ports, Sync). -/

namespace Sys2Proof.Machine

section
variable {d t : Die} {k q : Core}

theorem Die.canonical.onTr {f : TransUnit → TransUnit} (h : d.canonical) : (d.onTr f).canonical :=
  h

theorem Die.canonical.tableRead {a : ℕ} (h : d.canonical) : (d.tableRead a).2.canonical := by
  unfold Die.tableRead
  extract_lets
  split
  next heq => exact .putRaw (.of_pair heq (.homeRead h))
  next heq => exact .putRaw (.of_pair heq (.homeRead h))

theorem Die.canonical.readEntry {a : ℕ} (h : d.canonical) : (d.readEntry a).2.canonical :=
  .iteSnd (.ite h (.askHome h)) (.tableRead h)

theorem Die.canonical.levelEntry {p level table dva : ℕ} (h : d.canonical) : (d.levelEntry p level table dva).2.canonical := by
  unfold Die.levelEntry
  extract_lets
  split
  · exact h
  · split
    next heq2 => exact .iteSnd (.onTr (.of_pair heq2 (.readEntry h))) (.of_pair heq2 (.readEntry h))
    · exact .readEntry h

theorem Die.canonical.walkFrom {p dva n level table : ℕ} (h : d.canonical) : (Die.walkFrom p dva n level table d).2.canonical := by
  induction n generalizing level table d with
  | zero => exact h
  | succ n ih =>
    unfold Die.walkFrom
    split
    next heq => exact .of_pair heq (.levelEntry h)
    next heq => exact .of_pair heq (.levelEntry h)
    next heq => exact .iteSnd (.of_pair heq (.levelEntry h)) (.iteSnd (.iteSnd (.of_pair heq (.levelEntry h)) (.of_pair heq (.levelEntry h))) (.iteSnd
        (.of_pair heq (.levelEntry h)) (ih (.of_pair heq (.levelEntry h)))))

theorem Die.canonical.walk {p dva : ℕ} (h : d.canonical) : (d.walk p dva).2.canonical := by
  unfold Die.walk
  split
  · exact .iteSnd (.walkFrom h) h
  · exact h

theorem Die.canonical.leaf {s : Src} {dva : ℕ} (h : d.canonical) : (d.leaf s dva).2.canonical := by
  unfold Die.leaf
  split
  · exact h
  · split
    next heq2 => exact .onTr (.of_pair heq2 (.walk h))
    · exact .walk h

theorem Die.canonical.transFault {cause part stop dva : ℕ} (h : d.canonical) : (d.transFault cause part stop dva).canonical :=
  .record h

theorem Die.canonical.setFn {p : ℕ} {f : FnCfg} (h : d.canonical) : (d.setFn p f).canonical :=
  h

theorem Die.canonical.faultOn {s : Src} {host : Bool} {page dva : ℕ} {write : Bool} (h : d.canonical) : (d.faultOn s host page dva write).2.canonical := by
  unfold Die.faultOn
  extract_lets _ _ drop
  have h2 : ∀ (e : Die), e.canonical → (drop e).canonical := fun _ h2 => .onTr h2
  split
  · exact .iteSnd (.transFault h) (.iteSnd (.onTr h) h)
  · exact .iteSnd (.transFault (h2 _ h)) (.iteSnd (.transFault (h2 _ h)) (.iteSnd (.onTr h) h))

theorem Die.canonical.faultDone {s : Src} {host : Bool} {page : ℕ} (h : d.canonical) : (d.faultDone s host page).canonical :=
  .onTr h

theorem Die.canonical.ats {s : Src} {iova dva : ℕ} {write : Bool} (h : d.canonical) : (d.ats s iova dva write).2.canonical := by
  unfold Die.ats
  extract_lets
  split
  · exact .iteSnd (.faultDone h) (.faultOn h)
  · exact .iteSnd (.onTr h) (.iteSnd h (.iteSnd h (.emit (.onTr h))))

theorem Die.canonical.translateNow {s : Src} {dva : ℕ} {write noFault : Bool} (h : d.canonical) : (d.translateNow s dva write noFault).2.canonical := by
  unfold Die.translateNow
  split
  next heq => exact .raise (.of_pair heq (.leaf h))
  next heq => exact .of_pair heq (.leaf h)
  next heq => exact .iteSnd (.of_pair heq (.leaf h)) (.iteSnd (.transFault (.of_pair heq (.leaf h))) (.faultOn (.of_pair heq (.leaf h))))
  next heq =>
    extract_lets _ _ d3 advised
    have h2 : d3.canonical := .faultDone (.of_pair heq (.leaf h))
    have h3 : ∀ (r : TRes × Die), r.2.canonical → (advised r).2.canonical := fun _ h3 => h3
    refine .iteSnd (.transFault (.of_pair heq (.leaf h))) (.iteSnd (.transFault (.of_pair heq (.leaf h))) (.iteSnd (.of_pair heq (.leaf h)) (.iteSnd (h3 _
        (.iteSnd ?_ (.ats h2))) h2)))
    split
    · exact .iteSnd h2 h2
    · exact .ats h2

theorem Die.canonical.translate {s : Src} {dva : ℕ} {write noFault : Bool} (h : d.canonical) : (d.translate s dva write noFault).2.canonical := by
  unfold Die.translate
  split
  · exact .translateNow h
  · split
    · exact .transFault (.onTr h)
    · exact h

theorem Die.canonical.opPageRequestSend (h : d.canonical) : (opPageRequestSend d).canonical := by
  unfold Machine.opPageRequestSend
  split
  · exact h
  · extract_lets _ set
    have h2 : ∀ (e : Die) (i : ℕ), e.canonical → (set e i).canonical := fun _ _ h2 => .onTr h2
    split
    · exact h2 _ _ h
    · exact h
    · exact .emit (.onTr (h2 _ _ h))

theorem Die.canonical.pageServed {fs : List PageFault} (h : d.canonical) : (d.pageServed fs).canonical := by
  unfold Die.pageServed
  refine .foldl (fun e x h2 => ?_) h
  split
  · exact .onCore h2 (fun _ hk => hk)
  · exact .onCore h2 (fun _ hk => hk)
  · exact h2

theorem Die.canonical.opPrgResponse {fn : PartIx} {index : ℕ} {code : PrgCode} (h : d.canonical) : (opPrgResponse fn index code d).canonical := by
  unfold Machine.opPrgResponse
  split
  · exact .onTr h
  · exact .ite (.onTr (.pageServed (.onTr (.ite (.onTr (.onTr h)) (.onTr h))))) (.pageServed (.onTr (.ite (.onTr (.onTr h)) (.onTr h))))

theorem Die.canonical.opPageRequestTimeout {fn : PartIx} {index : ℕ} (h : d.canonical) : (opPageRequestTimeout fn index d).canonical := by
  unfold Machine.opPageRequestTimeout
  split
  · exact h
  · exact .ite (.onTr (.pageServed h)) h

theorem Die.canonical.opPriEnable {fn : PartIx} (h : d.canonical) : (opPriEnable fn d).canonical :=
  .onTr (.setFn h)

theorem Die.canonical.opAtsCompletion {id hpa : ℕ} {r w : Bool} (h : d.canonical) : (opAtsCompletion id hpa r w d).canonical := by
  unfold Machine.opAtsCompletion
  split
  · exact h
  · exact .ite (.onTr h) (.onTr h)

theorem Die.canonical.opAtsInvalidation {fn : PartIx} {tag lo hi : ℕ} (h : d.canonical) : (opAtsInvalidation fn tag lo hi d).canonical :=
  .onTr h

theorem Die.canonical.opAtsInvalidationComplete {tag : ℕ} (h : d.canonical) : (opAtsInvalidationComplete tag d).canonical := by
  unfold Machine.opAtsInvalidationComplete
  split
  · exact h
  · exact .ite h (.emit (.onTr h))

theorem Die.canonical.invalidate {p lo hi : ℕ} {ls : List (ℕ × ℕ × Leaf)} (h : d.canonical) : (d.invalidate p lo hi ls).canonical :=
  .onTr h

theorem Die.canonical.forgetPart {p : ℕ} (h : d.canonical) : (d.forgetPart p).canonical :=
  .onTr h

theorem Die.canonical.groomDrop {line : ℕ} (h : d.canonical) : (d.groomDrop line).canonical := by
  unfold Die.groomDrop
  split
  · exact .dropHolder (.l1Drop h)
  · exact h

theorem Die.canonical.groomWrite {a : ℕ} {bs : List Byte} (h : d.canonical) : (d.groomWrite a bs).canonical :=
  .homePerformWrite (.noteRun (.groomDrop h))

theorem Die.canonical.writeEntry {a v : ℕ} (h : d.canonical) : (d.writeEntry a v).canonical :=
  .groomWrite h

theorem Die.canonical.groomEntry {a : ℕ} (h : d.canonical) : (d.groomEntry a).2.canonical := by
  unfold Die.groomEntry
  extract_lets
  split
  · exact .l1Touch h
  · split
    next heq2 => exact .of_pair heq2 (.homeLine h)
    next heq2 =>
      extract_lets
      refine .iteSnd (.of_pair heq2 (.homeLine h)) ?_
      split
      next heq3 => exact .l1Install (.of_pair heq3 (.addHolder (.of_pair heq2 (.homeLine h))))
      next heq3 => exact .of_pair heq3 (.addHolder (.of_pair heq2 (.homeLine h)))

theorem canonicalSnd.newTable {p level : ℕ} (h : d.canonical) : canonicalSnd (d.newTable p level) :=
  .ite (.some (.foldl (fun _ _ h2 => .groomWrite h2) (.onTr h))) .none

theorem canonicalSnd.childTable {p level table dva : ℕ} (h : d.canonical) : canonicalSnd (d.childTable p level table dva) := by
  unfold Die.childTable
  split
  next heq =>
    refine .ite (.some (.of_pair heq (.groomEntry h))) ?_
    split
    next heq2 => exact .some (.writeEntry (.of_somePair heq2 (.newTable (.of_pair heq (.groomEntry h)))))
    · exact .none
  · exact .none

theorem canonicalIn.setLeafFrom {p dva target v n level table : ℕ} (h : d.canonical) : canonicalIn (Die.setLeafFrom p dva target v n level table d) := by
  induction n generalizing level table d with
  | zero => exact .none
  | succ n ih =>
    unfold Die.setLeafFrom
    refine .ite (.some (.writeEntry h)) ?_
    split
    next heq => exact ih (.of_somePair heq (.childTable h))
    · exact .none

theorem canonicalSnd.needRoot {p : ℕ} (h : d.canonical) : canonicalSnd (d.needRoot p) := by
  unfold Die.needRoot
  split
  · exact .some h
  · split
    next heq2 => exact .some (.put (.of_somePair heq2 (.newTable h)))
    · exact .none

theorem canonicalIn.setLeaf {p dva level v : ℕ} (h : d.canonical) : canonicalIn (d.setLeaf p dva level v) := by
  unfold Die.setLeaf
  split
  next heq => exact .setLeafFrom (.of_somePair heq (.needRoot h))
  · exact .none

theorem Die.canonical.putLeaf {p dva bits : ℕ} {l : Leaf} (h : d.canonical) : (d.putLeaf p dva bits l).canonical :=
  .getD (.setLeaf h) h

theorem Die.canonical.clearLeaf {p dva bits : ℕ} (h : d.canonical) : (d.clearLeaf p dva bits).canonical :=
  .getD (.setLeaf h) h

theorem Die.canonical.onPkt {pid : ℕ} {f : Pkt → Pkt} (h : d.canonical) : (d.onPkt pid f).canonical :=
  h

theorem Die.canonical.pktError {pid : ℕ} {st : Status} (h : d.canonical) : (d.pktError pid st).canonical :=
  .onPkt h

theorem Die.canonical.pktErrorAt {pid pos : ℕ} {st : Status} (h : d.canonical) : (d.pktErrorAt pid pos st).canonical :=
  .onPkt h

theorem Die.canonical.finish {pid : ℕ} {st : Status} {result : W64} {det : W32} (h : d.canonical) : (d.finish pid st result det).canonical := by
  unfold Die.finish
  extract_lets
  split
  · exact .ite (.update rfl rfl (.onPkt h)) (.onPkt h)
  · exact .onPkt h

theorem Die.canonical.engineFails {c : CoreIx} {e : EngIx} {st : Status} (h : d.canonical) : (d.engineFails c e st).canonical :=
  .settle (.coreAccessFails (.onCore (.forget h) (fun _ hk => hk)))

theorem Die.canonical.tierEnd {line : ℕ} {st : Status} {data : List Byte} (h : d.canonical) : (d.tierEnd line st data).canonical := by
  unfold Die.tierEnd
  split
  · exact h
  · exact .ite (.hostLineCame h) (.failMshr h)

theorem Die.canonical.mirrorEnd {st : Status} (h : d.canonical) : (d.mirrorEnd st).canonical :=
  .ite h (.ite h h)

theorem Die.canonical.remoteEnd {o : RemoteOp} {st : Status} {data : List Byte} (h : d.canonical) : (d.remoteEnd o st data).canonical := by
  unfold Die.remoteEnd
  extract_lets
  split
  · exact .tierEnd (.onPorts (.onPorts h))
  · split
    · exact .ite (.ite (.answer (.onPorts h)) (.ackAsker (.onPorts h))) (.coreDrops (.onPorts h))
    · exact .ite (.ite (.onPorts h) (.onPorts h)) (.engineFails (.onPorts h))
    · refine .ite (.onPorts h) ?_
      split
      · exact .ite (.noteReady (.onPorts h)) (.ite (.finish (.onPorts h)) (.noteReady (.pktErrorAt (.onPorts h))))
      · exact .ite (.mirrorEnd (.onPorts h)) (.onPorts h)
      · exact .onPorts h

theorem Die.canonical.loseOps {p : RemoteOp → Bool} (h : d.canonical) : (d.loseOps p).canonical :=
  .foldl (fun _ _ h2 => .remoteEnd h2) h

theorem Die.canonical.respondAs {part : ℕ} {h : MsgHead} {st : Status} {data : List Byte} (hd : d.canonical) : (d.respondAs part h st data).canonical :=
  .post hd

theorem Die.canonical.respond {h : MsgHead} {st : Status} {data : List Byte} (hd : d.canonical) : (d.respond h st data).canonical :=
  .respondAs hd

theorem Die.canonical.dropReplies {req : Req} (h : d.canonical) : (d.dropReplies req).canonical :=
  .onCache h

theorem Die.canonical.answerWindow {o : WinOp} (h : d.canonical) : (d.answerWindow o).canonical := by
  unfold Die.answerWindow
  split
  · exact h
  · extract_lets d2
    have h2 : d2.canonical := .dropReplies (.onPorts h)
    split <;> exact .respondAs h2

theorem Die.canonical.answerWindows (h : d.canonical) : d.answerWindows.canonical :=
  .foldl (fun _ _ h2 => .answerWindow h2) h

theorem Die.canonical.rejectOld {h : MsgHead} {answer : Bool} (hd : d.canonical) : (d.rejectOld h answer).canonical :=
  .ite (.respond (.putB (.count hd))) (.putB (.count hd))

theorem Die.canonical.setWindow {w : WinIx} {x : Option Window} (h : d.canonical) : (d.setWindow w x).canonical :=
  .onPorts h

theorem Die.canonical.refuseTick {port : LinkPort} {src : Place} (h : d.canonical) : (d.refuseTick port src).canonical := by
  unfold Die.refuseTick
  split
  · exact .gateDrop h
  · exact .respond h

theorem Die.canonical.freeUnits {port : LinkPort} {cls bytes : ℕ} (h : d.canonical) : (d.freeUnits port cls bytes).canonical :=
  .setCredits h

theorem Die.canonical.winErr {h : MsgHead} {check : ℕ} (hd : d.canonical) : (d.winErr h check).canonical :=
  .record hd

theorem Die.canonical.winRefused {h : MsgHead} {cls check : ℕ} (hd : d.canonical) : (d.winRefused h cls check).canonical :=
  .ite (.winErr hd) hd

theorem Die.canonical.notPassed {h : MsgHead} {cls : ℕ} {a : Admit} (hd : d.canonical) : (d.notPassed h cls a).canonical := by
  unfold Die.notPassed
  split
  · exact hd
  · exact .gateDrop (.ite hd (.winRefused hd))
  · exact .respond (.ite (.count hd) (.winRefused hd))

theorem Die.canonical.admitted {m : MsgHead} {cls bytes : ℕ} {slotPart : Option ℕ} {go : Die → Option Die} (h : d.canonical)
    (hgo : ∀ e, e.canonical → canonicalIn (go e)) : (d.admitted m cls bytes slotPart go).canonical := by
  unfold Die.admitted
  split
  · split
    next heq => exact .freeUnits (.of_some heq (hgo _ h))
    · exact h
  · exact .freeUnits (.notPassed h)

theorem Die.canonical.onSync {f : SyncUnit → SyncUnit} (hf : (f d.sync).objs = d.sync.objs) (h : d.canonical) : (d.onSync f).canonical := .update rfl hf h

theorem Die.canonical.syncErr {n : ObjIx} {cause source : ℕ} {src : Place} {part : ℕ} {signal : Bool} (h : d.canonical) :
    (d.syncErr n cause source src part signal).canonical :=
  .ite (.count (.record h)) (.record h)

theorem canonicalIn.slotSignal {source : ℕ} {x : SlotSignal} (h : d.canonical) : canonicalIn (d.slotSignal source x) := by
  unfold Die.slotSignal
  split
  · exact .none
  · exact .some (.onSync rfl h)

theorem Core.canonical.waitDone (h : k.canonical) : k.waitDone.canonical :=
  h

theorem Core.canonical.tested {n : ObjIx} {v : W64} (h : k.canonical) : (k.tested n v).canonical := by
  unfold Core.tested
  split
  · exact .ite (.waitDone h) h
  · exact h

/-- A wait that is satisfied moves its core on, so that no listed core becomes one that an unlisted place reads as. -/
theorem Die.canonical.testCores {n : ObjIx} {v : W64} (h : d.canonical) : Die.canonical { d with cores := d.cores.map fun e => (e.1, e.2.tested n v) } := by
  obtain ⟨hregs, hmem, hobjs, hcores, hcore⟩ := h
  refine ⟨hregs, hmem, hobjs, tblWf_map (Core.tested n v) (fun _ _ => Core.tested_ne_default) hcores, fun c => ?_⟩
  have hget : Die.core { d with cores := d.cores.map fun e => (e.1, e.2.tested n v) } c = (d.core c).tested n v :=
    tblGet_map (dflt := fun _ => ({} : Core)) (Core.tested n v) (fun _ => rfl) d.cores c.val
  rw [hget]
  exact .tested (hcore c)

theorem Die.canonical.testWaiters {n : ObjIx} (h : d.canonical) : (d.testWaiters n).canonical := by
  unfold Die.testWaiters
  exact .testCores (.foldl (fun _ _ h => .finish h) (.onSync rfl h))

theorem Die.canonical.endWaiters {n : ObjIx} {st : Status} {stop : Die → CoreIx → Die} (h : d.canonical)
    (hstop : ∀ e c, e.canonical → (stop e c).canonical) : (d.endWaiters n st stop).canonical := by
  unfold Die.endWaiters
  refine .foldl (fun e i h => .dite (fun _ => ?_) fun _ => h) (.foldl (fun _ _ h => .finish h) (.onSync rfl h))
  split
  · exact .ite (hstop _ _ h) h
  · exact h

theorem Die.canonical.effectEnd {c : CoreIx} {id : ℕ} (h : d.canonical) : (d.effectEnd c id).canonical :=
  .ite h (.ackAsker h)

theorem Die.canonical.signalEnd {source : ℕ} {x : SlotSignal} {st : Status} (h : d.canonical) : (d.signalEnd source x st).canonical := by
  unfold Die.signalEnd
  extract_lets d2 d3
  have h2 : d2.canonical := .onSync rfl h
  have h3 : d3.canonical := by
    unfold d3
    split
    · exact .respond h2
    · exact h2
  split
  · exact .ite (.effectEnd h3) (.coreDrops h3)
  · exact .noteReady (.ite h3 (.pktError h3))
  · exact h3

theorem Die.canonical.clearEnd {x : ClearReq} (h : d.canonical) : (d.clearEnd x).canonical := by
  unfold Die.clearEnd
  split
  · exact .effectEnd h
  · exact .noteReady h
  · exact h

theorem Die.canonical.updateObj {n : ObjIx} (h : d.canonical) : (d.updateObj n).canonical := by
  unfold Die.updateObj
  extract_lets _ _ _ d2 _ _ _ d4
  have h2 : d2.canonical := .ite (.foldl (fun _ _ h2 => .clearEnd h2) (.onSync rfl (.setObj h))) h
  have h3 : d4.canonical := .ite (.testWaiters (.setObj h2)) (.setObj h2)
  exact .ite (.foldl (fun _ _ h4 => .syncErr (.signalEnd h4)) h2) (.foldl (fun _ _ h4 => .signalEnd h4) h3)

theorem Die.canonical.opSyncBankUpdate {bank : Fin 8} (h : d.canonical) : (opSyncBankUpdate bank d).canonical := by
  unfold Machine.opSyncBankUpdate
  split
  · exact .updateObj h
  · exact h

theorem Die.canonical.opWaitTimeout {pid : ℕ} (h : d.canonical) : (opWaitTimeout pid d).canonical := by
  unfold Machine.opWaitTimeout
  split
  · split
    · exact .ite (.finish (.onSync rfl h)) h
    · exact h
  · exact h

theorem canonicalIn.peerSignal {m : SignalMsg} (h : d.canonical) : canonicalIn (d.peerSignal m) :=
  .ite (.slotSignal h) (.some (.syncErr (.respond h)))

theorem canonicalIn.windowSignal {m : SignalMsg} (h : d.canonical) : canonicalIn (d.windowSignal m) := by
  unfold Die.windowSignal
  extract_lets refuse
  have h2 : ∀ (check cause part : ℕ), canonicalIn (refuse check cause part) := fun _ _ _ => .some (.syncErr (.respond (.winErr h)))
  split
  · exact h2 _ _ _
  · exact .ite (h2 _ _ _) (.ite (h2 _ _ _) (.slotSignal h))

theorem Die.canonical.opSignalMsgReceive {m : SignalMsg} (h : d.canonical) : (opSignalMsgReceive m d).canonical := by
  unfold Machine.opSignalMsgReceive
  refine .admitted h (fun e h2 => ?_)
  split
  · exact .none
  · exact .some (.syncErr (.rejectOld (.winRefused h2)))
  · exact .ite (.peerSignal h2) (.windowSignal h2)

theorem Die.canonical.response {tag : W32} {st : Status} {data : List Byte} (h : d.canonical) : (d.response tag st data).canonical := by
  unfold Die.response
  split
  · exact .remoteEnd h
  · exact h

theorem Die.canonical.opSyncAdd {who : Who} {n : ObjIx} {v : W32} (h : d.canonical) : (opSyncAdd who n v d).canonical :=
  .ite (.getD (.slotSignal h) h) (.syncErr h)

theorem Die.canonical.writeSyncCtrl {who : Who} {n : ObjIx} {v : W32} (h : d.canonical) : (d.writeSyncCtrl who n v).canonical :=
  .ite (.onSync rfl (.ite (.setObj (.endWaiters h (fun _ _ h2 => .coreFault h2))) h)) (.ite (.setObj (.endWaiters h (fun _ _ h2 => .coreFault h2))) h)

theorem Die.canonical.ownEffects {who : Who} {src : Req × ℕ} (h : d.canonical) : (d.ownEffects who src).canonical :=
  .onSync rfl h

theorem Die.canonical.opSyncOwnerWrite {who : Who} {n : ObjIx} {v : W32} (h : d.canonical) : (opSyncOwnerWrite who n v d).canonical :=
  .writeSyncCtrl h

theorem Die.canonical.opClear {who : Who} {n : ObjIx} (h : d.canonical) : (opClear who n d).canonical :=
  .writeSyncCtrl h

theorem Die.canonical.readValueLo {who : Who} {n : ObjIx} (h : d.canonical) : (d.readValueLo who n).2.canonical :=
  .iteSnd (.onSync rfl h) h

theorem Die.canonical.opSyncValueLoRead {who : Who} {n : ObjIx} (h : d.canonical) : (opSyncValueLoRead who n d).canonical :=
  .emit (.readValueLo h)

theorem Die.canonical.readTickLo {who : Who} (h : d.canonical) : (d.readTickLo who).2.canonical :=
  h

theorem Die.canonical.opTickNowLoRead {who : Who} (h : d.canonical) : (opTickNowLoRead who d).canonical :=
  .emit (.readTickLo h)

theorem Die.canonical.onHost {f : HostUnit → HostUnit} (h : d.canonical) : (d.onHost f).canonical :=
  h

theorem Die.canonical.setVec {dv : ℕ} {x : MsixVec} (h : d.canonical) : (d.setVec dv x).canonical :=
  .onHost h

theorem Die.canonical.interrupt {f v : ℕ} (h : d.canonical) : (d.interrupt f v).canonical := by
  unfold Die.interrupt
  split
  · exact .count h
  · exact .ite (.setVec h) (.emit h)

theorem Die.canonical.sendPending (h : d.canonical) : d.sendPending.canonical :=
  .foldl (fun _ _ h2 => .foldl (fun _ _ h3 => .ite (.emit (.setVec h3)) h3) h2) h

theorem Die.canonical.maskVectors {f : ℕ} (h : d.canonical) : (d.maskVectors f).canonical :=
  .foldl (fun _ _ h2 => .setVec h2) h

end

end Sys2Proof.Machine
end

section
/-! PROOF. The canonical forms under interrupts, resets, the collector, power and the links (Interrupts, Resets, Collector, Power, Links). -/

namespace Sys2Proof.Machine

section
variable {d t : Die} {k q : Core}

theorem Die.canonical.spoilPiece {part : ℕ} {x : ℕ × ℕ} (h : d.canonical) : (Die.spoilPiece part d x).canonical := by
  unfold Die.spoilPiece
  split
  next heq =>
    extract_lets
    split
    next heq2 => exact .askHome (.of_pair heq2 (.translate (.of_pair heq (.freshBytes h))))
    next heq2 => exact .askHome (.of_pair heq2 (.translate (.of_pair heq (.freshBytes h))))
    next heq2 => exact .of_pair heq2 (.translate (.of_pair heq (.freshBytes h)))

theorem Die.canonical.spoilScratch {pid : ℕ} (h : d.canonical) : (d.spoilScratch pid).canonical := by
  unfold Die.spoilScratch
  split
  · exact .foldl (fun _ _ h2 => .spoilPiece h2) h
  · exact h

theorem Die.canonical.dropWork {pid : ℕ} (h : d.canonical) : (d.dropWork pid).canonical :=
  .update rfl rfl (.onCache (.forget (.spoilScratch h)))

theorem Die.canonical.endLoad {pid : ℕ} (h : d.canonical) : (d.endLoad pid).canonical :=
  .foldl (fun _ _ h2 => .onCore h2 (fun _ hk => hk)) h

theorem Die.canonical.abortPkt {pid : ℕ} (h : d.canonical) : (d.abortPkt pid).canonical :=
  .finish (.endLoad (.dropWork h))

theorem Die.canonical.cutPkt {q : Pkt} (h : d.canonical) : (d.cutPkt q).canonical :=
  .ite h (.ite (.pktError h) (.abortPkt h))

theorem Die.canonical.coreReset {c : CoreIx} {st : Status} (h : d.canonical) : (d.coreReset c st).canonical := by
  unfold Die.coreReset
  extract_lets d2 _ _ _ d4 _ _ d6 x
  have h2 : d2.canonical := .l1Empty (.stopSlice h)
  have h3 : d4.canonical := .onCache (.forget (.onPorts h2))
  have h4 : d6.canonical := .ite (.countWrap (.onTr h3)) (.onTr h3)
  have h5 : x.canonical := .setCore h4 ⟨rfl, rfl, rfl⟩
  exact h5

theorem Die.canonical.dropSwitch {c : CoreIx} (h : d.canonical) : (d.dropSwitch c).canonical := by
  unfold Die.dropSwitch
  extract_lets
  split
  · exact h
  · exact .finish (.setCore h (.update (.core h)))

theorem Die.canonical.clearCore {c : CoreIx} (h : d.canonical) : (d.clearCore c).canonical :=
  .put (.onCore (.l1Empty (.dropSwitch h)) (fun _ hk => ⟨hk.1, rfl, rfl⟩))

theorem Die.canonical.groomReset (h : d.canonical) : d.groomReset.canonical := by
  unfold Die.groomReset
  extract_lets d2 d3 _ _ d4
  have h2 : d2.canonical := .foldl (fun _ _ h2 => .cutPkt h2) h
  have h3 : d3.canonical := .put (.l1Empty h2)
  have h4 : d4.canonical := by
    unfold d4
    split
    · exact .ite h3 (.update rfl rfl (.putB h3))
    · exact h3
  exact h4

theorem Die.canonical.stopCores {p : Core → Bool} {drop : CoreOpEntry → Bool} (h : d.canonical) : (d.stopCores p drop).canonical :=
  .foldl (fun _ _ h => .ite (.settle (.onCore (.stopSlice h) fun _ hk => hk)) h) h

theorem Die.canonical.abortOpcodes {p : ℕ → Bool} (h : d.canonical) : (d.abortOpcodes p).canonical :=
  .foldl (fun _ _ h2 => .abortPkt h2) h

theorem Die.canonical.blockReset {src : Fin 20} {unit : ℕ} (h : d.canonical) : (d.blockReset src unit).canonical := by
  unfold Die.blockReset
  split
  · exact .dite (fun _ => .raise (.coreReset h)) (fun _ => h)
  · exact .dite (fun _ => .raise (.coreReset h)) (fun _ => h)
  · exact .stopCores h
  · exact .foldl (fun _ _ h2 => .fails h2) (.onCache (.stopCores h))
  · exact .foldl (fun _ _ h2 => .foldl (fun _ _ h3 => .fails h3) h2) (.onCache h)
  · exact .foldl (fun _ _ h2 => .foldl (fun _ _ h3 => .fails h3) h2) (.onCache h)
  · exact .onTr h
  · exact .foldl (fun _ _ h2 => .remoteEnd h2) (.onPorts h)
  · exact .foldl (fun _ _ h2 => .remoteEnd h2) (.onPorts h)
  · exact .abortOpcodes h
  · exact .update rfl rfl (.abortOpcodes h)
  · exact .abortOpcodes h
  · exact .stopCores (.abortOpcodes (.foldl (fun _ _ h2 => .signalEnd h2) h))
  · exact .groomReset h
  · exact h

theorem Die.canonical.startPartReset {p : ℕ} {flr disable : Bool} (h : d.canonical) : (d.startPartReset p flr disable).canonical := by
  unfold Die.startPartReset
  refine .ite h ?_
  extract_lets d2 d3 _ d4
  have h2 : d2.canonical := .putB (.putB h)
  have h3 : d3.canonical := .ite (.putB h2) h2
  have h4 : d4.canonical := .ite (.setFn (.maskVectors h3)) h3
  exact h4

theorem Die.canonical.partBoundary {p : ℕ} (h : d.canonical) : (d.partBoundary p).canonical := by
  unfold Die.partBoundary
  extract_lets _ _ d2 _ d3 _ d5 d6 _ _ _ _ d8
  have h2 : d2.canonical := .foldl (fun _ _ h2 => .cutPkt h2) h
  have h3 : d3.canonical := .foldl (fun _ _ h3 => .emit h3) h2
  have h4 : d5.canonical := .onPorts (.onTr h3)
  have h5 : d6.canonical := .onCache (.forget h4)
  have h6 : d8.canonical := .update rfl rfl (.onHost h5)
  exact .foldl (fun _ _ h7 => .ite (.settle (.onCore h7 (fun _ hk => hk))) h7) h6

theorem Die.canonical.resetBoundary (h : d.canonical) : d.resetBoundary.canonical :=
  .foldl (fun _ _ h2 => .partBoundary h2) h

theorem Die.canonical.fillBucket {p r : ℕ} (h : d.canonical) : (d.fillBucket p r).canonical :=
  .putRaw h

theorem Die.canonical.clearObjs {p : ℕ} (h : d.canonical) :
    (d.onSync fun u => { u with objs := u.objs.filterMap (clearedObj p) }).canonical := by
  obtain ⟨_, _, hobjs, _⟩ := id h
  exact .withObjs h (tblWf_clearedObj hobjs)

theorem Die.canonical.opPartitionClear {p : PartIx} (h : d.canonical) : (opPartitionClear p d).canonical := by
  unfold Machine.opPartitionClear
  split
  · exact h
  · refine .ite h ?_
    extract_lets _ d2 d3 d4 d5 _ d7 _ d8
    have h2 : d2.canonical := .drawKey (.put (.onTr (.forgetPart h)))
    have h3 : d3.canonical := .foldl (fun _ _ h => .ite (.clearCore h) h) h2
    have h4 : d4.canonical := .clearObjs h3
    have h5 : d5.canonical := .foldl (fun _ _ h => .ite (.update rfl rfl h) h) h4
    have h7 : d7.canonical := .foldl (fun _ _ h => .fillBucket h) (.foldl (fun _ _ h => .putRaw h) h5)
    have h8 : d8.canonical := .ite (.onTr (.setFn (.maskVectors h7))) h7
    exact .count (.putB (.update rfl rfl h8))

theorem Die.canonical.opFlrVf {p : PartIx} (h : d.canonical) : (opFlrVf p d).canonical :=
  .ite h (.startPartReset h)

theorem Die.canonical.opFlrPf (h : d.canonical) : (opFlrPf d).canonical :=
  .onHost (.foldl (fun _ _ h2 => .startPartReset h2) h)

theorem Die.canonical.beginBoot (h : d.canonical) : d.beginBoot.canonical :=
  .foldl (fun _ _ h2 => .ite (.putRaw h2) h2) h

/-- A die reset keeps registers and memory, and leaves no object and no core. -/
theorem Die.canonical.bare (h : d.canonical) : d.bare.canonical := by
  unfold Die.bare
  extract_lets _ _ _ e
  have he : e.canonical := ⟨h.filterRegs.1, h.hbm, rfl, rfl, fun _ => .default⟩
  exact .foldl (fun _ _ h => .put h) (.putB he)

theorem Die.canonical.dieReset (h : d.canonical) : d.dieReset.canonical := by
  unfold Die.dieReset
  extract_lets e
  have h2 : e.canonical := .foldl (fun _ _ h2 => .drawKey (.loseKey h2)) (.bare h)
  exact .ite (.beginBoot h2) h2

theorem Die.canonical.onFault {f : FaultUnit → FaultUnit} (h : d.canonical) : (d.onFault f).canonical :=
  h

theorem Die.canonical.clearClass {c : Cls} {v : ℕ} (h : d.canonical) : (d.clearClass c v).canonical :=
  .putRaw (.putRaw h)

theorem Die.canonical.trap (h : d.canonical) : d.trap.canonical :=
  .putB h

theorem Die.canonical.setHist {i : ℕ} {h : HistEntry} (hd : d.canonical) : (d.setHist i h).canonical :=
  .onFault hd

theorem Die.canonical.writeHist {e : Event} (h : d.canonical) : (d.writeHist e).canonical := by
  unfold Die.writeHist
  extract_lets _ _ count
  split
  · exact .setHist h
  · split
    next heq2 =>
      extract_lets _ d3
      have h3 : d3.canonical := .put (.onFault (.setHist (.of_pair heq2 (.iteSnd (.put h) (.count h)))))
      exact .ite (.putB (.put h3)) h3

theorem Die.canonical.clearHist (h : d.canonical) : d.clearHist.canonical :=
  .put (.putB (.put (.put (.onFault h))))

theorem Die.canonical.take {e : Event} (h : d.canonical) : (d.take e).canonical := by
  unfold Die.take
  extract_lets _ _ d3 _ d4 d5 d6
  have h2 : d3.canonical := .ite (.putRaw h) (.writeHist (.putRaw h))
  have h3 : d4.canonical := .ite (.onFault h2) h2
  have h4 : d5.canonical := .ite (.trap h3) h3
  have h5 : d6.canonical := .ite (.putRaw h4) h4
  exact .ite (.emit h5) h5

theorem Die.canonical.faultIrq (h : d.canonical) : d.faultIrq.canonical :=
  .ite (.interrupt (.onFault h)) h

theorem Die.canonical.collect {es : List Event} (h : d.canonical) : (d.collect es).canonical := by
  unfold Die.collect
  extract_lets _ d2 d3
  have h2 : d2.canonical := .foldl (fun _ _ h2 => .take h2) h
  have h3 : d3.canonical := .foldl (fun _ _ h3 => .ite (.blockReset h3) h3) h2
  exact .ite h2 (.ite (.dieReset h2) (.ite h3 (.faultIrq h3)))

theorem Die.canonical.collectAll {n : ℕ} {es : List Event} (h : d.canonical) : (Die.collectAll n es d).canonical := by
  induction n generalizing es d with
  | zero => exact h
  | succ n ih =>
    cases es with
    | nil => exact h
    | cons e es => exact ih (.collect h)

theorem Die.canonical.secEvent {cause : ℕ} {cls : Cls} (h : d.canonical) : (d.secEvent cause cls).canonical :=
  .raise (.record h)

theorem Die.canonical.pwrEvent {cause unit extra : ℕ} {cls : Cls} (h : d.canonical) : (d.pwrEvent cause unit extra cls).canonical :=
  .raise (.record h)

theorem Die.canonical.unlockWays {slice : SliceIx} (h : d.canonical) : (d.unlockWays slice).canonical :=
  .foldl (fun _ _ h2 => .ite (.put h2) h2) h

theorem Die.canonical.sectorUpset {slice : SliceIx} {set way : ℕ} {sector : Fin 4} (h : d.canonical) : (d.sectorUpset slice set way sector).canonical := by
  unfold Die.sectorUpset
  split
  · exact h
  · exact .ite (.dcError (.setCline h)) (.ite (.dcError (.count (.setCline h))) h)

theorem Die.canonical.hayUpset {slice : SliceIx} {entry : ℕ} {sector : Fin 4} (h : d.canonical) : (d.hayUpset slice entry sector).canonical := by
  unfold Die.hayUpset
  split
  · exact h
  · exact .ite (.dcError (.setHay h)) (.ite (.dcError (.count (.setHay h))) h)

theorem Die.canonical.tagUpset {slice : SliceIx} {set way : ℕ} (h : d.canonical) : (d.tagUpset slice set way).canonical :=
  .unlockWays (.ite (.dcError (.put (.dropCline h))) (.dcError (.put (.dropCline h))))

theorem Die.canonical.l1Upset {stop : Fin 49} {addr : ℕ} (h : d.canonical) : (d.l1Upset stop addr).canonical := by
  unfold Die.l1Upset
  extract_lets
  split
  · exact h
  · extract_lets d2 d3
    have h2 : d2.canonical := .l1Note (.l1Drop h)
    have h3 : d3.canonical := .dcRecord (.count h2)
    exact .dite (fun _ => .raise h3) (fun _ => .raise h3)

theorem Die.canonical.tallyUpset (h : d.canonical) : d.tallyUpset.canonical :=
  .retryPushes (.retryTally (.foldl (fun _ _ h2 => .settleLine h2) (.onCache (.foldl (fun _ _ h2 => .l1Empty h2) h))))

theorem Die.canonical.yardUpset {yard : Fin 6} {cause : ℕ} {core : CoreIx} (h : d.canonical) : (d.yardUpset yard cause core).canonical := by
  unfold Die.yardUpset
  extract_lets d2
  have h2 : d2.canonical := .raise (.record h)
  split
  · exact .stopSlice h2
  · exact .foldl (fun _ _ h3 => .ite (.stopSlice h3) h3) h2
  · exact h2

theorem Die.canonical.poisonObj {n : ObjIx} (h : d.canonical) : (d.poisonObj n).canonical :=
  .raise (.setObj (.endWaiters h (fun _ _ h2 => .stopSlice h2)))

theorem Die.canonical.upset {u : Upset} (h : d.canonical) : (d.upset u).canonical := by
  unfold Die.upset
  split
  iterate 5
    · exact .onCore h (fun _ hk => hk)
  · exact .ite (.poisonObj h) (.raise h)
  · exact .hbmUpset h
  · exact .ite (.sectorUpset h) (.raise (.count h))
  · exact .hayUpset h
  · exact .tagUpset h
  · exact .dcError (.count (.tallyUpset h))
  · exact .l1Upset h
  · exact .raise (.onTr h)
  · exact .raise h
  · split
    · exact .raise (.finish (.dropWork h))
    · exact .raise h
  · exact .raise (.fillBucket h)
  · extract_lets d2
    have h2 : d2.canonical := by
      unfold d2
      split
      · exact .setVec h
      · exact h
    exact .raise h2
  · exact .raise (.record h)
  · exact .yardUpset h
  · exact .secEvent h
  · exact .secEvent h
  · exact .raise h
  · exact .secEvent h
  · exact .onFault h
  · exact .onFault h

theorem Die.canonical.opFaultEvent {us : List Upset} (h : d.canonical) : (opFaultEvent us d).canonical :=
  .collectAll (.onFault (.foldl (fun _ _ h2 => .upset h2) h))

theorem Die.canonical.opNmiAck (h : d.canonical) : (opNmiAck d).canonical :=
  .ite (.onFault (.putB h)) h

theorem Die.canonical.force {c : Cls} {v : ℕ} (h : d.canonical) : (d.force c v).canonical :=
  .onFault h

theorem Die.canonical.opErrNSenseFall (h : d.canonical) : (opErrNSenseFall d).canonical :=
  .ite h (.ite (.trap (.putB h)) (.putB h))

theorem Die.canonical.portsOff (h : d.canonical) : d.portsOff.canonical :=
  .onPorts (.foldl (fun _ _ h2 => .put h2) (.foldl (fun _ _ h2 => .put h2) (.loseOps h)))

theorem Die.canonical.dormantCause {c : SelfCheck} (h : d.canonical) : (d.dormantCause c).canonical :=
  .put (.putB (.putB (.putB (.putB h))))

theorem Die.canonical.enterDormant {c : SelfCheck} (h : d.canonical) : (d.enterDormant c).canonical :=
  .update rfl rfl (.putB (.emit (.portsOff (.dormantCause h))))

theorem Die.canonical.leaveDormant (h : d.canonical) : d.leaveDormant.canonical := by
  unfold Die.leaveDormant
  extract_lets cause e r
  have he : e.canonical := .dieReset h
  have hr : r.canonical := he.filterRegs.update rfl rfl
  exact .putB (.putB (.putRaw hr))

theorem Die.canonical.opDormantEntry (h : d.canonical) : (opDormantEntry d).canonical := by
  unfold Machine.opDormantEntry
  split
  · exact h
  · exact .ite (.enterDormant h) (.ite h (.leaveDormant (.dormantCause h)))

theorem Die.canonical.onPower {f : PowerUnit → PowerUnit} (h : d.canonical) : (d.onPower f).canonical :=
  h

theorem Die.canonical.setBudget (h : d.canonical) : d.setBudget.canonical :=
  .put h

theorem Die.canonical.setDuty (h : d.canonical) : d.setDuty.canonical :=
  .put h

theorem Die.canonical.setVid {p : ℕ} (h : d.canonical) : (d.setVid p).canonical :=
  h

theorem Die.canonical.setPoint {p : ℕ} (h : d.canonical) : (d.setPoint p).canonical :=
  .put h

theorem Die.canonical.powerGuard {watts scaled : ℕ} (h : d.canonical) : (d.powerGuard watts scaled).canonical :=
  .ite (.onPower h) (.ite (.ite (.onPower (.onPower h)) (.onPower h)) (.ite (.onPower (.onPower h)) (.onPower h)))

theorem Die.canonical.dutyStep (h : d.canonical) : d.dutyStep.canonical :=
  .onPower h

theorem Die.canonical.movePoint (h : d.canonical) : d.movePoint.canonical := by
  unfold Die.movePoint
  extract_lets
  split
  · exact .ite (.onPower (.setVid (.setPoint h))) h
  · exact .ite (.onPower (.setPoint h)) (.ite (.setVid h) h)
  · exact h

theorem Die.canonical.throttleStep (h : d.canonical) : d.throttleStep.canonical :=
  .ite (.onPower (.ite (.setVid (.setPoint h)) h)) h

theorem Die.canonical.thermalHalt (h : d.canonical) : d.thermalHalt.canonical := by
  unfold Die.thermalHalt
  exact .onPower (.putB (.setVid (.setPoint (.putB (.foldl (fun _ _ h2 => .ite (.stopSlice h2) h2) h)))))

theorem Die.canonical.powerBoundary {tick : Bool} (h : d.canonical) : (d.powerBoundary tick).canonical := by
  unfold Die.powerBoundary
  extract_lets _ d3 d4 _ d5
  have h2 : d3.canonical := .dutyStep (.put h)
  have h3 : d4.canonical := .ite (.thermalHalt h2) h2
  have h4 : d5.canonical := .ite h3 (.ite (.throttleStep (.movePoint h3)) (.onPower (.setVid (.setPoint h3))))
  exact .setDuty (.ite (.setBudget h4) h4)

theorem Die.canonical.sensor {i : ℕ} {t : Option ℤ} (h : d.canonical) : (d.sensor i t).canonical := by
  unfold Die.sensor
  extract_lets _ _ _ _ d3 _ d4
  have h2 : d3.canonical := by
    unfold d3
    split
    · exact .ite (.put (.put (.onPower h))) (.put (.onPower h))
    · exact .onPower h
  have h3 : d4.canonical := .put (.putB h2)
  exact .ite (.pwrEvent h3) h3

theorem Die.canonical.thermal (h : d.canonical) : d.thermal.canonical := by
  unfold Die.thermal
  extract_lets
  split
  extract_lets d2 _ _ _ _ d3 _ _ d4 _ _ d6 d7
  have h2 : d2.canonical := .put (.put h)
  have h3 : d3.canonical := .onPower (.ite (.pwrEvent h2) h2)
  have h4 : d4.canonical := .ite (.onPower (.pwrEvent h3)) (.ite (.onPower h3) h3)
  have h5 : d6.canonical := .onPower (.ite (.pwrEvent (.putB h4)) (.putB h4))
  have h6 : d7.canonical := .ite (.onPower (.pwrEvent h5)) h5
  exact .setDuty h6

theorem Die.canonical.opThermalSample {temps : List (Option ℤ)} (h : d.canonical) : (opThermalSample temps d).canonical :=
  .thermal (.foldl (fun _ _ h2 => .sensor h2) h)

theorem Die.canonical.opFastLimit (h : d.canonical) : (opFastLimit d).canonical :=
  .setDuty (.onPower h)

theorem Die.canonical.resume (h : d.canonical) : d.resume.canonical :=
  .ite (.setDuty (.putB (.setVid (.setPoint (.putB h))))) h

theorem Die.canonical.opThermtrip (h : d.canonical) : (opThermtrip d).canonical :=
  .ite h h

theorem Die.canonical.opSupplyFault {rail : Fin 10} (h : d.canonical) : (opSupplyFault rail d).canonical :=
  .pwrEvent h

theorem Die.canonical.opPllLockLoss {pll : Fin 2} (h : d.canonical) : (opPllLockLoss pll d).canonical :=
  .pwrEvent h

theorem Die.canonical.opRefclkLoss (h : d.canonical) : (opRefclkLoss d).canonical :=
  .pwrEvent h

theorem Die.canonical.writeCap {v : ℕ} (h : d.canonical) : (d.writeCap v).canonical :=
  .put (.put (.put h))

theorem Die.canonical.peerEvent {n : PortIx} {cause : ℕ} {cls : Cls} (h : d.canonical) : (d.peerEvent n cause cls).canonical :=
  .raise h

theorem Die.canonical.fillRoutes (h : d.canonical) : d.fillRoutes.canonical :=
  .onPorts (.put h)

theorem Die.canonical.routeBoundary (h : d.canonical) : d.routeBoundary.canonical :=
  .ite (.fillRoutes h) h

theorem Die.canonical.sendLists {die : DieIx} {links : List (DieIx × PortIx × Bool)} {skip : Option PortIx} (h : d.canonical) :
    (d.sendLists die links skip).canonical :=
  .foldl (fun _ _ h2 => .ite (.emit h2) h2) h

theorem Die.canonical.chainFails {n : PortIx} (h : d.canonical) : (Die.chainFails n d).canonical :=
  .ite h (.raise (.update rfl rfl (.onPorts (.foldl (fun _ _ h2 => .put (.put h2)) (.loseOps h)))))

theorem Die.canonical.peerDown {n : PortIx} (h : d.canonical) : (d.peerDown n).canonical :=
  .sendLists (.onPorts (.setPeer (.put (.put (.loseOps (.peerEvent h))))))

theorem Die.canonical.opPeerLinkTrain {port : PortIx} {modules : BitVec 4} (h : d.canonical) : (opPeerLinkTrain port modules d).canonical := by
  unfold Machine.opPeerLinkTrain
  extract_lets _ d2 d3 d4
  have h2 : d2.canonical := .ite (.peerDown h) h
  have h3 : d3.canonical := .put (.put h2)
  have h4 : d4.canonical := .ite h3 (.peerEvent h3)
  exact .ite (.chainFails h) (.ite (.put (.put h2)) (.emit h4))

theorem Die.canonical.peerHello {n : PortIx} {h : Hello} (hd : d.canonical) : (d.peerHello n h).canonical :=
  .ite hd (.ite (.peerEvent (.put (.put (.put hd)))) (.sendLists (.fillRoutes (.setPeer (.put (.put (.put hd)))))))

theorem Die.canonical.opLinkListReceive {port : PortIx} {die : DieIx} {links : List (DieIx × PortIx × Bool)} (h : d.canonical) :
    (opLinkListReceive port die links d).canonical :=
  .ite h (.sendLists (.ite (.onPorts (.onPorts h)) (.fillRoutes (.onPorts h))))

theorem Die.canonical.opPeerLinkDown {port : PortIx} (h : d.canonical) : (opPeerLinkDown port d).canonical :=
  .ite (.peerDown h) h

theorem Die.canonical.opPeerModuleLoss {port : PortIx} {module : Fin 4} (h : d.canonical) : (opPeerModuleLoss port module d).canonical :=
  .ite (.ite (.peerDown (.peerEvent (.put h))) (.peerEvent (.put h))) h

theorem Die.canonical.markRetry {port : LinkPort} (h : d.canonical) : (d.markRetry port).canonical := by
  unfold Die.markRetry
  refine .foldl (fun e x h2 => ?_) h
  split
  · exact .onCore h2 (fun _ hk => hk)
  · exact .onCore h2 (fun _ hk => hk)
  · exact h2

theorem Die.canonical.opLinkLevelRetry {port : Option PortIx} {kind : RetryKind} (h : d.canonical) : (opLinkLevelRetry port kind d).canonical := by
  unfold Machine.opLinkLevelRetry
  split
  · exact .emit (.raise h)
  · exact .peerEvent (.markRetry (.ite (.count h) h))

theorem Die.canonical.optEvent {n : OptIx} {cause : ℕ} {cls : Cls} (h : d.canonical) : (d.optEvent n cause cls).canonical :=
  .raise h

theorem Die.canonical.optErr {n : OptIx} {cause : ℕ} (h : d.canonical) : (d.optErr n cause).canonical :=
  .record h

theorem Die.canonical.optStart {n : OptIx} (h : d.canonical) : (d.optStart n).canonical :=
  .ite (.put h) h

theorem Die.canonical.optDown {n : OptIx} {state : ℕ} {cause : Option ℕ} (h : d.canonical) : (d.optDown n state cause).canonical := by
  unfold Die.optDown
  extract_lets d2 d3 d4
  have h2 : d2.canonical := by
    unfold d2
    split
    · exact .optErr h
    · exact h
  have h3 : d3.canonical := .loseOps (.optEvent h2)
  have h4 : d4.canonical := .putB (.put h3)
  exact .onPorts (.setOpt h4)

theorem Die.canonical.tryAdmit {n : OptIx} (h : d.canonical) : (d.tryAdmit n).canonical :=
  .ite (.ite (.pump (.put h)) (.optErr h)) h

theorem Die.canonical.writeOptCtrl {n : OptIx} {v : ℕ} (h : d.canonical) : (d.writeOptCtrl n v).canonical := by
  unfold Die.writeOptCtrl
  extract_lets _ _ _ _ _ d2 d3 d4
  have h2 : d2.canonical := .put (.put (.putB (.putB h)))
  have h3 : d3.canonical := .ite h2 (.putB h2)
  have h4 : d4.canonical := .ite h3 (.ite (.put h3) (.optDown h3))
  exact .ite (.setOpt h4) (.ite (.put (.loseOps (.optStart h3))) (.ite (.tryAdmit (.optStart h3)) (.optStart h3)))

theorem Die.canonical.opOpticalLinkTrain {n : OptIx} {lanes : BitVec 16} (h : d.canonical) : (opOpticalLinkTrain n lanes d).canonical :=
  .ite (.ite (.emit (.emit (.ite (.setOpt (.putB (.put h))) (.optEvent (.setOpt (.putB (.put h))))))) (.put h)) h

theorem Die.canonical.opLinkHelloReceive {port : LinkPort} {h : Hello} (hd : d.canonical) : (opLinkHelloReceive port h d).canonical := by
  unfold Machine.opLinkHelloReceive
  split
  · exact .peerHello hd
  · exact .ite hd (.setOpt hd)

theorem Die.canonical.refuse {n : OptIx} {cause : ℕ} (h : d.canonical) : (d.refuse n cause).canonical :=
  .optDown h

theorem Die.canonical.opSpdmRecordReceive {n : OptIx} {r : SessionResult} (h : d.canonical) : (opSpdmRecordReceive n r d).canonical := by
  unfold Machine.opSpdmRecordReceive
  refine .ite ?_ h
  split
  · exact .sayOn h
  · exact .refuse h
  · exact .ite (.refuse h) (.tryAdmit (.setOpt (.put (.put (.put h)))))

theorem Die.canonical.opSessionTimeout {n : OptIx} (h : d.canonical) : (opSessionTimeout n d).canonical :=
  .ite (.refuse h) h

theorem Die.canonical.giveUnits {port : LinkPort} {cls n : ℕ} (h : d.canonical) : (d.giveUnits port cls n).canonical :=
  .ite (.setCredits h) (.count h)

theorem Die.canonical.opCreditReceive {port : LinkPort} {units : List ℕ} (h : d.canonical) : (opCreditReceive port units d).canonical :=
  .pump (.foldl (fun _ _ h2 => .ite h2 (.giveUnits h2)) h)

theorem Die.canonical.opCreditReturnTimer {port : LinkPort} (h : d.canonical) : (opCreditReturnTimer port d).canonical :=
  .ite h (.sayOn (.setCredits h))

theorem Die.canonical.opNivikFlitReceive {n : OptIx} {crcOk tagOk : Bool} {seq : ℕ} {phase ack : Bool} {credit : Option (Fin 8 × ℕ)} (h : d.canonical) :
    (opNivikFlitReceive n crcOk tagOk seq phase ack credit d).canonical := by
  unfold Machine.opNivikFlitReceive
  extract_lets
  refine .ite h (.ite (.sayOn h) ?_)
  split
  · exact h
  · refine .ite (.optDown h) (.ite (.optDown h) ?_)
    extract_lets
    split
    · exact .pump (.giveUnits (.setOpt h))
    · exact .setOpt h

theorem Die.canonical.opFlitReplay {n : OptIx} (h : d.canonical) : (opFlitReplay n d).canonical :=
  .ite h (.ite (.optDown h) (.emit (.markRetry (.setOpt h))))

theorem Die.canonical.opOpticalLaneLoss {n : OptIx} {lane : Fin 16} (h : d.canonical) : (opOpticalLaneLoss n lane d).canonical :=
  .ite h (.ite (.ite (.setOpt h) (.optEvent (.putB (.setOpt h)))) (.optDown h))

theorem Die.canonical.opKeyUpdate {n : OptIx} (h : d.canonical) : (opKeyUpdate n d).canonical := by
  unfold Machine.opKeyUpdate
  extract_lets
  split
  · exact .ite (.sayOn (.setOpt h)) h
  · exact h

theorem Die.canonical.optBoundary {n : OptIx} (h : d.canonical) : (d.optBoundary n).canonical :=
  .ite (.optDown h) (.setOpt h)

theorem Die.canonical.opCreditStall {n : OptIx} (h : d.canonical) : (opCreditStall n d).canonical :=
  .ite (.optDown h) h

theorem Die.canonical.setLaserGood {n : OptIx} (h : d.canonical) : (d.setLaserGood n).canonical :=
  .putB h

theorem Die.canonical.removal {n : OptIx} {cause : ℕ} (h : d.canonical) : (d.removal n cause).canonical :=
  .ite h (.optDown h)

theorem Die.canonical.opFabricSupplyLoss (h : d.canonical) : (opFabricSupplyLoss d).canonical :=
  .foldl (fun _ _ h2 => .setLaserGood (.ite h2 (.optDown h2))) (.update rfl rfl (.ite (.optEvent h) h))

theorem Die.canonical.opFabricRailsApplied (h : d.canonical) : (opFabricRailsApplied d).canonical :=
  .foldl (fun _ _ h2 => .optStart (.setLaserGood h2)) h

theorem Die.canonical.opPresenceChange {n : OptIx} {present : Bool} (h : d.canonical) : (opPresenceChange n present d).canonical :=
  .ite h (.ite (.optEvent (.putB (.putB h))) (.removal (.setLaserGood (.putB (.optEvent (.putB (.putB h)))))))

theorem Die.canonical.opButton {n : OptIx} (h : d.canonical) : (opButton n d).canonical :=
  .optEvent (.putB h)

theorem Die.canonical.opLaserPowerFault {n : OptIx} (h : d.canonical) : (opLaserPowerFault n d).canonical :=
  .removal (.optEvent (.putB (.putB (.putB h))))

theorem Die.canonical.writeCage {n : OptIx} {v : ℕ} (h : d.canonical) : (d.writeCage n v).canonical := by
  unfold Die.writeCage
  extract_lets clr d2 d3 d4 _ _ d5
  have h2 : ∀ (f : Fld) (i : ℕ) (e : Die), e.canonical → (clr f i e).canonical := fun _ _ _ h2 => .ite (.putB h2) h2
  have h3 : d2.canonical := h2 _ _ _ (h2 _ _ _ (h2 _ _ _ h))
  have h4 : d3.canonical := .ite h3 (.put h3)
  have h5 : d4.canonical := .ite h4 (.put h4)
  have h6 : d5.canonical := .setLaserGood (.putB h5)
  exact .ite (.ite (.optStart (.setLaserGood (.putB h5))) h5) (.ite (.removal h6) h6)

end

end Sys2Proof.Machine
end

section
/-! PROOF. The accesses of the sources keep the canonical forms: translation, pieces of memory, registers, windows, cores (chapters 09 to 13). -/

namespace Sys2Proof.Machine

section
variable {d t : Die} {k q : Core}

theorem canonicalIn.setMsixWord {f off v : ℕ} (h : d.canonical) : canonicalIn (d.setMsixWord f off v) := by
  unfold Die.setMsixWord
  split
  · exact .none
  · extract_lets
    split
    iterate 4
      · exact .some (.setVec h)
    · exact .none

theorem Die.canonical.reserved {who : Who} {bar2 write size : Bool} {off : ℕ} (h : d.canonical) : (d.reserved who bar2 write size off).canonical :=
  .ite (.count h) (.putRaw (.count h))

theorem canonicalSnd.readPf {who : Who} {off : ℕ} (h : d.canonical) : canonicalSnd (d.readPf who off) :=
  .ite (.some (.readTickLo h)) (.ite (.some h) (.ite (.some (.put h)) (.ite (.some (.readValueLo h)) (.ite (.some h) (.ite (.some h) .none)))))

theorem Die.canonical.readBar0 {who : Who} {off : ℕ} (h : d.canonical) : (d.readBar0 who off).2.canonical := by
  unfold Die.readBar0
  extract_lets _ _ x word
  have h2 : ∀ (x : Option ℕ), (word x).2.canonical := by
    intro _
    unfold word
    split
    · exact h
    · exact .reserved h
  refine .iteSnd (.iteSnd (.reserved h) (.iteSnd (.iteSnd (h2 _) (.reserved h)) (.iteSnd (.iteSnd (h2 _) (.reserved h)) (.getDSnd (.readPf h) (.reserved
      h))))) ?_
  split
  · exact .getDSnd (.readPf h) (.reserved h)
  · exact h
  · exact h
  · exact .iteSnd (h2 _) (.reserved h)
  · exact .iteSnd (h2 _) (.reserved h)
  · exact .iteSnd h (.getDSnd (.readPf h) (.reserved h))
  · exact h
  · exact .reserved h

theorem Die.canonical.readDev {a n key : ℕ} (h : d.canonical) : (d.readDev a n key).2.canonical :=
  .foldlSnd (fun _ _ h2 => .homeRead h2) h

theorem Die.canonical.writeDev {req : Req} {stop : Fin 64} {a key : ℕ} {bs : List Byte} (h : d.canonical) : (d.writeDev req stop a key bs).2.canonical :=
  .foldlSnd (fun _ _ h2 => .broadcast (.homePerformWrite (.noteRun h2))) h

theorem Die.canonical.enablePart {p : ℕ} (h : d.canonical) : (d.enablePart p).canonical :=
  .ite (.unkeep (.putRaw (.putB h))) (.drawKey (.putRaw (.putB h)))

theorem Die.canonical.writePart {p v : ℕ} (h : d.canonical) : (d.writePart p v).canonical := by
  unfold Die.writePart
  extract_lets _ _ _ d3
  have h2 : d3.canonical := .ite (.enablePart (.put h)) (.put h)
  exact .ite (.startPartReset h2) (.ite (.startPartReset h2) h2)

theorem Die.canonical.assignCore {c : CoreIx} {v : ℕ} (h : d.canonical) : (d.assignCore c v).canonical :=
  .ite h (.clearCore (.putRaw h))

theorem Die.canonical.tickRun (h : d.canonical) : d.tickRun.canonical :=
  .ite h (.ite (.put (.putB (.update rfl rfl (.putB h)))) (.putB h))

theorem Die.canonical.restore {r : List Byte} (h : d.canonical) : (d.restore r).canonical :=
  .onTr (.update rfl rfl (.foldl (fun _ _ h2 => .putRaw (.putRaw (.putRaw h2))) (.putRaw (.putRaw h))))

theorem Die.canonical.endOrphaned (h : d.canonical) : d.endOrphaned.canonical :=
  .putB (.putB h)

theorem Die.canonical.discard (h : d.canonical) : d.discard.canonical :=
  .ite (.onTr (.endOrphaned (.foldl (fun _ _ h2 => .drawKey h2) h))) (.endOrphaned (.foldl (fun _ _ h2 => .drawKey h2) h))

theorem Die.canonical.reattach (h : d.canonical) : d.reattach.canonical := by
  unfold Die.reattach
  refine .ite ?_ h
  split
  next heq => exact .ite (.put (.endOrphaned (.restore (.of_pair heq (.readDev h))))) (.discard (.putB (.of_pair heq (.readDev h))))
  next heq => exact .discard (.putB (.of_pair heq (.readDev h)))

theorem Die.canonical.writePreserve {v : ℕ} (h : d.canonical) : (d.writePreserve v).canonical :=
  .ite (.reattach h) (.ite (.discard h) h)

theorem Die.canonical.writeBias {v : ℕ} (h : d.canonical) : (d.writeBias v).canonical :=
  .ite (.putB (.ite (.putB h) h)) (.ite (.ite (.putB h) h) (.update rfl rfl (.putB (.put (.ite (.putB h) h)))))

theorem Die.canonical.hkmStep (h : d.canonical) : d.hkmStep.canonical :=
  .put h

theorem Die.canonical.writeHkm {v : ℕ} (h : d.canonical) : (d.writeHkm v).canonical :=
  .hkmStep h

theorem Die.canonical.store {r : RegRow} {off v : ℕ} (h : d.canonical) : (d.store r off v).canonical :=
  .putRaw h

theorem Die.canonical.writeAlloc {r : RegRow} {f off v : ℕ} (h : d.canonical) : (d.writeAlloc r f off v).canonical :=
  .ite h (.store h)

theorem Die.canonical.writePin {r : RegRow} {v : ℕ} (h : d.canonical) : (d.writePin r v).canonical :=
  .ite (.update rfl rfl (.store h)) (.store h)

theorem Die.canonical.inject (h : d.canonical) : d.inject.canonical :=
  .onFault h

theorem Die.canonical.kick (h : d.canonical) : d.kick.canonical :=
  h

theorem Die.canonical.writeKeyCtrl {r : RegRow} {v : ℕ} (h : d.canonical) : (d.writeKeyCtrl r v).canonical :=
  .ite (.drawKey (.store h)) (.store h)

theorem Die.canonical.effect {who : Who} {r : RegRow} {off v : ℕ} (h : d.canonical) : (d.effect who r off v).canonical := by
  have hs : (d.store r off v).canonical := .store h
  unfold Die.effect
  refine .ite (.ite (.tickRun hs) hs) (.ite (.assignCore h) ?_)
  refine .ite (.clearClass h) (.ite (.clearClass h) (.ite (.clearClass h) (.ite (.writePin h) ?_)))
  refine .ite (.ite (.clearHist hs) hs) (.ite (.force h) (.ite (.force h) (.ite (.force h) ?_)))
  refine .ite (.ite (.inject h) h) (.ite (.writeCap h) (.ite (.ite (.resume hs) hs) ?_))
  refine .ite (.writePart h) (.ite (.writeAlloc h) (.ite (.writeHkm h) (.ite (.writeBias h) ?_)))
  refine .ite (.writeKeyCtrl h) (.ite (.writePreserve h) (.ite (.ite (.putB (.writeOptCtrl h)) (.writeOptCtrl h)) ?_))
  refine .ite (.tryAdmit hs) (.ite (.writeCage h) (.ite (.ite (.kick h) h) (.ite ?_ hs)))
  extract_lets
  split
  · exact .opSyncAdd h
  · exact .writeSyncCtrl h
  · exact h

theorem Die.canonical.writePf {who : Who} {off v : ℕ} (h : d.canonical) : (d.writePf who off v).canonical := by
  unfold Die.writePf
  split
  · exact .ite h (.reserved h)
  · exact .ite (.ite (.putB h) h) (.ite (.putB h) (.effect h))

theorem Die.canonical.writeBar0 {who : Who} {off v : ℕ} (h : d.canonical) : (d.writeBar0 who off v).canonical := by
  unfold Die.writeBar0
  extract_lets _ _ reserved table
  have h2 : ∀ (x : Option Die), canonicalIn x → (table x).canonical := fun _ h2 => .ite (.getD h2 (.reserved h)) (.reserved h)
  refine .ite (.reserved h) (.ite (.ite (h2 _ (.setMsixWord h)) (.ite (h2 _ (.map (fun _ => h))) (.writePf h))) ?_)
  split
  · exact .ite (.writePf h) h
  · exact .ite (.putRaw h) h
  · exact h
  · exact h2 _ (.setMsixWord h)
  · exact h2 _ (.map (fun _ => h))
  · exact .ite (.reserved (.effect h)) (.effect h)
  · exact .reserved h
  · exact .reserved h

theorem Die.canonical.opTickRun {who : Who} {v : W32} (h : d.canonical) : (opTickRun who v d).canonical :=
  .writeBar0 h

theorem Die.canonical.opHbmOffline {who : Who} {v : W32} (h : d.canonical) : (opHbmOffline who v d).canonical :=
  .writeBar0 h

theorem Die.canonical.opHkmDataAccess {who : Who} {v : Option W32} (h : d.canonical) : (opHkmDataAccess who v d).canonical := by
  unfold Machine.opHkmDataAccess
  split
  · exact .writeBar0 h
  · split
    next heq => exact .emit (.of_pair heq (.readBar0 h))

theorem Die.canonical.opBiasFlip {who : Who} {v : W32} (h : d.canonical) : (opBiasFlip who v d).canonical :=
  .writeBar0 h

theorem Die.canonical.opRotate {who : Who} {v : W32} (h : d.canonical) : (opRotate who v d).canonical :=
  .writeBar0 h

theorem Die.canonical.opReattach {who : Who} (h : d.canonical) : (opReattach who d).canonical :=
  .writeBar0 h

theorem Die.canonical.opDiscard {who : Who} (h : d.canonical) : (opDiscard who d).canonical :=
  .writeBar0 h

theorem Die.canonical.opOptEnable {who : Who} {n : OptIx} {v : W32} (h : d.canonical) : (opOptEnable who n v d).canonical :=
  .writeBar0 h

theorem Die.canonical.opAdmit {who : Who} {n : OptIx} {v : W32} (h : d.canonical) : (opAdmit who n v d).canonical :=
  .writeBar0 h

theorem Die.canonical.opTickSrc {who : Who} {n : OptIx} {v : W32} (h : d.canonical) : (opTickSrc who n v d).canonical :=
  .writeBar0 h

theorem Die.canonical.opLaserEn {who : Who} {n : OptIx} {v : W32} (h : d.canonical) : (opLaserEn who n v d).canonical :=
  .writeBar0 h

theorem Die.canonical.opPartitionEnable {who : Who} {p : PartIx} {v : W32} (h : d.canonical) : (opPartitionEnable who p v d).canonical :=
  .writeBar0 h

theorem Die.canonical.opPartitionResetRequest {who : Who} {p : PartIx} {v : W32} (h : d.canonical) : (opPartitionResetRequest who p v d).canonical :=
  .writeBar0 h

theorem Die.canonical.opFaultForce {who : Who} {cls : Cls} {v : W32} (h : d.canonical) : (opFaultForce who cls v d).canonical :=
  .writeBar0 h

theorem Die.canonical.opFaultHistClear {who : Who} (h : d.canonical) : (opFaultHistClear who d).canonical :=
  .writeBar0 h

theorem Die.canonical.opInject {who : Who} (h : d.canonical) : (opInject who d).canonical :=
  .writeBar0 h

theorem Die.canonical.opThermalResume {who : Who} {v : W32} (h : d.canonical) : (opThermalResume who v d).canonical :=
  .writeBar0 h

theorem Die.canonical.opGroomKick {who : Who} (h : d.canonical) : (opGroomKick who d).canonical :=
  .writeBar0 h

theorem Die.canonical.winWrite {who : Asker} {part a : ℕ} {bs : List Byte} (h : d.canonical) : (d.winWrite who part a bs).2.canonical :=
  .iteSnd (.iteSnd (.remote h) h) (.remote h)

theorem Die.canonical.hostErr {cause fn addr : ℕ} (h : d.canonical) : (d.hostErr cause fn addr).canonical :=
  .count (.record h)

theorem Die.canonical.p2pAsk {req : Req} {id part hpa n : ℕ} (h : d.canonical) : (d.p2pAsk req id part hpa n).canonical :=
  .emit (.onHost h)

theorem Die.canonical.p2pWrite {req : Req} {id part hpa : ℕ} {bs : List Byte} (h : d.canonical) : (d.p2pWrite req id part hpa bs).canonical :=
  .p2pAsk (.emit h)

theorem Die.canonical.takeLost {who : Asker} {line : ℕ} (h : d.canonical) : (d.takeLost who line).2.canonical := by
  unfold Die.takeLost
  split
  · exact .onCache h
  · exact h

theorem Die.canonical.tookReply {who : Asker} {a n : ℕ} (h : d.canonical) : (d.tookReply who a n).2.canonical := by
  unfold Die.tookReply
  split
  next heq => exact .of_pair heq (.takeReplyTo h)
  next heq => exact .of_pair heq (.takeReplyTo h)

theorem Die.canonical.fetch {r : HomeReq} {ready : Bool} {charge : Die → Die} (h : d.canonical) (hc : ∀ e, e.canonical → (charge e).canonical) :
    (d.fetch r ready charge).2.canonical := by
  unfold Die.fetch
  split
  split
  next heq =>
    have ht := Die.canonical.of_pair heq (.tookReply h)
    refine .iteSnd ht ?_
    split
    next heq => exact .tookReply (.of_some heq (.pushOn ht))
    · exact .iteSnd (.tookReply (.askHome (hc _ ht))) ht
  · exact .tookReply h

theorem Die.canonical.store_ {r : HomeReq} {ready : Bool} {charge : Die → Die} (h : d.canonical) (hc : ∀ e, e.canonical → (charge e).canonical) :
    (d.store_ r ready charge).2.canonical := by
  unfold Die.store_
  refine .iteSnd h ?_
  split
  next heq => exact .of_pair heq (.takeLost (.askHome (hc _ h)))
  next heq => exact .of_pair heq (.takeLost (.askHome (hc _ h)))

theorem Die.canonical.hostSideRead {s : Src} {id dva hpa n : ℕ} {once : Bool} (h : d.canonical) : (d.hostSideRead s id dva hpa n once).2.canonical := by
  -- as for `sendHost`: the range of a peer device is made a variable first
  suffices hf : ∀ f, f = @Die.hostSideRead → ∀ range, range = d.p2pRange hpa → (f d s id dva hpa n once).2.canonical from hf _ rfl _ rfl
  intro f hf range hrange
  delta Die.hostSideRead at hf
  have hd := congrFun (congrFun (congrFun (congrFun (congrFun (congrFun (congrFun hf d) s) id) dva) hpa) n) once
  rw [← hrange] at hd
  rw [hd]
  clear hrange
  cases range with
  | some k =>
    refine .iteSnd (.hostErr h) ?_
    split
    next heq => exact .of_pair heq (.takeLost h)
    next e heq =>
      have he : e.canonical := .of_pair heq (.takeLost h)
      split
      · split
        · exact .onHost he
        · exact he
      · exact .iteSnd he (.p2pAsk he)
  | none => exact .fetch h (fun _ he => .useTokens he)

theorem Die.canonical.hostSideWrite {s : Src} {id dva hpa : ℕ} {bs : List Byte} (h : d.canonical) : (d.hostSideWrite s id dva hpa bs).2.canonical := by
  -- as for `sendHost`: the range of a peer device is made a variable first
  suffices hf : ∀ f, f = @Die.hostSideWrite → ∀ range, range = d.p2pRange hpa → (f d s id dva hpa bs).2.canonical from hf _ rfl _ rfl
  intro f hf range hrange
  delta Die.hostSideWrite at hf
  subst hf
  beta_reduce
  rw [← hrange]
  clear hrange
  cases range with
  | some k => exact .iteSnd h (.iteSnd (.hostErr h) (.useTokens (.p2pWrite h)))
  | none => exact .store_ h (fun _ he => .useTokens he)

theorem Die.canonical.regRead {s : Src} {a n : ℕ} (h : d.canonical) : (d.regRead s a n).2.canonical :=
  .foldlSnd (fun _ _ h2 => .readBar0 h2) h

theorem Die.canonical.regWord {s : Src} {id w : ℕ} {v : Option ℕ} (h : d.canonical) : (d.regWord s id w v).canonical := by
  unfold Die.regWord
  split
  · exact .reserved h
  · exact .ite (.writeBar0 h) (.ownEffects (.writeBar0 h))

theorem Die.canonical.regWords {s : Src} {id a : ℕ} {bs : List Byte} {n done : ℕ} (h : d.canonical) : (Die.regWords s id a bs n done d).2.canonical := by
  induction n generalizing done d with
  | zero => exact h
  | succ n ih =>
    unfold Die.regWords
    exact .iteSnd h (.iteSnd h (ih (.regWord h)))

theorem Die.canonical.pieceRead {s : Src} {id dva n : ℕ} {noFault : Bool} (h : d.canonical) : (d.pieceRead s id dva n noFault).2.canonical := by
  unfold Die.pieceRead
  extract_lets pay
  have h2 : ∀ (e : Die), e.canonical → (pay e).canonical := fun _ h2 => .useTokens h2
  split
  next heq => exact .of_pair heq (.translate h)
  next heq => exact .of_pair heq (.translate h)
  next heq => exact .fetch (.of_pair heq (.translate h)) (fun _ h3 => h2 _ h3)
  next heq => exact .fetch (.of_pair heq (.translate h)) (fun _ h3 => h2 _ h3)
  next heq => exact .hostSideRead (.of_pair heq (.translate h))
  next heq =>
    refine .iteSnd (.of_pair heq (.translate h)) ?_
    split
    · split
      · exact .onPorts (.of_pair heq (.translate h))
      · exact .of_pair heq (.translate h)
    · refine .iteSnd (.of_pair heq (.translate h)) ?_
      split
      next heq3 => exact .of_pair heq3 (.remote (.of_pair heq (.translate h)))
      next heq3 => exact .of_pair heq3 (.remote (.of_pair heq (.translate h)))
  next heq => exact .iteSnd (.of_pair heq (.translate h)) (.regRead (.of_pair heq (.translate h)))

theorem Die.canonical.pieceWrite {s : Src} {id dva : ℕ} {bs : List Byte} {h : Hint} (hd : d.canonical) : (d.pieceWrite s id dva bs h).2.2.canonical := by
  unfold Die.pieceWrite
  extract_lets whole _ _ pay
  have h2 : ∀ (x : DRes × Die), x.2.canonical → (whole x).2.2.canonical := fun _ h2 => h2
  have h3 : ∀ (e : Die), e.canonical → (pay e).canonical := fun _ h3 => .useTokens h3
  split
  next heq => exact .of_pair heq (.translate hd)
  next heq => exact .of_pair heq (.translate hd)
  next heq => exact h2 _ (.store_ (.of_pair heq (.translate hd)) (fun _ h4 => h3 _ h4))
  next heq => exact h2 _ (.store_ (.of_pair heq (.translate hd)) (fun _ h4 => h3 _ h4))
  next heq => exact h2 _ (.hostSideWrite (.of_pair heq (.translate hd)))
  next heq =>
    refine .iteThird (.of_pair heq (.translate hd)) (.iteThird (.of_pair heq (.translate hd)) ?_)
    split
    next heq2 => exact .of_pair heq2 (.winWrite (.of_pair heq (.translate hd)))
    next heq2 => exact h3 _ (.of_pair heq2 (.winWrite (.of_pair heq (.translate hd))))
  next heq => exact .regWords (.of_pair heq (.translate hd))

theorem Die.canonical.setRead {r : DvaRead} (h : d.canonical) : (d.setRead r).canonical :=
  .onTr h

theorem Die.canonical.readOn {s : Src} {noFault : Bool} {l : List (ℕ × ℕ)} {got : List Byte} (h : d.canonical) :
    (Die.readOn s noFault l got d).2.2.canonical := by
  induction l generalizing got d with
  | nil => exact h
  | cons x rest ih =>
    unfold Die.readOn
    split
    next heq => exact ih (.of_pair heq (.pieceRead h))
    next heq => exact .of_pair heq (.pieceRead h)
    next heq => exact .of_pair heq (.pieceRead h)

theorem Die.canonical.readAll {s : Src} {a n : ℕ} {noFault : Bool} (h : d.canonical) : (d.readAll s a n noFault).2.canonical :=
  .iteSnd h (.ite (.readOn h) (.setRead (.readOn h)))

theorem Die.canonical.setWrite {w : DvaWrite} (h : d.canonical) : (d.setWrite w).canonical :=
  .onTr h

theorem Die.canonical.writeOn {s : Src} {h : Hint} {base : ℕ} {bs : List Byte} {l : List (ℕ × ℕ)} {done : ℕ} (hd : d.canonical) :
    (Die.writeOn s h base bs l done d).2.2.canonical := by
  induction l generalizing done d with
  | nil => exact hd
  | cons x rest ih =>
    unfold Die.writeOn
    split
    next heq => exact ih (.of_triple heq (.pieceWrite hd))
    next heq => exact .of_triple heq (.pieceWrite hd)
    next heq => exact .of_triple heq (.pieceWrite hd)

theorem Die.canonical.writeAll {s : Src} {a : ℕ} {bs : List Byte} {h : Hint} (hd : d.canonical) : (d.writeAll s a bs h).2.canonical :=
  .setWrite (.writeOn hd)

theorem Die.canonical.doneWith {req : Req} (h : d.canonical) : (d.doneWith req).canonical :=
  .onCache (.forget (.onTr h))

theorem Die.canonical.markSent {c : CoreIx} {id : ℕ} {host : Bool} {pa : ℕ} (h : d.canonical) : (d.markSent c id host pa).canonical :=
  .onOp h

theorem Die.canonical.sendCore {c : CoreIx} {o : CoreOpEntry} {r : HomeReq} {pa part : ℕ} (h : d.canonical) : (d.sendCore c o r pa part).canonical :=
  .useTokens (.markSent (.sendHome h))

theorem Die.canonical.dropOwnLine {c : CoreIx} {line : ℕ} {host : Bool} (h : d.canonical) : (d.dropOwnLine c line host).canonical := by
  unfold Die.dropOwnLine
  split
  · exact h
  · exact .ite h (.sendEvict (.l1Drop h))

theorem Die.canonical.loadLine {c : CoreIx} {o : CoreOpEntry} {host : Bool} {pa : ℕ} {ready : Bool} {ask : Die → Die}
    (h : d.canonical) (hask : (ask d).canonical) : (d.loadLine c o host pa ready ask).canonical := by
  unfold Die.loadLine
  extract_lets line
  split
  · exact .answer (.markSent (.l1Touch h))
  · split
    · exact .ite h (.markSent h)
    · exact .ite h (.onCache hask)

theorem Die.canonical.sendDev {c : CoreIx} {o : CoreOpEntry} {s : Src} {pa : ℕ} {once : Bool} (h : d.canonical) : (d.sendDev c o s pa once).canonical := by
  unfold Die.sendDev
  extract_lets
  split
  · exact .ite (.ite (.sendCore (.dropOwnLine h)) h) (.loadLine h (.sendCore h))
  · refine .ite h ?_
    split
    · exact .ite (.ite (.sendCore (.l1Put (.l1Touch h))) h) (.sendCore (.l1Touch h))
    · exact .sendCore h
  · refine .ite h ?_
    split
    · exact .ite h (.ite (.nearAmo (.useTokens (.markSent (.l1Touch h)))) (.sendCore h))
    · exact .sendCore h

theorem Die.canonical.sendShr {c : CoreIx} {o : CoreOpEntry} {s : Src} {pa : ℕ} (h : d.canonical) : (d.sendShr c o s pa).canonical :=
  .ite h (.sendCore h)

theorem Die.canonical.sendP2p {c : CoreIx} {o : CoreOpEntry} {s : Src} {k hpa : ℕ} (h : d.canonical) : (d.sendP2p c o s k hpa).canonical := by
  unfold Die.sendP2p
  extract_lets bad
  have h2 : ∀ (e : Die), e.canonical → (bad e).canonical := fun _ h2 => .coreDrops h2
  refine .ite (h2 _ (.hostErr h)) (.ite h ?_)
  split
  · exact .useTokens (.markSent (.p2pAsk h))
  · exact .useTokens (.markSent (.p2pWrite h))
  · exact h2 _ h

theorem Die.canonical.sendHost {c : CoreIx} {o : CoreOpEntry} {s : Src} {hpa : ℕ} {once : Bool} {tier : Option DieIx} (h : d.canonical) :
    (d.sendHost c o s hpa once tier).canonical := by
  -- the range of a peer device is made a variable first: a match on its 65536s is not to be evaluated
  suffices hf : ∀ f, f = @Die.sendHost → ∀ range, range = d.p2pRange hpa → (f d c o s hpa once tier).canonical from hf _ rfl _ rfl
  intro f hf range hrange
  delta Die.sendHost at hf
  subst hf
  beta_reduce
  rw [← hrange]
  clear hrange
  cases range with
  | some k => exact .sendP2p h
  | none =>
    extract_lets line ready ask
    have hask : ∀ op (e : Die), e.canonical → (ask op e).canonical := fun _ _ he => .sendCore he
    dsimp only
    split
    · exact .ite (.ite (hask _ _ (.dropOwnLine h)) h) (.loadLine h (hask _ _ h))
    · exact .ite (hask _ _ h) h
    · exact .ite (hask _ _ h) h

theorem Die.canonical.sendWin {c : CoreIx} {o : CoreOpEntry} {s : Src} {a : ℕ} (h : d.canonical) : (d.sendWin c o s a).canonical := by
  unfold Die.sendWin
  extract_lets bad _ sent
  have h2 : ∀ (e : Die) (st : Status), e.canonical → (bad e st).canonical := fun _ _ h2 => .coreDrops h2
  have h3 : ∀ (r : Option Status × Die), r.2.canonical → (sent r).canonical := by
    intro _ h3
    unfold sent
    split
    · exact h2 _ _ h3
    · exact .useTokens (.markSent h3)
  refine .ite h ?_
  split
  · exact h2 _ _ h
  · exact .ite (h2 _ _ h) (h3 _ (.remote h))
  · exact h3 _ (.winWrite h)

theorem Die.canonical.sendReg {c : CoreIx} {o : CoreOpEntry} {s : Src} {a : ℕ} (h : d.canonical) : (d.sendReg c o s a).canonical := by
  unfold Die.sendReg
  refine .ite h ?_
  split
  · exact .coreDrops h
  · exact .ite h (.answer (.markSent (.regRead h)))
  · split
    next heq2 => exact .ite (.effectEnd (.markSent (.of_pair heq2 (.regWords h)))) (.onOp (.of_pair heq2 (.regWords h)))

theorem Die.canonical.sendOp {c : CoreIx} {id : ℕ} (h : d.canonical) : (d.sendOp c id).canonical := by
  unfold Die.sendOp
  split
  · exact h
  · extract_lets
    refine .ite h ?_
    split
    next heq2 => exact .of_pair heq2 (.translate h)
    next heq2 => exact .coreDrops (.of_pair heq2 (.translate h))
    next heq2 =>
      extract_lets
      refine .ite (.of_pair heq2 (.translate h)) (.ite (.onOp (.of_pair heq2 (.translate h))) ?_)
      split
      · exact .sendDev (.of_pair heq2 (.translate h))
      · exact .sendShr (.of_pair heq2 (.translate h))
      · exact .sendHost (.of_pair heq2 (.translate h))
      · exact .ite (.of_pair heq2 (.translate h)) (.sendWin (.of_pair heq2 (.translate h)))
      · exact .sendReg (.of_pair heq2 (.translate h))

theorem Die.canonical.startAccess {c : CoreIx} {os : List CoreOpEntry} (h : d.canonical) (hk : k.canonical) : (d.startAccess c k os).canonical :=
  .foldl (fun _ _ h2 => .sendOp h2) (.setCore h (.update (.next hk)))

theorem Die.canonical.scalarLoad {c : CoreIx} {op : CoreOp} {sd sa : Reg} {imm : W32} {vol : Bool} {n : ℕ} (h : d.canonical) :
    (d.scalarLoad c op sd sa imm vol n).canonical :=
  .issue h (fun _ _ h2 hk => .startAccess h2 hk)

theorem Die.canonical.scalarStore {c : CoreIx} {op : CoreOp} {sd sa : Reg} {imm : W32} {n : ℕ} (h : d.canonical) :
    (d.scalarStore c op sd sa imm n).canonical :=
  .issue h (fun _ _ h2 hk => .startAccess h2 hk)

theorem Die.canonical.opLd {c : CoreIx} {sd sa : Reg} {imm : W32} {v : Bool} (h : d.canonical) : (opLd c sd sa imm v d).canonical :=
  .scalarLoad h

theorem Die.canonical.opLw {c : CoreIx} {sd sa : Reg} {imm : W32} {v : Bool} (h : d.canonical) : (opLw c sd sa imm v d).canonical :=
  .scalarLoad h

theorem Die.canonical.opSd {c : CoreIx} {sd sa : Reg} {imm : W32} (h : d.canonical) : (opSd c sd sa imm d).canonical :=
  .scalarStore h

theorem Die.canonical.opSw {c : CoreIx} {sd sa : Reg} {imm : W32} (h : d.canonical) : (opSw c sd sa imm d).canonical :=
  .scalarStore h

theorem Die.canonical.opAmo {op : AmoOp} {c : CoreIx} {sd sa sb : Reg} {w : Bool} (h : d.canonical) : (opAmo op c sd sa sb w d).canonical :=
  .issue h (fun _ _ h2 hk => .startAccess h2 hk)

theorem Die.canonical.opVldg {c : CoreIx} {vd sa : Reg} {m : BitVec 2} {imm : W32} (h : d.canonical) : (opVldg c vd sa m imm d).canonical :=
  .issue h (fun _ _ h2 hk => .startAccess h2 hk)

theorem Die.canonical.opVstg {c : CoreIx} {vd sa : Reg} {imm : W32} (h : d.canonical) : (opVstg c vd sa imm d).canonical :=
  .issue h (fun _ _ h2 hk => .startAccess h2 hk)

theorem Core.canonical.mergeLanes {r : Reg} {mask : LaneMask} {off : ℕ} {bs : List Byte} (h : k.canonical) : (k.mergeLanes r mask off bs).canonical :=
  .setV h

theorem Core.canonical.land {dest : Option LoadDest} {bs : List Byte} (h : k.canonical) : (k.land dest bs).canonical := by
  unfold Core.land
  split
  · exact .setS h
  · exact .mergeLanes h
  · exact h

theorem Die.canonical.landed {c : CoreIx} {o : CoreOpEntry} {bs : List Byte} (h : d.canonical) : (d.landed c o bs).canonical :=
  .settle (.onCore h (fun _ hk => .ite (.update (.land hk)) (.update (.land hk))))

theorem Die.canonical.opLoadReturn {c : CoreIx} {id : ℕ} (h : d.canonical) : (opLoadReturn c id d).canonical := by
  unfold Machine.opLoadReturn
  split
  · exact h
  · split
    · exact .landed h
    · refine .ite (.sendOp h) ?_
      split
      · exact h
      · split
        · exact .landed (.popL1 h)
        · exact h
        · exact .coreDrops (.popL1 h)
    · exact h

theorem Die.canonical.writeDone {c : CoreIx} {id : ℕ} (h : d.canonical) : (d.writeDone c id).canonical :=
  .settle (.onCore h (fun _ hk => .ite (.waitDone hk) hk))

theorem Die.canonical.opWriteAcknowledge {req : Req} {id : ℕ} (h : d.canonical) : (opWriteAcknowledge req id d).canonical := by
  unfold Machine.opWriteAcknowledge
  split
  · split
    · exact h
    · refine .ite h (.ite (.writeDone h) (.ite (.sendOp h) ?_))
      split
      · exact h
      · exact .ite (.writeDone (.popL1 h)) (.coreDrops (.popL1 h))
  · exact h

theorem Die.canonical.startEngine {c : CoreIx} {op : CoreOp} {stow v : Bool} {sa sb sc : Reg} {crib : BitVec 22} (h : d.canonical) :
    (d.startEngine c op stow v sa sb sc crib).canonical := by
  unfold Die.startEngine
  extract_lets
  refine .issue h (fun e k2 h2 hk => ?_)
  split
  · exact h2
  · exact .setCore h2 (.update (.next hk))

theorem Die.canonical.opFetch {c : CoreIx} {sa sb sc : Reg} {v : Bool} {crib : BitVec 22} (h : d.canonical) : (opFetch c sa sb sc v crib d).canonical :=
  .startEngine h

theorem Die.canonical.opStow {c : CoreIx} {sa sb sc : Reg} {crib : BitVec 22} (h : d.canonical) : (opStow c sa sb sc crib d).canonical :=
  .startEngine h

theorem Die.canonical.onEngine {c : CoreIx} {e : EngIx} {f : EngOp → EngOp} (h : d.canonical) : (d.onEngine c e f).canonical :=
  .onCore h (fun _ hk => hk)

theorem Die.canonical.dropOwn {c : CoreIx} {s : Src} {a n : ℕ} (h : d.canonical) : (d.dropOwn c s a n).canonical := by
  unfold Die.dropOwn
  refine .foldl (fun e x h2 => ?_) h
  split
  next heq => exact .dropOwnLine (.of_pair heq (.translate h2))
  next heq => exact .dropOwnLine (.of_pair heq (.translate h2))
  · exact h2

theorem Die.canonical.engineRow {c : CoreIx} {e : EngIx} {x : EngOp} (h : d.canonical) : (d.engineRow c e x).2.canonical := by
  unfold Die.engineRow
  extract_lets _ _ _ step d2
  have h2 : ∀ (d : Die), d.canonical → (step d).canonical := fun _ h2 => .onEngine (.doneWith h2)
  have h3 : d2.canonical := .ite (.dropOwn h) h
  refine .iteSnd ?_ ?_
  · split
    next heq => exact .settle (.cribStop (.onCore (.doneWith (.of_pair heq (.cribRead h))) (fun _ hk => hk)))
    next heq =>
      split
      next heq2 => exact h2 _ (.of_pair heq2 (.writeAll (.of_pair heq (.cribRead h))))
      next heq2 => exact .of_pair heq2 (.writeAll (.of_pair heq (.cribRead h)))
      next heq2 => exact .engineFails (.doneWith (.of_pair heq2 (.writeAll (.of_pair heq (.cribRead h)))))
  · split
    next heq => exact h2 _ (.onCore (.of_pair heq (.readAll h3)) (fun _ hk => .cribWrite hk))
    next heq => exact .of_pair heq (.readAll h3)
    next heq => exact .engineFails (.doneWith (.of_pair heq (.readAll h3)))

theorem Die.canonical.engineRows {c : CoreIx} {e : EngIx} {n : ℕ} (h : d.canonical) : (Die.engineRows c e n d).canonical := by
  induction n generalizing d with
  | zero => exact h
  | succ n ih =>
    unfold Die.engineRows
    split
    · exact h
    · refine .ite h ?_
      split
      next heq2 => exact ih (.of_pair heq2 (.engineRow h))
      next heq2 => exact .of_pair heq2 (.engineRow h)

theorem Die.canonical.opFetchComplete {c : CoreIx} {e : EngIx} (h : d.canonical) : (opFetchComplete c e d).canonical := by
  unfold Machine.opFetchComplete
  extract_lets d2
  have h2 : d2.canonical := .engineRows h
  split
  · exact h2
  · exact .ite (.settle (.onCore h2 (fun _ hk => hk))) h2

end

end Sys2Proof.Machine
end

section
/-! PROOF. The canonical forms under rings, packets and launches (Rings, Launches). -/

namespace Sys2Proof.Machine

section
variable {d t : Die} {k q : Core}

theorem Die.canonical.onCp {f : CpUnit → CpUnit} (h : d.canonical) : (d.onCp f).canonical :=
  h

theorem Die.canonical.setRing {i : ℕ} {r : Ring} (h : d.canonical) : (d.setRing i r).canonical :=
  .onCp h

theorem Die.canonical.onRing {i : ℕ} {f : Ring → Ring} (h : d.canonical) : (d.onRing i f).canonical :=
  .setRing h

theorem Die.canonical.halt {i : ℕ} {st : Status} {op slot : ℕ} (h : d.canonical) : (d.halt i st op slot).canonical :=
  .raise (.record (.onRing h))

theorem Die.canonical.dropLost {req : Req} (h : d.canonical) : (d.dropLost req).canonical :=
  .onCache h

theorem Die.canonical.takeErrors {pid : ℕ} (h : d.canonical) : (d.takeErrors pid).canonical :=
  .dropLost (.foldl (fun _ _ h2 => .ite (.pktErrorAt h2) h2) h)

theorem Die.canonical.recordDone {c : ℕ} {qual : Bool} (h : d.canonical) : (d.recordDone c qual).canonical :=
  .ite (.onCp (.doneWith (.setRing h))) (.doneWith (.setRing h))

theorem Die.canonical.drainRing {c n : ℕ} (h : d.canonical) : (Die.drainRing c n d).canonical := by
  induction n generalizing d with
  | zero => exact h
  | succ n ih =>
    unfold Die.drainRing
    extract_lets
    split
    · exact h
    · refine .ite h ?_
      extract_lets stop
      have h2 : ∀ (e : Die) (st : Status), e.canonical → (stop e st).canonical := fun _ _ h2 => .halt (.doneWith (.dropLost h2))
      split
      next heq2 => exact .of_pair heq2 (.writeAll h)
      next heq2 => exact h2 _ _ (.of_pair heq2 (.writeAll h))
      next heq2 =>
        split
        · exact h2 _ _ (.of_pair heq2 (.writeAll h))
        · exact .ite (.of_pair heq2 (.writeAll h)) (ih (.recordDone (.of_pair heq2 (.writeAll h))))

theorem Die.canonical.drainAll (h : d.canonical) : d.drainAll.canonical :=
  .foldl (fun _ _ h2 => .drainRing h2) h

theorem Die.canonical.releaseSlot {c : ℕ} (h : d.canonical) : (d.releaseSlot c).canonical :=
  .onRing h

theorem Die.canonical.completePkt {q : Pkt} (h : d.canonical) : (d.completePkt q).canonical := by
  unfold Die.completePkt
  extract_lets _ _ d2 _ d4
  have h2 : d2.canonical := .dropLost (.doneWith h)
  have h3 : d4.canonical := .ite (.releaseSlot (.onCp h2)) (.onRing (.onCp h2))
  split
  · exact .onLaunch h3
  · exact .ite (.halt (.setRing h3)) (.setRing h3)

theorem Die.canonical.recordOf {pid : ℕ} (h : d.canonical) : (d.recordOf pid).canonical := by
  unfold Die.recordOf
  extract_lets d2
  have h2 : d2.canonical := .takeErrors h
  split
  · exact .completePkt h2
  · exact h2

theorem Die.canonical.opRecordWrite {pid : ℕ} (h : d.canonical) : (opRecordWrite pid d).canonical :=
  .drainAll (.ite (.foldl (fun _ _ h2 => .recordOf h2) (.noteReady h)) (.noteReady h))

theorem Die.canonical.deferPkt {pid retry : ℕ} (h : d.canonical) : (d.deferPkt pid retry).canonical :=
  .finish (.count h)

theorem Die.canonical.groomAccept {q : Pkt} (h : d.canonical) : (d.groomAccept q).canonical :=
  .ite (.deferPkt h) (.ite (.deferPkt h) (.ite (.deferPkt h) (.onCp (.onPkt h))))

theorem Die.canonical.readSlots {i : RingIx} {r : Ring} {n k : ℕ} {got : List Byte} (h : d.canonical) : (d.readSlots i r n k got).2.canonical := by
  induction n generalizing d k got with
  | zero => exact h
  | succ n ih =>
    unfold Die.readSlots
    split
    next heq => exact ih (.of_pair heq (.readAll h))
    next heq => exact .of_pair heq (.readAll h)

theorem Die.canonical.startPkt {i : RingIx} {body : List Byte} {len : ℕ} (h : d.canonical) : (d.startPkt i body len).canonical := by
  unfold Die.startPkt
  extract_lets _ _ _ _ d3
  have h2 : d3.canonical := .onRing (.onRing h)
  split
  · refine .ite ?_ (.onCp h2)
    split
    · exact .groomAccept (.onCp h2)
    · exact .finish (.onCp h2)
  · exact .finish (.onCp h2)

theorem Die.canonical.decodeRing {i : RingIx} (h : d.canonical) : (d.decodeRing i).canonical := by
  unfold Die.decodeRing
  extract_lets
  refine .ite h ?_
  split
  next heq => exact .of_pair heq (.readAll h)
  next heq => exact .halt (.doneWith (.fresh (.of_pair heq (.readAll h))))
  next heq =>
    extract_lets
    refine .ite (.halt (.doneWith (.of_pair heq (.readAll h)))) (.ite (.halt (.doneWith (.of_pair heq (.readAll h)))) (.ite (.of_pair heq (.readAll h))
        (.ite (.of_pair heq (.readAll h)) ?_)))
    split
    next heq2 => exact .of_pair heq2 (.readSlots (.of_pair heq (.readAll h)))
    next heq2 => exact .halt (.doneWith (.of_pair heq2 (.readSlots (.of_pair heq (.readAll h)))))
    next heq2 => exact .startPkt (.doneWith (.of_pair heq2 (.readSlots (.of_pair heq (.readAll h)))))

theorem Die.canonical.decodeRound (h : d.canonical) : d.decodeRound.canonical :=
  .foldl (fun _ _ h2 => .decodeRing h2) h

theorem Die.canonical.opNopPacket {pid : ℕ} (h : d.canonical) : (opNopPacket pid d).canonical := by
  unfold Machine.opNopPacket
  split
  · exact .finish h
  · exact h

theorem Die.canonical.dbReject {i : ℕ} (h : d.canonical) : (d.dbReject i).canonical :=
  .count (.onRing h)

theorem Die.canonical.doorbell {i : ℕ} {new : W32} (h : d.canonical) : (d.doorbell i new).canonical :=
  .ite (.dbReject h) (.ite (.ite (.setRing h) (.dbReject h)) (.ite (.setRing h) (.dbReject h)))

theorem Die.canonical.resumeRing {i : ℕ} (h : d.canonical) : (d.resumeRing i).canonical :=
  .ite (.ite (.drainRing (.setRing h)) (.setRing h)) h

theorem Die.canonical.endDisable {i : ℕ} (h : d.canonical) : (d.endDisable i).canonical :=
  .ite (.setRing h) h

theorem Die.canonical.writeConfig {who : Who} {i v : ℕ} (h : d.canonical) : (d.writeConfig who i v).canonical := by
  unfold Die.writeConfig
  extract_lets _ _ _ d2
  have h2 : d2.canonical := .ite (.reserved h) h
  exact .ite (.ite (.doneWith (.setRing h2)) (.setRing h2)) (.ite (.ite (.endDisable (.setRing h2)) (.setRing h2)) (.setRing h2))

theorem Die.canonical.writePage {who : Who} {off v : ℕ} (h : d.canonical) : (d.writePage who off v).canonical := by
  unfold Die.writePage
  extract_lets
  refine .ite (.reserved h) (.ite (.reserved h) ?_)
  split
  · exact .doorbell h
  · exact .ite (.resumeRing h) h
  · exact h
  · exact h
  · exact .ite (.setRing h) h
  · exact .ite (.reserved h) (.ite h (.setRing h))
  · exact .ite (.reserved h) (.ite h (.setRing h))
  · exact .writeConfig h
  · exact .reserved h

theorem Die.canonical.opDoorbell {who : Who} {r : RingIx} {v : W32} (h : d.canonical) : (opDoorbell who r v d).canonical :=
  .writePage h

theorem Die.canonical.opResume {who : Who} {r : RingIx} (h : d.canonical) : (opResume who r d).canonical :=
  .writePage h

theorem Die.canonical.opRingEnable {who : Who} {r : RingIx} {v : W32} (h : d.canonical) : (opRingEnable who r v d).canonical :=
  .writePage h

theorem Die.canonical.opRingDisable {who : Who} {r : RingIx} {v : W32} (h : d.canonical) : (opRingDisable who r v d).canonical :=
  .writePage h

theorem Die.canonical.opRingDisableComplete {r : RingIx} (h : d.canonical) : (opRingDisableComplete r d).canonical :=
  .endDisable h

theorem Die.canonical.opRegisterWrite {who : Who} {bar2 : Bool} {off : ℕ} {v : W32} (h : d.canonical) : (opRegisterWrite who bar2 off v d).canonical :=
  .ite (.writePage h) (.writeBar0 h)

theorem Die.canonical.opReservedAccess {who : Who} {bar2 : Bool} {off : ℕ} {write size : Bool} (h : d.canonical) :
    (opReservedAccess who bar2 off write size d).canonical :=
  .ite (.reserved h) (.ite (.ite (.reserved h) (.emit (.reserved h))) h)

theorem Die.canonical.launchDetail {f : Option (ℕ × ℕ × Status)} (h : d.canonical) : (d.launchDetail f).2.canonical := by
  unfold Die.launchDetail
  split
  · exact h
  · exact .iteSnd h (.fresh h)

theorem Die.canonical.beginLaunch {q : Pkt} {now : ℕ} {step : Bool} (h : d.canonical) : (d.beginLaunch q now step).canonical := by
  unfold Die.beginLaunch
  extract_lets
  split
  · split
    next heq2 => exact .finish (.of_pair heq2 (.launchDetail h))
  · exact .onPkt (.onCp h)

theorem Die.canonical.launchPkt {q : Pkt} {step : Bool} (h : d.canonical) : (d.launchPkt q step).canonical := by
  unfold Die.launchPkt
  split
  · split
    · exact .beginLaunch h
    · exact h
  · exact .finish h

theorem Die.canonical.opLaunchSlices {pid : ℕ} (h : d.canonical) : (opLaunchSlices pid d).canonical := by
  unfold Machine.opLaunchSlices
  split
  · exact .launchPkt h
  · exact h

theorem Die.canonical.opLaunchStep {pid : ℕ} (h : d.canonical) : (opLaunchStep pid d).canonical := by
  unfold Machine.opLaunchStep
  split
  · exact .launchPkt h
  · exact h

theorem Die.canonical.readTable {key part dva n : ℕ} (h : d.canonical) : (d.readTable key part dva n).2.canonical := by
  unfold Die.readTable
  extract_lets
  split
  next heq => exact .iteSnd (.readAll (.of_pair heq (.translate h))) (.of_pair heq (.translate h))
  next heq => exact .of_pair heq (.translate h)
  next heq => exact .of_pair heq (.translate h)

theorem Die.canonical.cutLaunch {key rel core : ℕ} {st : Status} (h : d.canonical) : (d.cutLaunch key rel core st).canonical :=
  .cancelLaunch (.onLaunch h)

theorem Die.canonical.takeEntry {l : Launch} {b : List Byte} (h : d.canonical) : (d.takeEntry l b).canonical := by
  unfold Die.takeEntry
  extract_lets _ _ _ _ take
  have h2 : ∀ (e : Die), e.canonical → (take e).canonical := fun _ h2 => .onLaunch h2
  split
  · exact h2 _ (.onLaunch h)
  · refine .ite (.cutLaunch (.onLaunch h)) ?_
    split
    · exact h2 _ (.cutLaunch (.onLaunch h))
    · exact h2 _ (.onLaunch h)

theorem Die.canonical.readPlan {key to_ n : ℕ} (h : d.canonical) : (Die.readPlan key to_ n d).canonical := by
  induction n generalizing d with
  | zero => exact h
  | succ n ih =>
    unfold Die.readPlan
    split
    · exact h
    · extract_lets stop
      have h2 : ∀ (e : Die), e.canonical → (stop e).canonical := fun _ h2 => .doneWith (.onLaunch h2)
      refine .ite (.doneWith (.onLaunch h)) (.ite (h2 _ (.onLaunch h)) ?_)
      split
      next heq2 => exact .of_pair heq2 (.readTable h)
      next heq2 => exact h2 _ (.cutLaunch (.of_pair heq2 (.readTable h)))
      next heq2 =>
        extract_lets
        exact .ite (.doneWith (.onLaunch (.of_pair heq2 (.readTable h)))) (.ite (h2 _ (.cutLaunch (.of_pair heq2 (.readTable h)))) (.ite (h2 _ (.onLaunch
            (.of_pair heq2 (.readTable h)))) (ih (.takeEntry (.of_pair heq2 (.readTable h))))))

theorem Die.canonical.opPlanTableRead {key : ℕ} (h : d.canonical) : (opPlanTableRead key d).canonical := by
  unfold Machine.opPlanTableRead
  split
  · exact h
  · exact .ite h (.readPlan h)

theorem Die.canonical.startChained {l : Launch} {rel slots : ℕ} {body : List Byte} (h : d.canonical) : (d.startChained l rel slots body).canonical := by
  unfold Die.startChained
  extract_lets _ _ _ _ d3
  have h2 : d3.canonical := .onCp (.update rfl rfl (.onRing h))
  split
  · exact .onLaunch h2
  · exact .finish (.onLaunch h2)

theorem Die.canonical.chainStep {key : ℕ} (h : d.canonical) : (d.chainStep key).2.canonical := by
  unfold Die.chainStep
  split
  · exact h
  · extract_lets _ stop
    have h2 : ∀ (e : Die), e.canonical → (stop e).2.canonical := by
      intro _ h2
      unfold stop
      exact .doneWith (.onLaunch h2)
    refine .iteSnd h ?_
    split
    next heq2 => exact .of_pair heq2 (.readTable h)
    next heq2 => exact h2 _ (.cutLaunch (.of_pair heq2 (.readTable h)))
    next heq2 =>
      extract_lets
      refine .iteSnd (h2 _ (.cutLaunch (.of_pair heq2 (.readTable h)))) (.iteSnd (h2 _ (.onLaunch (.of_pair heq2 (.readTable h)))) (.iteSnd (.of_pair heq2
          (.readTable h)) (.iteSnd (h2 _ (.cutLaunch (.of_pair heq2 (.readTable h)))) ?_)))
      split
      next heq3 =>
        refine .of_pair heq3 (.foldlSnd (fun acc x4 h3 => ?_) (.of_pair heq2 (.readTable h)))
        split
        · split
          next heq4 => exact .of_pair heq4 (.readTable h3)
          · exact .readTable h3
        · exact h3
      next heq3 =>
        refine h2 _ (.cutLaunch (.of_pair heq3 (.foldlSnd (fun acc x4 h3 => ?_) (.of_pair heq2 (.readTable h)))))
        split
        · split
          next heq4 => exact .of_pair heq4 (.readTable h3)
          · exact .readTable h3
        · exact h3
      next heq3 =>
        extract_lets
        refine .iteSnd (h2 _ (.cutLaunch (.of_pair heq3 (.foldlSnd (fun acc x4 h3 => ?_) (.of_pair heq2 (.readTable h)))))) (.iteSnd (.of_pair heq3
            (.foldlSnd (fun acc x4 h3 => ?_) (.of_pair heq2 (.readTable h)))) (.startChained (.doneWith (.of_pair heq3 (.foldlSnd (fun acc x4 h3 => ?_)
            (.of_pair heq2 (.readTable h)))))))
        iterate 3
          · split
            · split
              next heq4 => exact .of_pair heq4 (.readTable h3)
              · exact .readTable h3
            · exact h3

theorem Die.canonical.chainRun {key n : ℕ} (h : d.canonical) : (Die.chainRun key n d).canonical := by
  induction n generalizing d with
  | zero => exact h
  | succ n ih =>
    unfold Die.chainRun
    split
    next heq => exact ih (.of_pair heq (.chainStep h))
    next heq => exact .of_pair heq (.chainStep h)

theorem Die.canonical.chains (h : d.canonical) : d.chains.canonical :=
  .foldl (fun _ _ h2 => .chainRun h2) h

theorem Die.canonical.opDecodeRound (h : d.canonical) : (opDecodeRound d).canonical :=
  .chains (.decodeRound h)

theorem Die.canonical.onBatch {key : ℕ} {f : Batch → Batch} (h : d.canonical) : (d.onBatch key f).canonical :=
  .onCp h

theorem Die.canonical.joinBatch {key : ℕ} {q : Pkt} (h : d.canonical) : (d.joinBatch key q).canonical :=
  .onPkt (.onBatch h)

theorem Die.canonical.openBatch {q : Pkt} {cls : ℕ} (h : d.canonical) : (d.openBatch q cls).canonical := by
  unfold Die.openBatch
  extract_lets
  split
  next heq => exact .of_pair heq (.readAll h)
  next heq => exact .finish (.of_pair heq (.readAll h))
  next heq => exact .ite (.finish (.doneWith (.of_pair heq (.readAll h)))) (.joinBatch (.onCp (.doneWith (.of_pair heq (.readAll h)))))

theorem Die.canonical.acceptRequest {q : Pkt} (h : d.canonical) : (d.acceptRequest q).canonical := by
  unfold Die.acceptRequest
  extract_lets
  refine .ite h ?_
  split
  · exact .ite (.joinBatch (.onCp h)) (.openBatch (.onBatch (.onCp h)))
  · exact .openBatch (.onCp h)

theorem Die.canonical.copyIn {b : Batch} {r : BatchReq} {src : ℕ} (h : d.canonical) : (d.copyIn b r src).canonical := by
  unfold Die.copyIn
  extract_lets _ fail
  have h2 : ∀ (e : Die) (st : Status), e.canonical → (fail e st).canonical := fun _ _ h2 => .finish (.dropWork h2)
  split
  next heq => exact .of_pair heq (.readAll h)
  next heq => exact h2 _ _ (.of_pair heq (.readAll h))
  next heq =>
    split
    next heq2 => exact .of_pair heq2 (.writeAll (.of_pair heq (.readAll h)))
    next heq2 => exact h2 _ _ (.of_pair heq2 (.writeAll (.of_pair heq (.readAll h))))
    next heq2 => exact .ite (.of_pair heq2 (.writeAll (.of_pair heq (.readAll h)))) (.onBatch (.doneWith (.of_pair heq2 (.writeAll (.of_pair heq (.readAll
        h))))))

theorem Die.canonical.opCoalesceDecode {pid : ℕ} (h : d.canonical) : (opCoalesceDecode pid d).canonical := by
  unfold Machine.opCoalesceDecode
  split
  · exact h
  · refine .ite h (.ite ?_ ?_)
    · split
      · exact .ite (.acceptRequest h) h
      · exact .finish h
    · split
      · split
        · exact .copyIn h
        · exact h
      · exact h

theorem Die.canonical.launchBatch {b : Batch} (h : d.canonical) : (d.launchBatch b).canonical :=
  .ite h (.readPlan (.onBatch (.onCp (.update rfl rfl (.ite (.count (.fresh h)) (.count (.fresh h)))))))

theorem Die.canonical.batchBoundary (h : d.canonical) : d.batchBoundary.canonical :=
  .foldl (fun _ _ h2 => .launchBatch h2) (.onCp h)

theorem Die.canonical.opBatchComplete {key : ℕ} (h : d.canonical) : (opBatchComplete key d).canonical := by
  unfold Machine.opBatchComplete
  split
  · exact h
  · split
    · exact h
    · extract_lets _ d2
      have h2 : d2.canonical := by
        refine .foldl (fun e x3 h2 => ?_) h
        extract_lets fin
        have h3 : ∀ (e : Die) (st : Status), e.canonical → (fin e st).canonical := fun _ _ h3 => .finish (.onBatch h3)
        refine .ite (h3 _ _ h2) ?_
        split
        next heq3 => exact .of_pair heq3 (.readAll h2)
        next heq3 => exact h3 _ _ (.of_pair heq3 (.readAll h2))
        next heq3 =>
          split
          next heq4 => exact .of_pair heq4 (.writeAll (.of_pair heq3 (.readAll h2)))
          next heq4 => exact h3 _ _ (.of_pair heq4 (.writeAll (.of_pair heq3 (.readAll h2))))
          next heq4 => exact h3 _ _ (.of_pair heq4 (.writeAll (.of_pair heq3 (.readAll h2))))
      exact .ite (.onCp h2) h2

theorem Die.canonical.endLaunch {l : Launch} (h : d.canonical) : (d.endLaunch l).canonical := by
  unfold Die.endLaunch
  extract_lets
  split
  next heq =>
    extract_lets d3
    have h2 : d3.canonical := .doneWith (.update rfl rfl (.of_pair heq (.launchDetail h)))
    split
    · exact .finish h2
    · exact .onBatch h2
    · exact h2

theorem Die.canonical.endLaunches (h : d.canonical) : d.endLaunches.canonical := by
  unfold Die.endLaunches
  extract_lets _ _ _ d3
  have h2 : d3.canonical := .foldl (fun _ _ h2 => .endLaunch h2) h
  refine .foldl (fun e x h3 => ?_) h2
  split
  · exact .endLaunch h3
  · exact h3

theorem Die.canonical.resetLaunches (h : d.canonical) : d.resetLaunches.canonical := by
  unfold Die.resetLaunches
  refine .foldl (fun e x h2 => ?_) h
  extract_lets _ _ e2 e3
  have h3 : e2.canonical := .foldl (fun _ _ h3 => .cancelLaunch h3) h2
  have h4 : e3.canonical := .foldl (fun _ _ h4 => .ite (.stopSlice h4) h4) h3
  refine .foldl (fun e4 x2 h5 => ?_) h4
  split
  · exact .endLaunch h5
  · exact h5

theorem Die.canonical.remoteCancel {c : Cancel} (h : d.canonical) : (d.remoteCancel c).canonical :=
  h

end

end Sys2Proof.Machine
end

section
/-! PROOF. The canonical forms under copies, reductions and sync packets (Copies, Reduce, SyncPackets). -/

namespace Sys2Proof.Machine

section
variable {d t : Die} {k q : Core}

theorem Die.canonical.setEngine {e : ℕ} {x : CopyEngine} (h : d.canonical) : (d.setEngine e x).canonical :=
  .onCp h

theorem Die.canonical.onJob {e pid : ℕ} {f : CopyJob → CopyJob} (h : d.canonical) : (d.onJob e pid f).canonical :=
  .setEngine h

theorem Die.canonical.enqueue {q : Pkt} (h : d.canonical) : (d.enqueue q).canonical :=
  .onPkt (.setEngine h)

theorem Die.canonical.copyPacket {pid : ℕ} {op : Byte} (h : d.canonical) : (d.copyPacket pid op).canonical := by
  unfold Die.copyPacket
  split
  · exact h
  · split
    · exact .ite (.enqueue h) h
    · exact .finish h

theorem Die.canonical.opCopy {pid : ℕ} (h : d.canonical) : (opCopy pid d).canonical :=
  .copyPacket h

theorem Die.canonical.opCopyInline {pid : ℕ} (h : d.canonical) : (opCopyInline pid d).canonical :=
  .copyPacket h

theorem Die.canonical.opFill {pid : ℕ} (h : d.canonical) : (opFill pid d).canonical :=
  .copyPacket h

theorem Die.canonical.opCopyStrided {pid : ℕ} (h : d.canonical) : (opCopyStrided pid d).canonical :=
  .copyPacket h

theorem Die.canonical.rangePacket {pid : ℕ} {op : Byte} {codes : ℕ} (h : d.canonical) : (d.rangePacket pid op codes).canonical := by
  unfold Die.rangePacket
  split
  · exact h
  · split
    · exact .ite (.enqueue h) h
    · exact .finish h

theorem Die.canonical.opPrefetchRange {pid : ℕ} (h : d.canonical) : (opPrefetchRange pid d).canonical :=
  .rangePacket h

theorem Die.canonical.opAdvise {pid : ℕ} (h : d.canonical) : (opAdvise pid d).canonical :=
  .rangePacket h

theorem Die.canonical.chunkRead {s : Src} {q : Pkt} {p : CopyPlan} {k off n : ℕ} (h : d.canonical) : (d.chunkRead s q p k off n).2.canonical := by
  unfold Die.chunkRead
  refine .iteSnd h (.iteSnd h ?_)
  split
  · exact .readAll h
  · extract_lets
    split
    · exact h
    · split
      next heq3 => exact .setRead (.of_pair heq3 (.cribRead h))
      next heq3 => exact .of_pair heq3 (.cribRead h)

theorem Die.canonical.chunkWrite {s : Src} {q : Pkt} {p : CopyPlan} {k off pos : ℕ} {bs : List Byte} (h : d.canonical) :
    (d.chunkWrite s q p k off pos bs).2.canonical := by
  unfold Die.chunkWrite
  split
  · exact .writeAll h
  · exact .onCore h (fun _ hk => .cribWrite hk)

theorem Die.canonical.moved {e n : ℕ} (h : d.canonical) : (d.moved e n).canonical :=
  .countWrap (.setEngine h)

theorem Die.canonical.endJob {e pid : ℕ} {st : Status} {written : ℕ} (h : d.canonical) : (d.endJob e pid st written).canonical :=
  .finish (.ite (.doneWith (.setEngine h)) (.pktErrorAt (.doneWith (.setEngine h))))

theorem Die.canonical.copyChunk {e : ℕ} {j : CopyJob} {q : Pkt} (h : d.canonical) : (d.copyChunk e j q).canonical := by
  unfold Die.copyChunk
  extract_lets _ _ _ _ d2 wait _ d3
  have h2 : d2.canonical := .takeErrors h
  have h3 : ∀ (d : Die), d.canonical → (wait d).canonical := fun _ h3 => .onJob h3
  have h4 : d3.canonical := .ite h2 (.useTokens h2)
  refine .ite (.endJob h2) (.ite h2 ?_)
  split
  next heq => exact h3 _ (.of_pair heq (.chunkRead h4))
  next heq => exact .endJob (.of_pair heq (.chunkRead h4))
  next heq =>
    split
    next heq2 => exact h3 _ (.of_pair heq2 (.chunkWrite (.of_pair heq (.chunkRead h4))))
    next heq2 => exact .endJob (.of_pair heq2 (.chunkWrite (.of_pair heq (.chunkRead h4))))
    next heq2 =>
      extract_lets d6
      have h5 : d6.canonical := .moved (.doneWith (.of_pair heq2 (.chunkWrite (.of_pair heq (.chunkRead h4)))))
      exact .ite (.endJob h5) (.onJob h5)

theorem Die.canonical.prefetchLine {s : Src} {dva : ℕ} {space : Space} {pa : ℕ} {once : Bool} {tier : Option DieIx} (h : d.canonical) :
    (d.prefetchLine s dva space pa once tier).2.canonical :=
  .iteSnd (.fetch h (fun _ h2 => .useTokens h2)) (.fetch h (fun _ h2 => h2))

theorem Die.canonical.prefetchPage {s : Src} {page n : ℕ} (h : d.canonical) : (Die.prefetchPage s page n d).2.canonical := by
  induction n generalizing d with
  | zero => exact h
  | succ n ih =>
    unfold Die.prefetchPage
    extract_lets _ _ line
    have h2 : ∀ (x : DRes × Die), x.2.canonical → (line x).2.canonical := by
      intro _ h2
      unfold line
      split
      · exact h2
      · exact ih h2
      · refine ih ?_
        split
        · exact .pktError h2
        · exact h2
    split
    next heq => exact .of_pair heq (.translate h)
    next heq => exact ih (.of_pair heq (.translate h))
    next heq => exact h2 _ (.prefetchLine (.of_pair heq (.translate h)))
    next heq => exact .iteSnd (ih (.of_pair heq (.translate h))) (h2 _ (.prefetchLine (.of_pair heq (.translate h))))
    next heq => exact ih (.of_pair heq (.translate h))

theorem Die.canonical.unwanted {s : Src} {page : ℕ} (h : d.canonical) : (d.unwanted s page).2.canonical := by
  unfold Die.unwanted
  refine .foldlSnd (fun acc x h2 => ?_) h
  extract_lets mark
  have h3 : ∀ (e : Die) (line : ℕ) (host : Bool), e.canonical → (mark e line host).canonical := by
    intro _ _ _ h3
    unfold mark
    extract_lets
    split
    · exact .touch h3
    · exact h3
  split
  next heq => exact h3 _ _ _ (.of_pair heq (.translate h2))
  next heq => exact h3 _ _ _ (.of_pair heq (.translate h2))
  next heq => exact .of_pair heq (.translate h2)
  next heq => exact .of_pair heq (.translate h2)

theorem Die.canonical.hostPage {s : Src} {iova dva : ℕ} {data : Option (List Byte)} {n : ℕ} {got : List Byte} (h : d.canonical) :
    (Die.hostPage s iova dva data n got d).2.2.canonical := by
  induction n generalizing got d with
  | zero => exact h
  | succ n ih =>
    unfold Die.hostPage
    extract_lets
    split
    next heq => exact .of_pair heq (.ats h)
    next heq => exact .of_pair heq (.ats h)
    next heq =>
      split
      next heq2 =>
        refine ih (.of_pair heq2 ?_)
        split
        · exact .hostSideRead (.of_pair heq (.ats h))
        · exact .hostSideWrite (.of_pair heq (.ats h))
      iterate 2
        next heq2 =>
          refine .of_pair heq2 ?_
          split
          · exact .hostSideRead (.of_pair heq (.ats h))
          · exact .hostSideWrite (.of_pair heq (.ats h))

theorem Die.canonical.hostPageAll {s : Src} {iova dva : ℕ} {data : Option (List Byte)} (h : d.canonical) : (d.hostPageAll s iova dva data).2.canonical :=
  .setRead (.hostPage h)

theorem Die.canonical.frameReady {frame : ℕ} (h : d.canonical) : (d.frameReady frame).2.canonical :=
  .foldl (fun _ _ h2 => .revokeLine h2) h

theorem Die.canonical.endMove {pid page : ℕ} (h : d.canonical) : (d.endMove pid page).canonical :=
  .doneWith (.onTr h)

theorem Die.canonical.moveEnds {p pid page : ℕ} {last : Die → Die} (h : d.canonical) (hl : ∀ e, e.canonical → (last e).canonical) :
    (d.moveEnds p pid page last).2.canonical := by
  unfold Die.moveEnds
  exact .iteSnd h (hl _ (.endMove h))

theorem Die.canonical.migrateCopy {s : Src} {pid page : ℕ} {m : Migration} {l : Leaf} (h : d.canonical) : (d.migrateCopy s pid page m l).2.canonical := by
  unfold Die.migrateCopy
  split
  next heq => exact .of_pair heq (.hostPageAll h)
  next heq => exact .pktError (.endMove (.of_pair heq (.hostPageAll h)))
  next heq =>
    split
    next heq2 => exact .of_pair heq2 (.frameReady (.of_pair heq (.hostPageAll h)))
    next heq2 =>
      split
      next heq3 => exact .pktError (.endMove (.of_pair heq3 (.writeDev (.of_pair heq2 (.frameReady (.of_pair heq (.hostPageAll h)))))))
      next heq3 => exact .invalidate (.onTr (.putLeaf (.of_pair heq3 (.writeDev (.of_pair heq2 (.frameReady (.of_pair heq (.hostPageAll h))))))))

theorem Die.canonical.migrate {s : Src} {pid page : ℕ} (h : d.canonical) : (d.migrate s pid page).2.canonical := by
  unfold Die.migrate
  split
  next heq => exact .of_pair heq (.walk h)
  next heq =>
    split
    · exact .iteSnd (.migrateCopy (.of_pair heq (.walk h))) (.iteSnd (.moveEnds (.of_pair heq (.walk h)) (fun _ h2 => h2)) (.endMove (.of_pair heq (.walk
        h))))
    · refine .iteSnd (.of_pair heq (.walk h)) ?_
      split
      · exact .iteSnd (.of_pair heq (.walk h)) (.onTr (.of_pair heq (.walk h)))
      · exact .of_pair heq (.walk h)
  next heq => exact .endMove (.of_pair heq (.walk h))

theorem Die.canonical.migrateHome {s : Src} {pid page : ℕ} {f : Frame} {l : Leaf} (h : d.canonical) : (d.migrateHome s pid page f l).2.canonical := by
  unfold Die.migrateHome
  refine .iteSnd h ?_
  split
  next heq => exact .of_pair heq (.frameReady h)
  next heq =>
    split
    next heq2 => exact .pktError (.endMove (.of_pair heq2 (.readDev (.of_pair heq (.frameReady h)))))
    next heq2 =>
      split
      next heq3 => exact .of_pair heq3 (.hostPageAll (.of_pair heq2 (.readDev (.of_pair heq (.frameReady h)))))
      next heq3 => exact .pktError (.endMove (.of_pair heq3 (.hostPageAll (.of_pair heq2 (.readDev (.of_pair heq (.frameReady h)))))))
      next heq3 => exact .iteSnd (.of_pair heq3 (.hostPageAll (.of_pair heq2 (.readDev (.of_pair heq (.frameReady h)))))) (.invalidate (.putLeaf (.of_pair
          heq3 (.hostPageAll (.of_pair heq2 (.readDev (.of_pair heq (.frameReady h))))))))

theorem Die.canonical.preferHost {p page bits : ℕ} {l : Leaf} (h : d.canonical) : (d.preferHost p page bits l).canonical :=
  .ite h (.invalidate (.putLeaf h))

theorem Die.canonical.migrateBack {s : Src} {pid page : ℕ} (h : d.canonical) : (d.migrateBack s pid page).2.canonical := by
  unfold Die.migrateBack
  split
  next heq => exact .of_pair heq (.walk h)
  next heq =>
    split
    · exact .iteSnd (.migrateHome (.of_pair heq (.walk h))) (.moveEnds (.of_pair heq (.walk h)) (fun _ h2 => .onTr h2))
    · exact .endMove (.of_pair heq (.walk h))
    · exact .iteSnd (.preferHost (.of_pair heq (.walk h))) (.iteSnd (.of_pair heq (.walk h)) (.onTr (.of_pair heq (.walk h))))
    · exact .preferHost (.of_pair heq (.walk h))
  next heq => exact .endMove (.of_pair heq (.walk h))

theorem Die.canonical.adviseLeaf {p page : ℕ} {f : Leaf → Leaf} (h : d.canonical) : (d.adviseLeaf p page f).2.canonical := by
  unfold Die.adviseLeaf
  split
  next heq => exact .of_pair heq (.walk h)
  next heq => exact .ite (.of_pair heq (.walk h)) (.invalidate (.putLeaf (.of_pair heq (.walk h))))
  next heq => exact .of_pair heq (.walk h)

theorem Die.canonical.rangePage {s : Src} {q : Pkt} {page : ℕ} (h : d.canonical) : (d.rangePage s q page).2.canonical := by
  unfold Die.rangePage
  extract_lets code fill
  have h2 : ∀ (d : Die), d.canonical → (fill d).2.canonical := by
    intro _ h2
    unfold fill
    split
    next heq => exact .of_pair heq (.prefetchPage h2)
    next heq => exact .of_pair heq (.prefetchPage h2)
  refine .iteSnd (.iteSnd (h2 _ h) (.migrate h)) ?_
  split
  next heq =>
    clear_value code
    split
    · exact h2 _ h
    · exact .unwanted h
    · exact .adviseLeaf h
    · exact .migrate (.of_pair heq (.adviseLeaf h))
    · exact .migrateBack h
  next heq =>
    clear_value code
    split
    · exact h2 _ h
    · exact .unwanted h
    · exact .adviseLeaf h
    · exact .of_pair heq (.adviseLeaf h)
    · exact .migrateBack h

theorem Die.canonical.rangeChunk {e : ℕ} {j : CopyJob} {q : Pkt} (h : d.canonical) : (d.rangeChunk e j q).canonical := by
  unfold Die.rangeChunk
  extract_lets
  refine .ite (.endJob h) ?_
  split
  next heq => exact .onJob (.of_pair heq (.rangePage h))
  next heq => exact .ite (.endJob (.of_pair heq (.rangePage h))) (.onJob (.of_pair heq (.rangePage h)))

theorem Die.canonical.opCopyChunk {e : CopyIx} (h : d.canonical) : (opCopyChunk e d).canonical := by
  unfold Machine.opCopyChunk
  split
  · exact h
  · split
    · exact h
    · exact .ite (.rangeChunk (.setEngine h)) (.copyChunk (.setEngine h))

theorem Die.canonical.onRu {f : RuUnit → RuUnit} (h : d.canonical) : (d.onRu f).canonical :=
  h

theorem Die.canonical.setSlot {n : ℕ} {s : RuSlot} (h : d.canonical) : (d.setSlot n s).canonical :=
  .onRu h

theorem Die.canonical.ruError {cause slot : ℕ} {src : Option (Place × ℕ)} (h : d.canonical) : (d.ruError cause slot src).canonical :=
  .raise (.record h)

theorem Die.canonical.dropPartial {cause : ℕ} {m : PartialMsg} {viaLocal : Bool} (h : d.canonical) : (d.dropPartial cause m viaLocal).canonical :=
  .ruError (.count h)

theorem Die.canonical.deliver {m : PartialMsg} {viaLocal : Bool} (h : d.canonical) : (d.deliver m viaLocal).canonical := by
  unfold Die.deliver
  split
  · exact h
  · extract_lets _ _ _ bad
    refine .ite ?_ ?_
    · split
      · exact .dropPartial h
      · exact .setSlot h
    · split
      · clear_value bad
        split
        · exact .dropPartial (.setSlot h)
        · exact .ite (.setSlot h) h
      · exact h

theorem canonicalIn.arrive {m : PartialMsg} {viaLocal : Bool} (h : d.canonical) : canonicalIn (d.arrive m viaLocal) :=
  .ite (.some (.deliver h)) (.ite .none (.some (.onRu h)))

theorem Die.canonical.opPartialReceive {m : PartialMsg} (h : d.canonical) : (opPartialReceive m d).canonical := by
  unfold Machine.opPartialReceive
  refine .admitted h (fun e h2 => ?_)
  split
  · exact .none
  · exact .some (.rejectOld h2)
  · split
    · exact .some (.ite (.dropPartial h2) h2)
    · extract_lets
      split
      · exact .none
      next heq3 => exact .some (.ite (.respond (.of_some heq3 (.arrive h2))) (.of_some heq3 (.arrive h2)))

theorem Die.canonical.arm {q : Pkt} (h : d.canonical) : (d.arm q).canonical :=
  .foldl (fun _ _ h2 => .deliver h2) (.onPkt (.onRu (.setSlot h)))

theorem Die.canonical.releaseRu {n : ℕ} (h : d.canonical) : (d.releaseRu n).canonical := by
  unfold Die.releaseRu
  extract_lets
  split
  · split
    · exact .arm (.onRu h)
    · exact .onRu h
  · exact .onRu h

theorem Die.canonical.endSlot {n pid : ℕ} {st : Status} (h : d.canonical) : (d.endSlot n pid st).canonical :=
  .finish (.doneWith (.releaseRu h))

theorem Die.canonical.failSlot {n pid : ℕ} {st : Status} (h : d.canonical) : (d.failSlot n pid st).canonical :=
  .endSlot (.spoilScratch h)

theorem Die.canonical.readLocal {q : Pkt} {s : RuSlot} (h : d.canonical) : (d.readLocal q s).2.2.canonical := by
  unfold Die.readLocal
  extract_lets
  refine .foldlThird (fun acc x h2 => ?_) h
  split
  · split
    next heq => exact .of_pair heq (.readAll h2)
    next heq => exact .of_pair heq (.readAll h2)
  · exact h2

theorem Die.canonical.takeLocal {q : Pkt} {n : ℕ} {s : RuSlot} (h : d.canonical) : (d.takeLocal q n s).canonical := by
  unfold Die.takeLocal
  refine .ite h ?_
  split
  next heq => exact .of_triple heq (.readLocal h)
  next heq => exact .failSlot (.of_triple heq (.readLocal h))
  next heq =>
    split
    · exact .of_triple heq (.readLocal h)
    · exact .setSlot (.doneWith (.of_triple heq (.readLocal h)))

theorem Die.canonical.opReduceSegment {pid : ℕ} (h : d.canonical) : (opReduceSegment pid d).canonical := by
  unfold Machine.opReduceSegment
  split
  · exact h
  · refine .ite h ?_
    extract_lets _ d2
    have h2 : d2.canonical := .ite (.onRu (.onPkt h)) (.arm h)
    refine .ite ?_ ?_
    · split
      · refine .ite h ?_
        split
        · exact .ite (.takeLocal h2) h2
        · exact h2
      · exact .finish h
    · split
      · exact .ite (.takeLocal h) h
      · exact h

theorem Die.canonical.opSlotComplete {slot : Fin 1024} (h : d.canonical) : (opSlotComplete slot d).canonical := by
  unfold Machine.opSlotComplete
  split
  · exact h
  · split
    · extract_lets
      refine .ite ?_ (.ite (.ite (.endSlot h) ?_) h)
      · split
        next heq4 => exact .of_pair heq4 (.writeAll h)
        next heq4 => exact .failSlot (.of_pair heq4 (.writeAll h))
        next heq4 => exact .setSlot (.doneWith (.of_pair heq4 (.writeAll h)))
      · split
        next heq4 =>
          split
          next heq5 => exact .of_pair heq5 (.writeAll (.of_pair heq4 (.freshBytes h)))
          next heq5 => exact .failSlot (.of_pair heq5 (.writeAll (.of_pair heq4 (.freshBytes h))))
          next heq5 => exact .endSlot (.of_pair heq5 (.writeAll (.of_pair heq4 (.freshBytes h))))
    · exact h

theorem Die.canonical.opPartialSend {slot : Fin 1024} {n : Fin 4} (h : d.canonical) : (opPartialSend slot n d).canonical := by
  unfold Machine.opPartialSend
  split
  · exact h
  · split
    · refine .ite h ?_
      extract_lets mark
      have h3 : ∀ (e : Die), e.canonical → (mark e).canonical := by
        intro _ h3
        unfold mark
        split
        · exact .setSlot h3
        · exact h3
      refine .ite (.ite (h3 _ (.dropPartial h)) ?_) (h3 _ (.foldl (fun e x4 h4 => ?_) h))
      · split
        next heq4 => exact h3 _ (.of_some heq4 (.arrive h))
        · exact h
      · split
        next heq4 => exact .of_pair heq4 (.remote h4)
        next heq4 => exact .pktError (.of_pair heq4 (.remote h4))
    · exact h

theorem Die.canonical.opEarlyTimeout {n : ℕ} (h : d.canonical) : (opEarlyTimeout n d).canonical := by
  unfold Machine.opEarlyTimeout
  split
  · exact .ite (.ite (.dropPartial (.onRu h)) (.onRu h)) h
  · exact h

theorem Die.canonical.opSlotTimeout {slot : Fin 1024} (h : d.canonical) : (opSlotTimeout slot d).canonical := by
  unfold Machine.opSlotTimeout
  split
  · exact .ite (.ruError (.failSlot h)) h
  · exact h

theorem Die.canonical.unitFail {pid : ℕ} {st : Status} (h : d.canonical) : (d.unitFail pid st).canonical :=
  .finish (.doneWith h)

theorem Die.canonical.opNormPartial {pid : ℕ} (h : d.canonical) : (opNormPartial pid d).canonical := by
  unfold Machine.opNormPartial
  split
  · exact h
  · refine .ite h ?_
    split
    · extract_lets
      split
      next heq3 => exact .of_pair heq3 (.readAll (.onPkt h))
      next heq3 => exact .unitFail (.of_pair heq3 (.readAll (.onPkt h)))
      next heq3 =>
        split
        next heq4 => exact .of_pair heq4 (.writeAll (.of_pair heq3 (.readAll (.onPkt h))))
        next heq4 => exact .unitFail (.of_pair heq4 (.writeAll (.of_pair heq3 (.readAll (.onPkt h)))))
        next heq4 => exact .unitFail (.of_pair heq4 (.writeAll (.of_pair heq3 (.readAll (.onPkt h)))))
    · exact .finish h

theorem Die.canonical.readMany {s : Src} {rs : List (ℕ × ℕ)} (h : d.canonical) : (d.readMany s rs).2.2.canonical := by
  unfold Die.readMany
  refine .foldlThird (fun acc x h2 => ?_) h
  split
  · split
    next heq => exact .of_pair heq (.readAll h2)
    next heq => exact .of_pair heq (.readAll h2)
  · exact h2

theorem Die.canonical.setStep {x : OptProg} (h : d.canonical) : (d.setStep x).canonical :=
  .onRu h

theorem Die.canonical.endStep {pid : ℕ} {st : Status} {result : W64} (h : d.canonical) : (d.endStep pid st result).canonical :=
  .finish (.doneWith (.onRu h))

theorem Die.canonical.optLoop {q : Pkt} {fuel : ℕ} (h : d.canonical) : (Die.optLoop q fuel d).canonical := by
  induction fuel generalizing d with
  | zero => exact h
  | succ fuel ih =>
    unfold Die.optLoop
    extract_lets
    split
    · split
      next heq2 => exact .of_pair heq2 (.writeAll h)
      next heq2 => exact .endStep (.of_pair heq2 (.writeAll h))
      next heq2 => exact ih (.setStep (.doneWith (.of_pair heq2 (.writeAll h))))
    · refine .ite (.endStep (.putRaw (.putRaw h))) ?_
      split
      next heq2 => exact .of_triple heq2 (.readMany h)
      next heq2 => exact .endStep (.of_triple heq2 (.readMany h))
      next heq2 => exact ih (.setStep (.doneWith (.of_triple heq2 (.readMany h))))

theorem Die.canonical.optShared {q : Pkt} {have_ : Option W32} {needed : Bool} {a : ℕ} (h : d.canonical) : (d.optShared q have_ needed a).2.2.canonical := by
  unfold Die.optShared
  split
  · exact h
  · refine .iteThird h ?_
    split
    next heq => exact .of_pair heq (.readAll h)
    next heq => exact .of_pair heq (.readAll h)

theorem Die.canonical.optRun {q : Pkt} (h : d.canonical) : (d.optRun q).canonical := by
  unfold Die.optRun
  extract_lets
  split
  next heq => exact .of_triple heq (.optShared h)
  next heq => exact .endStep (.of_triple heq (.optShared h))
  next heq =>
    refine .ite (.endStep (.count (.of_triple heq (.optShared h)))) ?_
    split
    next heq2 => exact .setStep (.of_triple heq2 (.optShared (.of_triple heq (.optShared h))))
    next heq2 => exact .endStep (.of_triple heq2 (.optShared (.of_triple heq (.optShared h))))
    next heq2 =>
      extract_lets d4
      have h2 : d4.canonical := .setStep (.ite (.doneWith (.of_triple heq2 (.optShared (.of_triple heq (.optShared h))))) (.of_triple heq2 (.optShared
          (.of_triple heq (.optShared h)))))
      exact .optLoop h2

theorem Die.canonical.opOptimizerStep {pid : ℕ} (h : d.canonical) : (opOptimizerStep pid d).canonical := by
  unfold Machine.opOptimizerStep
  split
  · exact h
  · refine .ite h ?_
    split
    · exact .optRun (.onPkt h)
    · exact .finish h

theorem canonicalSnd.localSignal {source part : ℕ} {obj : ObjIx} {inc : W64} {req : Req} {id : ℕ} (h : d.canonical) :
    canonicalSnd (d.localSignal source part obj inc req id) := by
  unfold Die.localSignal
  refine .ite (.some (.syncErr h)) fun p hp => ?_
  obtain ⟨e, he, rfl⟩ := Option.map_eq_some_iff.mp hp
  exact Die.canonical.of_some he (.slotSignal h)

theorem Die.canonical.opSignalPacket {pid : ℕ} (h : d.canonical) : (opSignalPacket pid d).canonical := by
  unfold Machine.opSignalPacket
  split
  · exact h
  · extract_lets
    split
    · refine .ite ?_ ?_
      · split
        next heq3 => exact .finish (.of_pair heq3 (.remote h))
        next heq3 => exact .finish (.of_pair heq3 (.remote h))
      · split
        · exact h
        next heq3 => exact .finish (.of_somePair heq3 (.localSignal h))
        next heq3 => exact .finish (.of_somePair heq3 (.localSignal h))
    · exact .finish h

theorem Die.canonical.registerWait {q : Pkt} (h : d.canonical) : (d.registerWait q).canonical :=
  .ite (.finish (.syncErr h)) (.ite (.finish (.syncErr h)) (.ite (.finish h) (.onPkt h)))

theorem Die.canonical.opWaitPacket {pid : ℕ} (h : d.canonical) : (opWaitPacket pid d).canonical := by
  unfold Machine.opWaitPacket
  split
  · exact h
  · split
    · exact .registerWait h
    · exact .finish h

theorem Die.canonical.opBarrierPacket {pid : ℕ} (h : d.canonical) : (opBarrierPacket pid d).canonical := by
  unfold Machine.opBarrierPacket
  split
  · exact h
  · split
    · exact .ite h (.finish h)
    · exact .finish h

theorem Die.canonical.cpWrite {q : Pkt} {dva : ℕ} {bs : List Byte} {result : W64} {det : W32} (h : d.canonical) :
    (d.cpWrite q dva bs result det).canonical := by
  unfold Die.cpWrite
  split
  next heq => exact .of_pair heq (.writeAll h)
  next heq => exact .finish (.doneWith (.of_pair heq (.writeAll h)))
  next heq => exact .finish (.doneWith (.of_pair heq (.writeAll h)))

theorem Die.canonical.opFlagWrite {pid : ℕ} (h : d.canonical) : (opFlagWrite pid d).canonical := by
  unfold Machine.opFlagWrite
  split
  · exact h
  · split
    · exact .cpWrite h
    · exact .finish h

theorem Die.canonical.opTimestamp {pid : ℕ} (h : d.canonical) : (opTimestamp pid d).canonical := by
  unfold Machine.opTimestamp
  split
  · exact h
  · split
    · exact .ite (.finish h) (.cpWrite h)
    · exact .finish h

end

end Sys2Proof.Machine
end

section
/-! PROOF. The canonical forms under the managed packets, Groom and slices, and what every kind of command passes through (Managed, Groom, Slices, Domain, Gate). -/

namespace Sys2Proof.Machine

section
variable {d t : Die} {k q : Core}

theorem canonicalIn.mapLeaves {p dva target bits entry n i : ℕ} (h : d.canonical) : canonicalIn (Die.mapLeaves p dva target bits entry n i d) := by
  induction n generalizing i d with
  | zero => exact .some h
  | succ n ih =>
    unfold Die.mapLeaves
    split
    next heq => exact ih (.of_some heq (.setLeaf h))
    · exact .none

theorem Die.canonical.forgetWalks {p lo hi : ℕ} (h : d.canonical) : (d.forgetWalks p lo hi).canonical :=
  .onTr h

theorem Die.canonical.opMapRange {pid : ℕ} (h : d.canonical) : (opMapRange pid d).canonical := by
  unfold Machine.opMapRange
  split
  · exact h
  · split
    · extract_lets
      split
      next heq3 => exact .finish (.forgetWalks (.of_some heq3 (.mapLeaves h)))
      · exact .finish h
    · exact .finish h

theorem Die.canonical.dropHost {line : ℕ} (h : d.canonical) : (d.dropHost line).canonical :=
  .ite (.hostGone (.dropCopy h)) (.ite (.dropCopy h) (.broadcast (.dropCopy h)))

theorem Die.canonical.dropHostRange {p lo hi : ℕ} (h : d.canonical) : (d.dropHostRange p lo hi).canonical :=
  .foldl (fun _ _ h2 => .dropHost h2) h

theorem Die.canonical.unmapEnds {pid : ℕ} {unmap : Bool} {p lo hi : ℕ} (h : d.canonical) : (d.unmapEnds pid unmap p lo hi).canonical :=
  .ite h (.ite (.ite h (.dropHostRange h)) (.finish (.ite h (.dropHostRange h))))

theorem Die.canonical.unmapPacket {pid : ℕ} {op : Byte} (h : d.canonical) : (d.unmapPacket pid op).canonical := by
  unfold Die.unmapPacket
  extract_lets
  split
  · extract_lets _ _ _ _ d2 d3
    have h2 : d2.canonical := .ite (.foldl (fun _ _ h2 => .clearLeaf h2) h) (.dropHostRange h)
    have h3 : d3.canonical := .ite (.onTr h2) h2
    split
    · exact .unmapEnds (.onPkt (.invalidate h3))
    · exact .finish h
  · split
    · exact .unmapEnds h
    · exact h

theorem Die.canonical.opUnmapRange {pid : ℕ} (h : d.canonical) : (opUnmapRange pid d).canonical :=
  .unmapPacket h

theorem Die.canonical.opInvalidateRange {pid : ℕ} (h : d.canonical) : (opInvalidateRange pid d).canonical :=
  .unmapPacket h

theorem Core.canonical.loadWords {bank : Bool} {off : ℕ} {bs : List Byte} (h : k.canonical) : (k.loadWords bank off bs).canonical :=
  h

theorem Die.canonical.loadCores {q : Pkt} (h : d.canonical) : (d.loadCores q).canonical := by
  unfold Die.loadCores
  extract_lets _ _ ended
  have h2 : ∀ (e : Die), e.canonical → (ended e).canonical := fun _ h2 => .doneWith (.endLoad h2)
  split
  next heq => exact .of_pair heq (.readAll h)
  next heq => exact .finish (h2 _ (.of_pair heq (.readAll h)))
  next heq => exact .finish (.foldl (fun _ _ h3 => .onCore h3 (fun _ hk => .loadWords hk)) (h2 _ (.of_pair heq (.readAll h))))

theorem Die.canonical.opLoadProgram {pid : ℕ} (h : d.canonical) : (opLoadProgram pid d).canonical := by
  unfold Machine.opLoadProgram
  split
  · split
    · exact .loadCores (.onPkt (.foldl (fun _ _ h2 => .onCore h2 (fun _ hk => hk)) h))
    · exact .finish h
  · split
    · exact .loadCores h
    · exact h

theorem Die.canonical.opSwitchProgram {pid : ℕ} (h : d.canonical) : (opSwitchProgram pid d).canonical := by
  unfold Machine.opSwitchProgram
  split
  · split
    · exact .onPkt (.foldl (fun _ _ h2 => .onCore h2 (fun _ hk => hk)) h)
    · exact .finish h
  · exact h

theorem Die.canonical.switchBoundary (h : d.canonical) : d.switchBoundary.canonical := by
  unfold Die.switchBoundary
  extract_lets d2
  have h2 : d2.canonical := .foldl (fun _ _ h2 => .ite h2 (.ite (.setCore h2 (.update (.core h2))) (.ite (.setCore (.countWrap h2) (.update (.core h2)))
      h2))) h
  exact .foldl (fun _ _ h3 => .finish h3) h2

theorem Die.canonical.opSetQos {pid : ℕ} (h : d.canonical) : (opSetQos pid d).canonical := by
  unfold Machine.opSetQos
  split
  · exact h
  · extract_lets _ _ _ d2
    have h2 : d2.canonical := .putRaw (.putRaw h)
    split
    · exact .finish h2
    · exact .finish h

theorem Die.canonical.refill {p r : ℕ} (h : d.canonical) : (d.refill p r).canonical :=
  .ite (.update rfl rfl (.ite (.setLevel h) h)) (.setLevel (.update rfl rfl (.ite (.setLevel h) h)))

theorem Die.canonical.qosBoundary (h : d.canonical) : d.qosBoundary.canonical :=
  .update rfl rfl (.foldl (fun _ _ h2 => .refill h2) h)

theorem Die.canonical.opSelftest {pid : ℕ} (h : d.canonical) : (opSelftest pid d).canonical := by
  unfold Machine.opSelftest
  split
  · exact h
  · extract_lets _ _ d2
    have h2 : d2.canonical := .put (.put (.putB h))
    split
    · split
      · exact .deferPkt h
      · exact .onPkt h2
    · exact .finish h

theorem Die.canonical.testClear {block unit : ℕ} (h : d.canonical) : (d.testClear block unit).canonical := by
  unfold Die.testClear
  split
  · exact .clearCore h
  · exact .onCore h (fun _ hk => hk)
  · exact .zeroStack h
  · exact h

theorem Die.canonical.testEnd {t : SelfTest} (h : d.canonical) : (d.testEnd t).canonical := by
  unfold Die.testEnd
  extract_lets d2
  have h2 : d2.canonical := .testClear (.putB h)
  exact .ite h2 (.ite (.raise (.finish (.fresh h2))) (.finish (.fresh h2)))

theorem Die.canonical.testBoundary (h : d.canonical) : d.testBoundary.canonical := by
  unfold Die.testBoundary
  split
  · exact h
  · split
    · exact .ite (.testEnd h) h
    · exact .ite (.finish (.update rfl rfl (.putB h))) (.ite (.update rfl rfl (.put (.putB (.putB h)))) h)

theorem Die.canonical.opQuery {pid : ℕ} (h : d.canonical) : (opQuery pid d).canonical := by
  unfold Machine.opQuery
  split
  · exact h
  · split
    · extract_lets
      split
      · exact .ite (.finish h) (.finish (.freshBytes h))
      · exact .cpWrite (.freshBytes h)
    · exact .finish h

theorem Die.canonical.opOpenWindow {pid : ℕ} (h : d.canonical) : (opOpenWindow pid d).canonical := by
  unfold Machine.opOpenWindow
  split
  · exact h
  · split
    · exact .finish (.setWindow h)
    · exact .finish h

theorem Die.canonical.opCloseWindow {pid : ℕ} (h : d.canonical) : (opCloseWindow pid d).canonical := by
  unfold Machine.opCloseWindow
  split
  · extract_lets _ d2
    have h2 : d2.canonical := .onPkt (.setWindow h)
    split
    · exact .ite h2 (.finish h2)
    · exact .finish h
  · split
    · exact .ite h (.finish h)
    · exact h

theorem Die.canonical.opPreserveArm {pid : ℕ} (h : d.canonical) : (opPreserveArm pid d).canonical := by
  unfold Machine.opPreserveArm
  split
  · exact h
  · extract_lets
    split
    · refine .ite (.finish (.putB h)) ?_
      split
      next heq3 => exact .ite (.finish (.update rfl rfl (.putB (.of_pair heq3 (.walk h))))) (.finish (.of_pair heq3 (.walk h)))
      next heq3 => exact .finish (.of_pair heq3 (.walk h))
      next heq3 => exact .finish (.of_pair heq3 (.walk h))
      next heq3 => exact .of_pair heq3 (.walk h)
    · exact .finish h

theorem Die.canonical.opLockWays {pid : ℕ} (h : d.canonical) : (opLockWays pid d).canonical := by
  unfold Machine.opLockWays
  split
  · exact h
  · extract_lets _ d2
    have h2 : d2.canonical := .foldl (fun _ _ h2 => .ite (.put h2) h2) h
    split
    · exact .finish h2
    · exact .finish h

theorem Die.canonical.onGroom {f : GroomUnit → GroomUnit} (h : d.canonical) : (d.onGroom f).canonical :=
  h

theorem Die.canonical.groomTake {p : ℕ} (h : d.canonical) : (d.groomTake p).canonical := by
  unfold Die.groomTake
  refine .ite h ?_
  split
  · exact h
  · exact .ite (.onGroom h) (.onGroom (.onPkt h))

theorem Die.canonical.opGroomRound (h : d.canonical) : (opGroomRound d).canonical :=
  .ite (.foldl (fun _ _ h2 => .groomTake h2) h) h

theorem Die.canonical.groomBoundary (h : d.canonical) : d.groomBoundary.canonical :=
  .onGroom h

theorem Die.canonical.opGroomWatchdogExpire (h : d.canonical) : (opGroomWatchdogExpire d).canonical :=
  .ite (.raise (.count (.groomReset h))) h

theorem Die.canonical.opGroomRestartDone (h : d.canonical) : (opGroomRestartDone d).canonical :=
  .ite (.onGroom (.put h)) h

theorem Die.canonical.abandonStalled {c : CoreIx} (h : d.canonical) : (d.abandonStalled c).canonical :=
  .settle (.onTr (.onCore h (fun _ hk => hk)))

theorem Die.canonical.stopHard {c : CoreIx} {st : Status} (h : d.canonical) : (d.stopHard c st).canonical :=
  .ite (.abandonStalled (.stopSlice h)) h

theorem Die.canonical.overrunLast {c : CoreIx} {p cause : ℕ} (h : d.canonical) : (d.overrunLast c p cause).canonical :=
  .put (.put (.put (.put h)))

theorem Die.canonical.slipNow {p : ℕ} (h : d.canonical) : (d.slipNow p).canonical :=
  .ite h h

theorem Die.canonical.judge {c : CoreIx} (h : d.canonical) : (d.judge c).canonical := by
  unfold Die.judge
  split
  · exact h
  · extract_lets
    exact .ite h (.ite (.coreReset (.abandonStalled (.raise (.overrunLast h)))) (.ite (.count (.slipNow h)) (.ite (.stopSlice (.raise (.overrunLast h)))
        (.onCore (.raise (.overrunLast (.count (.slipNow h)))) (fun _ hk => hk)))))

theorem Die.canonical.judgeAll (h : d.canonical) : d.judgeAll.canonical :=
  .foldl (fun _ _ h2 => .judge h2) h

theorem Die.canonical.coreBoundary (h : d.canonical) : d.coreBoundary.canonical := by
  unfold Die.coreBoundary
  refine .foldl (fun e x h2 => ?_) h
  extract_lets _ e2
  have h3 : e2.canonical := .ite (.setCore h2 (.update (.core h2))) h2
  split
  · exact h3
  · exact .ite (.coreReset (.raise h3)) (.setCore h3 (.update (.core h2)))

theorem Die.canonical.startSlice {c : CoreIx} {l : Launch} {s : PlanSlice} (h : d.canonical) : (d.startSlice c l s).canonical :=
  .onCore (.onLaunch h) (fun _ hk => hk)

theorem Die.canonical.startSlices (h : d.canonical) : d.startSlices.canonical := by
  unfold Die.startSlices
  refine .foldl (fun e x h2 => ?_) h
  extract_lets
  refine .ite ?_ h2
  split
  · exact .startSlice h2
  · exact h2

theorem Die.canonical.endSpanning (h : d.canonical) : d.endSpanning.canonical :=
  .update rfl rfl (.foldl (fun _ _ h2 => .failSlot h2) (.foldl (fun _ _ h2 => .ite (.stopHard h2) h2) h))

theorem Die.canonical.onTick {f : TickUnit → TickUnit} (h : d.canonical) : (d.onTick f).canonical :=
  h

theorem Die.canonical.tickEvent {cls : Cls} {die cause extra : ℕ} (h : d.canonical) : (d.tickEvent cls die cause extra).canonical :=
  .raise h

theorem Die.canonical.postTick {dst : Place} {m : FabMsg} (h : d.canonical) : (d.postTick dst m).canonical := by
  unfold Die.postTick
  split
  · exact .ite (.post h) h
  · exact h

theorem Die.canonical.distribute {mk : Place → FabMsg} (h : d.canonical) : (d.distribute mk).canonical := by
  unfold Die.distribute
  extract_lets d2
  have h2 : d2.canonical := .foldl (fun _ _ h2 => .postTick h2) h
  refine .ite (.foldl (fun e x h3 => ?_) h2) h2
  split
  · exact .ite (.post h3) h3
  · exact h3

theorem Die.canonical.modeResult {id : W16} {cause unit die : ℕ} (h : d.canonical) : (d.modeResult id cause unit die).canonical :=
  .put (.put (.put (.put h)))

theorem Die.canonical.endAsked {id : W16} {st : Status} (h : d.canonical) : (d.endAsked id st).canonical :=
  .foldl (fun _ _ h2 => .finish h2) (.onTick h)

theorem Die.canonical.applyRec {r : ModeRec} (h : d.canonical) : (d.applyRec r).canonical := by
  unfold Die.applyRec
  refine .ite (.assignCore h) ?_
  split
  · exact .store h
  · exact h

theorem Die.canonical.applyChange {x : Change} (h : d.canonical) : (d.applyChange x).canonical := by
  unfold Die.applyChange
  extract_lets _ d2 d3 _ d5
  have h2 : d2.canonical := .foldl (fun _ _ h2 => .ite (.stopHard h2) h2) h
  have h3 : d3.canonical := .foldl (fun _ _ h3 => .applyRec h3) h2
  have h4 : d5.canonical := .endAsked (.put (.modeResult (.put h3)))
  exact .onTick h4

theorem Die.canonical.hold (h : d.canonical) : d.hold.canonical :=
  .onTick (.put (.foldl (fun _ _ h2 => .putRaw h2) h))

theorem Die.canonical.modeAction {m : TickMsg} (h : d.canonical) : (d.modeAction m).canonical := by
  unfold Die.modeAction
  split
  · exact h
  · exact .onTick (.putRaw (.putRaw (.put (.put h))))
  iterate 2
    · split
      · exact .ite (.onTick (.put h)) h
      · exact h

theorem Die.canonical.modeBoundary (h : d.canonical) : d.modeBoundary.canonical := by
  unfold Die.modeBoundary
  extract_lets
  split
  · exact .onTick h
  · exact .ite (.ite (.applyChange (.onTick h)) (.onTick (.put (.onTick h)))) (.ite (.hold (.onTick h)) (.onTick h))

theorem Die.canonical.cancelChange {cause : BitVec 4} {unit : BitVec 5} {die : DieIx} (h : d.canonical) : (d.cancelChange cause unit die).canonical :=
  .onTick h

theorem Die.canonical.removeMember {x : Place} (h : d.canonical) : (d.removeMember x).canonical :=
  .ite h (.cancelChange (.tickEvent (.ite (.onTick (.put (.put h))) (.loseOps (.onTick h)))))

theorem Die.canonical.addMember {x : Place} (h : d.canonical) : (d.addMember x).canonical :=
  .ite h (.ite (.put (.onTick h)) (.onTick (.onTick h)))

theorem Die.canonical.digestMismatch {x : Place} (h : d.canonical) : (d.digestMismatch x).canonical :=
  .ite (.removeMember (.tickEvent (.ite (.put h) (.putB h)))) (.tickEvent (.ite (.put h) (.putB h)))

theorem Die.canonical.compareDigest {own a : TickAck} (h : d.canonical) : (d.compareDigest own a).canonical :=
  .ite h (.ite (.digestMismatch h) (.ite (.tickEvent (.putB h)) h))

theorem Die.canonical.takeVote {a : TickAck} (h : d.canonical) : (d.takeVote a).canonical := by
  unfold Die.takeVote
  split
  · exact h
  · refine .ite ?_ h
    split
    · exact .cancelChange h
    · exact .ite (.onTick h) h

theorem Die.canonical.takeAck {a : TickAck} (h : d.canonical) : (d.takeAck a).canonical := by
  unfold Die.takeAck
  refine .ite h (.ite (.ite (.removeMember h) h) ?_)
  extract_lets _ _ d3
  have h2 : d3.canonical := .onTick (.addMember h)
  refine .ite (.foldl (fun _ _ h3 => .compareDigest h3) (.takeVote h2)) ?_
  split
  · exact .compareDigest (.takeVote h2)
  · exact .takeVote h2

theorem Die.canonical.forwardAck {t : ℕ} {complete : Bool} (h : d.canonical) : (d.forwardAck t complete).canonical := by
  unfold Die.forwardAck
  extract_lets
  split
  · exact .ite h (.onTick (.postTick h))
  · exact h

theorem Die.canonical.decideChange (h : d.canonical) : d.decideChange.canonical := by
  unfold Die.decideChange
  split
  · exact h
  · refine .ite h ?_
    extract_lets
    split
    · exact .cancelChange h
    · exact .onTick h

theorem Die.canonical.countMisses {t : ℕ} (h : d.canonical) : (d.countMisses t).canonical :=
  .foldl (fun _ _ h2 => .onTick h2) h

theorem Die.canonical.opTickMsgSend (h : d.canonical) : (opTickMsgSend d).canonical := by
  unfold Machine.opTickMsgSend
  refine .ite h ?_
  extract_lets _ d2 lead act _ _ _ d4
  have h2 : d2.canonical := .decideChange (.ite h (.countMisses h))
  have h3 : d4.canonical := .distribute (.onTick h2)
  clear_value act lead
  split
  · exact .endAsked (.modeResult h3)
  · exact h3

theorem Die.canonical.unsupported {p : PartIx} {cause : ℕ} (h : d.canonical) : (d.unsupported p cause).canonical :=
  .emit (.emit (.raise h))

theorem Die.canonical.poisonedWrite {p : PartIx} (h : d.canonical) : (d.poisonedWrite p).canonical :=
  .emit (.raise h)

theorem Die.canonical.hostRequest {p : PartIx} {tlp : Tlp} {write : Bool} {off : ℕ} {f : Die → Die} (h : d.canonical) (hf : (f d).canonical) :
    (d.hostRequest p tlp write off f).canonical :=
  .ite (.unsupported (.hostErr h)) (.ite (.unsupported h) (.ite (.poisonedWrite h) hf))

theorem Die.canonical.fromHost {who : Who} {bar0 write : Bool} {off : ℕ} {f : Die → Die} (h : d.canonical) (hf : (f d).canonical) :
    (fromHost who bar0 write off f d).canonical := by
  unfold Machine.fromHost
  split
  · exact .ite hf h
  · split
    · exact .hostRequest h hf
    · exact .hostRequest h (.ite hf h)
    · exact .emit h
    · exact h

theorem Die.canonical.fromDie {m : MsgHead} {f : Die → Die} (h : d.canonical) (hf : (f d).canonical) : (fromDie m f d).canonical := by
  unfold Machine.fromDie
  split
  · exact hf
  · exact .emit h
  · exact h

theorem Die.canonical.inBar {who : Who} {bar2 : Bool} {off : ℕ} {f : Die → Die} (h : d.canonical) (hf : (f d).canonical) :
    (inBar who bar2 off f d).canonical := by
  unfold Machine.inBar
  extract_lets
  split
  · exact .ite hf (.unsupported h)
  · exact hf

end

end Sys2Proof.Machine
end

section
/-! PROOF. The canonical forms under the host port, the boot and the tick (Host, Boot, HostPort, Tick). -/

namespace Sys2Proof.Machine

section
variable {d t : Die} {k q : Core}

theorem Die.canonical.writeRecord {cause : ℕ} (h : d.canonical) : (d.writeRecord cause).canonical :=
  .hbmWrite h

theorem Die.canonical.orphan {ev : HostEvent} (h : d.canonical) : (d.orphan ev).canonical :=
  .putB (.update rfl rfl (.foldl (fun _ _ h2 => .putRaw h2) (.bare (.ite (.writeRecord (.writeBackAll h)) h))))

theorem Die.canonical.hostEvent {ev : HostEvent} (h : d.canonical) : (d.hostEvent ev).canonical := by
  unfold Die.hostEvent
  split
  iterate 3
    · exact h
  iterate 3
    · exact .ite (.orphan h) (.dieReset h)

theorem Die.canonical.opHostLinkTrain {modules : BitVec 2} {rate : BitVec 3} (h : d.canonical) : (opHostLinkTrain modules rate d).canonical := by
  unfold Machine.opHostLinkTrain
  split
  · exact h
  · exact h
  · refine .ite (.ite (.hostEvent (.putB (.put (.put h)))) (.putB (.put (.put h)))) ?_
    extract_lets _ d2 d3 d4 d5
    have h4 : d2.canonical := .ite (.count h) h
    have h5 : d3.canonical := .onHost (.putB (.put (.put h4)))
    have h6 : d4.canonical := .ite (.emit (.raise h5)) h5
    have h7 : d5.canonical := .putB (.putB h6)
    exact .ite (.beginBoot h7) h6

theorem Die.canonical.opOrphanEntry {ev : HostEvent} (h : d.canonical) : (opOrphanEntry ev d).canonical :=
  .ite (.hostEvent h) h

theorem Die.canonical.opHostResetEvent {ev : HostEvent} (h : d.canonical) : (opHostResetEvent ev d).canonical :=
  .ite h (.hostEvent h)

theorem Die.canonical.opCxlReset (h : d.canonical) : (opCxlReset d).canonical :=
  .hostEvent h

theorem Die.canonical.mirrorTo {decs : List Hdm} {x : DieIx} (h : d.canonical) : (Die.mirrorTo decs d x).canonical := by
  unfold Die.mirrorTo
  extract_lets
  split
  next heq => exact .of_pair heq (.remote (.onPorts h))
  next heq => exact .mirrorEnd (.of_pair heq (.remote (.onPorts h)))

theorem Die.canonical.opHdmCommit {decs : List Hdm} (h : d.canonical) : (opHdmCommit decs d).canonical :=
  .ite h (.ite (.onHost (.onHost h)) (.foldl (fun _ _ h2 => .mirrorTo h2) (.onHost (.onHost h))))

theorem Die.canonical.cleanLine {line : ℕ} (h : d.canonical) : (d.cleanLine line).canonical := by
  unfold Die.cleanLine
  extract_lets _ d2
  have h2 : d2.canonical := by
    unfold d2
    split
    · split
      · exact .setCline (.writeBack h)
      · exact h
    · exact h
  split
  · exact .setHay (.writeBack h2)
  · exact h2

theorem Die.canonical.lineFree {line : ℕ} {host : Bool} (h : d.canonical) : (d.lineFree line host).2.canonical :=
  .iteSnd h (.iteSnd (.revokeLine h) h)

theorem Die.canonical.opHostSnoop {_kind : Snoop} {addr : ℕ} (h : d.canonical) : (opHostSnoop _kind addr d).canonical := by
  unfold Machine.opHostSnoop
  extract_lets
  split
  next heq => exact .of_pair heq (.lineFree h)
  next heq =>
    extract_lets _ d3
    have h2 : d3.canonical := .ite (.onCache (.cleanLine (.of_pair heq (.lineFree h)))) (.of_pair heq (.lineFree h))
    split
    next heq2 => exact .of_pair heq2 (.broadcast (.dropCopy h2))
    next heq2 => exact .emit (.of_pair heq2 (.broadcast (.dropCopy h2)))

theorem Die.canonical.askOwnership {a : ℕ} (h : d.canonical) : (d.askOwnership a).canonical :=
  .sendCxlFor h

theorem Die.canonical.linesFree {ok : Bool} {lines : List ℕ} (h : d.canonical) : (Die.linesFree (ok, d) lines).2.canonical :=
  .foldlSnd (fun _ _ h2 => .lineFree h2) h

theorem Die.canonical.flipStarted {f : Flip} {lines : List ℕ} (h : d.canonical) : (d.flipStarted f lines).canonical := by
  unfold Die.flipStarted
  extract_lets e
  have h2 : e.canonical := .ite (.foldl (fun _ _ h2 => .broadcast (.cleanLine h2)) h) (.foldl (fun _ _ h2 => .askOwnership h2) h)
  exact h2

/-- Over any list of lines: the fold over the 512 lines of a page is not to be evaluated. -/
theorem Die.canonical.flipOver {f : Flip} {lines : List ℕ} (h : d.canonical) : (d.flipOver f lines).canonical := by
  unfold Die.flipOver
  exact .ite (.linesFree h) (.flipStarted (.linesFree h))

theorem Die.canonical.startFlip {f : Flip} (h : d.canonical) : (d.startFlip f).canonical := by
  rw [d.startFlip_eq f rfl]
  exact .flipOver h

theorem Die.canonical.opBiasFlipComplete (h : d.canonical) : (opBiasFlipComplete d).canonical := by
  unfold Machine.opBiasFlipComplete
  split
  · exact h
  · exact .ite (.startFlip h) (.ite h h)

theorem Die.canonical.maskedSector {key s : ℕ} {mask : List Bool} {bs : List Byte} (h : d.canonical) : (d.maskedSector key s mask bs).canonical := by
  unfold Die.maskedSector
  refine .ite h (.ite (.writeSector h) ?_)
  split
  next heq => exact .of_pair heq (.readSector h)
  next heq => exact .writeSector (.of_pair heq (.readSector h))

theorem Die.canonical.opCxlMemRequest {hpa : ℕ} {write : Option LineData} {mask : BitVec 128} (h : d.canonical) :
    (opCxlMemRequest hpa write mask d).canonical := by
  unfold Machine.opCxlMemRequest
  split
  · exact .ite (.raise (.hostErr h)) (.emit (.raise (.hostErr h)))
  · split
    next heq2 =>
      refine .ite (.of_pair heq2 (.iteSnd ?_ h)) ?_
      · split
        next heq3 =>
          extract_lets d4
          have h2 : d4.canonical := .dropCopy (.cleanLine (.of_pair heq3 (.lineFree h)))
          split
          next heq4 => exact .of_pair heq4 (.broadcast (.onCache h2))
          next heq4 => exact .of_pair heq4 (.broadcast (.onCache h2))
        next heq3 => exact .of_pair heq3 (.lineFree h)
      · extract_lets
        split
        · split
          next heq3 =>
            refine .emit (.of_pair heq3 (.hbmRead (.of_pair heq2 (.iteSnd ?_ h))))
            split
            next heq4 =>
              extract_lets d5
              have h2 : d5.canonical := .dropCopy (.cleanLine (.of_pair heq4 (.lineFree h)))
              split
              next heq5 => exact .of_pair heq5 (.broadcast (.onCache h2))
              next heq5 => exact .of_pair heq5 (.broadcast (.onCache h2))
            next heq4 => exact .of_pair heq4 (.lineFree h)
        · refine .foldl (fun _ _ h2 => .maskedSector h2) (.ite (.of_pair heq2 (.iteSnd ?_ h)) (.charge (.of_pair heq2 (.iteSnd ?_ h))))
          iterate 2
            · split
              next heq3 =>
                extract_lets d4
                have h2 : d4.canonical := .dropCopy (.cleanLine (.of_pair heq3 (.lineFree h)))
                split
                next heq4 => exact .of_pair heq4 (.broadcast (.onCache h2))
                next heq4 => exact .of_pair heq4 (.broadcast (.onCache h2))
              next heq3 => exact .of_pair heq3 (.lineFree h)

theorem Die.canonical.opTierRead {head : MsgHead} {addr : ℕ} (h : d.canonical) : (opTierRead head addr d).canonical := by
  unfold Machine.opTierRead
  refine .admitted h (fun e h2 => ?_)
  split
  · exact .none
  · exact .some (.rejectOld h2)
  · exact .ite (.some (.respond h2)) (.some (.sendCxlFor h2))

theorem Die.canonical.dropCxl {tag : ℕ} (h : d.canonical) : (d.dropCxl tag).canonical :=
  .noteReady (.onHost h)

theorem Die.canonical.wakeUnit {slice : SliceIx} (h : d.canonical) : (d.wakeUnit slice).canonical :=
  .foldl (fun _ _ h2 => .ite h2 (.serveMshr h2)) h

theorem Die.canonical.sharedLineCame {m : Mshr} {r : HomeReq} {data : LineData} (h : d.canonical) : (d.sharedLineCame m r data).canonical := by
  unfold Die.sharedLineCame
  split
  next heq => exact .serve (.of_pair heq (.iteSnd h (.placeLine h)))
  next heq => exact .serve (.hbmWrite (.of_pair heq (.iteSnd h (.placeLine h))))

theorem Die.canonical.cxlServed {x : CxlOp} {m : Mshr} {data : LineData} (h : d.canonical) : (d.cxlServed x m data).canonical := by
  unfold Die.cxlServed
  extract_lets
  split
  · exact .ite (.hostLineCame h) (.sharedLineCame (.dropMshr h))
  · exact .ite (.hostLineCame h) (.sharedLineCame (.dropMshr h))
  · exact .serve (.reply (.dropMshr h))
  · split
    · exact .sendCxl (.onMshr h)
    · exact .serve (.dropMshr h)
  · split
    · exact .wakeUnit (.serve (.reply (.dropMshr h)))
    · exact .serve (.dropMshr h)
  · exact .serve (.onCache (.dropMshr h))
  · exact .dropMshr h

theorem Die.canonical.opCxlCacheResponse {tag : ℕ} {data : LineData} (h : d.canonical) : (opCxlCacheResponse tag data d).canonical := by
  unfold Machine.opCxlCacheResponse
  split
  · exact h
  · extract_lets
    split
    · exact .respond (.dropCxl h)
    · refine .ite ?_ (.dropCxl h)
      split
      · exact .cxlServed (.dropCxl h)
      · exact .dropCxl h

theorem Die.canonical.cxlAddr {x : CxlOp} (h : d.canonical) : (d.cxlAddr x).2.canonical := by
  unfold Die.cxlAddr
  split
  · exact h
  · exact .fresh h

theorem Die.canonical.lostFor {who : Asker} {line : ℕ} (h : d.canonical) : (d.lostFor who line).canonical := by
  unfold Die.lostFor
  split
  · exact .coreDrops h
  · exact .engineFails h
  · exact .failAsker h

theorem Die.canonical.opCxlCacheTimeout {tag : ℕ} (h : d.canonical) : (opCxlCacheTimeout tag d).canonical := by
  unfold Machine.opCxlCacheTimeout
  split
  · exact h
  · extract_lets
    split
    next heq2 =>
      extract_lets d4
      have h2 : d4.canonical := .raise (.hostErr (.of_pair heq2 (.cxlAddr (.dropCxl h))))
      split
      · exact .respond h2
      · refine .ite ?_ h2
        split
        · exact .wakeUnit (.failMshr h2)
        · exact h2

theorem Die.canonical.dropP2p {tag : ℕ} (h : d.canonical) : (d.dropP2p tag).canonical :=
  .noteReady (.onHost h)

theorem Die.canonical.opP2pReadCompletion {tag : ℕ} {data : List Byte} (h : d.canonical) : (opP2pReadCompletion tag data d).canonical := by
  unfold Machine.opP2pReadCompletion
  split
  · exact h
  · refine .ite h ?_
    extract_lets
    split
    · exact .dropP2p h
    · exact .dropP2p (.ite (.ackAsker h) (.answer h))
    · exact .ite (.dropP2p h) (.onHost h)

theorem Die.canonical.opCompletionTimeout {ats : Bool} {id : ℕ} (h : d.canonical) : (opCompletionTimeout ats id d).canonical := by
  unfold Machine.opCompletionTimeout
  refine .ite ?_ ?_
  · split
    · exact h
    · exact .emit (.raise (.hostErr (.onTr h)))
  · split
    · exact h
    · exact .lostFor (.emit (.raise (.hostErr (.dropP2p h))))

theorem Die.canonical.romRead {off : ℕ} (h : d.canonical) : (d.romRead off).2.canonical :=
  .iteSnd h h

theorem Die.canonical.configure {p : PartIx} {r : CfgReq} (h : d.canonical) : (d.configure p r).canonical := by
  unfold Die.configure
  extract_lets
  split
  iterate 3
    · exact .emit h
  · exact .ite (.emit h) (.emit h)
  · exact .emit h
  · exact .emit h
  · exact .ite (.emit (.romRead h)) (.unsupported h)
  iterate 5
    · exact .setFn h
  · exact .ite (.onHost h) h
  · exact .setFn h
  · exact .ite (.setFn h) h

theorem Die.canonical.opConfigurationRequest {fn : PartIx} {r : CfgReq} (h : d.canonical) : (opConfigurationRequest fn r d).canonical := by
  unfold Machine.opConfigurationRequest
  split
  · exact .emit h
  · exact .emit h
  · exact h
  · exact h
  · exact .ite h (.configure h)
  · exact .ite h (.configure h)

theorem Die.canonical.opBootStart (h : d.canonical) : (opBootStart d).canonical :=
  .ite (.beginBoot h) h

theorem Die.canonical.opResetNFall (h : d.canonical) : (opResetNFall d).canonical :=
  .ite h (.ite (.leaveDormant h) (.dieReset h))

/-- Without power nothing is listed. -/
theorem Die.canonical.opPowerRemoval : (opPowerRemoval d).canonical :=
  ⟨rfl, rfl, rfl, rfl, fun _ => .default⟩

theorem Die.canonical.trySlots {l : List (Bool × BootSlot)} {aFailed : Bool} (h : d.canonical) : (Die.trySlots l aFailed d).2.canonical := by
  induction l generalizing aFailed d with
  | nil => exact h
  | cons x rest ih =>
    unfold Die.trySlots
    exact .iteSnd (.ite (.secEvent h) h) (ih (.ite (.secEvent h) h))

theorem Die.canonical.opBootImageVerify {slots : List BootSlot} (h : d.canonical) : (opBootImageVerify slots d).canonical := by
  unfold Machine.opBootImageVerify
  refine .ite h ?_
  extract_lets
  split
  next heq =>
    extract_lets d4 d5
    have h2 : d4.canonical := .put (.of_pair heq (.trySlots (.put h)))
    have h3 : d5.canonical := .put (.secEvent h2)
    split
    · exact h3
    · exact .update rfl rfl (.putB (.put (.putB (.put (.put (.putB (.putB (.ite (.secEvent h2) h2))))))))

theorem Die.canonical.zeroDone (h : d.canonical) : d.zeroDone.canonical :=
  .update rfl rfl (.put (.putB (.zeroHbm h)))

theorem Die.canonical.opHbmZeroing (h : d.canonical) : (opHbmZeroing d).canonical :=
  .ite (.zeroDone h) h

theorem Die.canonical.bistFails {i : ℕ} (h : d.canonical) : (d.bistFails i).canonical :=
  .raise (.record (.put (.fresh h)))

theorem Die.canonical.opBootBist {fails : List ℕ} (h : d.canonical) : (opBootBist fails d).canonical :=
  .ite (.putB (.zeroDone (.foldl (fun _ _ h2 => .bistFails h2) h))) h

theorem Die.canonical.opBootReady {ms : ℕ} (h : d.canonical) : (opBootReady ms d).canonical :=
  .ite (.update rfl rfl (.put (.put (.put h)))) h

theorem Die.canonical.opIdFrameSend (h : d.canonical) : (opIdFrameSend d).canonical := by
  unfold Machine.opIdFrameSend
  refine .ite h (.ite (.emit h) ?_)
  split
  · exact .dite (fun _ => .emit h) (fun _ => h)
  · exact h

theorem Die.canonical.opIdFrameReceive {die : DieIx} {pkg : PkgIx} {parityOk : Bool} (h : d.canonical) : (opIdFrameReceive die pkg parityOk d).canonical :=
  .ite h (.ite h (.ite (.chainFails h) (.ite h h)))

theorem Die.canonical.opI3cPrivateWrite {off : W32} {_v : Option W32} (h : d.canonical) : (opI3cPrivateWrite off _v d).canonical :=
  .ite h h

theorem Die.canonical.opI3cPrivateRead (h : d.canonical) : (opI3cPrivateRead d).canonical :=
  .ite (.emit h) h

theorem Die.canonical.opDynamicAddressAssignment {addr : BitVec 7} (h : d.canonical) : (opDynamicAddressAssignment addr d).canonical :=
  .ite h h

theorem Die.canonical.jtag {ir : JtagIr} (h : d.canonical) : (d.jtag ir).canonical :=
  .ite h (.emit h)

theorem Die.canonical.opIdcode (h : d.canonical) : (opIdcode d).canonical :=
  .jtag h

theorem Die.canonical.opBypass (h : d.canonical) : (opBypass d).canonical :=
  .jtag h

theorem Die.canonical.opExtest (h : d.canonical) : (opExtest d).canonical :=
  .jtag h

theorem Die.canonical.opFuseProgram {digest : BitVec 384} (h : d.canonical) : (opFuseProgram digest d).canonical :=
  .ite (.jtag h) (.ite (.update rfl rfl (.jtag h)) (.jtag h))

theorem Die.canonical.popPosted (h : d.canonical) : d.popPosted.canonical :=
  .onHost h

theorem Die.canonical.barStart {id off n : ℕ} {write : Option (List Byte)} (h : d.canonical) : (d.barStart id off n write).canonical := by
  unfold Die.barStart
  extract_lets
  refine .ite ?_ (.foldl (fun _ _ h2 => .askHome h2) (.onHost h))
  split
  · exact .popPosted (.raise (.hostErr h))
  · exact .popPosted (.emit (.raise h))

theorem Die.canonical.barEnd {id : ℕ} {write : Bool} {xs : List Reply} (h : d.canonical) : (d.barEnd id write xs).canonical :=
  .ite (.popPosted (.dropReplies h)) (.emit (.popPosted (.dropReplies h)))

theorem Die.canonical.read {who : Who} {what : PostedRead} (h : d.canonical) : (what.read who d).canonical := by
  unfold Machine.PostedRead.read
  split
  · exact .opTickNowLoRead h
  · exact .opSyncValueLoRead h
  · exact .opHkmDataAccess h

theorem canonicalIn.drainStep (h : d.canonical) : canonicalIn d.drainStep := by
  unfold Die.drainStep
  split
  · exact .none
  · exact .ite .none (.some (.opRegisterWrite (.popPosted h)))
  · exact .ite .none (.some (.read (.popPosted h)))
  · exact .ite .none (.some (.opReservedAccess (.popPosted h)))
  · exact .ite .none (.some (.barStart h))
  · exact .map (fun _ => .barEnd h)

theorem Die.canonical.drainLoop {n : ℕ} (h : d.canonical) : (Die.drainLoop n d).canonical := by
  induction n generalizing d with
  | zero => exact h
  | succ n ih =>
    unfold Die.drainLoop
    split
    next heq => exact ih (.of_some heq (.drainStep h))
    · exact h

theorem Die.canonical.drainHost (h : d.canonical) : d.drainHost.canonical :=
  .drainLoop h

theorem Die.canonical.afterHome (h : d.canonical) : d.afterHome.canonical :=
  .drainHost (.answerWindows h)

theorem Die.canonical.homeEvent {f : Die → Die} (hf : (f d).canonical) : (homeEvent f d).canonical := .afterHome hf

theorem Die.canonical.enqueueHost {x : Posted} (h : d.canonical) : (d.enqueueHost x).canonical :=
  .drainHost (.onHost h)

theorem Die.canonical.posted {who : Who} {bar2 : Bool} {off : ℕ} {v : W32} {f : Die → Die} (h : d.canonical) (hf : (f d).canonical) :
    (posted who bar2 off v f d).canonical := .ite (.enqueueHost h) hf

theorem Die.canonical.postedRead {who : Who} {what : PostedRead} (h : d.canonical) : (postedRead who what d).canonical :=
  .ite (.enqueueHost h) (.read h)

theorem Die.canonical.postedReserved {who : Who} {bar2 : Bool} {off : ℕ} {write size : Bool} (h : d.canonical) :
    (postedReserved who bar2 off write size d).canonical :=
  .ite (.enqueueHost h) (.opReservedAccess h)

theorem Die.canonical.opBar4Access {off n : ℕ} {write : Option (List Byte)} (h : d.canonical) : (opBar4Access off n write d).canonical :=
  .ite (.raise h) (.ite (.unsupported h) (.enqueueHost (.onHost h)))

theorem Die.canonical.irqBoundary (h : d.canonical) : d.irqBoundary.canonical :=
  .foldl (fun _ _ h2 => .interrupt h2) (.sendPending (.onCp h))

theorem Die.canonical.unitBoundary (h : d.canonical) : d.unitBoundary.canonical := by
  unfold Die.unitBoundary
  extract_lets d2
  have h2 : d2.canonical := .routeBoundary (.groomBoundary (.qosBoundary (.testBoundary (.switchBoundary (.resetBoundary (.resetLaunches h))))))
  exact .irqBoundary (.afterHome (.optBoundary (.optBoundary h2)))

theorem Die.canonical.opBeatBoundary (h : d.canonical) : (opBeatBoundary d).canonical :=
  .ite h (.pump (.powerBoundary (.unitBoundary (.coreBoundary (.update rfl rfl (.onTick h))))))

theorem Die.canonical.applySlips {ps : List ℕ} (h : d.canonical) : (d.applySlips ps).canonical :=
  .foldl (fun _ _ h2 => .ite (.putRaw h2) h2) h

theorem Die.canonical.applyMembers {now : Byte} (h : d.canonical) : (d.applyMembers now).canonical :=
  .ite (.ite (.putB (.onTick h)) (.onTick h)) (.loseOps (.ite (.putB (.onTick h)) (.onTick h)))

theorem Die.canonical.checkLag {slips : BitVec 16} (h : d.canonical) : (d.checkLag slips).canonical :=
  .ite (.putB h) h

theorem Die.canonical.applyMsg (h : d.canonical) : d.applyMsg.canonical := by
  unfold Die.applyMsg
  extract_lets _ d2
  have h2 : d2.canonical := by
    refine .ite (.applySlips h) ?_
    split
    · exact .ite (.modeAction (.foldl (fun _ _ h2 => .remoteCancel h2) (.applySlips (.checkLag (.applyMembers h))))) h
    · exact h
  exact .onTick h2

theorem Die.canonical.holdBoundary (h : d.canonical) : d.holdBoundary.canonical :=
  .ite h (.ite (.putB (.putB (.onTick h))) (.onTick h))

theorem Die.canonical.opHoldoverEnter (h : d.canonical) : (opHoldoverEnter d).canonical :=
  .ite (.onTick (.putB (.putB h))) h

theorem Die.canonical.opTickLost (h : d.canonical) : (opTickLost d).canonical :=
  .ite (.tickEvent (.putB (.putB h))) h

theorem Die.canonical.sourceBoundary (h : d.canonical) : d.sourceBoundary.canonical :=
  .ite (.tickEvent (.putB h)) h

theorem Die.canonical.showDigest (h : d.canonical) : d.showDigest.canonical := by
  unfold Die.showDigest
  split
  · exact .onTick (.putRaw (.putRaw h))
  · exact h

theorem Die.canonical.settlePlans (h : d.canonical) : d.settlePlans.canonical :=
  h

theorem Die.canonical.oldTick (h : d.canonical) : d.oldTick.canonical :=
  .ite (.countMisses (.forwardAck (.endLaunches h))) (.endLaunches h)

theorem Die.canonical.countTick (h : d.canonical) : d.countTick.canonical :=
  h

theorem Die.canonical.spanBoundary (h : d.canonical) : d.spanBoundary.canonical :=
  .ite h (.endSpanning h)

theorem Die.canonical.takePolicies (h : d.canonical) : d.takePolicies.canonical :=
  h

theorem Die.canonical.opTickBoundary (h : d.canonical) : (opTickBoundary d).canonical := by
  unfold Machine.opTickBoundary
  refine .ite h ?_
  extract_lets d2 d3
  have h2 : d2.canonical := .applyMsg (.holdBoundary (.showDigest (.emit (.countTick (.oldTick h)))))
  have h3 : d3.canonical := .takePolicies (.settlePlans (.unitBoundary (.spanBoundary (.modeBoundary (.coreBoundary h2)))))
  exact .pump (.sourceBoundary (.startSlices (.chains (.batchBoundary (.faultIrq (.powerBoundary h3))))))

theorem Die.canonical.sendAck {a : TickAck} (h : d.canonical) : (d.sendAck a).canonical := by
  unfold Die.sendAck
  refine .ite (.takeAck h) (.ite h (.ite (.forwardAck (.takeAck h)) ?_))
  split
  · exact .postTick h
  · exact h

theorem Die.canonical.opGuardStart {watts scaled : ℕ} (h : d.canonical) : (opGuardStart watts scaled d).canonical := by
  unfold Machine.opGuardStart
  refine .ite h ?_
  extract_lets d2 _ d3
  have h2 : d2.canonical := .endLaunches (.judgeAll (.onTick h))
  have h3 : d3.canonical := .ite (.put h2) h2
  exact .powerGuard (.sendAck (.onTick h3))

theorem Die.canonical.dualLead {m : TickMsg} (h : d.canonical) : (d.dualLead m).canonical :=
  .ite (.putB (.putB (.tickEvent (.putB h)))) (.tickEvent (.putB h))

theorem Die.canonical.passOn {m : TickMsg} (h : d.canonical) : (d.passOn m).canonical :=
  .ite (.foldl (fun _ _ h2 => .postTick h2) h) h

theorem Die.canonical.adopt {m : TickMsg} (h : d.canonical) : (d.adopt m).canonical :=
  .ite (.put (.put (.onTick h))) (.put (.onTick h))

theorem Die.canonical.hearCancel {m : TickMsg} (h : d.canonical) : (d.hearCancel m).canonical :=
  .endAsked (.modeResult (.fresh h))

theorem Die.canonical.packageRemoved (h : d.canonical) : d.packageRemoved.canonical :=
  .onTick (.put (.put h))

theorem Die.canonical.hearTick {m : TickMsg} {offset chain : W16} (h : d.canonical) : (d.hearTick m offset chain).canonical := by
  unfold Die.hearTick
  extract_lets _ _ d3 d4 _ d6 d7 _ d8 d9
  have h2 : d3.canonical := .ite (.tickEvent (.put h)) (.put h)
  have h3 : d4.canonical := .ite h2 (.adopt h2)
  have h4 : d6.canonical := .ite (.onTick h3) (.putB (.onTick h3))
  have h5 : d7.canonical := .ite (.packageRemoved h4) h4
  have h6 : d8.canonical := .ite (.onTick h5) h5
  have h7 : d9.canonical := .ite (.hearCancel h6) h6
  exact .passOn h7

theorem Die.canonical.opTickMsgReceive {port : LinkPort} {m : TickMsg} {offset chain : W16} (h : d.canonical) :
    (opTickMsgReceive port m offset chain d).canonical :=
  .ite h (.ite (.freeUnits (.refuseTick h)) (.ite (.dualLead (.freeUnits h)) (.ite (.freeUnits h) (.hearTick (.freeUnits h)))))

theorem Die.canonical.opTickAckReceive {a : TickAck} (h : d.canonical) : (opTickAckReceive a d).canonical :=
  .ite (.takeAck h) (.ite (.forwardAck (.takeAck h)) h)

theorem Die.canonical.opMemberAckLoss {src : Place} (h : d.canonical) : (opMemberAckLoss src d).canonical :=
  .ite (.removeMember h) h

theorem Die.canonical.opTickInPulse (h : d.canonical) : (opTickInPulse d).canonical :=
  .ite h (.emit h)

theorem Die.canonical.opLinkDelayEcho {port : LinkPort} {time : W64} (h : d.canonical) : (opLinkDelayEcho port time d).canonical :=
  .ite (.onTick (.sayOn h)) h

theorem Die.canonical.opEchoRequest {port : LinkPort} {time : W64} (h : d.canonical) : (opEchoRequest port time d).canonical :=
  .ite (.sayOn h) h

theorem Die.canonical.latency {port : LinkPort} {delay : ℕ} (h : d.canonical) : (d.latency port delay).canonical :=
  .put (.fresh h)

theorem Die.canonical.opEchoReply {port : LinkPort} {time now : W64} (h : d.canonical) : (opEchoReply port time now d).canonical := by
  unfold Machine.opEchoReply
  refine .ite ?_ h
  extract_lets _ _ d3
  have h2 : d3.canonical := by
    unfold d3
    split
    · exact .put (.onTick h)
    · exact .onTick h
  exact .ite (.latency h2) h2

theorem Die.canonical.acceptChange {id : W16} {target : ℕ} {recs : List ModeRec} (h : d.canonical) : (d.acceptChange id target recs).canonical :=
  .onTick h

theorem Die.canonical.askChange {pid : ℕ} {id : W16} {target : ℕ} (h : d.canonical) : (d.askChange pid id target).canonical :=
  .onPkt (.onTick h)

theorem Die.canonical.opModeChange {pid : ℕ} (h : d.canonical) : (opModeChange pid d).canonical := by
  unfold Machine.opModeChange
  split
  · exact h
  · extract_lets
    split
    · refine .ite ?_ (.ite h ?_)
      · split
        · exact .deferPkt h
        · split
          · exact .deferPkt h
          · exact .askChange (.acceptChange h)
      · split
        · refine .ite (.finish h) ?_
          split
          next heq4 => exact .finish (.of_pair heq4 (.remote h))
          next heq4 => exact .onPkt (.onPorts (.of_pair heq4 (.remote h)))
        · exact .finish h
    · exact .finish h

end

end Sys2Proof.Machine
end

section
/-! PROOF. The canonical forms under the events of the cores, of the fabric and of the pins, and under the mailbox (CoreEvents, Fabric, Phase, Spdm). -/

namespace Sys2Proof.Machine

section
variable {d t : Die} {k q : Core}

theorem Core.canonical.addOp {o : CoreOpEntry} (h : k.canonical) : (k.addOp o).canonical :=
  h

theorem Die.canonical.signalHere {c : CoreIx} {obj : ObjIx} {inc : W64} (h : d.canonical) : (d.signalHere c k obj inc).canonical := by
  unfold Die.signalHere
  split
  · exact h
  next heq => exact .coreFault (.of_somePair heq (.localSignal h))
  next heq => exact .onCore (.of_somePair heq (.localSignal h)) (fun _ hk2 => .next (.addOp hk2))

theorem Die.canonical.signalAway {c : CoreIx} {die : DieIx} {obj : ObjIx} {inc : W64} (h : d.canonical) :
    (d.signalAway c k die obj inc).canonical := by
  unfold Die.signalAway
  split
  next heq => exact .coreFault (.of_pair heq (.remote h))
  next heq => exact .stopSlice (.of_pair heq (.remote h))
  next heq => exact .onCore (.of_pair heq (.remote h)) (fun _ hk2 => .update (.addOp hk2))

theorem Die.canonical.opSignalInstr {c : CoreIx} {r : Reg} {reg remote : Bool} {die : DieIx} {obj : ObjIx} {imm : W32} (h : d.canonical) :
    (opSignalInstr c r reg remote die obj imm d).canonical :=
  .issue h (fun _ _ h2 _ => .ite (.signalAway h2) (.signalHere h2))

theorem Die.canonical.opWaitInstr {c : CoreIx} {r : Reg} {equal : Bool} {obj : ObjIx} (h : d.canonical) : (opWaitInstr c r equal obj d).canonical :=
  .issue h (fun _ _ h2 hk => .ite (.coreFault (.syncErr h2)) (.ite (.stopSlice (.syncErr h2)) (.ite (.setCore h2 (.next hk)) (.setCore h2 hk))))

theorem Die.canonical.opBarrierInstr {c : CoreIx} {scope : Scope} (h : d.canonical) : (opBarrierInstr c scope d).canonical := by
  unfold Machine.opBarrierInstr
  refine .issue h (fun e k2 h2 hk => ?_)
  split
  · exact .setCore h2 (.ite (.next hk) hk)
  · exact .setCore h2 hk
  · exact .setCore h2 hk

theorem Die.canonical.passAll {cs : List CoreIx} (h : d.canonical) : (d.passAll cs).canonical :=
  .foldl (fun _ _ h2 => .onCore h2 (fun _ hk => .waitDone hk)) h

theorem Die.canonical.releaseSys {part : PartIx} {inst : ℕ} (h : d.canonical) : (d.releaseSys part inst).canonical :=
  .passAll h

theorem Die.canonical.countArrival {src : Place} {part : PartIx} {inst : ℕ} (h : d.canonical) : (d.countArrival src part inst).canonical :=
  .ite (.releaseSys (.distribute (.onCp h))) (.onCp h)

theorem Die.canonical.arriveSys {src : Place} {part : PartIx} {inst : ℕ} (h : d.canonical) : (d.arriveSys src part inst).canonical := by
  unfold Die.arriveSys
  refine .ite (.countArrival h) ?_
  split
  · exact .postTick h
  · exact h

theorem Die.canonical.opBarrierRelease {c : CoreIx} (h : d.canonical) : (opBarrierRelease c d).canonical := by
  unfold Machine.opBarrierRelease
  extract_lets
  split
  · exact .ite (.passAll h) h
  · exact .ite h (.ite (.arriveSys (.foldl (fun _ _ h3 => .onCore h3 (fun _ hk => hk)) h)) (.passAll h))
  · exact h

theorem Die.canonical.opSysbarArrival {src : Place} {part : PartIx} {inst : ℕ} (h : d.canonical) : (opSysbarArrival src part inst d).canonical :=
  .ite (.arriveSys h) h

theorem Die.canonical.opSysbarRelease {part : PartIx} {inst : ℕ} (h : d.canonical) : (opSysbarRelease part inst d).canonical :=
  .releaseSys (.ite (.foldl (fun _ _ h2 => .postTick h2) h) h)

theorem Die.canonical.opSliceEnd {c : CoreIx} (h : d.canonical) : (opSliceEnd c d).canonical :=
  .issue h (fun _ _ h2 hk => .setCore h2 hk)

theorem Die.canonical.opSliceEndRetire {c : CoreIx} (h : d.canonical) : (opSliceEndRetire c d).canonical := by
  unfold Machine.opSliceEndRetire
  extract_lets _ d2
  have h2 : d2.canonical := .setCore h (.leave (.core h))
  split
  · exact .ite (.ite (.endLaunches h2) h2) h
  · exact h

theorem Die.canonical.opUndefinedEncoding {c : CoreIx} (h : d.canonical) : (opUndefinedEncoding c d).canonical := by
  unfold Machine.opUndefinedEncoding
  extract_lets
  refine .ite h ?_
  split
  · exact .coreFault h
  · exact h
  · split
    · exact .coreFault h
    · refine .ite ?_ h
      split
      · exact .coreFault h
      · exact h

theorem Die.canonical.opProgramParityStop {c : CoreIx} (h : d.canonical) : (opProgramParityStop c d).canonical := by
  unfold Machine.opProgramParityStop
  extract_lets
  split
  · exact .ite (.coreFault h) h
  · exact h

theorem Die.canonical.opCribEccWriteback {c : CoreIx} {word : ℕ} (h : d.canonical) : (opCribEccWriteback c word d).canonical :=
  .onCore h (fun _ hk => hk)

theorem Die.canonical.admittedOr {m : MsgHead} {cls bytes : ℕ} {go : Die → Took} (h : d.canonical) (hgo : (go d).canonical) :
    (d.admittedOr m cls bytes go).2.canonical := by
  unfold Die.admittedOr
  split
  · split
    · exact h
    · exact .freeUnits (.rejectOld (.winRefused h))
    · split
      next heq => exact .freeUnits (.of_tookDone heq hgo)
      next heq => exact .of_hold heq hgo
  · exact .freeUnits (.notPassed h)

theorem Took.canonical.outOfWindow {h : MsgHead} {check : ℕ} (hd : d.canonical) : (d.outOfWindow h check).canonical :=
  .done (.respond (.winErr hd))

theorem Die.canonical.winPage {part dva : ℕ} {write : Bool} (h : d.canonical) : (d.winPage part dva write).2.canonical := by
  unfold Die.winPage
  split
  iterate 3
    next heq => exact .of_pair heq (.walk h)
  next heq => exact .iteSnd (.of_pair heq (.walk h)) (.iteSnd (.of_pair heq (.walk h)) (.of_pair heq (.walk h)))

theorem Die.canonical.winPages {part : ℕ} {write : Bool} {l : List (ℕ × ℕ)} {got : List WinPiece} (h : d.canonical) :
    (Die.winPages part write l got d).2.canonical := by
  induction l generalizing got d with
  | nil => exact h
  | cons x rest ih =>
    unfold Die.winPages
    split
    next heq => exact ih (.of_pair heq (.winPage h))
    next heq => exact .of_pair heq (.winPage h)

theorem Die.canonical.winSend {rs : List HomeReq} (h : d.canonical) : (d.winSend rs).canonical := by
  unfold Die.winSend
  split
  · exact .ite (.ite (.sendHome (.askHome (.fresh h))) (.sendHome (.askHome (.fresh h)))) (.askHome (.askHome h))
  · exact .foldl (fun _ _ h3 => .askHome h3) h

theorem Took.canonical.winAccess {h : MsgHead} {offset n right : ℕ} {write : Option (List Byte)} (hd : d.canonical) :
    (d.winAccess h offset n right write).canonical := by
  unfold Die.winAccess
  split
  · exact .outOfWindow hd
  · refine .ite (.outOfWindow hd) (.ite (.outOfWindow hd) ?_)
    split
    next heq2 => exact .done (.respondAs (.raise (.of_pair heq2 (.winPages hd))))
    next heq2 => exact .hold (.of_pair heq2 (.winPages hd))
    next heq2 => exact .outOfWindow (.of_pair heq2 (.winPages hd))
    next heq2 =>
      extract_lets _ _ _ d3
      have h2 : d3.canonical := .onPorts (.charge (.of_pair heq2 (.winPages hd)))
      exact .ite (.hold (.of_pair heq2 (.winPages hd))) (.done (.afterHome (.winSend h2)))

theorem Took.canonical.winSignal {m : WinWrite} (h : d.canonical) : (d.winSignal m).canonical := by
  unfold Die.winSignal
  refine .ite ?_ ?_
  · split
    next heq => exact .done (.of_some heq (.windowSignal h))
    · exact .hold h
  · split <;> exact .outOfWindow h

theorem Die.canonical.opWindowWrite {m : WinWrite} (h : d.canonical) : (opWindowWrite m d).canonical := by
  unfold Machine.opWindowWrite
  extract_lets
  split
  next heq => exact .onPorts (.of_pair heq (.admittedOr h (.ite (.hold h) (.ite (.winSignal h) (.winAccess h)))))
  next heq => exact .onPorts (.of_pair heq (.admittedOr h (.ite (.hold h) (.ite (.winSignal h) (.winAccess h)))))

theorem Die.canonical.opWindowRead {m : WinRead} (h : d.canonical) : (opWindowRead m d).canonical := by
  unfold Machine.opWindowRead
  refine .admittedOr h (.ite (.hold h) (.ite ?_ (.winAccess h)))
  split <;> exact .outOfWindow h

theorem Die.canonical.takeResponse {m : Response} {data : List Byte} (h : d.canonical) : (d.takeResponse m data).canonical := by
  unfold Die.takeResponse
  refine .admitted h (fun e h2 => ?_)
  split
  · exact .none
  · exact .some (.rejectOld h2)
  · exact .some (.response h2)

theorem Die.canonical.opReadResponse {m : Response} (h : d.canonical) : (opReadResponse m d).canonical :=
  .takeResponse h

theorem Die.canonical.opSignalAckReceive {head : MsgHead} {st : Status} (h : d.canonical) : (opSignalAckReceive head st d).canonical :=
  .takeResponse h

theorem Die.canonical.opWindowOpTimeout {tag : W32} (h : d.canonical) : (opWindowOpTimeout tag d).canonical := by
  unfold Machine.opWindowOpTimeout
  split
  · exact h
  · exact .ite (.remoteEnd h) h

theorem Die.canonical.opErrorReport {m : ErrorReport} (h : d.canonical) : (opErrorReport m d).canonical := by
  unfold Machine.opErrorReport
  refine .admitted h (fun e h2 => ?_)
  split
  · exact .none
  · exact .some (.rejectOld h2)
  · extract_lets d2
    have h3 : d2.canonical := .putB (.put (.put h2))
    refine .some ?_
    split
    · exact .optEvent (.count h3)
    · exact .raise (.count h3)

theorem Die.canonical.mgmtReply {h : MsgHead} {seq : W32} {answer : W64} {st : Status} (hd : d.canonical) : (d.mgmtReply h seq answer st).canonical :=
  .post hd

theorem Die.canonical.takeMirror {decs : List Hdm} (h : d.canonical) : (d.takeMirror decs).canonical :=
  .ite h h

theorem Die.canonical.takeForward {h : MsgHead} {seq : W32} {id : W16} {recs : List ModeRec} {target : ℕ} (hd : d.canonical) :
    (d.takeForward h seq id recs target).canonical := by
  unfold Die.takeForward
  refine .ite (.mgmtReply hd) ?_
  split
  · exact .mgmtReply hd
  · exact .mgmtReply (.acceptChange hd)

theorem Die.canonical.takeReply {h : MsgHead} {answer : W64} {st : Status} (hd : d.canonical) : (d.takeReply h answer st).canonical := by
  unfold Die.takeReply
  split
  · exact hd
  · extract_lets
    split
    · split
      · exact .onPorts hd
      · split
        · exact .askChange (.onPorts hd)
        · exact .ite (.deferPkt (.onPorts hd)) (.finish (.onPorts hd))
        · exact .finish (.onPorts hd)
    · exact .remoteEnd hd

theorem Die.canonical.opManagementMsgReceive {m : MgmtMsg} (h : d.canonical) : (opManagementMsgReceive m d).canonical := by
  unfold Machine.opManagementMsgReceive
  refine .admitted h (fun e h2 => ?_)
  extract_lets
  split
  · exact .none
  · exact .some (.rejectOld h2)
  · refine .some ?_
    split
    · exact .takeForward h2
    · exact .mgmtReply (.takeMirror h2)
    · exact .ite (.mgmtReply h2) (.mgmtReply (.freshBytes h2))
    · exact .takeReply h2

theorem Die.canonical.opHdmMirrorReceive {head : MsgHead} {decs : List Hdm} (h : d.canonical) : (opHdmMirrorReceive head decs d).canonical :=
  .opManagementMsgReceive h

theorem Die.canonical.fromPort {port : LinkPort} {m : FabMsg} {f : Die → Die} (h : d.canonical) (hf : (f d).canonical) :
    (fromPort port m f d).canonical := by
  unfold Machine.fromPort
  split
  · exact .ite (.fromDie h hf) (.ite hf h)
  · exact .ite hf h

theorem Die.canonical.sendOn {dst : Place} {m : FabMsg} (h : d.canonical) : (d.sendOn dst m).canonical := by
  unfold Die.sendOn
  split
  · exact .ite (.post h) h
  · exact h

theorem Die.canonical.opPeerMsgForward {port : LinkPort} {m : FabMsg} (h : d.canonical) : (opPeerMsgForward port m d).canonical := by
  unfold Machine.opPeerMsgForward
  split
  · exact h
  · refine .ite h ?_
    extract_lets m2
    split
    · split
      · exact .freeUnits (.sendOn h)
      · exact .freeUnits (.notPassed h)
    · refine .freeUnits (.ite (.sendOn h) ?_)
      clear_value m2
      split
      · exact .refuseTick h
      · exact .refuseTick h
      · exact .gateDrop h

theorem Die.canonical.toUnit {port : LinkPort} {m : FabMsg} {offset chain : W16} (h : d.canonical) : (d.toUnit port m offset chain).canonical := by
  unfold Die.toUnit
  split
  · exact .opTickMsgReceive h
  · exact .freeUnits (.ite (.opTickAckReceive h) (.refuseTick h))
  · exact .ite (.freeUnits (.refuseTick h)) (.ite (.ite (.opSysbarRelease (.freeUnits h)) (.freeUnits h)) (.opSysbarArrival (.freeUnits h)))
  · exact .opWindowWrite h
  · exact .opWindowRead h
  · exact .opReadResponse h
  · exact .opSignalMsgReceive h
  · exact .opPartialReceive h
  · exact .opErrorReport h
  · exact .opManagementMsgReceive h
  · exact .opTierRead h
  · exact .freeUnits (.gateDrop h)

theorem Die.canonical.opOpticalMsgReceive {n : OptIx} {m : FabMsg} {offset chain : W16} (h : d.canonical) :
    (opOpticalMsgReceive n m offset chain d).canonical := by
  unfold Machine.opOpticalMsgReceive
  extract_lets
  refine .ite h (.ite (.freeUnits (.gateDrop h)) ?_)
  split
  · exact .freeUnits (.gateDrop h)
  · exact .ite (.toUnit h) (.ite (.freeUnits (.optErr h)) (.ite (.freeUnits (.sendOn h)) (.freeUnits (.gateDrop h))))

theorem Die.canonical.onDoe {f : Die → Die} (h : d.canonical) (hf : (f d).canonical) : (d.onDoe f).canonical := .ite hf h

theorem Die.canonical.answerDoe {a : DoeAnswer} (h : d.canonical) : (d.answerDoe a).canonical :=
  .emit h

theorem Die.canonical.onSpdm {f : Spdm → Spdm} (h : d.canonical) : (d.onSpdm f).canonical :=
  .onHost h

theorem Die.canonical.negotiated {f : Die → Die} (h : d.canonical) (hf : (f d).canonical) : (d.negotiated f).canonical :=
  .onDoe h (.ite hf (.answerDoe h))

theorem Die.canonical.opGetVersion (h : d.canonical) : (opGetVersion d).canonical :=
  .onDoe h (.answerDoe (.onSpdm h))

theorem Die.canonical.opGetCapabilities (h : d.canonical) : (opGetCapabilities d).canonical :=
  .onDoe h (.ite (.answerDoe (.onSpdm h)) (.answerDoe h))

theorem Die.canonical.opNegotiateAlgorithms (h : d.canonical) : (opNegotiateAlgorithms d).canonical :=
  .onDoe h (.ite (.answerDoe (.onSpdm h)) (.answerDoe h))

theorem Die.canonical.opGetDigests (h : d.canonical) : (opGetDigests d).canonical :=
  .negotiated h (.answerDoe h)

theorem Die.canonical.opGetCertificate {slot off n : ℕ} (h : d.canonical) : (opGetCertificate slot off n d).canonical :=
  .negotiated h (.ite (.answerDoe h) (.answerDoe h))

theorem Die.canonical.sign {msg : List Byte} (h : d.canonical) : (d.sign msg).2.canonical :=
  .fresh h

theorem Die.canonical.opChallenge {slot : ℕ} {nonce : List Byte} (h : d.canonical) : (opChallenge slot nonce d).canonical := by
  unfold Machine.opChallenge
  refine .negotiated h (.ite (.answerDoe h) ?_)
  split
  next heq => exact .answerDoe (.of_pair heq (.sign h))

theorem Die.canonical.opGetMeasurements {index : ℕ} {signed : Bool} {nonce : List Byte} (h : d.canonical) :
    (opGetMeasurements index signed nonce d).canonical := by
  unfold Machine.opGetMeasurements
  refine .negotiated h (.ite (.answerDoe h) (.ite ?_ (.answerDoe h)))
  split
  next heq => exact .answerDoe (.of_pair heq (.sign h))

theorem Die.canonical.opSpdmUnsupportedRequest {_code : Byte} (h : d.canonical) : (opSpdmUnsupportedRequest _code d).canonical :=
  .onDoe h (.answerDoe h)

theorem Die.canonical.opDoeDiscovery {index : ℕ} (h : d.canonical) : (opDoeDiscovery index d).canonical := by
  unfold Machine.opDoeDiscovery
  refine .onDoe h ?_
  split <;> exact .answerDoe h

theorem Die.canonical.opCxlTableAccess {index : ℕ} (h : d.canonical) : (opCxlTableAccess index d).canonical := by
  unfold Machine.opCxlTableAccess
  refine .onDoe h ?_
  extract_lets
  split
  · exact .answerDoe h
  · split <;> exact .answerDoe h

end

end Sys2Proof.Machine
end

section
/-! PROOF. Every command and every step keeps the canonical forms. -/

namespace Sys2Proof.Machine

section
variable {d t : Die} {k q : Core}

theorem Die.canonical.idle (h : d.canonical) : (idle d).canonical :=
  h

end

/-- The command keeps the canonical forms, whatever state it runs in. -/
def KeepsCanonical (e : State → Host.Outcome State Fault Refusal) : Prop := ∀ s t, s.die.canonical → e s = .next t → t.die.canonical

/-- A command that changes the die by `f`. -/
theorem KeepsCanonical.onDie {f : Die → Die} (hf : ∀ d, d.canonical → (f d).canonical) : KeepsCanonical (onDie f) := by
  intro s t h ht
  cases ht
  exact hf _ h

theorem KeepsCanonical.onLive {f : Die → Die} (hf : ∀ d, d.canonical → (f d).canonical) : KeepsCanonical (onLive f) :=
  .onDie fun d h => .ite (hf d h) h

theorem KeepsCanonical.onAwake {f : Die → Die} (hf : ∀ d, d.canonical → (f d).canonical) : KeepsCanonical (onAwake f) :=
  .onDie fun d h => .ite (hf d h) h

theorem KeepsCanonical.onPortsLive {f : Die → Die} (hf : ∀ d, d.canonical → (f d).canonical) : KeepsCanonical (onPortsLive f) :=
  .onDie fun d h => .ite (hf d h) h

theorem KeepsCanonical.onWf {ok : Bool} {e : State → Host.Outcome State Fault Refusal} (he : KeepsCanonical e) : KeepsCanonical (onWf ok e) := by
  intro s t h ht
  unfold Machine.onWf at ht
  split at ht
  · exact he s t h ht
  · cases ht

/-- Every command keeps the canonical forms: its guard lets through an operation that does. -/
theorem KeepsCanonical.exec (i : Instr) : KeepsCanonical (exec i) := by
  cases i with
  | tickRun => exact .onDie fun _ h => .fromHost h (.posted h (.opTickRun h))
  | beatBoundary => exact .onLive fun _ h => .opBeatBoundary h
  | tickBoundary => exact .onLive fun _ h => .opTickBoundary h
  | guardStart => exact .onLive fun _ h => .opGuardStart h
  | tickMsgSend => exact .onLive fun _ h => .opTickMsgSend h
  | tickMsgReceive => exact .onWf (.onLive fun _ h => .opTickMsgReceive h)
  | tickAckReceive => exact .onWf (.onLive fun _ h => .opTickAckReceive h)
  | memberAckLoss => exact .onLive fun _ h => .opMemberAckLoss h
  | tickInPulse => exact .onPortsLive fun _ h => .opTickInPulse h
  | holdoverEnter => exact .onLive fun _ h => .opHoldoverEnter h
  | tickLost => exact .onLive fun _ h => .opTickLost h
  | linkDelayEcho => exact .onPortsLive fun _ h => .opLinkDelayEcho h
  | echoRequest => exact .onPortsLive fun _ h => .opEchoRequest h
  | echoReply => exact .onPortsLive fun _ h => .opEchoReply h
  | modeChange => exact .onLive fun _ h => .opModeChange h
  | add | sub | and | or | xor | shl | shr | sra | mul | mulhu | slt | sltu | min | max => exact .onLive fun _ h => .aluReg h
  | addImm | subImm | andImm | orImm | xorImm | shlImm | shrImm | sraImm | mulImm | mulhuImm | sltImm | sltuImm | minImm | maxImm =>
    exact .onLive fun _ h => .aluImm h
  | li => exact .onLive fun _ h => .opLi h
  | lih => exact .onLive fun _ h => .opLih h
  | ld => exact .onLive fun _ h => .opLd h
  | lw => exact .onLive fun _ h => .opLw h
  | sd => exact .onLive fun _ h => .opSd h
  | sw => exact .onLive fun _ h => .opSw h
  | ldc => exact .onLive fun _ h => .opLdc h
  | sdc => exact .onLive fun _ h => .opSdc h
  | csrr => exact .onLive fun _ h => .opCsrr h
  | csrw => exact .onLive fun _ h => .opCsrw h
  | amoadd | amoswap | amocas => exact .onLive fun _ h => .opAmo h
  | nop => exact .onLive fun _ h => .opNop h
  | beq | bne | blt | bge | bltu | bgeu => exact .onLive fun _ h => .opBranch h
  | jal => exact .onLive fun _ h => .opJal h
  | jr => exact .onLive fun _ h => .opJr h
  | vadd | vsub | vmul | vmin | vmax => exact .onLive fun _ h => .vec2 h
  | vabs => exact .onLive fun _ h => .opVabs h
  | vfma => exact .onLive fun _ h => .opVfma h
  | vcmp => exact .onLive fun _ h => .opVcmp h
  | vsel => exact .onLive fun _ h => .opVsel h
  | vcvt => exact .onLive fun _ h => .opVcvt h
  | vbcast => exact .onLive fun _ h => .opVbcast h
  | vred => exact .onLive fun _ h => .opVred h
  | vmovs => exact .onLive fun _ h => .opVmovs h
  | vexp | vlog | vrcp | vrsqrt | vsin | vcos | vtanh | vsigm => exact .onLive fun _ h => .vtrans h
  | vld => exact .onLive fun _ h => .opVld h
  | vst => exact .onLive fun _ h => .opVst h
  | vldg => exact .onLive fun _ h => .opVldg h
  | vstg => exact .onLive fun _ h => .opVstg h
  | loadw => exact .onLive fun _ h => .opLoadw h
  | pass | passt => exact .onLive fun _ h => .pass h
  | drain => exact .onLive fun _ h => .opDrain h
  | mask => exact .onLive fun _ h => .opMask h
  | fetch => exact .onLive fun _ h => .opFetch h
  | stow => exact .onLive fun _ h => .opStow h
  | signalInstr => exact .onLive fun _ h => .opSignalInstr h
  | waitInstr => exact .onLive fun _ h => .opWaitInstr h
  | barrierInstr => exact .onLive fun _ h => .opBarrierInstr h
  | sliceEnd => exact .onLive fun _ h => .opSliceEnd h
  | sliceEndRetire => exact .onLive fun _ h => .opSliceEndRetire h
  | undefinedEncoding => exact .onLive fun _ h => .opUndefinedEncoding h
  | programParityStop => exact .onLive fun _ h => .opProgramParityStop h
  | cribEccWriteback => exact .onLive fun _ h => .opCribEccWriteback h
  | fetchComplete => exact .onLive fun _ h => .opFetchComplete h
  | writeAcknowledge => exact .onLive fun _ h => .opWriteAcknowledge h
  | loadReturn => exact .onLive fun _ h => .opLoadReturn h
  | barrierRelease => exact .onLive fun _ h => .opBarrierRelease h
  | sysbarArrival => exact .onLive fun _ h => .opSysbarArrival h
  | sysbarRelease => exact .onLive fun _ h => .opSysbarRelease h
  | decodeRound => exact .onLive fun _ h => .opDecodeRound h
  | doorbell => exact .onDie fun _ h => .fromHost h (.posted h (.opDoorbell h))
  | resume => exact .onDie fun _ h => .fromHost h (.posted h (.opResume h))
  | ringEnable => exact .onDie fun _ h => .fromHost h (.posted h (.opRingEnable h))
  | ringDisable => exact .onDie fun _ h => .fromHost h (.posted h (.opRingDisable h))
  | ringDisableComplete => exact .onLive fun _ h => .opRingDisableComplete h
  | completionRecordWrite => exact .onLive fun _ h => .opRecordWrite h
  | nopPacket => exact .onLive fun _ h => .opNopPacket h
  | launchSlices => exact .onLive fun _ h => .opLaunchSlices h
  | launchStep => exact .onLive fun _ h => .opLaunchStep h
  | planTableRead => exact .onLive fun _ h => .opPlanTableRead h
  | coalesceDecode => exact .onLive fun _ h => .opCoalesceDecode h
  | coalesceBatchComplete => exact .onLive fun _ h => .opBatchComplete h
  | copy => exact .onLive fun _ h => .opCopy h
  | copyInline => exact .onLive fun _ h => .opCopyInline h
  | fill => exact .onLive fun _ h => .opFill h
  | copyStrided => exact .onLive fun _ h => .opCopyStrided h
  | copyChunk => exact .onLive fun _ h => .opCopyChunk h
  | prefetchRange => exact .onLive fun _ h => .opPrefetchRange h
  | advise => exact .onLive fun _ h => .opAdvise h
  | reduceSegment => exact .onLive fun _ h => .opReduceSegment h
  | reducePartialReceive => exact .onDie fun _ h => .fromDie h (.opPartialReceive h)
  | reducePartialSend => exact .onLive fun _ h => .opPartialSend h
  | reduceSlotComplete => exact .onLive fun _ h => .opSlotComplete h
  | earlyArrivalTimeout => exact .onLive fun _ h => .opEarlyTimeout h
  | slotTimeout => exact .onLive fun _ h => .opSlotTimeout h
  | normPartial => exact .onLive fun _ h => .opNormPartial h
  | optimizerStep => exact .onLive fun _ h => .opOptimizerStep h
  | signalPacket => exact .onLive fun _ h => .opSignalPacket h
  | waitPacket => exact .onLive fun _ h => .opWaitPacket h
  | barrierPacket => exact .onLive fun _ h => .opBarrierPacket h
  | flagWrite => exact .onLive fun _ h => .opFlagWrite h
  | timestamp => exact .onLive fun _ h => .opTimestamp h
  | mapRange => exact .onLive fun _ h => .opMapRange h
  | unmapRange => exact .onLive fun _ h => .opUnmapRange h
  | invalidateRange => exact .onLive fun _ h => .opInvalidateRange h
  | loadProgram => exact .onLive fun _ h => .opLoadProgram h
  | switchProgram => exact .onLive fun _ h => .opSwitchProgram h
  | setQos => exact .onLive fun _ h => .opSetQos h
  | selftest => exact .onLive fun _ h => .opSelftest h
  | query => exact .onLive fun _ h => .opQuery h
  | openWindow => exact .onLive fun _ h => .opOpenWindow h
  | closeWindow => exact .onLive fun _ h => .opCloseWindow h
  | preserveArm => exact .onLive fun _ h => .opPreserveArm h
  | lockWays => exact .onLive fun _ h => .opLockWays h
  | groomRound => exact .onLive fun _ h => .opGroomRound h
  | groomKick => exact .onDie fun _ h => .fromHost h (.posted h (.opGroomKick h))
  | groomWatchdogExpire => exact .onLive fun _ h => .opGroomWatchdogExpire h
  | groomRestartDone => exact .onLive fun _ h => .opGroomRestartDone h
  | syncBankUpdate => exact .onLive fun _ h => .homeEvent (.opSyncBankUpdate h)
  | waitTimeout => exact .onLive fun _ h => .opWaitTimeout h
  | signalMsgReceive => exact .onDie fun _ h => .fromDie h (.opSignalMsgReceive h)
  | signalAckReceive => exact .onLive fun _ h => .opSignalAckReceive h
  | syncAdd => exact .onDie fun _ h => .fromHost h (.posted h (.opSyncAdd h))
  | syncOwnerWrite => exact .onDie fun _ h => .fromHost h (.posted h (.opSyncOwnerWrite h))
  | clear => exact .onDie fun _ h => .fromHost h (.posted h (.opClear h))
  | syncValueLoRead | tickNowLoRead => exact .onDie fun _ h => .fromHost h (.postedRead h)
  | homeRequestAccept => exact .onLive fun _ h => .homeEvent (.opHomeRequestAccept h)
  | l1Invalidation => exact .onLive fun _ h => .homeEvent (.l1Invalidation h)
  | l1Fill => exact .onLive fun _ h => .opL1Fill h
  | memoryFillReturn => exact .onLive fun _ h => .homeEvent (.opMemoryFillReturn h)
  | revoke => exact .onLive fun _ h => .opRevoke h
  | exclusiveRelease => exact .onLive fun _ h => .opExclusiveRelease h
  | releaseReceive => exact .onLive fun _ h => .homeEvent (.opReleaseReceive h)
  | farAtomicReturn => exact .onLive fun _ h => .homeEvent (.opFarAtomicReturn h)
  | hayloftWriteback => exact .onLive fun _ h => .opHayloftWriteback h
  | nextLinePrefetch => exact .onLive fun _ h => .opNextLinePrefetch h
  | hostSnoop => exact .onLive fun _ h => .opHostSnoop h
  | keySweep => exact .onLive fun _ h => .opKeySweep h
  | keySweepComplete => exact .onLive fun _ h => .homeEvent (.opKeySweepComplete h)
  | patrolScrub => exact .onLive fun _ h => .opPatrolScrub h
  | hbmOffline => exact .onDie fun _ h => .fromHost h (.posted h (.opHbmOffline h))
  | hkmDataAccess who v =>
    refine .onDie fun _ h => .fromHost h ?_
    cases v with
    | some x => exact .posted h (.opHkmDataAccess h)
    | none => exact .postedRead h
  | biasFlip => exact .onDie fun _ h => .fromHost h (.posted h (.opBiasFlip h))
  | biasFlipComplete => exact .onLive fun _ h => .opBiasFlipComplete h
  | rotate => exact .onDie fun _ h => .fromHost h (.posted h (.opRotate h))
  | atsCompletion => exact .onLive fun _ h => .opAtsCompletion h
  | pageRequestSend => exact .onLive fun _ h => .opPageRequestSend h
  | prgResponse => exact .onLive fun _ h => .opPrgResponse h
  | pageRequestTimeout => exact .onLive fun _ h => .opPageRequestTimeout h
  | priEnable => exact .onLive fun _ h => .opPriEnable h
  | atsInvalidation => exact .onLive fun _ h => .opAtsInvalidation h
  | atsInvalidationComplete => exact .onLive fun _ h => .opAtsInvalidationComplete h
  | tierRead => exact .onDie fun _ h => .fromDie h (.opTierRead h)
  | orphanEntry => exact .onDie fun _ h => .opOrphanEntry h
  | reattach => exact .onDie fun _ h => .fromHost h (.posted h (.opReattach h))
  | discard => exact .onDie fun _ h => .fromHost h (.posted h (.opDiscard h))
  | hostLinkTrain => exact .onDie fun _ h => .opHostLinkTrain h
  | hdmCommit => exact .onWf (.onLive fun _ h => .opHdmCommit h)
  | hdmMirrorReceive => exact .onWf (.onDie fun _ h => .fromDie h (.opHdmMirrorReceive h))
  | cxlMemRequest => exact .onLive fun _ h => .opCxlMemRequest h
  | bar4Access => exact .onDie fun _ h => .fromHost h (.opBar4Access h)
  | cxlCacheResponse => exact .onLive fun _ h => .homeEvent (.opCxlCacheResponse h)
  | cxlCacheTimeout => exact .onLive fun _ h => .homeEvent (.opCxlCacheTimeout h)
  | p2pReadCompletion => exact .onLive fun _ h => .opP2pReadCompletion h
  | flrVf => exact .onLive fun _ h => .opFlrVf h
  | flrPf => exact .onLive fun _ h => .opFlrPf h
  | cxlReset => exact .onDie fun _ h => .opCxlReset h
  | hostResetEvent => exact .onDie fun _ h => .opHostResetEvent h
  | getVersion => exact .onDie fun _ h => .opGetVersion h
  | getCapabilities => exact .onDie fun _ h => .opGetCapabilities h
  | negotiateAlgorithms => exact .onDie fun _ h => .opNegotiateAlgorithms h
  | getDigests => exact .onDie fun _ h => .opGetDigests h
  | getCertificate => exact .onDie fun _ h => .opGetCertificate h
  | challenge => exact .onWf (.onDie fun _ h => .opChallenge h)
  | getMeasurements => exact .onWf (.onDie fun _ h => .opGetMeasurements h)
  | spdmUnsupportedRequest => exact .onDie fun _ h => .opSpdmUnsupportedRequest h
  | doeDiscovery => exact .onDie fun _ h => .opDoeDiscovery h
  | cxlTableAccess => exact .onDie fun _ h => .opCxlTableAccess h
  | peerLinkTrain => exact .onPortsLive fun _ h => .opPeerLinkTrain h
  | linkHelloReceive => exact .onWf (.onPortsLive fun _ h => .opLinkHelloReceive h)
  | linkListReceive => exact .onWf (.onPortsLive fun _ h => .opLinkListReceive h)
  | peerModuleLoss => exact .onPortsLive fun _ h => .opPeerModuleLoss h
  | peerLinkDown => exact .onPortsLive fun _ h => .opPeerLinkDown h
  | opticalMsgReceive => exact .onWf (.onDie fun _ h => .fromPort h (.opOpticalMsgReceive h))
  | peerMsgForward => exact .onWf (.onDie fun _ h => .fromPort h (.opPeerMsgForward h))
  | windowWrite => exact .onDie fun _ h => .fromDie h (.opWindowWrite h)
  | windowRead => exact .onDie fun _ h => .fromDie h (.opWindowRead h)
  | readResponse => exact .onLive fun _ h => .opReadResponse h
  | windowOpTimeout => exact .onLive fun _ h => .opWindowOpTimeout h
  | errorReport => exact .onLive fun _ h => .opErrorReport h
  | managementMsgReceive => exact .onWf (.onDie fun _ h => .fromDie h (.opManagementMsgReceive h))
  | creditReceive => exact .onWf (.onLive fun _ h => .opCreditReceive h)
  | creditReturnTimer => exact .onLive fun _ h => .opCreditReturnTimer h
  | nivikFlitReceive => exact .onLive fun _ h => .opNivikFlitReceive h
  | flitReplay => exact .onLive fun _ h => .opFlitReplay h
  | opticalLaneLoss => exact .onLive fun _ h => .opOpticalLaneLoss h
  | keyUpdate => exact .onLive fun _ h => .opKeyUpdate h
  | spdmRecordReceive => exact .onLive fun _ h => .opSpdmRecordReceive h
  | sessionTimeout => exact .onLive fun _ h => .opSessionTimeout h
  | creditStall => exact .onLive fun _ h => .opCreditStall h
  | optEnable => exact .onDie fun _ h => .fromHost h (.posted h (.opOptEnable h))
  | admission => exact .onDie fun _ h => .fromHost h (.posted h (.opAdmit h))
  | tickSrc => exact .onDie fun _ h => .fromHost h (.posted h (.opTickSrc h))
  | fabricSupplyLoss => exact .onDie fun _ h => .opFabricSupplyLoss h
  | presenceChange => exact .onPortsLive fun _ h => .opPresenceChange h
  | button => exact .onLive fun _ h => .opButton h
  | laserPowerFault => exact .onLive fun _ h => .opLaserPowerFault h
  | laserEn => exact .onDie fun _ h => .fromHost h (.posted h (.opLaserEn h))
  | partitionEnable => exact .onDie fun _ h => .fromHost h (.posted h (.opPartitionEnable h))
  | partitionResetRequest => exact .onDie fun _ h => .fromHost h (.posted h (.opPartitionResetRequest h))
  | partitionClear => exact .onLive fun _ h => .opPartitionClear h
  | faultEvent => exact .onAwake fun _ h => .opFaultEvent h
  | nmiAck => exact .onAwake fun _ h => .opNmiAck h
  | faultForce => exact .onDie fun _ h => .fromHost h (.posted h (.opFaultForce h))
  | faultHistClear => exact .onDie fun _ h => .fromHost h (.posted h (.opFaultHistClear h))
  | inject => exact .onDie fun _ h => .fromHost h (.posted h (.opInject h))
  | dormantEntry => exact .onAwake fun _ h => .opDormantEntry h
  | errNSenseFall => exact .onAwake fun _ h => .opErrNSenseFall h
  | fastLimit => exact .onAwake fun _ h => .opFastLimit h
  | thermalSample => exact .onWf (.onAwake fun _ h => .opThermalSample h)
  | thermalResume => exact .onDie fun _ h => .fromHost h (.posted h (.opThermalResume h))
  | thermtrip => exact .onAwake fun _ h => .opThermtrip h
  | supplyFault => exact .onAwake fun _ h => .opSupplyFault h
  | pllLockLoss => exact .onAwake fun _ h => .opPllLockLoss h
  | refclkLoss => exact .onAwake fun _ h => .opRefclkLoss h
  | bootStart => exact .onDie fun _ h => .opBootStart h
  | resetNFall => exact .onDie fun _ h => .opResetNFall h
  | powerRemoval => exact .onDie fun _ _ => .opPowerRemoval
  | bootImageVerify => exact .onWf (.onDie fun _ h => .opBootImageVerify h)
  | hbmZeroing => exact .onDie fun _ h => .opHbmZeroing h
  | bootBist => exact .onWf (.onDie fun _ h => .opBootBist h)
  | bootReady => exact .onDie fun _ h => .opBootReady h
  | idFrameSend => exact .onDie fun _ h => .opIdFrameSend h
  | idFrameReceive => exact .onDie fun _ h => .opIdFrameReceive h
  | reservedAccess => exact .onDie fun _ h => .fromHost h (.inBar h (.postedReserved h))
  | registerWrite => exact .onDie fun _ h => .fromHost h (.inBar h (.posted h (.opRegisterWrite h)))
  | i3cPrivateWrite => exact .onDie fun _ h => .opI3cPrivateWrite h
  | i3cPrivateRead => exact .onDie fun _ h => .opI3cPrivateRead h
  | extest => exact .onDie fun _ h => .opExtest h
  | fuseProgram => exact .onDie fun _ h => .opFuseProgram h
  | idcode => exact .onDie fun _ h => .opIdcode h
  | bypass => exact .onDie fun _ h => .opBypass h
  | arrayStreamComplete => exact .onLive fun _ h => .opArrayStreamComplete h
  | opticalLinkTrain => exact .onLive fun _ h => .opOpticalLinkTrain h
  | completionTimeout => exact .onLive fun _ h => .opCompletionTimeout h
  | configurationRequest => exact .onDie fun _ h => .opConfigurationRequest h
  | linkLevelRetry => exact .onPortsLive fun _ h => .opLinkLevelRetry h
  | fabricRailsApplied => exact .onDie fun _ h => .opFabricRailsApplied h
  | dynamicAddressAssignment => exact .onDie fun _ h => .opDynamicAddressAssignment h

/-- Settles O58: a step runs the command at the front of the queue, or lets one cycle pass. -/
theorem stepsKeepCanonicalForms : Obligations.StepsKeepCanonicalForms := by
  intro s t h ht
  unfold step at ht
  split at ht
  · cases ht
    exact .idle h
  next c rest _ => exact KeepsCanonical.exec c { s with pending := rest } t h ht

end Sys2Proof.Machine
end
